-- ==== Sys2Proof/Word.lean ====
section
/-! DEFINITION. The words of the manual: bytes and the widths of its registers and fields. -/

namespace Sys2Proof

/-- One byte. -/
abbrev Byte := BitVec 8

/-- A 16-bit field. -/
abbrev W16 := BitVec 16

/-- A 32-bit field. -/
abbrev W32 := BitVec 32

/-- A 64-bit field. -/
abbrev W64 := BitVec 64

end Sys2Proof
end

