-- ==== Sys2Proof/Syntax.lean ====
section
/-! DEFINITION. The commands of the module, one constructor for each row of the opcode table, and the
types of their operands. -/

namespace Sys2Proof

/-- Orderable parts (R2). -/
inductive Part where
  | qsw960H | qsw960N | qsw720H
  deriving DecidableEq, Repr

/-- The two Booking Office channels (R321). -/
inductive Chan where
  | pcie | mctp
  deriving DecidableEq, Repr

/-- How a read of host memory ends: its bytes, or an error completion or timeout (R373, R375). -/
inductive HostRead where
  | data (bytes : List Byte)
  | error
  deriving DecidableEq, Repr

/-- How a protected read of one line or word comes out at the decoder (R241). -/
inductive Ecc where
  | clean
  | corrected
  | bad
  deriving DecidableEq, Repr

/-- Yard words (physical offset / 8 in the partition) that the reads of a wagon find corrected or
uncorrectable (R241). -/
structure YardEcc where
  corrected : List Nat
  bad : List Nat
  deriving DecidableEq, Repr

/-- Lines of module memory (address / 64) that the reads of a command find corrected or uncorrectable (R241). -/
structure LineEcc where
  corrected : List Nat
  bad : List Nat
  deriving DecidableEq, Repr

/-- What the reads of a wagon find in module memory and in the Yard (R241). -/
structure MemErrs where
  lines : LineEcc
  yard : YardEcc
  deriving DecidableEq, Repr

/-- An error that the rail collective engine makes in an addition (R85): the segment, its element, and what the sum is
off by. -/
structure SumSlip where
  seg : Nat
  elem : Nat
  off : Int
  deriving DecidableEq, Repr

/-- An error that the logic of a matrix engine makes at one product or addend of a wagon, or at a bias (R83): `cell` is
the ledger (64 i + j) and `place` counts its addends in the wagon. What the delivered integer q, the low part that was
cut off, and the ledger's new sum are off by. -/
structure Slip where
  cell : Nat
  place : Nat
  q : Int
  low : Int
  sum : Int
  deriving DecidableEq, Repr

/-- Errors of a READOUT (R84, R85, R90): slips at its biases, what the converter's integer image of a ledger's output is
off by, and a parity error of a register file. -/
structure TileFaults where
  slips : List Slip
  image : List (Nat × Int)
  parity : Bool
  deriving DecidableEq, Repr

/-- What a replay of a tile sequence meets (R88, R122): for each wagon of the log, its reads and its slips. -/
abbrev ReplayFaults := List (YardEcc × List Slip)

/-- What the re-execution of a READOUT meets (R88, R92): its replay, the read of its biases, and its own errors. -/
structure Reexecution where
  log : ReplayFaults
  ecc : YardEcc
  faults : TileFaults
  deriving DecidableEq, Repr

/-- An error that a vector engine makes at one result (R86): its row and element, what the integer significand of the
arithmetic result is off by, and what the integer image of its conversion is off by. -/
structure LaneSlip where
  row : Nat
  col : Nat
  lane : Int
  image : Int
  deriving DecidableEq, Repr

/-- Errors of one execution of a VECTOR wagon: lane slips and a parity error of a register file (R86, R93). -/
structure LaneFaults where
  slips : List LaneSlip
  parity : Bool
  deriving DecidableEq, Repr

/-- The units that marshalling feeds (R172, R174). -/
inductive UnitRef where
  | matrix (part : Fin 8) (eng : Fin 20)
  | vector (part : Fin 8)
  | mover (part : Fin 8) (dm : Fin 4)
  | coll (half : Fin 2)
  | token (ring : Fin 4096)
  deriving DecidableEq, Repr

/-- States of a unit entry (R53, R390). -/
inductive UnitState where
  | inService | spare | held | fenced | absent | pending
  deriving DecidableEq, Repr

/-- Context states (R151). -/
inductive CtxState where
  | free | active | halted | teardown | quarantine | restoring
  deriving DecidableEq, Repr

/-- Ring states (R161). -/
inductive RingState where
  | unbound | running | halted
  deriving DecidableEq, Repr

/-- Halt causes (R161). -/
inductive HaltCause where
  | none | hostStop | context | overrun | fetchFail | waitTimeout | stepFailed | milepost | reset
  | signalBox | recordFail
  deriving DecidableEq, Repr

/-- States of a rail port (R284). -/
inductive PortState where
  | down | training | init | up | quiet
  deriving DecidableEq, Repr

/-- Kinds of slot of the departure sequencer (R138, R140). -/
inductive SlotKind where
  | departure | release
  deriving DecidableEq, Repr

/-- Boundary-scan instructions (R567). -/
inductive Jtag where
  | bypass | sample | preload | extest
  deriving DecidableEq, Repr

/-- How the NOR write of FW_UPDATE_COMMIT ends (R561, R562): its read-back compared, or cut off by a
compute-domain reset, or by the loss of a partition that holds part of the staging area; or that it goes on. -/
inductive CommitEnd where
  | matched
  | mismatch
  | abandoned
  | goesOn
  deriving DecidableEq, Repr

/-- Registers of the configuration space that software writes (R373 to R378). -/
inductive ConfigReg where
  | busMaster (on : Bool)
  | dState (d3hot : Bool)
  | relaxedOrdering (on : Bool)
  | timeoutRange (value : BitVec 4)
  | bar (index : Fin 6) (value : W32)
  | msixEnable (on : Bool)
  | other (offset : Fin 4096) (value : Byte)
  deriving DecidableEq, Repr

/-- The register spaces of the endpoint (R378). -/
inductive Bar where
  | bar0 | bar2
  deriving DecidableEq, Repr

/-- What makes a conventional reset of the endpoint (R376). -/
inductive PcieReset where
  | perst | hot | linkLoss
  deriving DecidableEq, Repr

/-- What link training settles on (R373, R374): the speed, 0 to 4 for 2.5 to 32 GT/s, and the width, 0 to 3 for x1 to x8. -/
structure LinkResult where
  speed : Fin 5
  width : Fin 4
  deriving DecidableEq, Repr

/-- How a wagon fetch ends (R169): from module memory with its decoder's outcome, or from host memory. -/
inductive FetchEnd where
  | memory (ecc : Ecc)
  | host (reply : HostRead)
  deriving DecidableEq, Repr

/-- Units of one partition that failed its self-test (R591). -/
structure SelfTest where
  engines : List (Fin 20)
  vector : Bool
  movers : List (Fin 4)
  yard : Bool
  deriving DecidableEq, Repr

/-- Measurements of one inner-loop tick (R436, R449): bus and stack voltage in mV, converter current at
the bus in mA, input draw in mW, converter power in mW, and whether the engine overran (R454). -/
structure TickMeas where
  busMv : Int
  stackMv : Int
  convMa : Int
  inputMw : Nat
  convMw : Int
  late : Bool
  deriving DecidableEq, Repr

/-- The ceilings of R457, in the order of its table. -/
inductive Ceiling where
  | powerState | coreCurrent | inputFloor | inputMax | sustained | thermal
  deriving DecidableEq, Repr

/-- Measurements a ceiling looks at (R457), beside the input and compute draw that the state holds: core-rail means in mA
over 20 and 2 microseconds, the hottest compute-die sensor in millidegrees, and the hottest companion-die sensor with its
die (0 RC0 to 3 MC1) and its number. -/
structure CeilMeas where
  core20Ma : Nat
  core2Ma : Nat
  hottestMc : Int
  companionMc : Int
  companionDie : Fin 4
  companionSensor : Fin 4
  deriving DecidableEq, Repr

/-- Rails whose mean current limit acts outside the ceilings (R463). -/
inductive Supply where
  | fab | ctl | mem | link
  deriving DecidableEq, Repr

/-- What the two writes of the estimator record read back as (R431): none where as written. -/
structure ReadBacks where
  first : Option (List Byte)
  second : Option (List Byte)
  deriving DecidableEq, Repr

/-- What the checks of R404 found: the identity record as read, at most three times (R403), cell voltages in mV and
temperature in millidegrees, stack voltage in mV, and the codes of the shunt converter over the 2 s of the zero
measurement (R409, R411); and what the write of the record reads back as. -/
structure CartMeas where
  reads : List (List Byte)
  cellsMv : List Nat
  tempMc : Int
  stackMv : Nat
  zero : List (BitVec 24)
  readBacks : ReadBacks
  deriving DecidableEq, Repr

/-- Hardware trips and faults of the cartridge (R399, R468). -/
inductive HwTrip where
  | hot
  | cellOut
  | converterFault
  | overcurrent
  deriving DecidableEq, Repr

/-- One sample of the shunt converter (R409, R410, R412): its length in microseconds, the 24-bit
code of the mean current (1 nV, which is 20 µA, positive while charging), and the cell voltages in mV; and what a write of
the record that follows reads back as. -/
structure EstMeas where
  dtUs : Nat
  code : BitVec 24
  cellsMv : List Nat
  readBacks : ReadBacks
  deriving DecidableEq, Repr

/-- How a flush of the Train Register ends (R523, R525, R535, R538). -/
inductive FlushEnd where
  | whole
  | cutInJournal
  | cutInPlace
  | badLocation (offset : Nat)
  | summaryFails
  deriving DecidableEq, Repr

/-- Keys recorded periodically (R526), with the value measured where the state does not hold it. -/
inductive SampleKey where
  | computeStep
  | junction (part : Fin 8) (degrees : Int)
  | inputDraw
  | computeDraw
  | inputLessRamp
  | chargeFraction
  | saturation
  | counters
  deriving DecidableEq, Repr

/-- How the loss of input shows (R599). -/
inductive LossKind where
  | earlyBreak | undervoltage | overvoltage
  deriving DecidableEq, Repr

/-- What the debug port reads at Observe (R567), by SOURCE value where it is a unit's: a milepost counter, the state of a
unit, the wagons in its queue, the pair of a source; the state, a credit counter or a counter of a rail port. -/
inductive Observed where
  | milepost (source : W32)
  | unit (source : W32)
  | queued (source : W32)
  | pair (source : W32)
  | portState (port : Fin 20)
  | credits (port : Fin 20) (vl : Fin 4)
  | portCounter (port : Fin 20) (idx : Fin 14)
  deriving DecidableEq, Repr

/-- Operations of the debug port (R567). -/
inductive DebugOp where
  | observe (what : Observed)
  | trigger (high : Bool)
  | haltCore (core : Fin 16)
  | runCore (core : Fin 16)
  | stepCore (core : Fin 16)
  | readMemory (addr len : Nat) (lines : LineEcc)
  | writeMemory (addr : Nat) (data : List Byte) (lines : LineEcc)
  | readYard (part : Fin 8) (offset len : Nat)
  | writeYard (part : Fin 8) (offset : Nat) (data : List Byte)
  | readNor (offset len : Nat)
  | writeNor (offset : Nat) (data : List Byte)
  | readSram (offset len : Nat) (ecc : Ecc)
  | writeSram (offset : Nat) (data : List Byte)
  | readMram (bank : Fin 2) (offset len : Nat)
  | writeMram (bank : Fin 2) (offset : Nat) (data : List Byte)
  deriving DecidableEq, Repr

/-- How a signature ends (R552, R553): made, refused since the leaf record could not be written, or abandoned at the entry
to Hold-up. -/
inductive QuoteEnd where
  | signed
  | recordFails
  | abandoned
  deriving DecidableEq, Repr

/-- How a PROVISION ends (R565, R566): whole, or cut by a loss of power before OWNER_HASH or before LIFECYCLE[0]. -/
inductive ProvisionEnd where
  | whole
  | beforeHash
  | beforeLife
  deriving DecidableEq, Repr

/-- The commands, in the order of the opcode table; each docstring gives the row and its rules. -/
inductive Instr where
  /-- SESSION_QUERY. R347, R351: replies IN_SEQ, OUT_SEQ, OUT_ACK, SESSION, OPEN; on MCTP without a sequence. -/
  | sessionQuery (ch : Chan)
  /-- SESSION_RESUME. R348: takes OUT_ACK from ACK, rewrites or resends unacknowledged tickets with REPLAYED, replies FIRST, COUNT, SESSION, OPEN. -/
  | sessionResume (ch : Chan)
  /-- SESSION_ACK. R322, R343: takes OUT_ACK from ACK; no reply. -/
  | sessionAck (ch : Chan)
  /-- IDENTITY_GET. R351: replies part, serial, stepping, interface, firmware version, identity key, lifecycle. -/
  | identityGet (ch : Chan)
  /-- CAP_READ. R351, R352: descriptor bytes of one state with the even change count. -/
  | capRead (ch : Chan)
  /-- CONTEXT_CREATE. R210-R212, R353, R354, R612: admits a context whole or replies the shortfalls. -/
  | contextCreate (ch : Chan)
  /-- CONTEXT_DESTROY. R203, R607: begins teardown. -/
  | contextDestroy (ch : Chan)
  /-- CONTEXT_HALT. R206, R207: halts, replies the new generation. -/
  | contextHalt (ch : Chan)
  /-- CONTEXT_RESUME. R208, R497, R498: HEADs, ACTIVE. -/
  | contextResume (ch : Chan)
  /-- CONTEXT_READ. R149, R353: the 128-byte entry. -/
  | contextRead (ch : Chan)
  /-- CONTEXT_SET. R154, R200, R356: masked fields. -/
  | contextSet (ch : Chan)
  /-- CLASS_WEIGHTS. R177: weights. -/
  | classWeights (ch : Chan)
  /-- MEM_RESERVE. R210-R212, R354, R612. -/
  | memReserve (ch : Chan)
  /-- MEM_RELEASE. R204, R248, R257, R355. -/
  | memRelease (ch : Chan)
  /-- TOKEN_ALLOC. R182, R211, R357. -/
  | tokenAlloc (ch : Chan)
  /-- TOKEN_LIST. R357. -/
  | tokenList (ch : Chan)
  /-- RING_BIND. R159, R161, R497. -/
  | ringBind (ch : Chan)
  /-- RING_STOP. R161. -/
  | ringStop (ch : Chan)
  /-- RING_UNBIND. R161, R497. -/
  | ringUnbind (ch : Chan)
  /-- APERTURE_BIND. R252, R356. -/
  | apertureBind (ch : Chan)
  /-- DROP_COUNTERS. R202, R295, R353. -/
  | dropCounters (ch : Chan)
  /-- TIMETABLE_SET. R441-R445, R358: takes effect at the next tick, which replies RAMP. -/
  | timetableSet (ch : Chan)
  /-- POWER_STATUS. R358, R417, R408. -/
  | powerStatus (ch : Chan)
  /-- ENERGY_READ. R358, R472. -/
  | energyRead (ch : Chan)
  /-- POWER_STATE_SET. R438, R562, R425, R430. -/
  | powerStateSet (ch : Chan) (tests : List SelfTest) (readBacks : ReadBacks)
  /-- HAYLOFT_ANCHOR_WALK. R359, R423, R424. -/
  | hayloftAnchorWalk (ch : Chan)
  /-- TRG_SUMMARY. R360, R538. -/
  | trgSummary (ch : Chan)
  /-- TRG_READ. R530, R537, R538. -/
  | trgRead (ch : Chan) (ecc : Ecc)
  /-- TRG_ANNOTATE. R528, R537. -/
  | trgAnnotate (ch : Chan)
  /-- TRG_CLEAR. R532, R533, R560, R572. -/
  | trgClear (ch : Chan) (cut : Bool)
  /-- FAULT_LIST. R361, R483. -/
  | faultList (ch : Chan)
  /-- FAULT_ACK. R487, R489. -/
  | faultAck (ch : Chan)
  /-- RESET_REQUEST. R361, R362: starts a rung; replied when its recovery completes, for level 5 before it. -/
  | resetRequest (ch : Chan) (readBacks : ReadBacks)
  /-- STALL_READ. R361, R495. -/
  | stallRead (ch : Chan)
  /-- AUTH_CHALLENGE. R363, R559. -/
  | authChallenge (ch : Chan)
  /-- MEASUREMENT_GET. R363, R554. -/
  | measurementGet (ch : Chan)
  /-- ATTEST_QUOTE. R550, R552, R556, R557, R570, R572; writeOk: the reservation record's write read back. -/
  | attestQuote (ch : Chan) (how : QuoteEnd)
  /-- PUBKEY_GET. R363, R547, R550. -/
  | pubkeyGet (ch : Chan)
  /-- PROVISION. R363, R565, R566. -/
  | provision (ch : Chan) (how : ProvisionEnd)
  /-- LIFECYCLE_SET. R565, R571. -/
  | lifecycleSet (ch : Chan)
  /-- OWNER_KEY_DESTROY. R565. -/
  | ownerKeyDestroy (ch : Chan)
  /-- DEBUG_UNLOCK. R568, R569, R571. -/
  | debugUnlock (ch : Chan)
  /-- DEBUG_LOCK. R568. -/
  | debugLock (ch : Chan)
  /-- RAIL_INJECT. R317, R364, R365. -/
  | railInject (ch : Chan)
  /-- SBX_INJECT. R364, R479, R480. -/
  | sbxInject (ch : Chan)
  /-- FW_UPDATE_BEGIN. R224, R366, R367, R561. -/
  | fwUpdateBegin (ch : Chan)
  /-- FW_UPDATE_DATA. R329, R366, R367, R561; host: what the read of the host buffer brings. -/
  | fwUpdateData (ch : Chan) (host : HostRead)
  /-- FW_UPDATE_VERIFY. R544, R561. -/
  | fwUpdateVerify (ch : Chan)
  /-- FW_UPDATE_COMMIT. R561, R562; how the write of the NOR ends. -/
  | fwUpdateCommit (ch : Chan) (how : CommitEnd)
  /-- FW_UPDATE_ABORT. R562. -/
  | fwUpdateAbort (ch : Chan)
  /-- FW_UPDATE_STATUS. R366, R561. -/
  | fwUpdateStatus (ch : Chan)
  /-- FW_ACTIVATE. R561, R430. -/
  | fwActivate (ch : Chan) (readBacks : ReadBacks)
  /-- RAIL_NODE_SET. R296, R368. -/
  | railNodeSet (ch : Chan)
  /-- ROUTE_SET. R296, R369. -/
  | routeSet (ch : Chan)
  /-- EPOCH_SET. R298, R512. -/
  | epochSet (ch : Chan)
  /-- PEER_SET. R157, R369. -/
  | peerSet (ch : Chan)
  /-- COUPLE_SET. R256, R257, R260, R261. -/
  | coupleSet (ch : Chan)
  /-- COUPLE_STORE. R258, R369. -/
  | coupleStore (ch : Chan) (lines : LineEcc)
  /-- COUPLE_RESTORE. R265; lines: what the reads of the store find. -/
  | coupleRestore (ch : Chan) (lines : LineEcc)
  /-- COLL_GROUP_SET. R305, R369. -/
  | collGroupSet (ch : Chan)
  /-- RAIL_STATUS. R319, R368. -/
  | railStatus (ch : Chan)
  /-- SIDING_ENTER. R510. -/
  | sidingEnter (ch : Chan)
  /-- RESERVED_OPCODE_REQUEST. R371. -/
  | reservedOpcodeRequest (ch : Chan)
  /-- SET_ENDPOINT_ID. R341. -/
  | setEndpointId (src : Byte) (slave : Byte) (op : Byte) (eid : Byte)
  /-- GET_ENDPOINT_ID. R341. -/
  | getEndpointId (src : Byte)
  /-- GET_MCTP_VERSION_SUPPORT. R341. -/
  | getMctpVersionSupport (src : Byte) (msgType : Byte)
  /-- GET_MESSAGE_TYPE_SUPPORT. R341. -/
  | getMessageTypeSupport (src : Byte)
  /-- GET_VENDOR_DEFINED_MSG_SUPPORT. R341. -/
  | getVendorDefinedMsgSupport (src : Byte) (selector : Byte)
  /-- GETTID. R563. -/
  | getTid (src : Byte)
  /-- GETPLDMVERSION. R563. -/
  | getPldmVersion (src : Byte) (type : Byte)
  /-- GETPLDMTYPES. R563. -/
  | getPldmTypes (src : Byte)
  /-- GETPLDMCOMMANDS. R563. -/
  | getPldmCommands (src : Byte) (type : Byte)
  /-- QUERYDEVICEIDENTIFIERS. R563. -/
  | queryDeviceIdentifiers (src : Byte)
  /-- GETFIRMWAREPARAMETERS. R563. -/
  | getFirmwareParameters (src : Byte)
  /-- REQUESTUPDATE. R563. -/
  | requestUpdate (src : Byte)
  /-- PASSCOMPONENTTABLE. R563. -/
  | passComponentTable (src : Byte) (component : W16)
  /-- UPDATECOMPONENT. R563. -/
  | updateComponent (src : Byte) (component : W16) (size : W32)
  /-- REQUESTFIRMWAREDATA. R563, R564: up to 512 image bytes arrive and go to the NOR, the header excepted. -/
  | requestFirmwareData (src : Byte) (data : List Byte)
  /-- TRANSFERCOMPLETE. R564: image check, header programmed only when valid, VerifyComplete. -/
  | transferComplete (src : Byte)
  /-- APPLYCOMPLETE. R563. -/
  | applyComplete (src : Byte)
  /-- ACTIVATEFIRMWARE. R564: full module reset, CAUSE 3. -/
  | activateFirmware (src : Byte)
  /-- GETSTATUS. R563. -/
  | getStatus (src : Byte)
  /-- CANCELUPDATECOMPONENT. R563. -/
  | cancelUpdateComponent (src : Byte)
  /-- CANCELUPDATE. R563. -/
  | cancelUpdate (src : Byte)
  /-- MCTP_RESEND_TIMEOUT. R343. -/
  | mctpResendTimeout
  /-- MBX_IN_DOORBELL. R335, R336, R327, R339. -/
  | mbxInDoorbell (tail : W32)
  /-- MAILBOX_REQUEST_RECEIVE. R335, R339: deferred receipt. -/
  | mailboxRequestReceive
  /-- MBX_OUT_ACK. R338. -/
  | mbxOutAck (ack : W32)
  /-- MBX_OUT_DOORBELL. R332: RW1C of PENDING. -/
  | mbxOutDoorbell (value : W32)
  /-- OUTBOUND_TICKET_WRITE. R337, R339, R340, R342. -/
  | outboundTicketWrite (ch : Chan)
  /-- MSIX_HOLDOFF_EXPIRY. R386, R337. -/
  | msixHoldoffExpiry (vector : Fin 2048)
  /-- MSIX_VECTOR_UNMASK. R386. -/
  | msixVectorUnmask (vector : Fin 2048)
  /-- RNG_IRQ_PEND. R382, R383: RW1C; a 32-bit access is a mask with the other half 0. -/
  | rngIrqPend (k : Fin 64) (mask : W64)
  /-- RNG_DOORBELL. R162-R166; whole: a single aligned 64-bit write. -/
  | rngDoorbell (ring : Fin 4096) (value : W64) (whole : Bool)
  /-- TOK_SIGNAL. R195, R183. -/
  | tokSignal (token : Fin 65536) (value : W64) (whole : Bool)
  /-- APERTURE_READ. R252, R253. -/
  | apertureRead (addr : BitVec 38) (len : Fin 4097) (lines : LineEcc)
  /-- APERTURE_WRITE. R252-R254, R260, R232; lines: the merge reads. -/
  | apertureWrite (addr : BitVec 38) (data : List Byte) (lines : LineEcc)
  /-- CONFIG_WRITE. R375, R377, R373. -/
  | configWrite (reg : ConfigReg)
  /-- REGISTER_WRITE_OTHER. R331, R379, R380, R15, R16. -/
  | registerWriteOther (bar : Bar) (offset : Nat) (data : List Byte)
  /-- PCIE_CONVENTIONAL_RESET. R376, R597. -/
  | pcieConventionalReset (how : PcieReset) (link : LinkResult)
  /-- WAGON_FETCH. R169, R173, R375. -/
  | wagonFetch (ring : Fin 4096) (how : FetchEnd)
  /-- MARSHALLING_DISPATCH. R172-R178, R186, R226. -/
  | marshallingDispatch (unit : UnitRef)
  /-- WAGON_START. R141, R179, R101, R227, R233, R609; cycle: the fabric-clock cycle of a slot request. -/
  | wagonStart (ring : Fin 4096) (index : W32) (cycle : Nat)
  /-- CREDIT_RETURN. R25, R27, R174. -/
  | creditReturn (unit : UnitRef)
  /-- NOP. R98, R176. -/
  | nop (ring : Fin 4096) (index : W32)
  /-- MMA. R56-R67, R72, R82, R83, R94, R104-R108, R121, R122; slips: errors of its logic; rebuild: what a replay that must
  come first meets. -/
  | mma (ring : Fin 4096) (index : W32) (ecc : YardEcc) (slips : List Slip) (rebuild : ReplayFaults)
  /-- LEDGER_ADD. R77, R79, R83, R110-R112, R121, R122; slips and rebuild as for MMA. -/
  | ledgerAdd (ring : Fin 4096) (index : W32) (ecc : YardEcc) (slips : List Slip) (rebuild : ReplayFaults)
  /-- READOUT. R74-R78, R84, R85, R88-R92, R113-R119, R122, R136; again: what a re-execution meets. -/
  | readout (ring : Fin 4096) (index : W32) (ecc : YardEcc) (faults : TileFaults) (rebuild : ReplayFaults)
      (again : Reexecution)
  /-- VECTOR. R68, R86, R93, R123-R130, R606; again: what a re-execution meets. -/
  | vector (ring : Fin 4096) (index : W32) (ecc : YardEcc) (faults : LaneFaults) (again : LaneFaults)
  /-- COPY. R228-R237. -/
  | copy (ring : Fin 4096) (index : W32) (errs : MemErrs)
  /-- GATHER. R231. -/
  | gather (ring : Fin 4096) (index : W32) (errs : MemErrs)
  /-- SCATTER. R231. -/
  | scatter (ring : Fin 4096) (index : W32) (errs : MemErrs)
  /-- FILL. R231. -/
  | fill (ring : Fin 4096) (index : W32) (errs : MemErrs)
  /-- ALLREDUCE. R85, R306-R315; sums: errors of its additions. -/
  | allreduce (ring : Fin 4096) (index : W32) (errs : MemErrs) (sums : List SumSlip)
  /-- REDUCE. R85, R306-R315; sums: errors of its additions. -/
  | reduce (ring : Fin 4096) (index : W32) (errs : MemErrs) (sums : List SumSlip)
  /-- BROADCAST. R306-R315. -/
  | broadcast (ring : Fin 4096) (index : W32) (errs : MemErrs)
  /-- TOKEN_WAIT. R184, R190, R191. -/
  | tokenWait (ring : Fin 4096) (index : W32)
  /-- TOKEN_SIGNAL. R183, R192, R193. -/
  | tokenSignal (ring : Fin 4096) (index : W32)
  /-- TOKEN_SET. R183, R194. -/
  | tokenSet (ring : Fin 4096) (index : W32)
  /-- STEP_COMMIT. R196-R198, R260, R261. -/
  | stepCommit (ring : Fin 4096) (index : W32)
  /-- WAGON_COMPLETE. R146-R148, R167-R170, R187-R189, R197, R611; ecc: the merge read of the record's line. -/
  | wagonComplete (ring : Fin 4096) (index : W32) (ecc : Ecc)
  /-- MEMORY_READ_REPLY. R39, R94, R202, R232, R237, R238, R241-R243. -/
  | memoryReadReply (part : Fin 8) (dm : Fin 4) (tag : Nat) (reply : HostRead) (errs : MemErrs)
  /-- TOKEN_WAIT_TIMEOUT. R191. -/
  | tokenWaitTimeout (ring : Fin 4096) (index : W32)
  /-- COLL_TIMEOUT. R314, R313. -/
  | collTimeout (ring : Fin 4096) (index : W32)
  /-- MIRROR_ACK_TIMEOUT. R263, R264, R260. -/
  | mirrorAckTimeout (ctx : Fin 262144)
  /-- MIRROR_CLOSE_TIMEOUT. R263, R264, R260. -/
  | mirrorCloseTimeout (ctx : Fin 262144)
  /-- TEARDOWN_COMPLETE. R203-R205, R510. -/
  | teardownComplete (ctx : Fin 262144)
  /-- QUARANTINE_EXPIRY. R203. -/
  | quarantineExpiry (ctx : Fin 262144)
  /-- ZEROING_DONE. R204, R212, R220: the frame next in order. -/
  | zeroingDone
  /-- PATROL_SCRUB_READ. R241-R247, R251. -/
  | patrolScrubRead (line : Nat) (ecc : Ecc)
  /-- YARD_SCRUB_READ. R225, R241, R245-R247. -/
  | yardScrubRead (part : Fin 8) (word : Nat) (ecc : Ecc)
  /-- FRAME_RECEIVE. R40, R268, R271-R276, R278-R284, R287, R318, R319. -/
  | frameReceive (port : Fin 20) (frame : List Byte) (corrected uncorrectable : Nat)
  /-- FRAME_SEND. R40, R270-R278, R281, R284, R317. -/
  | frameSend (port : Fin 20)
  /-- REPLAY_TIMEOUT. R278, R279. -/
  | replayTimeout (port : Fin 20)
  /-- TRAILER_TIMEOUT. R287, R288. -/
  | trailerTimeout (port : Fin 20)
  /-- TRAINING_DONE. R269, R284, R285. -/
  | trainingDone (port : Fin 20)
  /-- TRAINING_RETRY. R269, R284. -/
  | trainingRetry (port : Fin 20)
  /-- QUIET_END. R284. -/
  | quietEnd (port : Fin 20)
  /-- RESEND_WAIT_EXPIRY. R304. -/
  | resendWaitExpiry (port : Fin 20)
  /-- WRITE. R158, R232, R260, R290-R294, R299, R300. -/
  | write (port : Fin 20) (lines : LineEcc)
  /-- SIGNAL. R158, R183, R291, R299. -/
  | signal (port : Fin 20)
  /-- DOORBELL. R158, R163, R166, R171, R291. -/
  | doorbell (port : Fin 20)
  /-- MIRROR_OPEN. R262, R291. -/
  | mirrorOpen (port : Fin 20) (lines : LineEcc)
  /-- MIRROR_CLOSE. R259, R262, R292. -/
  | mirrorClose (port : Fin 20)
  /-- MIRROR_REPLY. R198, R260, R261, R263. -/
  | mirrorReply (port : Fin 20)
  /-- COLL_UP. R79, R85, R306, R310, R311; sums: errors of its additions. -/
  | collUp (port : Fin 20) (errs : MemErrs) (sums : List SumSlip)
  /-- COLL_DOWN. R309, R311, R312. -/
  | collDown (port : Fin 20) (errs : MemErrs)
  /-- COLL_ABORT. R313. -/
  | collAbort (port : Fin 20)
  /-- DACK. R193, R235, R261, R263, R265, R293, R295; lines: the reads of the mirror that goes on. -/
  | dack (port : Fin 20) (lines : LineEcc)
  /-- EPOCH_NOTICE. R301, R510. -/
  | epochNotice (port : Fin 20)
  /-- SIGNAL_BOX_REPORT. R477, R481-R488, R499, R501, R503, R506. -/
  | signalBoxReport (source : W32) (code : Nat) (ctx : Option (Fin 262144)) (info : W32)
  /-- SIGNALLING_FAULT. R479, R481, R503. -/
  | signallingFault (source : W32)
  /-- PAIR_WALK. R478, R479. -/
  | pairWalk (wrong : List W32)
  /-- MILEPOST_STALL. R223, R490-R495, R501. -/
  | milepostStall (source : W32)
  /-- CORE_WATCHDOG_EXPIRY. R48-R50. -/
  | coreWatchdogExpiry (core : Fin 16)
  /-- MODULE_WATCHDOG_EXPIRY. R51. -/
  | moduleWatchdogExpiry
  /-- CLOCK_MONITOR_TRIP. R35. -/
  | clockMonitorTrip
  /-- RESET_DEADLINE_MISSED. R499, R503. -/
  | resetDeadlineMissed (level : Fin 7) (scope : W32)
  /-- MODULE_RESET_TIMER_EXPIRY. R500, R507. -/
  | moduleResetTimerExpiry
  /-- UNIT_RESET_DONE. R45, R135, R136, R240, R496-R498, R504. -/
  | unitResetDone (source : W32)
  /-- PARTITION_RESET_DONE. R41, R209, R498, R504. -/
  | partitionResetDone (part : Fin 8) (test : SelfTest)
  /-- COMPUTE_DOMAIN_RESET_DONE. R37, R41, R209, R498, R504. -/
  | computeDomainResetDone (tests : List SelfTest)
  /-- EVENT_AUTO_ACK. R487. -/
  | eventAutoAck (event : Nat)
  /-- COASTING_TIMEOUT. R138, R141; cycle: the fabric-clock cycle of the request. -/
  | coastingTimeout (unit : UnitRef) (cycle : Nat)
  /-- DEPARTURE_SLOT_GRANT. R138, R140-R142. -/
  | departureSlotGrant (cycle : Nat)
  /-- INNER_LOOP_TICK. R423, R443-R454, R456, R471. -/
  | innerLoopTick (m : TickMeas)
  /-- OUTER_LOOP_TICK. R445, R452, R450. -/
  | outerLoopTick
  /-- OVERRUN_FALLBACK. R455. -/
  | overrunFallback
  /-- ENGINE_TRIAL_DONE. R455. -/
  | engineTrialDone (onTime : Bool)
  /-- CEILING_PERIOD. R457, R461, R462, R467. -/
  | ceilingPeriod (ceiling : Ceiling) (m : CeilMeas)
  /-- COMPUTE_STEP_CHANGE. R32, R459, R465. -/
  | computeStepChange
  /-- SUSTAINED_BUCKET_UPDATE. R458. -/
  | sustainedBucketUpdate
  /-- TRIM_RUNG. R460, R7-R9. -/
  | trimRung
  /-- DROOP_STRETCH. R464, R142. -/
  | droopStretch (part : Fin 8)
  /-- DROOP_RELEASE. R464, R465, R142. -/
  | droopRelease (cycles : Nat) (fabric : Nat)
  /-- THERMAL_TRIP. R468, R469, R609. -/
  | thermalTrip (sensor : Fin 64)
  /-- THERMAL_TRIP_RELEASE. R468, R469. -/
  | thermalTripRelease
  /-- RAIL_CURRENT_LIMIT. R463. -/
  | railCurrentLimit (rail : Supply)
  /-- ENERGY_SAMPLE. R144, R472, R473. -/
  | energySample (partMj : List Nat) (ran : List (Fin 8 × Nat × Nat)) (coasting : List (UnitRef × Nat))
      (busMj : Nat × Nat × Nat)
  /-- CARTRIDGE_INSERT. R404. -/
  | cartridgeInsert
  /-- ZERO_MEASUREMENT_DONE. R403-R405, R408, R411, R416, R430, R434. -/
  | zeroMeasurementDone (m : CartMeas)
  /-- THERMISTOR_SAMPLE. R399, R400, R406, R407. -/
  | thermistorSample (milliC : Int) (readBacks : ReadBacks)
  /-- IDENTITY_PERIODIC_READ. R406. -/
  | identityPeriodicRead (reads : List (List Byte)) (readBacks : ReadBacks)
  /-- CARTRIDGE_HW_TRIP. R398-R401, R468. -/
  | cartridgeHwTrip (kind : HwTrip)
  /-- ESTIMATOR_SAMPLE. R399, R402, R409, R410, R412, R414, R415, R419-R422. -/
  | estimatorSample (m : EstMeas)
  /-- FULL_ANCHOR. R413, R415, R420, R425, R430. -/
  | fullAnchor (readBacks : ReadBacks)
  /-- LEARNING_PAUSE_TIMEOUT. R420. -/
  | learningPauseTimeout
  /-- ANCHOR_WALK_START. R423. -/
  | anchorWalkStart
  /-- ANCHOR_WALK_TIMEOUT. R425. -/
  | anchorWalkTimeout
  /-- RECORD_WRITE_TIMER. R430-R433. -/
  | recordWriteTimer (readBacks : ReadBacks)
  /-- TRG_FLUSH. R518, R523-R525, R535, R537, R538. -/
  | trgFlush (how : FlushEnd)
  /-- TRG_PERIODIC_SAMPLE. R450, R526. -/
  | trgPeriodicSample (key : SampleKey)
  /-- QUOTE_BUDGET_REFILL. R557. -/
  | quoteBudgetRefill (identity : Bool)
  /-- POWER_GOOD. R518, R525, R534, R542-R549, R554, R570, R586, R590; journalWhole: an unfinished batch has a correct CRC. -/
  | powerGood (journalWhole : Bool) (link : LinkResult)
  /-- PARTITION_SELF_TEST_DONE. R6-R9, R134, R387, R546, R551, R590, R591, R593, R594. -/
  | partitionSelfTestDone (part : Fin 8) (test : SelfTest)
  /-- MEMORY_TRAINING_DONE. R217, R592, R594. -/
  | memoryTrainingDone (device : Fin 12) (passed : Bool) (values : List Byte)
  /-- MEMORY_TEST_DONE. R214, R250, R395. -/
  | memoryTestDone (badLines : List Nat) (badBlocks : List Nat)
  /-- FULL_MODULE_RESET_RELEASE. R44, R209, R505, R545, R594. -/
  | fullModuleResetRelease (link : LinkResult)
  /-- INPUT_LOSS. R470, R523, R553, R571, R599-R601. -/
  | inputLoss (how : LossKind) (readBacks : ReadBacks)
  /-- HOLDUP_END. R602. -/
  | holdupEnd
  /-- INPUT_RETURN. R604. -/
  | inputReturn
  /-- TRAY_RESET_FALL. R587. -/
  | trayResetFall (readBacks : ReadBacks)
  /-- TRAY_RESET_RISE. R587. -/
  | trayResetRise
  /-- DEBUG_PORT_ACCESS. R567, R572. -/
  | debugPortAccess (op : DebugOp)
  /-- BYPASS. R567. -/
  | bypass
  /-- SAMPLE. R567. -/
  | sample (pins : List Bool)
  /-- PRELOAD. R567. -/
  | preload (cells : List Bool)
  /-- EXTEST. R567. -/
  | extest (pins : List Bool)
  /-- PCIE_COMPLETION_TIMEOUT. R373, R237; errs: the reads that its mover issues next. -/
  | pcieCompletionTimeout (part : Fin 8) (dm : Fin 4) (tag : Nat) (errs : MemErrs)
  /-- VENDOR_DEFINED_MESSAGE. R327, R328, R341, R342. -/
  | vendorDefinedMessage (packets : List (List Byte))
  /-- PERST_L_RISE. R596. -/
  | perstLRise (link : LinkResult)
  /-- LOCAL_SELF_TEST_DONE. R593, R590, R594. -/
  | localSelfTestDone (source : W32) (passed : Bool)
  /-- VDD_FAB_LIMIT_RELEASE. R463. -/
  | vddFabLimitRelease
  deriving DecidableEq, Repr

end Sys2Proof
end

