-- ==== Sys2Proof/Machine/State.lean ====
section
/-! DEFINITION. The state of the module: plain data, every piece of state the manual names, with its
width, the rule that names it and its value at reset. Reset is power-on, before power-good. -/

namespace Sys2Proof.Machine

/-- What makes a step stop. -/
inductive Fault where
  /-- Raised by a command whose operands no party outside could send: a frame that is not 8,192 bytes
  (R271), an access that crosses a 4 KiB boundary or is empty, a list of measurements of the wrong length. Safe: the
  module does not act on what cannot arrive. -/
  | illFormed
  deriving DecidableEq, Repr

/-- Why a command has no meaning. -/
inductive Refusal where
  /-- Raised by an arm of `exec` whose command has no meaning yet, by its mnemonic. Safe. -/
  | notModelled (mnemonic : String)
  deriving DecidableEq, Repr

/-- A ticket as it arrives or is held (R323, R324). -/
structure Ticket where
  seq : W32
  ack : W32
  opcode : Nat
  flags : W16
  length : Nat
  tag : W16
  client : W32
  status : W32
  crc : W32
  reserved : W32
  payload : List Byte
  deriving DecidableEq, Repr

/-- A request received whole, its chain assembled (R328, R335). -/
structure Request where
  chan : Chan
  opcode : Nat
  flags : W16
  client : W32
  tag : W16
  ack : W32
  payload : List Byte
  /-- The chain broke its rules, or the header carries what R327 answers MALFORMED (DETAIL 0xFFFF) -/
  broken : Bool
  /-- SEQ of its last ticket, and how many tickets it came in (R328, R342) -/
  seq : W32 := 0
  parts : Nat := 1
  /-- Its place in the order in which both channels received requests (R344) -/
  arrival : Nat := 0
  deriving DecidableEq, Repr

/-! ## Sparse tables -/

/-- A table of values by number. It is kept in one canonical form (`Map.wf`): keys strictly
rising, and no entry equal to what an unlisted key reads as. -/
abbrev Table (α : Type) := List (Nat × α)

/-- Memory as the host's cells: an address and the byte it holds, in the canonical form of `Table`,
where an unlisted address reads as 0 (module memory, Yard: zeroed before any context is admitted, R44,
R250; inbound and outbound windows: log entry 3). -/
abbrev Bytes := List Host.Cell

/-- A record kept as two copies with a sequence number and a check (R23, R431). `seq` is none where the
copy's CRC is not correct. -/
structure TwoCopy (α : Type) where
  seq0 : Option Nat
  val0 : α
  seq1 : Option Nat
  val1 : α
  deriving DecidableEq, Repr

/-! ## Identity, fuses and non-volatile storage (chapters 00, 01, 13) -/

/-- The fuse array (R539) and the orderable part it makes (R2). -/
structure Fuses where
  /-- Orderable part | one of three | 00_scope R2 | DESIGN CHOICE QSW-960-H (log 4) -/
  part : Part
  /-- SERIAL | 128 bits | 13_security R539 | DESIGN CHOICE 0 (log 4) -/
  serial : BitVec 128
  /-- UNIT_DISABLE, partitions | 8 bits | 13_security R539 | DESIGN CHOICE 0 (log 4) -/
  partDisable : BitVec 8
  /-- UNIT_DISABLE, memory devices | 12 bits | 13_security R539 | DESIGN CHOICE 0 (log 4) -/
  memDisable : BitVec 12
  /-- UNIT_DISABLE, rail ports | 20 bits | 13_security R539 | DESIGN CHOICE 0 (log 4) -/
  railDisable : BitVec 20
  /-- TRIMS, core voltage V(n) in mV for n = 16 to 64 | 49 numbers | 13_security R539, 10_timetable R459 | DESIGN CHOICE 550 for every n (log 4) -/
  coreMv : List Nat
  /-- TRIMS, estimator trims | bits | 09_hayloft R409, 13_security R539 | DESIGN CHOICE 0 (log 4) -/
  estTrims : BitVec 64
  /-- DEVICE_SECRET | 256 bits | 13_security R539 | DESIGN CHOICE 0 (log 4) -/
  deviceSecret : BitVec 256
  /-- FW_SIGNER_HASH | 256 bits | 13_security R539 | DESIGN CHOICE 0 (log 4) -/
  fwSignerHash : BitVec 256
  /-- OWNER_HASH | 256 bits | 13_security R539 | 0, an unwritten fuse (R539) -/
  ownerHash : BitVec 256
  /-- LIFECYCLE | 3 bits | 13_security R539 R541 | 0, Blank (R541) -/
  lifecycle : BitVec 3
  /-- OWNER_DESTROYED | 1 bit | 13_security R539 | 0, an unwritten fuse (R539) -/
  ownerDestroyed : Bool
  /-- SVN | count of 64 bits set | 13_security R539 | 0, an unwritten fuse (R539) -/
  svn : Nat
  /-- A fuse field fails its check | 1 bit | 13_security R542 | DESIGN CHOICE false (log 4) -/
  bad : Bool
  deriving DecidableEq, Repr

/-- The estimator's learned-value record (R428). -/
structure EstRecord where
  /-- CART_ID | 64 bits | 09_hayloft R428 | DESIGN CHOICE 0 (log 4) -/
  cartId : W64
  /-- CAPACITY in mC | 32 bits | 09_hayloft R428 | DESIGN CHOICE 0 (log 4) -/
  capacity : W32
  /-- LEARN_COUNT | 16 bits | 09_hayloft R428 | DESIGN CHOICE 0 (log 4) -/
  learnCount : W16
  /-- FLAGS[0] LEARNED | 1 bit | 09_hayloft R428 | DESIGN CHOICE 0 (log 4) -/
  learned : Bool
  /-- FLAGS[1] CLOSED | 1 bit | 09_hayloft R428 | DESIGN CHOICE 0 (log 4) -/
  closed : Bool
  /-- OFFSET in nA | 32 bits | 09_hayloft R428 | DESIGN CHOICE 0 (log 4) -/
  offset : W32
  /-- LAST_FULL, LAST_EMPTY, LAST_LEARN stamps | 64 bits each | 09_hayloft R428 | DESIGN CHOICE 0 (log 4) -/
  lastFull : W64
  lastEmpty : W64
  lastLearn : W64
  /-- THROUGHPUT in coulombs | 32 bits | 09_hayloft R428 | DESIGN CHOICE 0 (log 4) -/
  throughput : W32
  deriving DecidableEq, Repr

/-- An entry of the recovery history (R502): what was reset, and when in operating seconds. -/
structure ResetTime where
  source : W32
  sec : Nat
  deriving DecidableEq, Repr

/-- The fence list and the recovery history (R502). -/
structure History where
  /-- Fence list: SOURCE values of fenced units | list | 11_faults R502 | empty (cleared by a power cycle, R502) -/
  fences : List W32
  /-- Recovery history: unit resets | list of (SOURCE, operating second) | 11_faults R502 R496 | DESIGN CHOICE empty (log 4) -/
  unitResets : List ResetTime
  /-- Recovery history: completions of partition (kind 0x07), compute-domain (0x08) and module (0x12) resets | list | 11_faults R502 R501 | DESIGN CHOICE empty (log 4) -/
  rungDone : List ResetTime
  /-- Recovery history: power cycles requested, operating seconds | list | 11_faults R502 R507 | DESIGN CHOICE empty (log 4) -/
  powerCycles : List Nat
  deriving DecidableEq, Repr

/-- The seeds of an XMSS key pair, from which its keys follow (R548, RFC 8391): the wrapped form that the key area holds
is not modelled, since nothing outside the security root can read it (R549). -/
structure KeyPair where
  /-- Seed of the leaves -/
  skSeed : BitVec 256
  /-- Key of the randomiser of a signature -/
  skPrf : BitVec 256
  /-- The public seed -/
  pubSeed : BitVec 256
  deriving DecidableEq, Repr

/-- The records of MRAM bank 1 (R23), but for the Train Register summary area, which stands in `Trg`. -/
structure Mram where
  /-- Start record: firmware start count and START_FAIL | two copies | 01_architecture R23, 07_booking R333, 13_security R545 | DESIGN CHOICE count 0, fail 0 (log 4) -/
  start : TwoCopy (Nat × Nat)
  /-- INTRUSIVE_COUNT | two copies | 13_security R555 | DESIGN CHOICE 0 (log 4) -/
  intrusive : TwoCopy Nat
  /-- Estimator record, copy 0 at 0x0000 of the estimator area | 64 bytes | 09_hayloft R428 R429 | DESIGN CHOICE zeros, not valid (log 4) -/
  est0 : List Byte
  /-- Estimator record, copy 1 at 0x0040 of the estimator area | 64 bytes | 09_hayloft R428 R429 | DESIGN CHOICE zeros, not valid (log 4) -/
  est1 : List Byte
  /-- Key area: identity key pair, held as its seeds | two copies of 768 bits or none | 01_architecture R23, 13_security R547 R548 | none, generated by PROVISION -/
  identityKey : TwoCopy (Option KeyPair)
  /-- Key area: attestation key pair | two copies of 768 bits or none | 01_architecture R23, 13_security R547 R548 | none -/
  attestKey : TwoCopy (Option KeyPair)
  /-- Key area: owner key copy | two copies of 68 bytes or none | 01_architecture R23, 13_security R547 | none -/
  ownerKey : TwoCopy (Option (List Byte))
  /-- Leaf reservation record TOP of the identity key | two copies | 13_security R552 | DESIGN CHOICE 0 (log 4) -/
  identityTop : TwoCopy Nat
  /-- Leaf reservation record TOP of the attestation key | two copies | 13_security R552 | DESIGN CHOICE 0 (log 4) -/
  attestTop : TwoCopy Nat
  /-- Memory training values of each device | 12 records of two copies | 01_architecture R23, 14_startup R594 | DESIGN CHOICE none held (log 4) -/
  training : List (TwoCopy (List Byte))
  /-- Fence list and recovery history | two copies | 01_architecture R23, 11_faults R502 | empty -/
  history : TwoCopy History
  /-- Bytes of bank 0 (key: offset) and bank 1 (key: 4 MiB + offset) that the debug port wrote outside the estimator area | table of bytes | 01_architecture R23, 13_security R567 | empty -/
  cells : Table (Option Byte)
  deriving DecidableEq, Repr
/-! ## Units and the capability descriptor (chapters 01, 03, 08) -/

/-- Departure state of an engine (R138). -/
inductive Pace where
  | running | coasting | parked
  deriving DecidableEq, Repr

/-- One ledger (R63): the integer L and its three status bits, with its residue check (R83): the running residue modulo
255, and whether the check of some product or addend failed. -/
structure Ledger where
  l : Int
  sat : Bool
  invalid : Bool
  inexact : Bool
  res : Nat
  off : Bool
  deriving DecidableEq, Repr

/-- One ledger bank of a matrix engine (R103) with its tile sequence. -/
structure Bank where
  /-- Ring whose tile sequence is open in the bank | ring id or none | 03_engines R103, 04_rings R178 | none -/
  seq : Option Nat
  /-- Anchor A | 16 bits signed | 02_ledger R63 R64 | DESIGN CHOICE 0 (log 3) -/
  anchor : Int
  /-- Ledgers (i, j) at key 64 i + j | 4,096 of 160 bits, three flags and a residue | 02_ledger R63 R83 | DESIGN CHOICE L 0, flags clear, residue 0 (log 3) -/
  cells : Table Ledger
  /-- DATA_ERR indicator of the bank | 1 bit | 03_engines R112 | 0 -/
  dataErr : Bool
  /-- RETRIED indicator of the bank | 1 bit | 03_engines R112 | 0 -/
  retried : Bool
  /-- Replay log, held in marshalling: wagons accumulated since the clear | up to 64 of 512 bits | 03_engines R121 | empty -/
  log : List (BitVec 512)
  /-- The bank must be rebuilt from the log before the next wagon of its sequence | 1 bit | 03_engines R122 R136 | 0 -/
  rebuild : Bool
  /-- A replay of the open sequence was already made after a unit reset | 1 bit | 03_engines R136 | 0 -/
  replayed : Bool
  /-- The open sequence lost its ledgers twice: its READOUT completes LEDGER_LOST | 1 bit | 03_engines R136 | 0 -/
  lost : Bool
  /-- A READOUT found a residue mismatch and waits for a bank in which to re-execute | 1 bit | 03_engines R122 | 0 -/
  held : Bool
  deriving DecidableEq, Repr

/-- A matrix engine ME00 to ME19 of a partition. -/
structure MatrixEngine where
  /-- Unit state and LOGICAL (31 when none) | 3 + 5 bits | 08_host R390, 03_engines R134 | pending, 31 -/
  unit : UnitState
  logical : Nat
  /-- Departure state | 3 values | 03_engines R138 | parked (R138: no wagon) -/
  pace : Pace
  /-- Slot request outstanding: none, departure or release, with the fabric-clock cycle of the request | | 03_engines R138 R141 | none -/
  wants : Option (SlotKind × Nat)
  bank0 : Bank
  bank1 : Bank
  /-- DATA_ERR indicator set under a FEED link | 1 bit | 05_memory R238 | 0 -/
  feedErr : Bool
  /-- Time of the last residue mismatch, operating seconds | | 02_ledger R91 | none -/
  residueAt : Option Nat
  /-- Context whose wagon the engine last ran | 18 bits or none | 03_engines R144 | none -/
  lastCtx : Option Nat
  deriving DecidableEq, Repr

/-- The vector engine of a partition. -/
structure VectorEngine where
  /-- Unit state | 3 bits | 08_host R390 | pending -/
  unit : UnitState
  /-- Departure state | 3 values | 03_engines R138 | parked -/
  pace : Pace
  /-- Slot request outstanding | | 03_engines R138 R141 | none -/
  wants : Option (SlotKind × Nat)
  /-- DATA_ERR indicator set under a FEED link | 1 bit | 05_memory R238 | 0 -/
  feedErr : Bool
  /-- Time of the last residue mismatch | | 02_ledger R93 | none -/
  residueAt : Option Nat
  /-- Context whose wagon the engine last ran | | 03_engines R144 | none -/
  lastCtx : Option Nat
  deriving DecidableEq, Repr

/-- An outstanding read of a mover, a fetch or a collective source, awaiting its reply (R202, R227). -/
structure ReadReq where
  /-- Tag of the request -/
  tag : Nat
  ring : Nat
  index : W32
  ctx : Nat
  gen : W16
  /-- The source is host memory (false: module memory of the context) -/
  host : Bool
  src : Nat
  /-- Destination address of the bytes read -/
  dst : Nat
  n : Nat
  /-- The reply, taken in while the compute clock is stopped (R609): an error, or bytes and whether they stand for an
  uncorrectable read -/
  held : Option (Option (List Byte × Bool))
  deriving DecidableEq, Repr

/-- A data mover DM0 to DM3 of a partition. -/
structure Mover where
  /-- Unit state | 3 bits | 08_host R390 | pending -/
  unit : UnitState
  /-- Outstanding reads | up to 2,048 | 05_memory R227 | empty -/
  reads : List ReadReq
  deriving DecidableEq, Repr

/-- A partition P0 to P7. -/
structure Partition where
  /-- Unit state | 3 bits | 08_host R390 | pending -/
  unit : UnitState
  /-- Matrix engines ME00 to ME19 | 20 | 01_architecture R21 | as MatrixEngine -/
  mes : List MatrixEngine
  /-- Vector engine | 1 | 01_architecture R21 | as VectorEngine -/
  vec : VectorEngine
  /-- Data movers DM0 to DM3 | 4 | 01_architecture R21 | as Mover -/
  dms : List Mover
  /-- Self-test of the partition passed since its last reset | 1 bit | 00_scope R6 | false -/
  tested : Bool
  /-- The partition's Yard failed its test | 1 bit | 14_startup R591 | false -/
  yardFailed : Bool
  /-- Held for power | 1 bit | 10_timetable R460 | false -/
  heldForPower : Bool
  deriving DecidableEq, Repr

/-- A control core (R46 to R49). -/
structure ControlCore where
  /-- Unit state | 3 bits | 08_host R390 | pending -/
  unit : UnitState
  /-- Time of the last residue mismatch | | 01_architecture R49 | none -/
  residueAt : Option Nat
  /-- Halted through the debug port | 1 bit | 13_security R567 R568 | false -/
  halted : Bool
  deriving DecidableEq, Repr

/-- The capability descriptor's own fields; unit entries are read from the units (R389). -/
structure Cap where
  /-- CHANGE_COUNT | 32 bits | 01_architecture R54, 08_host R389 | 0 -/
  changeCount : W32
  /-- Published (LENGTH 1,024) | 1 bit | 08_host R387 | false: the window reads zero -/
  published : Bool
  /-- PROFILE | 8 bits | 08_host R389 | 0 -/
  profile : Nat
  /-- FLAGS[0] STARTING | 1 bit | 08_host R389 R395 | 0 before publication -/
  starting : Bool
  /-- FLAGS[2] TRIMMED | 1 bit | 08_host R389 | 0 -/
  trimmed : Bool
  /-- Profile that trimming leaves, while TRIMMED | partitions | 10_timetable R460, 00_scope R7 | 8 -/
  trimCap : Nat
  /-- Partitions that the profile had before a full module reset or Standby | count | 14_startup R594 | 0 -/
  profileBefore : Nat
  deriving DecidableEq, Repr

/-! ## Contexts, rings, tokens and work (chapter 04) -/

/-- A Yard allotment word (R150), VALID set: logical partition k of a context is entry k of its list. -/
structure YardWord where
  /-- PHYS | 3 bits | 04_rings R150 | 0 -/
  phys : Nat
  /-- BASE in 64 KiB | 12 bits | 04_rings R150 | 0 -/
  base : Nat
  /-- SIZE in 64 KiB | 12 bits | 04_rings R150 | 0 -/
  size : Nat
  deriving DecidableEq, Repr

/-- A page of a context's page table (R155): a leaf entry of level 1 (`big`) or level 2. -/
structure Page where
  vbase : Nat
  big : Bool
  addr : Nat
  write : Bool
  deriving DecidableEq, Repr

/-- A peer table entry (R157). -/
structure Peer where
  node : W32
  remoteGen : W16
  remoteCtx : Nat
  doorbellIn : Bool
  signalIn : Bool
  writeIn : Bool
  valid : Bool
  deriving DecidableEq, Repr

/-- A coupled region (R256). -/
structure Region where
  vbase : Nat
  len : Nat
  deriving DecidableEq, Repr

/-- A COUPLE_RESTORE that runs (R265): the request to answer, the tags of its writes not yet acknowledged, and
STEP_COMMITTED and SR_SEED of the record that it read when it started. -/
structure Restore where
  req : Request
  tags : List Nat
  step : W64
  seed : W64
  deriving DecidableEq, Repr

/-- What a mirror store context holds beside its memory (R258, R262, R265). -/
structure Store where
  /-- Source node named by COUPLE_STORE | 32 bits | 05_memory R258 | - -/
  sourceNode : W32
  /-- Peer entry of the source | index | 05_memory R258 R262 | - -/
  sourcePeer : Nat
  /-- SLOT_BYTES named | 64 bits | 05_memory R258 | - -/
  slotBytes : Nat
  /-- Last OPEN applied: step, slot, the store's generation then | | 05_memory R262 | none -/
  opened : Option (W64 × Bool × W16)
  /-- Bytes applied to the slot since the OPEN | count | 05_memory R262 | 0 -/
  applied : Nat
  /-- COUPLE_RESTORE running | | 05_memory R265 | none -/
  restoring : Option Restore
  deriving DecidableEq, Repr

/-- Phase of a mirror (R261). -/
inductive MirrorPhase where
  | opening     -- OPEN sent, waiting for its DACK
  | pages       -- writing pages
  | closing     -- CLOSE sent, waiting for the reply
  deriving DecidableEq, Repr

/-- A mirror in progress, run by a STEP_COMMIT (R261). -/
structure Mirror where
  ring : Nat
  index : W32
  phase : MirrorPhase
  slot : Bool
  /-- The OPEN was already repeated after SLOT_BUSY -/
  retried : Bool
  /-- Pages still to be sent, by virtual address -/
  left : List Nat
  /-- Tags of pages sent and not acknowledged, or of the OPEN or CLOSE -/
  tags : List Nat
  bytesSent : Nat
  /-- A mirror read met an uncorrectable error -/
  bad : Bool
  deriving DecidableEq, Repr

/-- One tree of a collective group (R305). -/
structure Tree where
  parent : Option Nat
  children : List Nat
  deriving DecidableEq, Repr

/-- A context table entry (R149) and what the context holds (R154 to R158, R256 to R261, R305). RING_COUNT,
TOKEN_COUNT, MEM_BYTES, PEER_COUNT are read from the rings, tokens, pages and peers. -/
structure Context where
  /-- STATE | 3 bits | 04_rings R149 R151 | FREE -/
  state : CtxState
  /-- GENERATION | 16 bits | 04_rings R149 R152 | 0x0001 -/
  gen : W16
  /-- STEP_INVALID | 1 bit | 04_rings R149 | 0 -/
  stepInvalid : Bool
  /-- PRIORITY | 3 bits | 04_rings R149 | 0 -/
  priority : Nat
  /-- PREFETCH (0 means 256) | 8 bits | 04_rings R149 | 0x40 -/
  prefetch : Nat
  /-- FEED_AHEAD | 4 bits | 04_rings R149 | 4 -/
  feedAhead : Nat
  /-- COMMIT_RING | 12 bits | 04_rings R149 | 0 -/
  commitRing : Nat
  /-- ENERGY_ID | 12 bits | 04_rings R149 | 0 -/
  energyId : Nat
  /-- TENANT | 32 bits | 04_rings R149 | 0 -/
  tenant : W32
  /-- SR_SEED | 64 bits | 04_rings R149 | 0 -/
  srSeed : W64
  /-- STEP | 64 bits | 04_rings R149 | 0 -/
  step : W64
  /-- PT_ROOT | 64 bits | 04_rings R149 | 0 (a free value once created, log 7) -/
  ptRoot : W64
  /-- YARD_LP0 to YARD_LP7 | 8 of 32 bits | 04_rings R149 R150 | 0 -/
  yard : List YardWord
  /-- Page table, one entry per mapped page, rising | list | 04_rings R155 | empty -/
  pages : List Page
  /-- Peer table and PEER_COUNT | up to 1,024 of 16 bytes | 04_rings R157 | empty -/
  peers : List Peer
  /-- Coupled regions | up to 16 | 05_memory R256 | empty -/
  regions : List Region
  /-- Buddy: a peer entry | index or none | 05_memory R256 | none -/
  buddy : Option Nat
  /-- D_CUR: pages (virtual address / 2 MiB) with the bit set | bits | 05_memory R260 | empty -/
  dCur : List Nat
  /-- D_PREV | bits | 05_memory R260 | empty -/
  dPrev : List Nat
  /-- The slot last accepted by the buddy, when known | 1 bit or none | 05_memory R261 | none -/
  committed : Option Bool
  /-- Mirror in progress | | 05_memory R261 | none -/
  mirror : Option Mirror
  /-- Mirror store | | 05_memory R258 | none -/
  store : Option Store
  /-- Collective groups 0 to 15, each its trees | table | 06_rails R305 | empty -/
  groups : Table (List Tree)
  /-- Last completed OPSEQ of each group, none before the first | table of 32 bits | 06_rails R310 | empty -/
  opDone : Table (Option W32)
  /-- CONTEXT_DESTROY (or another request) waiting for the teardown to complete | | 04_rings R203 | none -/
  destroyReq : Option Request
  /-- Partition lost without replacement: CONTEXT_RESUME answered NOT_PRESENT | 1 bit | 11_faults R498 | false -/
  lostPart : Bool
  deriving DecidableEq, Repr

/-- A link target of R179: a logical matrix engine of a logical partition, or its vector engine. -/
structure Target where
  part : Nat
  eng : Option Nat
  deriving DecidableEq, Repr

/-- Count kept per ring and target (R179): closing wagons numbered so far, and completed. -/
structure TargetCount where
  target : Target
  numbered : Nat
  done : Nat
  deriving DecidableEq, Repr

/-- A ring (R159 to R171). -/
structure Ring where
  /-- STATE | 2 bits | 04_rings R161 R162 | UNBOUND -/
  state : RingState
  /-- Context bound | 18 bits | 04_rings R159 | 0 -/
  ctx : Nat
  /-- S | 6 to 16 | 04_rings R159 | 0 -/
  logSize : Nat
  /-- RING_BASE | 64 bits | 04_rings R159 | 0 -/
  base : Nat
  /-- CPL_BASE | 64 bits | 04_rings R159 | 0 -/
  cplBase : Nat
  /-- Location: host memory (true) or module memory | 1 bit | 04_rings R159 | module memory -/
  host : Bool
  /-- Interrupt mode | 0 to 2 | 04_rings R170 | 0 -/
  irq : Nat
  /-- Feeder: none for host software, or a peer entry | index | 04_rings R159 R171 | host -/
  feeder : Option Nat
  /-- HEAD | 32 bits | 04_rings R160 R162 | 0 -/
  head : W32
  /-- TAIL | 32 bits | 04_rings R160 R162 | 0 -/
  tail : W32
  /-- Index of the first wagon not yet fetched | 32 bits | 11_faults R494 | 0 -/
  fetched : W32
  /-- HALT_CAUSE | 4 bits | 04_rings R161 R162 | NONE -/
  cause : HaltCause
  /-- Wagons fetched and not dispatched, in ring order | list of (index, 512 bits) | 04_rings R173 | empty -/
  window : List (W32 × BitVec 512)
  /-- Closing wagons numbered and completed, per target | list | 04_rings R179 | empty -/
  counts : List TargetCount
  /-- A completion record could not be written at HEAD (R611): HEAD stays | 1 bit | 04_rings R611 | false -/
  recordLost : Bool
  deriving DecidableEq, Repr

/-- A token (R182). -/
structure Token where
  /-- VALUE | 32 bits | 04_rings R182 | 0 -/
  value : W32
  /-- Owner: context id, or none | 18 bits | 04_rings R182 | none -/
  owner : Option Nat
  deriving DecidableEq, Repr

/-- How far a dispatched wagon has come. -/
inductive Stage where
  | queued | started | waiting | decided | done
  deriving DecidableEq, Repr

/-- A dispatched wagon in the queue of a unit (R172, R174). -/
structure Flight where
  ring : Nat
  index : W32
  ctx : Nat
  /-- Generation under which it was dispatched (R167) -/
  gen : W16
  bits : BitVec 512
  unit : UnitRef
  stage : Stage
  /-- Tile of a FEED wagon (R179) -/
  tile : Nat
  /-- Status and flags byte, once decided -/
  status : Byte
  flags : Byte
  /-- Causes met so far, as status codes (the lowest is reported, R237, R315) -/
  causes : List Byte
  /-- Mover: plane, row and byte at which issuing of reads goes on; collective: segments done -/
  plane : Nat
  row : Nat
  col : Nat
  /-- Every read of the wagon was issued -/
  issuedAll : Bool
  /-- Peer entry copied when the wagon started (R193, R233) -/
  peer : Option Peer
  /-- Tags of remote packets awaiting their DACK -/
  tags : List Nat
  /-- A unit reset already cut the wagon short once (R136, R240) -/
  cutShort : Bool
  /-- STEP_COMMIT: STEP_INVALID as it stood when the wagon's fence was met (R198); none before -/
  fence : Option Bool
  /-- GATHER, SCATTER: the index list as the wagon read it (R231) -/
  list : List Nat
  deriving DecidableEq, Repr

/-- Dispatch state of one unit (R177) and its queue credits (R25, R174). -/
structure Dispatch where
  /-- spent[c] of R177 | 8 counts | 04_rings R177 | 0 -/
  spent : List Nat
  /-- last[c] of R177 | 8 ring ids | 04_rings R177 | none -/
  last : List (Option Nat)
  /-- cur of R177 | 0 to 7 | 04_rings R177 | 0 -/
  cur : Nat
  /-- Queue places freed and not yet returned as credits | count | 01_architecture R25 | 0 -/
  freed : Nat
  /-- Queue credits taken | count | 01_architecture R25, 04_rings R174 | 0 -/
  taken : Nat
  deriving DecidableEq, Repr

/-- Marshalling and the token unit. -/
structure Marsh where
  /-- Class weights w[0] to w[7] | 8 of 8 bits | 04_rings R177 | 2^c -/
  weights : List Nat
  /-- Dispatch state by unit number | table | 04_rings R177 | all zero -/
  units : Table Dispatch
  /-- Dispatched wagons, oldest first | list | 04_rings R172 R174 | empty -/
  flights : List Flight
  deriving DecidableEq, Repr

/-- The drop counters (R202, R253, R295). -/
structure Drops where
  /-- DROP_REPLY | 64 bits | 04_rings R202 | 0 -/
  reply : W64
  /-- DROP_FLIT | 64 bits | 04_rings R202 | 0 -/
  flit : W64
  /-- DROP_REFUSED | 64 bits | 04_rings R202 | 0 -/
  refused : W64
  /-- DROP_SIGNAL | 64 bits | 04_rings R202 | 0 -/
  signal : W64
  /-- DROP_DOORBELL | 64 bits | 04_rings R202 | 0 -/
  doorbell : W64
  /-- DROP_APERTURE | 64 bits | 05_memory R253 | 0 -/
  aperture : W64
  /-- DROP_EPOCH | 64 bits | 06_rails R295 | 0 -/
  epoch : W64
  /-- DROP_MISROUTE | 64 bits | 06_rails R295 | 0 -/
  misroute : W64
  deriving DecidableEq, Repr

/-! ## Module memory and the Yard (chapter 05) -/

/-- A memory device with its controller and PHY. -/
structure MemDevice where
  /-- Unit state | 3 bits | 08_host R390 | pending -/
  unit : UnitState
  /-- Training attempts made | 0 to 3 | 14_startup R592 | 0 -/
  attempts : Nat
  /-- Through training, and not yet through the memory test: still pending (R53, R217) | 1 bit | 14_startup R590 R592 | false -/
  trained : Bool
  deriving DecidableEq, Repr

/-- Corrected errors seen in one frame or block (R247): line or word, and operating second. -/
structure Corrected where
  place : Nat
  sec : Nat
  deriving DecidableEq, Repr

/-- A granted request whose pages still wait for zeroing (R212). -/
structure Grant where
  ctx : Nat
  /-- Frames still to be zeroed -/
  frames : List Nat
  req : Request
  /-- Reply payload, once zeroed -/
  payload : List Byte
  /-- Pages to be mapped -/
  pages : List Page
  deriving DecidableEq, Repr

/-- Module memory (R213 to R220, R241 to R250). -/
structure Memory where
  /-- Devices MEM00 to MEM11 | 12 | 05_memory R213 | pending -/
  devices : List MemDevice
  /-- Devices in service when the map was built, ascending; empty before | list (D is its length) | 05_memory R214 R217 | empty -/
  map : List Nat
  /-- Contents: addresses 0 to 128 D GiB - 1 | bytes | 05_memory R214 | all 0 (zeroed, R44 R250) -/
  bytes : Bytes
  /-- Lines (address / 64) left uncorrectable | list | 05_memory R246 | empty -/
  damaged : List Nat
  /-- Corrected events of the last 24 h | list of (line, second) | 05_memory R247 | empty -/
  corrected : List Corrected
  /-- Retired 2 MiB frames | list of frame index | 05_memory R247 | empty -/
  retired : List Nat
  /-- Frames retired for an error on each device | 12 counts | 05_memory R251 | 0 -/
  retiredOf : List Nat
  /-- Frames awaiting zeroing, in the order freed | list | 05_memory R220 R204 | empty -/
  zeroing : List Nat
  /-- Grants waiting for zeroing | list | 04_rings R212 | empty -/
  grants : List Grant
  /-- Stall-report save area: 1 MiB per physical partition | 8 MiB | 05_memory R223, 01_architecture R42 | all 0 -/
  saveArea : Bytes
  deriving DecidableEq, Repr

/-- The Yard of all partitions: partition p, physical offset a at key p * 2^27 + a (R221, R222). -/
structure Yard where
  /-- Contents | 8 of 96 MiB | 05_memory R221 | all 0 (zeroed before any context, R37 R250) -/
  bytes : Bytes
  /-- 8-byte words left uncorrectable, by key / 8 | list | 05_memory R241 R246 | empty -/
  damaged : List Nat
  /-- Corrected events of the last 24 h | list of (word, second) | 05_memory R247 | empty -/
  corrected : List Corrected
  /-- Retired 64 KiB blocks, by key / 65536 | list | 05_memory R247 | empty -/
  retired : List Nat
  /-- Blocks that firmware uses in place of retired blocks of the reserved regions: (retired block, substitute) | list | 05_memory R225 | empty -/
  moved : List (Nat × Nat)
  /-- Scrub pass: ranges of words (key / 8) read in it, rising and disjoint | list of (first, one past the last) | 05_memory R245 | empty -/
  scrubbed : List (Nat × Nat)
  /-- Reports written to each partition's stall-report region (SEQ of R493) | 8 of 32 bits | 11_faults R493 | 0 -/
  stallSeq : List Nat
  deriving DecidableEq, Repr

/-- A BAR4 window (R252). -/
structure Window where
  /-- Bound context, generation, virtual base and write enable; none while unbound | | 05_memory R252 | none -/
  bound : Option (Nat × W16 × Nat × Bool)
  deriving DecidableEq, Repr

/-! ## Rails and collectives (chapter 06) -/

/-- A packet (R289, R290): header fields and data. -/
structure Packet where
  epoch : W32
  dst : W32
  src : W32
  tag : W32
  arg : W64
  length : Nat
  ctx : Nat
  gen : W16
  kind : Nat
  pflags : Nat
  data : List Byte
  deriving DecidableEq, Repr

/-- A data flit of a link (R272, R273). -/
structure Flit where
  seq : W32
  vl : Nat
  first : Bool
  last : Bool
  bytes : List Byte
  deriving DecidableEq, Repr

/-- What waits for the DACK of a packet (R193, R235, R261, R265, R315). -/
inductive Waiter where
  | wagon (ring : Nat) (index : W32)
  | mirrorOpen (ctx : Nat)
  | mirrorPage (ctx : Nat)
  | mirrorClose (ctx : Nat)
  | restore (ctx : Nat)
  | nobody
  deriving DecidableEq, Repr

/-- How the destination answered a packet (R291, R292): the RESULT of a DACK entry, or whether a MIRROR_REPLY accepts. -/
inductive Answer where
  | result (r : Nat)
  | reply (accept : Bool)
  deriving DecidableEq, Repr

/-- A packet sent and not settled, with the port it went by (R292, R304); while it waits for a port, the port that it must
not take again, or 20. -/
structure OutPacket where
  packet : Packet
  port : Nat
  ctx : Nat
  waiter : Waiter
  deriving DecidableEq, Repr

/-- Fault injection running on a port (R317). -/
structure Injection where
  kind : Nat
  left : Nat
  period : Nat
  /-- Data frames until the next injection -/
  phase : Nat
  /-- The session and debug level that permitted it: Intrusive, without a block -/
  byLevel : Bool
  deriving DecidableEq, Repr

/-- A rail port RAIL00 to RAIL19 (R266 to R288, R319). -/
structure Port where
  /-- Unit state | 3 bits | 08_host R390 | pending -/
  unit : UnitState
  /-- Link state | 5 values | 06_rails R284 | DOWN -/
  state : PortState
  /-- NODE of the last valid trailer | 32 bits | 06_rails R271 R368 | 0xFFFF_FFFF (none, R296) -/
  peerNode : W32
  /-- FRAME, frame counter sent | 16 bits | 06_rails R271 | DESIGN CHOICE 0 (log 3) -/
  frame : W16
  /-- Sequence number of the next new data flit | 32 bits | 06_rails R275 | 0 -/
  txNext : W32
  /-- Replay buffer, oldest first | up to 2,048 flits | 06_rails R277 | empty -/
  replayBuf : List Flit
  /-- Replay in progress: the sequence number to resend next | 32 bits or none | 06_rails R278 | none -/
  replayAt : Option W32
  /-- Last replay: its start, how many in a row began there, and the frame at which it began | | 06_rails R278 R279 | none -/
  lastReplay : Option (W32 × Nat × W16)
  /-- Data flits sent for the first time, per VL | 4 of 16 bits | 06_rails R281 | 0 -/
  sent : List W16
  /-- CRED last received, per VL | 4 of 16 bits | 06_rails R281 | full depth of the far end (R284) -/
  cred : List W16
  /-- Flits queued for sending, per VL, oldest first | 4 lists | 06_rails R270 | empty -/
  txq : List (List Flit)
  /-- NEXT, sequence number expected | 32 bits | 06_rails R275 | 0 -/
  next : W32
  /-- Discarding | 1 bit | 06_rails R275 | 0 -/
  discarding : Bool
  /-- REPLAY_FROM to be asked for | 32 bits | 06_rails R275 | 0 -/
  replayFrom : W32
  /-- Flits of a packet not yet whole, per VL | 4 lists | 06_rails R283 | empty -/
  rxPart : List (List Flit)
  /-- Whole packets received and not yet handled, per VL, with the buffer places they hold | 4 lists | 06_rails R280 | empty -/
  rxq : List (List (Packet × Nat))
  /-- The packet being received on a VL was cut by a compute-domain reset | 4 bits | 01_architecture R40 | 0 -/
  rxCut : List Bool
  /-- Buffer places freed since UP, per VL, modulo 2^16 | 4 of 16 bits | 06_rails R281 | 0 -/
  freed : List W16
  /-- Buffer places freed under R40 and not yet returned, per VL | 4 of 16 bits | 01_architecture R40 | 0 -/
  withheld : List W16
  /-- The replay limit took the link down and its unit reset is on the way | 1 bit | 06_rails R279, 01_architecture R45 | false -/
  limited : Bool
  /-- REPLAYS and operating second at the start of the 10 s over which the replay rate is judged | | 06_rails R320 | 0, 0 -/
  rate : W64 × Nat
  /-- Injection running | | 06_rails R317 | none -/
  inject : Option Injection
  /-- FEC_CORRECTED | 64 bits | 06_rails R319 | 0 -/
  fecCorrected : W64
  /-- FEC_UNCORRECTABLE | 64 bits | 06_rails R319 | 0 -/
  fecUncorrectable : W64
  /-- SLOT_CRC_FAIL, uninjected and injected | 2 of 64 bits | 06_rails R319 | 0 -/
  slotFail : W64
  slotFailInj : W64
  /-- TRAILER_FAIL, uninjected and injected | 2 of 64 bits | 06_rails R319 | 0 -/
  trailerFail : W64
  trailerFailInj : W64
  /-- REPLAYS | 64 bits | 06_rails R319 | 0 -/
  replays : W64
  /-- LINK_DOWN by cause 0 to 4 | 5 of 64 bits | 06_rails R319 | 0 -/
  linkDown : List W64
  /-- RESENT | 64 bits | 06_rails R319 | 0 -/
  resent : W64
  /-- COLL_DUPLICATE | 64 bits | 06_rails R319 | 0 -/
  collDuplicate : W64
  deriving DecidableEq, Repr

/-- A segment accumulator of the rail collective engine (R310): one segment of one tree of one operation. -/
structure Accum where
  ctx : Nat
  group : Nat
  opseq : W32
  seg : Nat
  tree : Nat
  /-- Engine half that holds it -/
  half : Nat
  /-- Contributions in so far: peer entries, none for the own one -/
  sources : List (Option Nat)
  /-- Sum so far as a segment of 4,112 bytes; none before the first contribution -/
  sum : Option (List Byte)
  mismatch : Bool
  /-- The sum was sent up (or is the root's result) -/
  sentUp : Bool
  /-- The result was written here -/
  written : Bool
  deriving DecidableEq, Repr

/-- The rails of the module (R266 to R320). -/
structure Rails where
  /-- Ports RAIL00 to RAIL19 | 20 | 06_rails R266 | as Port -/
  ports : List Port
  /-- Node id | 32 bits | 06_rails R296 | 0xFFFF_FFFF (none) -/
  node : W32
  /-- Route table | up to 8,192 of (node, 20-bit mask) | 06_rails R296 | empty -/
  routes : Table (W32 × BitVec 20)
  /-- Epoch | 32 bits | 06_rails R298 | 0 -/
  epoch : W32
  /-- Revoked list, newest first | up to 8 of 32 bits | 06_rails R298 | empty -/
  revoked : List W32
  /-- The own epoch was revoked by a notice: no context packet is formed | 1 bit | 06_rails R301 | false -/
  stopped : Bool
  /-- Next REQ_TAG | 32 bits | 06_rails R289 | DESIGN CHOICE 0 (log 3) -/
  nextTag : Nat
  /-- Packets sent and not settled | list | 06_rails R292 R304 | empty -/
  out : List OutPacket
  /-- Packets formed for which no port of the route holds a credit, oldest first | list | 06_rails R297 | empty -/
  waiting : List OutPacket
  /-- Answers taken in while the compute clock was stopped, oldest first | list of packet and answer | 06_rails R282, 10_timetable R609 | empty -/
  held : List (OutPacket × Answer)
  /-- Rotation over the ports of a route: the port last used | 20 | 06_rails R297 | DESIGN CHOICE 0 (log 3) -/
  lastPort : Nat
  /-- Packets taken off a port that went down, waiting 1 ms | list of (port, packets) | 06_rails R304 | empty -/
  resend : List (Nat × List OutPacket)
  /-- Source nodes to which an EPOCH_NOTICE was sent, with the time in microseconds | list | 06_rails R300 | empty -/
  notices : List (W32 × Nat)
  /-- Segment accumulators | up to 2,048 per engine half | 06_rails R310 | empty -/
  accums : List Accum
  deriving DecidableEq, Repr

/-! ## The Booking Office and the PCI Express endpoint (chapters 07, 08) -/

/-- An outbound ticket decided and not yet written (R339, R340). -/
structure OutTicket where
  opcode : Nat
  /-- EVENT (true) or REPLY (false) -/
  event : Bool
  client : W32
  tag : W16
  code : Nat
  detail : Nat
  payload : List Byte
  /-- Of a reply: SEQ of the last ticket of its request, and how many tickets that came in (R342) -/
  answers : Option (W32 × Nat) := none
  deriving DecidableEq, Repr

/-- An outbound ticket written at a sequence number, as one part of its chain (R337, R342). -/
structure SentTicket where
  seq : W32
  more : Bool
  replayed : Bool
  ticket : OutTicket
  deriving DecidableEq, Repr

/-- One Booking Office channel (R321, R325). -/
structure Channel where
  /-- IN_SEQ | 32 bits | 07_booking R325 R332 | 0 -/
  inSeq : W32
  /-- OUT_SEQ | 32 bits | 07_booking R325 R332 | 0 -/
  outSeq : W32
  /-- OUT_ACK | 32 bits | 07_booking R332 | 0xFFFF_FFFF -/
  outAck : W32
  /-- Parts of a chained request received so far | list | 07_booking R328 | empty -/
  chain : List Ticket
  /-- Requests received and not yet started, oldest first | list | 07_booking R335 R344 | empty -/
  received : List Request
  /-- Requests started and not yet replied | list | 07_booking R347 | empty -/
  running : List Request
  /-- Outbound tickets decided and not yet written, oldest first | up to 1,024 events and 64 replies | 07_booking R339 | empty -/
  queue : List OutTicket
  /-- Events discarded since the last EVENTS_LOST | count | 07_booking R339 | 0 -/
  lost : Nat
  /-- The last outbound tickets written, oldest first | 32 on PCIe, 64 on MCTP | 07_booking R331 R342 | empty -/
  sent : List SentTicket
  /-- TAIL of the last doorbell whose requests are not all received | 32 bits or none | 07_booking R335 R339 | none -/
  tail : Option W32
  deriving DecidableEq, Repr

/-- The Booking Office: both channels, the windows and the mailbox registers. -/
structure Book where
  pcie : Channel
  mctp : Channel
  /-- Inbound window | 32 slots of 512 bytes | 07_booking R331 | DESIGN CHOICE 0 (log 3) -/
  inWin : Bytes
  /-- Outbound window | 32 slots of 512 bytes | 07_booking R331 | DESIGN CHOICE 0 (log 3) -/
  outWin : Bytes
  /-- MBX_OUT_DOORBELL.PENDING | 1 bit | 07_booking R332 | 0 -/
  pending : Bool
  /-- MBX_SESSION.SESSION | 32 bits | 07_booking R332 | 0 -/
  session : W32
  /-- MBX_STATUS.ERR | 3 bits | 07_booking R332 | 0 -/
  err : Nat
  /-- MBX_STATUS.ERR_SLOT | 5 bits | 07_booking R332 | 0 -/
  errSlot : Nat
  /-- MBX_STATUS.FW_STATE | 3 bits | 07_booking R332 | 0, ROM -/
  fwState : Nat
  /-- MCTP endpoint ID | 8 bits or none | 07_booking R341 | none -/
  eid : Option Byte
  /-- Endpoint that assigned the endpoint ID | 8 bits or none | 07_booking R341 | none -/
  peer : Option Byte
  /-- SMBus address of that endpoint | 7 bits | 07_booking R341 R342 | DESIGN CHOICE 0, written with the peer (log 134) -/
  peerSlave : Byte
  /-- Requests received on both channels since the firmware start | count | 07_booking R344 | 0 -/
  arrivals : Nat
  /-- MCTP control commands are answered (300 ms after power-good) | 1 bit | 14_startup R584 R590 | false -/
  mctpUp : Bool
  deriving DecidableEq, Repr

/-- An MSI-X table entry (R373, R386). -/
structure MsixEntry where
  /-- Message address | 64 bits | 08_host R373 | PRESUMED 0 (PCI Express, log 5) -/
  addr : W64
  /-- Message data | 32 bits | 08_host R373 | PRESUMED 0 (log 5) -/
  data : W32
  /-- Masked | 1 bit | 08_host R386 | PRESUMED 1 (log 5) -/
  masked : Bool
  /-- The entry has been programmed | 1 bit | 08_host R386 | false -/
  programmed : Bool
  deriving DecidableEq, Repr

/-- The PCI Express endpoint (R372 to R386). -/
structure Pcie where
  /-- Unit disregarded or failed is not reported; the link is up | 1 bit | 14_startup R596 | false -/
  linkUp : Bool
  /-- Link Status, Current Link Speed: 1 to 5 for 2.5 to 32 GT/s | 4 bits | 08_host R373 R374 | 0, before training -/
  speed : Nat
  /-- Link Status, Negotiated Link Width | 6 bits | 08_host R374 | 0, before training -/
  width : Nat
  /-- Configuration requests complete successfully | 1 bit | 14_startup R596 | false -/
  ready : Bool
  /-- Bus Master Enable | 1 bit | 08_host R375 | PRESUMED 0 (log 5) -/
  busMaster : Bool
  /-- Power state D3hot (false: D0) | 1 bit | 08_host R373 R375 | PRESUMED D0 (log 5) -/
  d3hot : Bool
  /-- Relaxed Ordering Enable | 1 bit | 08_host R377 | PRESUMED 1 (log 5) -/
  relaxed : Bool
  /-- MSI-X Enable | 1 bit | 08_host R373 | PRESUMED 0 (log 5) -/
  msixEnabled : Bool
  /-- Completion Timeout value programmed (0: none, 40 ms) | 4 bits | 08_host R373 | 0 -/
  timeoutRange : Nat
  /-- BAR registers BAR0 to BAR5: address bits, and the type bits in the low nibble | 6 of 32 bits | 08_host R378 | PRESUMED address 0 (log 5) -/
  bars : List W32
  /-- Other writable configuration bytes | table of bytes | 08_host R373 | PRESUMED 0 (log 5) -/
  config : Bytes
  /-- MSI-X table | 2,048 entries | 08_host R373 R380 | PRESUMED masked (log 5) -/
  msix : Table MsixEntry
  /-- PBA: vectors with their bit set | 2,048 bits | 08_host R373 R386 | empty (log 5) -/
  pba : List Nat
  /-- Vectors within 2 microseconds of their last message | list | 08_host R386, 07_booking R337 | empty -/
  holdoff : List Nat
  /-- Vectors with an interrupt that arrived within their interval | list | 08_host R386 | empty -/
  due : List Nat
  /-- RNG_IRQ_PEND0 to 63: rings with their bit set | 4,096 bits | 08_host R382 | 0 -/
  irqPend : List Nat
  deriving DecidableEq, Repr

/-! ## The Hayloft (chapter 09) -/

/-- How far the checks of R404 have come. -/
inductive CartPhase where
  | none | checking | serving
  deriving DecidableEq, Repr

/-- A capacity-learning run (R420). -/
structure LearnRun where
  out : Rat
  /-- Length of the pause so far, microseconds -/
  pauseUs : Nat
  deriving DecidableEq, Repr

/-- A scheduled or running anchor walk (R423). -/
structure Walk where
  id : W32
  empty : Bool
  running : Bool
  /-- Charging has been limited since the walk began (full walk) -/
  limited : Bool
  deriving DecidableEq, Repr

/-- The Hayloft: cartridge, converter and estimator. -/
structure Hay where
  /-- Unit entry of the reservoir | 3 bits | 08_host R389 R391, 09_hayloft R408 | absent (no thermistor contact yet) -/
  entry : UnitState
  /-- Insertion checks | | 09_hayloft R404 | none -/
  phase : CartPhase
  /-- CART_ID read at insertion | 64 bits or none | 09_hayloft R403 R406 | none -/
  cartId : Option W64
  /-- Disconnect closed | 1 bit | 09_hayloft R398 R405 | open -/
  closed : Bool
  /-- Converter enabled | 1 bit | 09_hayloft R404 | stopped -/
  converter : Bool
  /-- Charging only, up to 2 A, until the lowest cell reaches 2.25 V | 1 bit | 09_hayloft R404 | false -/
  preCharge : Bool
  /-- Cells above 3.80 V that balancing bleeds | indices 0 to 13 | 09_hayloft R402 | none -/
  bled : List Nat
  /-- Time for which every cell has been at full and the current small, microseconds | | 09_hayloft R413 | 0 -/
  fullUs : Nat
  /-- Charge current limited to 0.9 A (highest cell at 3.78 V or above) | 1 bit | 09_hayloft R399 | false -/
  slowCharge : Bool
  /-- Charging stopped by a cell at 3.80 V | 1 bit | 09_hayloft R399 | false -/
  stopHigh : Bool
  /-- Discharging stopped by the lowest cell at 2.20 V | 1 bit | 09_hayloft R399 | false -/
  stopLow : Bool
  /-- Charging stopped by a cell temperature below 0 degrees | 1 bit | 09_hayloft R399 | false -/
  stopCold : Bool
  /-- Converter stopped by a cell temperature of 65 degrees or more, or the 70 degree trip | 1 bit | 09_hayloft R399 | false -/
  stopHot : Bool
  /-- Cell temperature last sampled, millidegrees | | 09_hayloft R397 R406 | DESIGN CHOICE 0 (log 3) -/
  tempMc : Int
  /-- Implausible thermistor samples in a row | 0 to 2 | 09_hayloft R406 | 0 -/
  badSamples : Nat
  /-- Plausible thermistor samples in a row, to ten | | 09_hayloft R404 | 0 -/
  goodSamples : Nat
  /-- Stack current last sampled, microamperes, positive while charging | | 09_hayloft R409 | 0 -/
  currentUa : Int
  /-- OFFSET, current of the zero measurement, coulombs per second | | 09_hayloft R411 | DESIGN CHOICE 0 (log 3) -/
  offset : Rat
  /-- Charge above empty q, coulombs | | 09_hayloft R412 R416 | DESIGN CHOICE 0 (log 3) -/
  q : Rat
  /-- Capacity cap, coulombs | | 09_hayloft R412 R416 | 428.572 (R416, no stored record) -/
  cap : Rat
  /-- Uncertainty u, coulombs | | 09_hayloft R412 R416 | DESIGN CHOICE 0 (log 3) -/
  u : Rat
  /-- Pending correction c, coulombs | | 09_hayloft R412 R416 | 0 -/
  c : Rat
  /-- u / cap has passed 5 % and was recorded | 1 bit | 09_hayloft R419 | false -/
  over5 : Bool
  /-- Learning run open | | 09_hayloft R420 | none -/
  run : Option LearnRun
  /-- Sample rate 4 kHz (false: 250 Hz) | 1 bit | 09_hayloft R410 | 250 Hz -/
  fast : Bool
  /-- 4 kHz samples in a row with |I| at most 2 A | count | 09_hayloft R410 | 0 -/
  quiet : Nat
  /-- Working copy of the learned values | 64 bytes | 09_hayloft R428 | as the record read -/
  record : EstRecord
  /-- Charge discharged, coulombs, not yet a whole coulomb of THROUGHPUT | | 09_hayloft R428 | 0 -/
  spent : Rat
  /-- Walk scheduled or running | | 09_hayloft R423 R425 | none -/
  walk : Option Walk
  /-- Offset of the walk now applied to the input draw, nanowatts | | 09_hayloft R423 | 0 -/
  walkNw : Int
  /-- Next WALK_ID | 32 bits | 07_booking R358 | DESIGN CHOICE 1 (log 3) -/
  nextWalk : W32
  deriving DecidableEq, Repr

/-! ## Timetable, compute step and power (chapter 10) -/

/-- Power state (R437). -/
inductive PowerState where
  | run | trimmed | idle | holdUp | standby
  deriving DecidableEq, Repr

/-- The power controller (R436 to R473) and the control engine (R447 to R455). -/
structure Power where
  /-- Power state | 5 values | 10_timetable R437 | DESIGN CHOICE standby until the ladder starts; Run from FW_STATE 3 (log 12) -/
  state : PowerState
  /-- SETPOINT in mW | 32 bits | 10_timetable R441 R445 | DESIGN CHOICE 0 (log 3) -/
  setpoint : Nat
  /-- SLEW in mW/s | 32 bits | 10_timetable R441 R445 | 200,000 -/
  slew : Nat
  /-- MODE manual | 1 bit | 10_timetable R441 R445 | automatic -/
  manual : Bool
  /-- DUTY, Q2.14 | 16 bits | 10_timetable R441 | 0 -/
  duty : BitVec 16
  /-- Small configuration in force | 1 bit | 10_timetable R445 | true -/
  small : Bool
  /-- Manual mode was left and the integrator preset is due at the next tick | 1 bit | 10_timetable R453 | false -/
  transfer : Bool
  /-- TIMETABLE_SET requests awaiting the tick at which they take effect | list | 10_timetable R444 | empty -/
  pendingSet : List Request
  /-- Ramp value in nW | | 10_timetable R443 | DESIGN CHOICE 0 (log 3) -/
  ramp : Nat
  /-- delta of the outer loop, nW | signed | 10_timetable R452 | 0 -/
  delta : Int
  /-- State estimates xh1 to xh4, Q2.14 | 4 of 16 bits | 10_timetable R449 | DESIGN CHOICE 0 (log 3) -/
  xh1 : BitVec 16
  xh2 : BitVec 16
  xh3 : BitVec 16
  xh4 : BitVec 16
  /-- Last command applied uc, Q2.14 | 16 bits | 10_timetable R449 | 0 -/
  uc : BitVec 16
  /-- Sticky saturation flags of xh1, xh2, xh3, xh4, u, r, p | 7 bits | 10_timetable R450 | 0 -/
  satFlags : BitVec 7
  /-- Overrun counter | 64 bits | 10_timetable R454 | 0 -/
  overruns : W64
  /-- Overruns in a row | count | 10_timetable R455 | 0 -/
  overrunRow : Nat
  /-- Fallback of R455 in force | 1 bit | 10_timetable R455 R456 | false -/
  fallback : Bool
  /-- Trial of the restarted engine under way (2,000 ticks) | 1 bit | 10_timetable R455 | false -/
  trial : Bool
  /-- Operating second of the last fallback | | 10_timetable R455 | none -/
  lastFallback : Option Nat
  /-- Last measurements: input draw, converter power, in mW | signed | 10_timetable R436 | DESIGN CHOICE 0 (log 3) -/
  inputMw : Nat
  convMw : Int
  /-- Input and compute draw of the last 20 ticks, newest first, mW: 1 ms | up to 20 pairs | 10_timetable R436 R457 R458 | empty -/
  recent : List (Nat × Int)
  /-- Means of compute draw over 10 ms, newest first, mW | up to 1,000 | 10_timetable R445 | empty -/
  draws : List Int
  /-- Means of input draw over 10 ms in mW and of the ramp value in nW, newest first | up to 100 pairs | 10_timetable R436, 12_train R526 | empty -/
  inputs : List (Nat × Nat)
  /-- Sums over the current 10 ms of input draw, compute draw and ramp value, and the ticks in it | | 10_timetable R436 R445, 12_train R526 | 0 -/
  sumInput : Nat
  sumDraw : Int
  sumRamp : Nat
  ticks : Nat
  /-- Mean input draw over the last 10 ms, mW | 32 bits | 07_booking R358 | 0 -/
  meanInput : Nat
  /-- Ceilings: power state, core-rail current, input and floor, input maximum, sustained power, thermal | 6 of 16 to 64 | 10_timetable R457 | 64 -/
  ceilings : List Nat
  /-- Compute step n in force | 16 to 64 | 10_timetable R457 R459 | 64 -/
  step : Nat
  /-- Lowest compute step since it was last recorded | 16 to 64 | 12_train R526 | 64 -/
  lowStep : Nat
  /-- Step to which a change is under way | 16 to 64 or none | 10_timetable R459 R465 | none -/
  target : Option Nat
  /-- Core voltage in mV | | 10_timetable R459 | V(64) -/
  coreMv : Nat
  /-- Sustained-power bucket in microjoules | 0 to 1,200,000,000 | 10_timetable R458 | 0 -/
  bucket : Nat
  /-- Droop stretch active, with the partition of its first detector | partition or none | 10_timetable R464, 12_train R526 | none -/
  stretch : Option Nat
  /-- Step changes deferred by the stretch | 1 bit | 10_timetable R465 | false -/
  deferred : Bool
  /-- Compute clock stopped by the thermal trip | 1 bit | 10_timetable R468 | false -/
  tripped : Bool
  /-- Compute clock stopped by Hold-up or a power-cycle request | 1 bit | 10_timetable R470 R609, 11_faults R506 | false -/
  clockStopped : Bool
  /-- Movers issue on alternate fabric cycles (VDD_FAB) | 1 bit | 10_timetable R463 | false -/
  fabLimited : Bool
  /-- Trimming stopped at a rung that would need a granted partition | 1 bit | 10_timetable R460 R461 | false -/
  trimStopped : Bool
  /-- Operating second of the last event of R461 | | 10_timetable R461 | none -/
  lastExcess : Option Nat
  /-- Fabric cycle of the last departure or release slot | count or none | 03_engines R140 | none -/
  lastSlot : Option Nat
  /-- Partition that received the last slot | 0 to 7 | 03_engines R141 | DESIGN CHOICE 7 (log 3) -/
  lastSlotPart : Nat
  /-- Energy counters KIND 0, indices 0 to 10, in mJ | 11 of 64 bits | 10_timetable R472 | 0 -/
  energy : List Nat
  /-- Energy counters KIND 1, by energy id, in mJ | 4,096 of 64 bits | 10_timetable R472 | 0 -/
  energyId : Table Nat
  deriving DecidableEq, Repr

/-! ## Signal Box and recovery (chapter 11) -/

/-- An event (R482) in the Signal Box log. -/
structure Event where
  id : Nat
  code : Nat
  cls : Nat
  level : Nat
  taken : Nat
  escalated : Bool
  absorbed : Bool
  injected : Bool
  state : Nat
  ctx : Option (Nat × W16)
  source : W32
  stamp : W64
  info : W32
  deriving DecidableEq, Repr

/-- A recovery in progress (R499): the rung, its scope by a SOURCE value, and the events it serves. -/
structure Recovery where
  level : Nat
  scope : W32
  events : List Nat
  /-- RESET_REQUESTs to be answered when it completes (R361) -/
  reqs : List Request
  /-- Units to be fenced when the reset completes, as SOURCE values (R484, R481, R496) -/
  fence : List W32
  deriving DecidableEq, Repr

/-- A report that a source presents on its pair until the Signal Box reads it (R477). -/
structure Report where
  source : W32
  code : Nat
  ctx : Option (Nat × W16)
  info : W32
  injected : Bool
  deriving DecidableEq, Repr

/-- Milepost of a unit (R490). -/
structure Milepost where
  /-- Counter | 32 bits | 11_faults R490 | DESIGN CHOICE 0 (log 3) -/
  count : W32
  deriving DecidableEq, Repr

/-- The Signal Box and the reset and recovery controller. -/
structure Sbx where
  /-- Log | up to 1,024 entries | 11_faults R483 | empty -/
  log : List Event
  /-- Open events that found no log place | list | 11_faults R483 R487 | empty -/
  unlogged : List Event
  /-- Next EVENT_ID, counted from 1 in each session | 32 bits | 11_faults R482 | 1 -/
  nextId : Nat
  /-- Reports pending on the sources' pairs, oldest first | list | 11_faults R477 | empty -/
  reports : List Report
  /-- Pairs disregarded after a signalling fault | list of SOURCE | 11_faults R479 | empty -/
  deaf : List W32
  /-- Pairs driven by SBX_INJECT: SOURCE and pattern | list | 11_faults R479 R480 | empty -/
  driven : List (W32 × Bool)
  /-- Recoveries in progress | list | 11_faults R499 R503 | empty -/
  recoveries : List Recovery
  /-- Mileposts by SOURCE value | table of 32 bits | 11_faults R490 | 0 -/
  mileposts : Table Milepost
  /-- Temperature sensors disregarded | list of SOURCE | 11_faults R481 | empty -/
  sensorsOut : List W32
  /-- Module watchdog armed | 1 bit | 01_architecture R51 | disarmed -/
  watchdog : Bool
  /-- Deadline timer of a full module reset running | 1 bit | 11_faults R500 | false -/
  resetTimer : Bool
  deriving DecidableEq, Repr

/-! ## The Train Register (chapter 12) -/

/-- A slot record (R521). -/
structure Slot where
  code : Nat
  source : W32
  /-- MODE LIN (false: LOG2), BASE and WIDTH | R521 R526 -/
  lin : Bool
  base : Int
  width : Nat
  total : Nat
  low : Int
  high : Int
  firstStamp : W64
  lastStamp : W64
  /-- 64 counts, by bin -/
  bins : Table Nat
  /-- SEQ | 32 bits | 12_train R521 R524 | 0 -/
  seq : Nat
  /-- Operating millisecond of the last recording, for occurrences (R526) -/
  lastMs : Nat
  deriving DecidableEq, Repr

/-- An annotation entry (R528). -/
structure Annotation where
  stamp : W64
  wall : W64
  client : W32
  text : List Byte
  deriving DecidableEq, Repr

/-- The recorder's contents: gathered in control SRAM, and as flushed to bank 0. -/
structure TrgData where
  /-- GENERATION | 32 bits | 12_train R520 R532 | DESIGN CHOICE 0 (log 3) -/
  generation : Nat
  /-- OVERFLOW | 32 bits | 12_train R520 R522 | 0 -/
  overflow : Nat
  /-- Code slots, SLOTS_USED of them | up to 4,096 of 384 bytes | 12_train R520 R521 | empty -/
  slots : List Slot
  /-- First-occurrence list, OCCURRENCES of them | up to 1,024 of 32 bytes | 12_train R520 R527 | empty -/
  firsts : List Event
  /-- Annotation list | up to 256 of 96 bytes | 12_train R520 R528 | empty -/
  notes : List Annotation
  deriving DecidableEq, Repr

/-- A clear record (R533). -/
structure ClearRecord where
  stamp : W64
  genBefore : Nat
  genAfter : Nat
  client : W32
  slotsBefore : Nat
  done : Bool
  key : Nat
  overflowBefore : Nat
  nonce : List Byte
  deriving DecidableEq, Repr

/-- The Train Register (R517 to R538). -/
structure Trg where
  /-- Recordings in control SRAM | | 12_train R523 | empty -/
  live : TrgData
  /-- Bank 0 as last flushed | 4 MiB area | 12_train R520 R523 | empty -/
  bank0 : TrgData
  /-- Journal batch closed and not shown complete in place | | 12_train R523 R525 | none -/
  journal : Option TrgData
  /-- Operating seconds | 40 bits | 12_train R517 R518 | DESIGN CHOICE 0 (log 4) -/
  seconds : Nat
  /-- Operating seconds stored at the last flush | 40 bits | 12_train R518 | DESIGN CHOICE 0 (log 4) -/
  stored : Nat
  /-- Power-cycle count | 24 bits | 12_train R517 R518 | DESIGN CHOICE 0 (log 4) -/
  powerCycles : Nat
  /-- BANK0_BAD | 1 bit | 12_train R535 R536 | 0 -/
  bad : Bool
  /-- Recordings of the summary form in control SRAM (no bins) | up to 992 slots | 12_train R536 R537 | empty -/
  summary : List Slot
  /-- Summary slots as last flushed to bank 1 | up to 992 of 64 bytes | 12_train R536 | empty -/
  sumStored : List Slot
  /-- Summary OVERFLOW | 32 bits | 12_train R536 | 0 -/
  sumOverflow : Nat
  /-- Clear records, newest last | up to 16 of 64 bytes | 12_train R533 | empty -/
  clears : List ClearRecord
  /-- Clears since manufacture | count | 12_train R533 R536 | 0 -/
  clearCount : Nat
  /-- The recorder has stopped | 1 bit | 12_train R538 | false -/
  stopped : Bool
  /-- Counters as last recorded, by code and index | table | 12_train R526 | 0 -/
  lastCounters : Table Nat
  deriving DecidableEq, Repr

/-! ## Security, firmware update and Roundhouse (chapter 13) -/

/-- A live nonce (R559). -/
structure Nonce where
  chan : Chan
  value : BitVec 256
  /-- Time of issue in microseconds since power-good -/
  issued : Nat
  deriving DecidableEq, Repr

/-- An open firmware update (R366, R561). -/
structure Update where
  imageBytes : Nat
  /-- Ranges of bytes received, as (first, one past the last), rising and disjoint -/
  got : List (Nat × Nat)
  verified : Bool
  committed : Bool
  /-- Its FW_UPDATE_COMMIT writes the NOR (R562) -/
  writing : Bool
  /-- The staged image was discarded (R43, R367, R562) -/
  discarded : Bool
  deriving DecidableEq, Repr

/-- State of the PLDM update in Roundhouse (R563). -/
inductive PldmState where
  | idle | learn | ready | download | verify | apply | activate
  deriving DecidableEq, Repr

/-- Roundhouse (R563, R564). -/
structure Roundhouse where
  /-- PLDM update state | 7 values | 13_security R563 | idle -/
  state : PldmState
  /-- Terminus id | 8 bits | 13_security R563 | DESIGN CHOICE 0 (log 3) -/
  tid : Byte
  /-- Image bytes of the component, announced | 32 bits | 13_security R563 | 0 -/
  size : Nat
  /-- Header held in control SRAM | up to 128 bytes | 13_security R564 | empty -/
  header : List Byte
  /-- Bytes taken so far | 32 bits | 13_security R564 | 0 -/
  taken : Nat
  /-- Result of the image check | 1 bit | 13_security R564 | false -/
  verified : Bool
  deriving DecidableEq, Repr

/-- The security root (R539 to R572). -/
structure Sec where
  /-- NOR contents | 64 MiB of bytes, erased reads 0xFF | 13_security R543, 00_scope R10 | DESIGN CHOICE 0xFF throughout (log 4) -/
  nor : Bytes
  /-- Image bytes copied to control SRAM: VERSION, SVN, SIGNER_KEY of the running image | | 13_security R545 | DESIGN CHOICE 0 and none (log 3) -/
  runVersion : Nat
  runSvn : Nat
  /-- Debug level | 0 Closed, 1 Observe, 2 Intrusive | 13_security R567 R571 | Closed -/
  level : Nat
  /-- Measurements 0 to 15 | 16 of 64 bytes | 13_security R554 | DESIGN CHOICE 0 (log 3) -/
  measures : List (List Byte)
  /-- Identity key sealed | 1 bit | 13_security R569 R570 | false (lifted by power-good) -/
  idSealed : Bool
  /-- Live nonces, oldest first | up to 4 per channel | 13_security R559 | empty -/
  nonces : List Nonce
  /-- Quote budgets: attestation, identity | 0 to 16, 0 to 2 | 13_security R557 | 1 and 1 at firmware start -/
  attestBudget : Nat
  identityBudget : Nat
  /-- next and top of the attestation key | 20 bits | 13_security R552 | 0 -/
  attestNext : Nat
  attestTop : Nat
  /-- next and top of the identity key | 20 bits | 13_security R552 | 0 -/
  identityNext : Nat
  identityTop : Nat
  /-- Private RAM of the security root: unwrapped seeds of the identity and the attestation key | 768 bits or none each | 13_security R549 | none -/
  identityRam : Option KeyPair
  attestRam : Option KeyPair
  /-- Open firmware update | | 13_security R561, 07_booking R366 | none -/
  update : Option Update
  /-- Boundary-scan instruction selected | 4 values | 13_security R567 | BYPASS -/
  jtag : Jtag
  /-- Boundary-scan cells as preloaded or sampled | bits | 13_security R567 | DESIGN CHOICE empty (log 3) -/
  cells : List Bool
  /-- Bytes of the 16 MiB of control SRAM that the debug port wrote | table of bytes | 01_architecture R22, 13_security R567 | empty -/
  sram : Table (Option Byte)
  rh : Roundhouse
  deriving DecidableEq, Repr

/-! ## Start-up and pins (chapter 14) -/

/-- What the module as a whole is doing. -/
inductive Phase where
  | off            -- no power, or TRAY_RESET_L low and regulators off
  | rom            -- power-good, the ROM or firmware runs
  | resetting      -- in a full module reset, before its release
  | held           -- held in reset by the clock monitor (R35)
  | cycle          -- a power cycle is requested (R507)
  deriving DecidableEq, Repr

/-- Start-up, pins and the input (R575 to R605). -/
structure Start where
  /-- Phase of the module | 5 values | 14_startup R586 R590 | off -/
  phase : Phase
  /-- EARLY_BREAK_L high | 1 bit | 14_startup R575 | DESIGN CHOICE low (log 3) -/
  earlyBreak : Bool
  /-- TRAY_RESET_L high | 1 bit | 14_startup R582 | high (pulled up, R582) -/
  trayReset : Bool
  /-- PERST_L high | 1 bit | 14_startup R582 | DESIGN CHOICE low (log 3) -/
  perst : Bool
  /-- ALERT_L driven low | 1 bit | 14_startup R582, 11_faults R507 | false -/
  alert : Bool
  /-- DBG_TRIG level | 1 bit | 13_security R567 | low -/
  dbgTrig : Bool
  /-- Input switch on | 1 bit | 14_startup R600 | DESIGN CHOICE on (log 3) -/
  inputSwitch : Bool
  /-- Input conditions of R586 met | 1 bit | 14_startup R586 | DESIGN CHOICE false (log 3) -/
  inputGood : Bool
  /-- Control region powered | 1 bit | 14_startup R600 R602 | false before power-good -/
  control : Bool
  /-- Hold-up with the reservoir in service (false: on bulk capacitance) | 1 bit | 14_startup R602 | false -/
  holdOnCart : Bool
  /-- CAUSE of the next FIRMWARE_START | 0 to 3 | 07_booking R370 | 0, power-on -/
  cause : Nat
  /-- The start in progress is a fast start (R594) | 1 bit | 14_startup R594 | false -/
  fast : Bool
  /-- Profile rungs passed so far | partitions | 14_startup R591 | 0 -/
  rung : Nat
  /-- Partitions whose self-test is over | list | 14_startup R591 | empty -/
  testedParts : List Nat
  /-- Microseconds since power-good or reset release, by inner-loop ticks | count | 10_timetable R443 (log 2) | 0 -/
  us : Nat
  deriving DecidableEq, Repr

/-! ## What leaves the module -/

/-- What the module sends out, in order (the model's own record of its outputs, log 1). -/
inductive Out where
  | msix (vector : Nat) (addr : W64) (data : W32)
  | hostWrite (addr : Nat) (bytes : List Byte) (relaxed : Bool)
  | readData (bytes : List Byte)
  | unsupported
  | completerAbort
  | mctp (dst : Byte) (packets : List (List Byte))
  | hostRead (addr : Nat) (bytes : Nat)
  | control (dst : Byte) (name : String) (bytes : List Byte)
  | frame (port : Nat) (bytes : List Byte)
  | alertLow
  | alertHigh
  | debugRead (bytes : List Byte)
  | pins (cells : List Bool)
  | debugDenied
  deriving DecidableEq, Repr

/-! ## The machine -/

/-- The whole module and the queue of commands waiting for it. -/
structure State where
  /-- Commands waiting, first in first out | list | the block form of this model (log 1) | empty -/
  pending : List Instr
  fuses : Fuses
  mram : Mram
  parts : List Partition
  cores : List ControlCore
  cap : Cap
  /-- Context table | 262,144 entries of 128 bytes | 04_rings R149 | every entry FREE with generation 0x0001 (R209) -/
  ctxs : Table Context
  /-- Rings | 4,096 | 04_rings R159 R161 | UNBOUND -/
  rings : Table Ring
  /-- Tokens | 65,536 | 04_rings R182 | VALUE 0, no owner -/
  tokens : Table Token
  marsh : Marsh
  drops : Drops
  mem : Memory
  yard : Yard
  /-- BAR4 windows | 256 | 05_memory R252 | unbound -/
  windows : Table Window
  rails : Rails
  book : Book
  pcie : Pcie
  hay : Hay
  power : Power
  sbx : Sbx
  trg : Trg
  sec : Sec
  start : Start
  /-- Free values used so far: the model's own counter, no state of the spec (log 6) | count | - | DESIGN CHOICE 0 -/
  fresh : Nat
  /-- Everything sent out, oldest first: the model's own record, no state of the spec (log 1) | list | - | empty -/
  out : List Out
  deriving DecidableEq, Repr

/-! ## Reset -/

/-- No fence and no reset so far. -/
def History.empty : History := { fences := [], unitResets := [], rungDone := [], powerCycles := [] }

/-- Two valid copies of the same record (a record at manufacture, log entry 4). -/
def TwoCopy.fresh {α : Type} (v : α) : TwoCopy α :=
  { seq0 := some 1, val0 := v, seq1 := some 0, val1 := v }

/-- A record no copy of which is valid. -/
def TwoCopy.blank {α : Type} (v : α) : TwoCopy α :=
  { seq0 := none, val0 := v, seq1 := none, val1 := v }

/-- The value of an unlisted ledger: L 0, every status bit clear, residue 0 (R63, R65, R83). -/
def Ledger.zero : Ledger := { l := 0, sat := false, invalid := false, inexact := false, res := 0, off := false }

/-- A bank that holds no open tile sequence. -/
def Bank.closed : Bank :=
  { seq := none, anchor := 0, cells := [], dataErr := false, retried := false, log := []
    rebuild := false, replayed := false, lost := false, held := false }

/-- A matrix engine at reset. -/
def MatrixEngine.reset : MatrixEngine :=
  { unit := .pending, logical := 31, pace := .parked, wants := none, bank0 := Bank.closed
    bank1 := Bank.closed, feedErr := false, residueAt := none, lastCtx := none }

/-- A vector engine at reset. -/
def VectorEngine.reset : VectorEngine :=
  { unit := .pending, pace := .parked, wants := none, feedErr := false, residueAt := none
    lastCtx := none }

/-- A data mover at reset. -/
def Mover.reset : Mover := { unit := .pending, reads := [] }

/-- A partition at reset. -/
def Partition.reset : Partition :=
  { unit := .pending, mes := List.replicate 20 MatrixEngine.reset, vec := VectorEngine.reset
    dms := List.replicate 4 Mover.reset, tested := false, yardFailed := false, heldForPower := false }

/-- A context table entry at reset: FREE with generation 0x0001 (R149, R209). -/
def Context.reset : Context :=
  { state := .free, gen := 1, stepInvalid := false, priority := 0, prefetch := 0x40, feedAhead := 4
    commitRing := 0, energyId := 0, tenant := 0, srSeed := 0, step := 0, ptRoot := 0, yard := []
    pages := [], peers := [], regions := [], buddy := none, dCur := [], dPrev := [], committed := none
    mirror := none, store := none, groups := [], opDone := [], destroyReq := none, lostPart := false }

/-- A ring at reset: UNBOUND (R161, R209). -/
def Ring.reset : Ring :=
  { state := .unbound, ctx := 0, logSize := 0, base := 0, cplBase := 0, host := false, irq := 0
    feeder := none, head := 0, tail := 0, fetched := 0, cause := .none, window := [], counts := []
    recordLost := false }

/-- A token at reset: VALUE 0 and no owner (R182, R209). -/
def Token.reset : Token := { value := 0, owner := none }

/-- Dispatch state of a unit at reset (R177). -/
def Dispatch.reset : Dispatch :=
  { spent := List.replicate 8 0, last := List.replicate 8 none, cur := 0, freed := 0, taken := 0 }

/-- Class weights 2^c (R177). -/
def Marsh.defaultWeights : List Nat := [1, 2, 4, 8, 16, 32, 64, 128]

/-- Marshalling at reset. -/
def Marsh.reset : Marsh := { weights := Marsh.defaultWeights, units := [], flights := [] }

/-- The drop counters at reset (R202). -/
def Drops.reset : Drops :=
  { reply := 0, flit := 0, refused := 0, signal := 0, doorbell := 0, aperture := 0, epoch := 0
    misroute := 0 }

/-- A memory device at reset. -/
def MemDevice.reset : MemDevice := { unit := .pending, attempts := 0, trained := false }

/-- Module memory at reset. -/
def Memory.reset : Memory :=
  { devices := List.replicate 12 MemDevice.reset, map := [], bytes := [], damaged := [], corrected := []
    retired := [], retiredOf := List.replicate 12 0, zeroing := [], grants := [], saveArea := [] }

/-- The Yard at reset. -/
def Yard.reset : Yard :=
  { bytes := [], damaged := [], corrected := [], retired := [], moved := [], scrubbed := []
    stallSeq := List.replicate 8 0 }

/-- A BAR4 window at reset: unbound. -/
def Window.reset : Window := { bound := none }

/-- Receive buffer depths of the virtual lanes (R280). -/
def Port.depths : List W16 := [512, 512, 512, 64]

/-- A rail port at reset: DOWN, sequences at 0, credits at full depth (R281, R284). -/
def Port.reset : Port :=
  { unit := .pending, state := .down, peerNode := 0xFFFFFFFF, frame := 0, txNext := 0, replayBuf := []
    replayAt := none, lastReplay := none, sent := [0, 0, 0, 0], cred := Port.depths
    txq := [[], [], [], []], next := 0, discarding := false, replayFrom := 0
    rxPart := [[], [], [], []], rxq := [[], [], [], []], rxCut := [false, false, false, false], freed := [0, 0, 0, 0]
    withheld := [0, 0, 0, 0], limited := false, rate := (0, 0), inject := none
    fecCorrected := 0, fecUncorrectable := 0, slotFail := 0, slotFailInj := 0, trailerFail := 0
    trailerFailInj := 0, replays := 0, linkDown := [0, 0, 0, 0, 0], resent := 0, collDuplicate := 0 }

/-- The rails at reset: no node id, no route, epoch 0 (R296, R298, R505). -/
def Rails.reset : Rails :=
  { ports := List.replicate 20 Port.reset, node := 0xFFFFFFFF, routes := [], epoch := 0, revoked := []
    stopped := false, nextTag := 0, out := [], waiting := [], held := [], lastPort := 0, resend := [], notices := [], accums := [] }

/-- A Booking Office channel at a firmware start (R325, R332). -/
def Channel.reset : Channel :=
  { inSeq := 0, outSeq := 0, outAck := 0xFFFFFFFF, chain := [], received := [], running := []
    queue := [], lost := 0, sent := [], tail := none }

/-- The Booking Office at reset (R332, R341). -/
def Book.reset : Book :=
  { pcie := Channel.reset, mctp := Channel.reset, inWin := [], outWin := [], pending := false
    session := 0, err := 0, errSlot := 0, fwState := 0, eid := none, peer := none, peerSlave := 0, arrivals := 0, mctpUp := false }

/-- An MSI-X table entry at reset (log entry 5). -/
def MsixEntry.reset : MsixEntry := { addr := 0, data := 0, masked := true, programmed := false }

/-- The endpoint at reset (R376, log entry 5). -/
def Pcie.reset : Pcie :=
  { linkUp := false, ready := false, speed := 0, width := 0, busMaster := false, d3hot := false, relaxed := true
    msixEnabled := false, timeoutRange := 0, bars := [4, 0, 4, 0, 0xC, 0], config := [], msix := []
    pba := [], holdoff := [], due := [], irqPend := [] }

/-- The learned values where no record is valid (R416). -/
def EstRecord.blank : EstRecord :=
  { cartId := 0, capacity := 0, learnCount := 0, learned := false, closed := false, offset := 0
    lastFull := 0, lastEmpty := 0, lastLearn := 0, throughput := 0 }

/-- The Hayloft at reset (R400, R416, R435). -/
def Hay.reset : Hay :=
  { entry := .absent, phase := .none, cartId := none, closed := false, converter := false
    preCharge := false, bled := [], fullUs := 0, slowCharge := false, stopHigh := false, stopLow := false
    stopCold := false, stopHot := false, tempMc := 0, badSamples := 0, goodSamples := 0, currentUa := 0
    offset := 0, q := 0, cap := 428572 / 1000, u := 0, c := 0, over5 := false, run := none
    fast := false, quiet := 0, record := EstRecord.blank, spent := 0, walk := none, walkNw := 0
    nextWalk := 1 }

/-- A QSH-20 is fitted to a part (R2). -/
def reservoirFitted : Part → Bool
  | .qsw960N => false
  | _ => true

/-- The Hayloft of a part as delivered: its reservoir, where one is fitted, waits for the checks of R404 (R2). -/
def Hay.fitted (p : Part) : Hay := if reservoirFitted p then { Hay.reset with entry := .pending } else Hay.reset

/-- The power controller at reset: small configuration, every ceiling at 64, the bucket empty (R445,
R457, R458). -/
def Power.reset : Power :=
  { state := .standby, setpoint := 0, slew := 200000, manual := false, duty := 0, small := true
    transfer := false, pendingSet := [], ramp := 0, delta := 0, xh1 := 0, xh2 := 0, xh3 := 0, xh4 := 0
    uc := 0, satFlags := 0, overruns := 0, overrunRow := 0, fallback := false, trial := false
    lastFallback := none, inputMw := 0, convMw := 0, recent := [], draws := [], inputs := [], sumInput := 0, sumDraw := 0, sumRamp := 0
    ticks := 0, meanInput := 0, ceilings := List.replicate 6 64, step := 64, lowStep := 64, target := none
    coreMv := 550, bucket := 0, stretch := none, deferred := false, tripped := false
    clockStopped := false, fabLimited := false, trimStopped := false, lastExcess := none
    lastSlot := none, lastSlotPart := 7, energy := List.replicate 11 0, energyId := [] }

/-- The Signal Box at reset: an empty log, events counted from 1 (R482, R505). -/
def Sbx.reset : Sbx :=
  { log := [], unlogged := [], nextId := 1, reports := [], deaf := [], driven := [], recoveries := []
    mileposts := [], sensorsOut := [], watchdog := false, resetTimer := false }

/-- The recorder's areas when cleared (R521, R532). -/
def TrgData.empty : TrgData := { generation := 0, overflow := 0, slots := [], firsts := [], notes := [] }

/-- The Train Register at manufacture (R517, R518). -/
def Trg.reset : Trg :=
  { live := TrgData.empty, bank0 := TrgData.empty, journal := none, seconds := 0, stored := 0
    powerCycles := 0, bad := false, summary := [], sumStored := [], sumOverflow := 0, clears := [], clearCount := 0
    stopped := false, lastCounters := [] }

/-- Roundhouse before an update (R563). -/
def Roundhouse.reset : Roundhouse :=
  { state := .idle, tid := 0, size := 0, header := [], taken := 0, verified := false }

/-- The security root at reset: Closed, no seal, an erased NOR (R554, R570, log entry 4). -/
def Sec.reset : Sec :=
  { nor := [], runVersion := 0, runSvn := 0, level := 0
    measures := List.replicate 16 (List.replicate 64 0), idSealed := false, nonces := []
    attestBudget := 1, identityBudget := 1, attestNext := 0, attestTop := 0, identityNext := 0
    identityTop := 0, identityRam := none, attestRam := none, update := none, jtag := .bypass, cells := [], sram := [], rh := Roundhouse.reset }

/-- The fuses at manufacture, unprovisioned (R539, log entry 4). -/
def Fuses.reset : Fuses :=
  { part := .qsw960H, serial := 0, partDisable := 0, memDisable := 0, railDisable := 0
    coreMv := List.replicate 49 550, estTrims := 0, deviceSecret := 0, fwSignerHash := 0, ownerHash := 0
    lifecycle := 0, ownerDestroyed := false, svn := 0, bad := false }

/-- The MRAM records at manufacture (log entry 4). -/
def Mram.reset : Mram :=
  { start := TwoCopy.fresh (0, 0), intrusive := TwoCopy.fresh 0, est0 := List.replicate 64 0, est1 := List.replicate 64 0
    identityKey := TwoCopy.fresh none, attestKey := TwoCopy.fresh none, ownerKey := TwoCopy.fresh none
    identityTop := TwoCopy.fresh 0, attestTop := TwoCopy.fresh 0
    training := List.replicate 12 (TwoCopy.blank []), history := TwoCopy.fresh History.empty, cells := [] }

/-- Pins and start-up at power-on (R582, R586). -/
def Start.reset : Start :=
  { phase := .off, earlyBreak := false, trayReset := true, perst := false, alert := false
    dbgTrig := false, inputSwitch := true, inputGood := false, control := false, holdOnCart := false
    cause := 0, fast := false, rung := 0, testedParts := [], us := 0 }

/-- A control core at reset. -/
def ControlCore.reset : ControlCore := { unit := .pending, residueAt := none, halted := false }

/-- The capability descriptor before its first publication (R387, R389). -/
def Cap.reset : Cap :=
  { changeCount := 0, published := false, profile := 0, starting := false, trimmed := false
    trimCap := 8, profileBefore := 0 }

/-- The module right after power-on. -/
def State.reset : State :=
  { pending := [], fuses := Fuses.reset, mram := Mram.reset
    parts := List.replicate 8 Partition.reset, cores := List.replicate 16 ControlCore.reset
    cap := Cap.reset, ctxs := [], rings := [], tokens := [], marsh := Marsh.reset, drops := Drops.reset
    mem := Memory.reset, yard := Yard.reset, windows := [], rails := Rails.reset, book := Book.reset
    pcie := Pcie.reset, hay := Hay.fitted Fuses.reset.part, power := Power.reset, sbx := Sbx.reset, trg := Trg.reset
    sec := Sec.reset, start := Start.reset, fresh := 0, out := [] }

end Sys2Proof.Machine
end

