-- ==== Sys2Proof/Machine/Bits.lean ====
section
/-! DEFINITION. Byte order, bit fields, sparse tables and the CRC-32C: the operations every other file
uses to read and write fields, memory and tables. -/

namespace Sys2Proof.Machine

/-! ## Tables -/

/-- What a table reads at a key, `d` where it lists nothing. -/
def Table.get {α : Type} (d : α) : Table α → Nat → α
  | [], _ => d
  | (k, v) :: t, i => if i = k then v else Table.get d t i

/-- A table with a key set; setting what an unlisted key reads as removes the entry. -/
def Table.put {α : Type} [DecidableEq α] (d : α) (i : Nat) (v : α) : Table α → Table α
  | [] => if v = d then [] else [(i, v)]
  | (k, w) :: t =>
    if i < k then (if v = d then (k, w) :: t else (i, v) :: (k, w) :: t)
    else if i = k then (if v = d then t else (i, v) :: t)
    else (k, w) :: Table.put d i v t

/-- A table with one entry changed by a function. -/
def Table.mod {α : Type} [DecidableEq α] (d : α) (i : Nat) (f : α → α) (t : Table α) : Table α :=
  Table.put d i (f (Table.get d t i)) t

/-- Keys strictly rising, all above `b` when one is given, and no entry equal to the default. -/
def Table.wfFrom {α : Type} [DecidableEq α] (d : α) : Option Nat → Table α → Bool
  | _, [] => true
  | b, (k, v) :: t =>
    (match b with | none => true | some b => decide (b < k)) && decide (v ≠ d) &&
      Table.wfFrom d (some k) t

/-- The canonical form of a table. -/
def Table.wf {α : Type} [DecidableEq α] (d : α) (t : Table α) : Bool := Table.wfFrom d none t

/-! ## Lists as arrays -/

/-- Element i of a list, `d` beyond its end. -/
def nth {α : Type} (d : α) (l : List α) (i : Nat) : α := (l[i]?).getD d

/-- A list with element i changed; unchanged where i is beyond its end. -/
def setNth {α : Type} : List α → Nat → (α → α) → List α
  | [], _, _ => []
  | a :: t, 0, f => f a :: t
  | a :: t, i + 1, f => a :: setNth t i f

/-- Add an element to a set kept as a list. -/
def addTo {α : Type} [DecidableEq α] (x : α) (l : List α) : List α := if x ∈ l then l else l ++ [x]

/-- Take an element out of a set kept as a list. -/
def dropFrom {α : Type} [DecidableEq α] (x : α) (l : List α) : List α := l.filter (fun y => y ≠ x)

/-! ## Bytes and fields: least-significant byte first (R13) -/

/-- The number that bytes spell, least-significant first. -/
def leNat : List Byte → Nat
  | [] => 0
  | b :: t => b.toNat + 256 * leNat t

/-- n bytes of a number, least-significant first. -/
def leBytes : Nat → Nat → List Byte
  | 0, _ => []
  | n + 1, v => BitVec.ofNat 8 v :: leBytes n (v / 256)

/-- n bytes of a list from an offset; 0 beyond its end. -/
def slice (bs : List Byte) (off n : Nat) : List Byte :=
  let t := (bs.drop off).take n
  t ++ List.replicate (n - t.length) 0

/-- The little-endian number of n bytes at an offset. -/
def getLE (bs : List Byte) (off n : Nat) : Nat := leNat (slice bs off n)

/-- Bits [hi:lo] of a number. -/
def field (v hi lo : Nat) : Nat := v / 2 ^ lo % 2 ^ (hi + 1 - lo)

/-- A number of n bits read as two's complement. -/
def signed (n v : Nat) : Int := if v < 2 ^ (n - 1) then (v : Int) else (v : Int) - (2 : Int) ^ n

/-- The two's complement code of an integer in n bits. -/
def unsigned (n : Nat) (v : Int) : Nat := (v % (2 : Int) ^ n).toNat

/-- Bit i of a number. -/
def bit (v i : Nat) : Bool := v / 2 ^ i % 2 = 1

/-- A Bool as a bit. -/
def b2n (b : Bool) : Nat := if b then 1 else 0

/-- True where every listed byte is zero. -/
def allZero (bs : List Byte) : Bool := bs.all (fun b => b = 0)

/-! ## CRC-32C (R271) -/

/-- Eight shifts of the reflected Castagnoli polynomial. -/
def crcBits : Nat → Nat → Nat
  | 0, c => c
  | n + 1, c => crcBits n (if c % 2 = 1 then Nat.xor (c / 2) 0x82F63B78 else c / 2)

/-- The register after some bytes. -/
def crcBytes : List Byte → Nat → Nat
  | [], c => c
  | b :: t, c => crcBytes t (crcBits 8 (Nat.xor c b.toNat))

/-- CRC-32C: polynomial 0x1EDC_6F41, initial value 0xFFFF_FFFF, result complemented. -/
def crc32c (bs : List Byte) : W32 := BitVec.ofNat 32 (Nat.xor (crcBytes bs 0xFFFFFFFF) 0xFFFFFFFF)

/-! ## Memory -/

/-- The byte of a memory at an address; 0 where it lists nothing. -/
def Bytes.get (m : Bytes) (a : Nat) : Byte := Table.get 0 m a

/-- A memory with one byte stored. -/
def Bytes.put (m : Bytes) (a : Nat) (b : Byte) : Bytes := Table.put 0 a b m

/-- n bytes from an address. -/
def Bytes.read (m : Bytes) (a : Nat) : Nat → List Byte
  | 0 => []
  | n + 1 => Bytes.get m a :: Bytes.read m (a + 1) n

/-- A memory with bytes stored from an address. -/
def Bytes.write (m : Bytes) (a : Nat) : List Byte → Bytes
  | [] => m
  | b :: t => Bytes.write (Bytes.put m a b) (a + 1) t

/-- A memory in which a range reads 0. -/
def Bytes.clear (m : Bytes) (lo hi : Nat) : Bytes := m.filter (fun c => c.1 < lo ∨ hi ≤ c.1)

/-- The canonical form of a memory. -/
def Bytes.wf (m : Bytes) : Bool := Table.wf (0 : Byte) m

/-! ## Serial arithmetic modulo 2^32 -/

/-- (a − b) mod 2^32. -/
def sub32 (a b : W32) : Nat := (a - b).toNat

/-! ## Codes of the named states -/

/-- STATE codes of a unit entry (R390). -/
def unitCode : UnitState → Nat
  | .inService => 0 | .spare => 1 | .held => 2 | .fenced => 3 | .absent => 4 | .pending => 5

/-- STATE codes of a context (R151). -/
def ctxCode : CtxState → Nat
  | .free => 0 | .active => 1 | .halted => 2 | .teardown => 3 | .quarantine => 4 | .restoring => 5

/-- STATE codes of a ring (R161). -/
def ringCode : RingState → Nat
  | .unbound => 0 | .running => 1 | .halted => 2

/-- HALT_CAUSE codes (R161). -/
def causeCode : HaltCause → Nat
  | .none => 0 | .hostStop => 1 | .context => 2 | .overrun => 3 | .fetchFail => 4 | .waitTimeout => 5
  | .stepFailed => 6 | .milepost => 7 | .reset => 8 | .signalBox => 9 | .recordFail => 10

/-- STATE codes of a port, from DOWN = 0 to QUIET = 4 (R368). -/
def portCode : PortState → Nat
  | .down => 0 | .training => 1 | .init => 2 | .up => 3 | .quiet => 4

/-- POWER_STATE codes (R358). -/
def PowerState.code : PowerState → Nat
  | .run => 0 | .trimmed => 1 | .idle => 2 | .holdUp => 3 | .standby => 4

/-- A context's next generation: 0xFFFF goes to 0x0001 (R152). -/
def nextGen (g : W16) : W16 := if g = 0xFFFF then 1 else g + 1

/-- A range of numbers added to a list of ranges, kept rising and disjoint. -/
def addRange (lo hi : Nat) : List (Nat × Nat) → List (Nat × Nat)
  | [] => [(lo, hi)]
  | (a, b) :: t =>
    if hi < a then (lo, hi) :: (a, b) :: t
    else if b < lo then (a, b) :: addRange lo hi t
    else addRange (min lo a) (max hi b) t

end Sys2Proof.Machine
end

