-- ==== Sys2Proof/Machine/Flags.lean ====
section
/-! DEFINITION. Completion status codes (R146, R201, R237, R315) and the arithmetic flags byte (R69). -/

namespace Sys2Proof.Machine

/-! ## Status codes -/

def wsOk : Byte := 0x00
def wsMalformed : Byte := 0x01
def wsNoLedger : Byte := 0x02
def wsYardRange : Byte := 0x03
def wsUnitRange : Byte := 0x04
def wsResidue : Byte := 0x05
def wsData : Byte := 0x06
def wsLedgerLost : Byte := 0x07
def wsAborted : Byte := 0x08
def wsWaitTimeout : Byte := 0x10
def wsPeerLost : Byte := 0x11
def wsStepInvalid : Byte := 0x12
def wsStepMismatch : Byte := 0x13
def wsCoupling : Byte := 0x14
def wsTranslation : Byte := 0x20
def wsHostError : Byte := 0x21
def wsMergeLost : Byte := 0x22
def wsPeerUnreachable : Byte := 0x23
def wsTransferLost : Byte := 0x24
def wsSegment : Byte := 0x30
def wsCollLost : Byte := 0x31
def wsCollTimeout : Byte := 0x32
def wsRemoteAbort : Byte := 0x33

/-- The lowest of the codes met, OK where none was (R237, R315). -/
def lowestCause (causes : List Byte) : Byte :=
  causes.foldl (fun a c => if a = wsOk then c else if c ≠ wsOk ∧ c.toNat < a.toNat then c else a) wsOk

/-! ## The flags byte (R69) -/

/-- The arithmetic flags of a wagon or segment. -/
structure Flags where
  dataErr : Bool
  retried : Bool
  outSat : Bool
  invalid : Bool
  ledgerSat : Bool
  inexact : Bool
  deriving DecidableEq, Repr

/-- No flag set. -/
def noFlags : Flags :=
  { dataErr := false, retried := false, outSat := false, invalid := false, ledgerSat := false
    inexact := false }

/-- Each flag is the OR over the elements (R69). -/
def Flags.or (a b : Flags) : Flags :=
  { dataErr := a.dataErr || b.dataErr, retried := a.retried || b.retried, outSat := a.outSat || b.outSat
    invalid := a.invalid || b.invalid, ledgerSat := a.ledgerSat || b.ledgerSat
    inexact := a.inexact || b.inexact }

/-- The byte: DATA_ERR [5], RETRIED [4], OUT_SAT [3], INVALID [2], LEDGER_SAT [1], INEXACT [0]. -/
def Flags.byte (f : Flags) : Byte :=
  BitVec.ofNat 8 (b2n f.inexact + 2 * b2n f.ledgerSat + 4 * b2n f.invalid + 8 * b2n f.outSat +
    16 * b2n f.retried + 32 * b2n f.dataErr)

/-- The flags that a byte spells. -/
def flagsOf (b : Nat) : Flags :=
  { dataErr := bit b 5, retried := bit b 4, outSat := bit b 3, invalid := bit b 2, ledgerSat := bit b 1
    inexact := bit b 0 }

end Sys2Proof.Machine
end

