-- ==== Sys2Proof/Config.lean ====
section
/-! DEFINITION. What an implementation fixes and what the manual leaves open: constants without a body,
so that no proof can see their values. -/

namespace Sys2Proof.Config

/-- Bytes that the manual does not specify: destinations of a VECTOR wagon with a forbidden overlap (R606)
and of a lost mover wagon (R237). Applied to the state's counter of free values. -/
opaque freeByte : Nat → Byte

/-- Where firmware places the level-1 table of a context in the firmware-reserved region, in units of 4 KiB (R149). -/
opaque ptRoot : Nat → Nat

/-- Where firmware places a level-2 table in the firmware-reserved region, in units of 4 KiB: by PT_ROOT and the level-1
entry that points to it (R155). -/
opaque ptTable : W64 → Nat → Nat

/-- A line, or a frame, of which a report does not say which it is (R243). Applied to the state's counter. -/
opaque freeLine : Nat → Nat

/-- Random numbers of the security root: nonces (R559) and the seeds of the keys that PROVISION generates (R565). -/
opaque random : Nat → BitVec 256

/-- Results of VOPs 0x10 to 0x1D on operands for which R124 gives an error bound, where they lie within it: by VOP and
the binary32 operand (a fixed function, R130). -/
opaque vopValue : Nat → W32 → W32

/-- The 68 bytes that stand for a key that does not exist (R351, R363). -/
opaque noKey : BitVec 544

/-- The vendor authorisation key, in the ROM (R547). -/
opaque vendorKey : BitVec 544

/-- SHAKE256 of the ROM, measurement 0 (R554). -/
opaque romMeasurement : BitVec 512

/-- The vendor's IANA enterprise number (R341). -/
opaque enterprise : BitVec 32

/-- Version entries reported by Get MCTP Version Support for a message type (R341, DSP0236). -/
opaque mctpVersions : Byte → List Byte

/-- Replies of the PLDM base and update commands whose content only DSP0240 and DSP0267 give (R563). -/
opaque pldmVersion : Byte → List Byte

/-- The 64 bytes of the Train Register's summary header, whose layout the manual does not give (R536): from
BANK0_BAD, OVERFLOW, SLOTS_USED and the clear count. -/
opaque summaryHeader : Bool → (overflow slots clears : Nat) → BitVec 512

/-- Bytes of control SRAM that the debug port reads at Intrusive and has not written (R567), or that lie in an uncorrectable
word: the manual gives no map of them. -/
opaque sramByte : Nat → Byte

/-- Bytes of MRAM, by bank times 4 MiB plus offset, that the debug port reads at Intrusive and has not written (R567), the
estimator area apart: the manual gives no layout of the records there. -/
opaque mramByte : Nat → Byte

/-- The value of key 0x8006 where the mean ramp value is 0 (R526): by the mean input draw in mW. -/
opaque noRamp : Int → W32

/-- IDLE_US of a unit record: the time since its milepost last moved (R494), which the model does not count. -/
opaque idleMicroseconds : Nat → W32

/-- Bits [0] operand credit, [1] output credit, [3] rail credit and [5] ledger bank of WAITING in a unit record
(R494), which the model does not follow. -/
opaque stallWaiting : Nat → W16

/-- The largest command of the converter, in Q2.14 of 62.5 A at the bus, that keeps the stack at or below a power
(R398, R451): the manual gives no efficiency between stack and bus. By direction (true: discharging), stack power in
mW, bus and stack voltage in mV. -/
opaque busCommand : (discharging : Bool) → (stackMw : Nat) → (busMv stackMv : Int) → Nat

end Sys2Proof.Config
end

