-- ==== Sys2Proof/Machine/Hash.lean ====
section
/-! DEFINITION. SHAKE256 of FIPS 202 and the XMSS-SHAKE256_20_256 signatures of RFC 8391 and NIST SP 800-208, which R12 and
R548 make part of the manual. -/

namespace Sys2Proof.Machine

/-! ## Keccak-f[1600] (FIPS 202, 3.2 and 3.3): 25 lanes, lane (x, y) at place x + 5 y -/

/-- A lane. -/
def lane (a : List W64) (x y : Nat) : W64 := nth 0 a (x % 5 + 5 * (y % 5))

/-- A state built lane by lane, x fastest. -/
def lanes (f : Nat → Nat → W64) : List W64 := (List.range 25).map (fun i => f (i % 5) (i / 5))

/-- Offsets of the step rho, by place. -/
def rhoOffsets : List Nat :=
  [0, 1, 62, 28, 27] ++ [36, 44, 6, 55, 20] ++ [3, 10, 43, 25, 39] ++ [41, 45, 15, 21, 8] ++ [18, 2, 61, 56, 14]

/-- The step theta. -/
def keccakTheta (a : List W64) : List W64 :=
  let c := (List.range 5).map (fun x => lane a x 0 ^^^ lane a x 1 ^^^ lane a x 2 ^^^ lane a x 3 ^^^ lane a x 4)
  let d := (List.range 5).map (fun x => nth 0 c ((x + 4) % 5) ^^^ (nth 0 c ((x + 1) % 5)).rotateLeft 1)
  lanes (fun x y => lane a x y ^^^ nth 0 d x)

/-- The steps rho and pi: lane (x, y) of the result comes from lane (x + 3 y, x). -/
def keccakRhoPi (a : List W64) : List W64 :=
  lanes (fun x y => (lane a (x + 3 * y) x).rotateLeft (nth 0 rhoOffsets ((x + 3 * y) % 5 + 5 * x)))

/-- The step chi. -/
def keccakChi (a : List W64) : List W64 :=
  lanes (fun x y => lane a x y ^^^ (~~~ lane a (x + 1) y &&& lane a (x + 2) y))

/-- The shift register of the step iota, advanced n times. -/
def iotaRegister : Nat → Nat → Nat
  | 0, r => r
  | n + 1, r => iotaRegister n (if 128 ≤ r then Nat.xor (2 * r % 256) 0x71 else 2 * r)

/-- The round constant of a round: bit 2^j − 1 is the register's output 7 round + j. -/
def iotaConstant (round : Nat) : W64 :=
  BitVec.ofNat 64 (((List.range 7).map (fun j => iotaRegister (7 * round + j) 1 % 2 * 2 ^ (2 ^ j - 1))).foldl (· + ·) 0)

/-- One round. -/
def keccakRound (a : List W64) (round : Nat) : List W64 :=
  setNth (keccakChi (keccakRhoPi (keccakTheta a))) 0 (fun l => l ^^^ iotaConstant round)

/-- The permutation: 24 rounds. -/
def keccakF (a : List W64) : List W64 := (List.range 24).foldl keccakRound a

/-! ## SHAKE256 (FIPS 202, 6.2) -/

/-- Bytes of a block: the rate of 1,088 bits. -/
def shakeRate : Nat := 136

/-- A block of bytes added to the state. -/
def keccakAbsorb (a : List W64) (block : List Byte) : List W64 :=
  keccakF (lanes (fun x y => lane a x y ^^^ BitVec.ofNat 64 (getLE block (8 * (x + 5 * y)) 8)))

/-- A number of blocks absorbed. -/
def keccakAbsorbAll : Nat → List W64 → List Byte → List W64
  | 0, a, _ => a
  | n + 1, a, bs => keccakAbsorbAll n (keccakAbsorb a (bs.take shakeRate)) (bs.drop shakeRate)

/-- A message with the suffix 1111 of an extendable-output function, padded to whole blocks. -/
def shakePadded (bs : List Byte) : List Byte :=
  let gap := shakeRate - bs.length % shakeRate
  bs ++ if gap = 1 then [0x9F] else 0x1F :: List.replicate (gap - 2) 0 ++ [0x80]

/-- The first n bytes of the output, n at most one block. -/
def shake256 (n : Nat) (bs : List Byte) : List Byte :=
  ((keccakAbsorbAll (bs.length / shakeRate + 1) (List.replicate 25 0) (shakePadded bs)).flatMap
    (fun l => leBytes 8 l.toNat)).take n

/-- A hash of 256 bits as the fuses hold it (R539). -/
def keyHash (bs : List Byte) : BitVec 256 := BitVec.ofNat 256 (leNat (shake256 32 bs))

/-! ## The functions of XMSS-SHAKE256_20_256 (SP 800-208, 5.3): n = 32, w = 16 -/

/-- n bytes of a number, most-significant first: toByte of RFC 8391. -/
def beBytes (n v : Nat) : List Byte := (leBytes n v).reverse

/-- The number that bytes spell, most-significant first. -/
def beNat (bs : List Byte) : Nat := leNat bs.reverse

/-- Two byte strings added bit by bit. -/
def xorBytes (a b : List Byte) : List Byte := a.zipWith (· ^^^ ·) b

/-- A keyed hash, told from the others by the number in its first 32 bytes: 0 is F, 1 H, 2 H_msg, 3 PRF, 4 PRF_keygen. -/
def xmssHash (kind : Nat) (key m : List Byte) : List Byte := shake256 32 (beBytes 32 kind ++ key ++ m)

/-- A hash address (RFC 8391, 2.5): its type (0 OTS, 1 L-tree, 2 hash tree) and its last four words; layer and tree are 0
in a single tree. -/
def xmssAddress (kind w4 w5 w6 mask : Nat) : List Byte :=
  beBytes 12 0 ++ beBytes 4 kind ++ beBytes 4 w4 ++ beBytes 4 w5 ++ beBytes 4 w6 ++ beBytes 4 mask

/-- The randomised hash of two nodes (RFC 8391, 4.1.4), at an address. -/
def randHash (seed : List Byte) (adrs : Nat → List Byte) (l r : List Byte) : List Byte :=
  let prf := fun k => xmssHash 3 seed (adrs k)
  xmssHash 1 (prf 0) (xorBytes l (prf 1) ++ xorBytes r (prf 2))

/-- The chaining function of WOTS+ (RFC 8391, 3.1.2): some steps from step i of a chain of a leaf. -/
def wotsChain (seed : List Byte) (leaf c : Nat) : (steps i : Nat) → List Byte → List Byte
  | 0, _, x => x
  | n + 1, i, x =>
    let prf := fun k => xmssHash 3 seed (xmssAddress 0 leaf c i k)
    wotsChain seed leaf c n (i + 1) (xmssHash 0 (prf 0) (xorBytes x (prf 1)))

/-- The base-16 digits of a byte string, most-significant first. -/
def nibbles (bs : List Byte) : List Nat := bs.flatMap (fun b => [b.toNat / 16, b.toNat % 16])

/-- The 67 digits that WOTS+ signs (RFC 8391, 3.1.5): those of the message and of its checksum. -/
def wotsDigits (m : List Byte) : List Nat :=
  let d := nibbles m
  d ++ (nibbles (beBytes 2 ((d.map (fun x => 15 - x)).foldl (· + ·) 0 * 16))).take 3

/-- One level of an L-tree (RFC 8391, 4.1.5): neighbours hashed, an odd last node taken up as it is. -/
def lTreeLevel (seed : List Byte) (leaf height : Nat) : (i : Nat) → List (List Byte) → List (List Byte)
  | i, a :: b :: t => randHash seed (xmssAddress 1 leaf height i) a b :: lTreeLevel seed leaf height (i + 1) t
  | _, l => l

/-- The root of an L-tree, of up to 2^levels nodes. -/
def lTree (seed : List Byte) (leaf : Nat) : (levels height : Nat) → List (List Byte) → List Byte
  | 0, _, l => nth [] l 0
  | n + 1, h, l => lTree seed leaf n (h + 1) (lTreeLevel seed leaf h 0 l)

/-- The leaf of a WOTS+ public key: its 67 chain ends compressed. -/
def wotsLeaf (seed : List Byte) (leaf : Nat) (ends : List (List Byte)) : List Byte := lTree seed leaf 7 0 ends

/-- The n pieces of 32 bytes of a byte string. -/
def pieces : Nat → List Byte → List (List Byte)
  | 0, _ => []
  | n + 1, bs => slice bs 0 32 :: pieces n (bs.drop 32)

/-- The root that a leaf and its authentication path give (RFC 8391, 4.1.10), from height k. -/
def xmssClimb (seed : List Byte) (leaf : Nat) : (k : Nat) → List Byte → List (List Byte) → List Byte
  | _, node, [] => node
  | k, node, a :: t =>
    let h := randHash seed (xmssAddress 2 0 k (leaf / 2 ^ (k + 1)))
    xmssClimb seed leaf (k + 1) (if leaf / 2 ^ k % 2 = 0 then h node a else h a node) t

/-- The digest that a leaf signs (RFC 8391, 4.1.9): of the randomiser, the root, the leaf index and the message. -/
def xmssDigest (r root : List Byte) (leaf : Nat) (m : List Byte) : List Byte :=
  xmssHash 2 (r ++ root ++ beBytes 32 leaf) m

/-! ## Keys, signatures and verification, of a tree of some height -/

/-- The height of the tree of every key of the module (R548). -/
def xmssHeight : Nat := 20

/-- The OID of XMSS-SHAKE256_20_256 (SP 800-208, 5.3). -/
def xmssOid : Nat := 0x12

/-- A signature of a message verifies under a public key (R548, RFC 8391, 4.1.10). -/
def xmssVerifyAt (height : Nat) (key m sig : List Byte) : Bool :=
  let root := slice key 4 32
  let seed := slice key 36 32
  let leaf := beNat (slice sig 0 4)
  let digits := wotsDigits (xmssDigest (slice sig 4 32) root leaf m)
  let ends := ((pieces 67 (sig.drop 36)).zip digits).zipIdx.map (fun x =>
    wotsChain seed leaf x.2 (15 - x.1.2) x.1.2 x.1.1)
  beNat (slice key 0 4) = xmssOid && leaf < 2 ^ height &&
    xmssClimb seed leaf 0 (wotsLeaf seed leaf ends) (pieces height (sig.drop 2180)) = root

/-- A signature verifies under a key (R548). -/
def xmssVerify (key m sig : List Byte) : Bool := xmssVerifyAt xmssHeight key m sig

/-- The start of a chain of a leaf (SP 800-208, 6.2). -/
def KeyPair.start (k : KeyPair) (leaf c : Nat) : List Byte :=
  xmssHash 4 (leBytes 32 k.skSeed.toNat) (leBytes 32 k.pubSeed.toNat ++ xmssAddress 0 leaf c 0 0)

/-- A leaf of the tree of a key pair. -/
def KeyPair.leafNode (k : KeyPair) (leaf : Nat) : List Byte :=
  let seed := leBytes 32 k.pubSeed.toNat
  wotsLeaf seed leaf ((List.range 67).map (fun c => wotsChain seed leaf c 15 0 (k.start leaf c)))

/-- The node of a height and index of the tree of a key pair. -/
def KeyPair.node (k : KeyPair) : (height i : Nat) → List Byte
  | 0, i => k.leafNode i
  | h + 1, i =>
    randHash (leBytes 32 k.pubSeed.toNat) (xmssAddress 2 0 h i) (k.node h (2 * i)) (k.node h (2 * i + 1))

/-- The public key of a key pair: OID, root and public seed. -/
def KeyPair.publicAt (k : KeyPair) (height : Nat) : List Byte :=
  beBytes 4 xmssOid ++ k.node height 0 ++ leBytes 32 k.pubSeed.toNat

/-- The 68 bytes of a public key (R548). -/
def KeyPair.publicKey (k : KeyPair) : List Byte := slice (k.publicAt xmssHeight) 0 68

/-- The signature of a message with a leaf (RFC 8391, 4.1.9). -/
def KeyPair.signAt (k : KeyPair) (height : Nat) (m : List Byte) (leaf : Nat) : List Byte :=
  let seed := leBytes 32 k.pubSeed.toNat
  let r := xmssHash 3 (leBytes 32 k.skPrf.toNat) (beBytes 32 leaf)
  let digits := wotsDigits (xmssDigest r (k.node height 0) leaf m)
  beBytes 4 leaf ++ r
    ++ (digits.zipIdx.map (fun x => wotsChain seed leaf x.2 x.1 0 (k.start leaf x.2))).flatten
    ++ ((List.range height).map (fun h => k.node h (Nat.xor (leaf / 2 ^ h) 1))).flatten

/-- The 2,820 bytes of a signature (R548, R552). -/
def KeyPair.sign (k : KeyPair) (m : List Byte) (leaf : Nat) : List Byte := slice (k.signAt xmssHeight m leaf) 0 2820

end Sys2Proof.Machine
end

