-- ==== Sys2Proof/Machine/Base.lean ====
section
/-! DEFINITION. The shared operations under all others: registers and tables of the state, stamps and the recorder,
outbound tickets and messages, reports, the sizes of module memory and of the Yard, and free values. -/

namespace Sys2Proof.Machine

/-! ## Tables of the state -/

/-- A context table entry. -/
def State.ctx (s : State) (c : Nat) : Context := Table.get Context.reset s.ctxs c

/-- The state with one context table entry changed. -/
def State.modCtx (s : State) (c : Nat) (f : Context → Context) : State :=
  { s with ctxs := Table.mod Context.reset c f s.ctxs }

/-- A ring. -/
def State.ring (s : State) (r : Nat) : Ring := Table.get Ring.reset s.rings r

/-- The state with one ring changed. -/
def State.modRing (s : State) (r : Nat) (f : Ring → Ring) : State :=
  { s with rings := Table.mod Ring.reset r f s.rings }

/-- A token. -/
def State.token (s : State) (t : Nat) : Token := Table.get Token.reset s.tokens t

/-- The state with one token changed. -/
def State.modToken (s : State) (t : Nat) (f : Token → Token) : State :=
  { s with tokens := Table.mod Token.reset t f s.tokens }

/-- A partition. -/
def State.part (s : State) (p : Nat) : Partition := nth Partition.reset s.parts p

/-- The state with one partition changed. -/
def State.modPart (s : State) (p : Nat) (f : Partition → Partition) : State :=
  { s with parts := setNth s.parts p f }

/-- A rail port. -/
def State.port (s : State) (n : Nat) : Port := nth Port.reset s.rails.ports n

/-- The state with one port changed. -/
def State.modPort (s : State) (n : Nat) (f : Port → Port) : State :=
  { s with rails.ports := setNth s.rails.ports n f }

/-- A Booking Office channel. -/
def State.chan (s : State) : Chan → Channel
  | .pcie => s.book.pcie
  | .mctp => s.book.mctp

/-- The state with one channel changed. -/
def State.modChan (s : State) (ch : Chan) (f : Channel → Channel) : State :=
  match ch with
  | .pcie => { s with book.pcie := f s.book.pcie }
  | .mctp => { s with book.mctp := f s.book.mctp }

/-- The state with drop counters changed (R202). -/
def State.drop (s : State) (f : Drops → Drops) : State := { s with drops := f s.drops }

/-- Something sent out (log entry 1). -/
def State.emit (s : State) (o : Out) : State := { s with out := s.out ++ [o] }

/-! ## Sources (R481) -/

/-- A SOURCE value: kind, partition or die, index. -/
def source (kind mid idx : Nat) : W32 := BitVec.ofNat 32 (kind * 2 ^ 24 + mid * 2 ^ 16 + idx)

/-- Bits [31:24] of a SOURCE value. -/
def srcKind (w : W32) : Nat := field w.toNat 31 24

/-- Bits [23:16] of a SOURCE value. -/
def srcMid (w : W32) : Nat := field w.toNat 23 16

/-- Bits [15:0] of a SOURCE value. -/
def srcIdx (w : W32) : Nat := field w.toNat 15 0

/-! ## Time and stamps (R517, R518) -/

/-- The stamp now: power-cycle count in [63:40], operating seconds in [39:0]. -/
def State.stamp (s : State) : W64 := BitVec.ofNat 64 (s.trg.powerCycles * 2 ^ 40 + s.trg.seconds % 2 ^ 40)

/-- Operating milliseconds, by which occurrences are timed (R526, log entry 2). -/
def State.ms (s : State) : Nat := s.trg.seconds * 1000 + s.start.us / 1000 % 1000

/-- True where an operating second lies within the last n seconds (R610). -/
def State.within (s : State) (sec n : Nat) : Bool := s.trg.seconds < sec + n

/-! ## Records kept as two copies (R23, R431) -/

/-- The copy that a write goes to (R431): true for copy 1. -/
def TwoCopy.target {α : Type} (t : TwoCopy α) : Bool :=
  match t.seq0, t.seq1 with
  | some a, some b => b < a
  | some _, none => true
  | none, _ => false

/-- The highest sequence number among valid copies, or 0. -/
def TwoCopy.high {α : Type} (t : TwoCopy α) : Nat := max (t.seq0.getD 0) (t.seq1.getD 0)

/-- A record written: `good` where the copy reads back as written, else the copy is not valid. -/
def TwoCopy.store {α : Type} (t : TwoCopy α) (v : α) (good : Bool) : TwoCopy α :=
  let seq := if good then some (t.high + 1) else none
  if t.target then { t with seq1 := seq, val1 := v } else { t with seq0 := seq, val0 := v }

/-- The valid copy with the higher sequence number. -/
def TwoCopy.read {α : Type} (t : TwoCopy α) : Option α :=
  match t.seq0, t.seq1 with
  | some a, some b => some (if a < b then t.val1 else t.val0)
  | some _, none => some t.val0
  | none, some _ => some t.val1
  | none, none => none

/-- What a record of two copies holds, where it may hold nothing. -/
def TwoCopy.value {α : Type} (t : TwoCopy (Option α)) : Option α := t.read.getD none

/-- The fence list and the recovery history as read (R502). -/
def State.past (s : State) : History := (s.mram.history.read).getD History.empty

/-- The fence list or the history written anew; in Hold-up no such write begins (R601). -/
def State.modPast (s : State) (f : History → History) : State :=
  if s.power.state = .holdUp then s else { s with mram.history := s.mram.history.store (f s.past) true }

/-- The completion of a reset enters the history (R501, R502). -/
def State.noteDone (s : State) (scope : W32) : State :=
  s.modPast (fun h => { h with rungDone := h.rungDone ++ [{ source := scope, sec := s.trg.seconds }] })

/-- A unit enters the fence list (R502). -/
def State.listFence (s : State) (src : W32) : State := s.modPast (fun h => { h with fences := addTo src h.fences })

/-! ## The recorder (R521, R522, R526, R536, R537) -/

/-- MODE, BASE and WIDTH of a code (R526): LIN or LOG2. -/
def codeMode (code : Nat) : Bool × Int × Nat :=
  if code = 0x8001 then (true, 1, 1)
  else if code = 0x8003 then (true, 0, 2)
  else if code = 0x8004 ∨ code = 0x8005 then (true, 0, 50)
  else if code = 0x8006 then (true, -320, 10)
  else if code = 0x8007 then (true, 0, 160)
  else if 0xB000 ≤ code ∧ code ≤ 0xB9FF then (true, 0, 1)
  else (false, 0, 0)

/-- A slot just allotted to a key (R521, R522). -/
def Slot.fresh (code : Nat) (src : W32) (stamp : W64) (ms : Nat) : Slot :=
  let m := codeMode code
  { code := code, source := src, lin := m.1, base := m.2.1, width := m.2.2, total := 0
    low := 0x7FFFFFFF, high := -0x80000000, firstStamp := stamp, lastStamp := stamp, bins := []
    seq := 0, lastMs := ms }

/-- The bin of a value (R522). -/
def Slot.bin (t : Slot) (v : Int) : Nat :=
  if t.lin then min 63 ((v - t.base) / (max 1 t.width : Nat)).toNat
  else if v ≤ 0 then 0 else min 63 (Nat.log2 v.toNat + 1)

/-- The largest value of an unsigned 32-bit count. -/
def max32 : Nat := 2 ^ 32 - 1

/-- A slot with a value recorded (R522); `counts` where the value enters MIN and MAX. -/
def Slot.hit (t : Slot) (v : Int) (stamp : W64) (counts withBins : Bool) (ms : Nat) : Slot :=
  { t with
    bins := if withBins then Table.mod 0 (t.bin v) (fun n => min (n + 1) max32) t.bins else t.bins
    total := min (t.total + 1) (2 ^ 64 - 1), lastStamp := stamp, lastMs := ms
    low := if counts then min t.low v else t.low, high := if counts then max t.high v else t.high }

/-- What a recording carries: a value, or an occurrence, whose value is the interval since the last (R526). -/
inductive Recorded where
  | value (v : Int)
  | occurrence

/-- The value of a recording for a slot, and whether it counts for MIN and MAX: the first occurrence of a key
enters bin 0 and neither extreme (R526). -/
def Recorded.on (r : Recorded) (t : Slot) (ms : Nat) : Int × Bool :=
  match r with
  | .value v => (max (-0x80000000) (min v 0x7FFFFFFF), true)
  | .occurrence => if t.total = 0 then (0, false) else (min (ms - t.lastMs : Nat) 0x7FFFFFFF, true)

/-- Slots with a recording made, up to a number of slots; none where a new key finds no slot. -/
def Slot.recordIn (slots : List Slot) (limit : Nat) (withBins : Bool) (code : Nat) (src : W32)
    (r : Recorded) (stamp : W64) (ms : Nat) : Option (List Slot) :=
  match slots.findIdx? (fun t => t.code = code ∧ t.source = src) with
  | some i =>
    some (setNth slots i (fun t => let v := r.on t ms; t.hit v.1 stamp v.2 withBins ms))
  | none =>
    if limit ≤ slots.length then none
    else
      let t := Slot.fresh code src stamp ms
      let v := r.on t ms
      some (slots ++ [t.hit v.1 stamp v.2 withBins ms])

/-- A recording of a key: in the code slots, in the summary slots once bank 0 is bad, nowhere once the
recorder has stopped (R522, R537, R538). -/
def State.note (s : State) (code : Nat) (src : W32) (r : Recorded) : State :=
  if s.trg.stopped then s
  else if s.trg.bad then
    match Slot.recordIn s.trg.summary 992 false code src r s.stamp s.ms with
    | some l => { s with trg.summary := l }
    | none => { s with trg.sumOverflow := min (s.trg.sumOverflow + 1) max32 }
  else
    match Slot.recordIn s.trg.live.slots 4096 true code src r s.stamp s.ms with
    | some l => { s with trg.live.slots := l }
    | none => { s with trg.live.overflow := min (s.trg.live.overflow + 1) max32 }

/-- A first-occurrence entry added under R527. -/
def State.noteFirst (s : State) (e : Event) : State :=
  if s.trg.stopped ∨ s.trg.bad ∨ 1024 ≤ s.trg.live.firsts.length then s
  else if s.trg.live.firsts.any (fun f => f.code = e.code ∧
      field e.stamp.toNat 39 0 < field f.stamp.toNat 39 0 + 10) then s
  else { s with trg.live.firsts := s.trg.live.firsts ++ [e] }

/-! ## Reports to the Signal Box (R476, R477) -/

/-- A report held on a source's pair until the Signal Box reads it. A disregarded pair is not read (R479);
a report of a port under injection is marked (R482). -/
def State.report (s : State) (src : W32) (code : Nat) (ctx : Option (Nat × W16)) (info : W32) : State :=
  if src ∈ s.sbx.deaf then s
  else
    let inj := srcKind src = 5 ∧ (s.port (srcIdx src)).inject.isSome
    { s with sbx.reports := s.sbx.reports ++
        [{ source := src, code := code, ctx := ctx, info := info, injected := inj }] }

/-! ## Outbound tickets (R339, R340) -/

/-- Status codes (R350). -/
def stOk : Nat := 0
def stMalformed : Nat := 1
def stUnknown : Nat := 2
def stLength : Nat := 3
def stRange : Nat := 4
def stState : Nat := 5
def stStale : Nat := 6
def stAbsent : Nat := 7
def stShort : Nat := 8
def stDenied : Nat := 9
def stAuth : Nat := 10
def stChannel : Nat := 11
def stBusy : Nat := 12
def stAborted : Nat := 13
def stDevice : Nat := 14
def stNotReady : Nat := 15

/-- An event joins one channel's queue of 1,024, or is counted as lost (R339). -/
def Channel.addEvent (c : Channel) (t : OutTicket) : Channel :=
  if (c.queue.filter (fun q => q.event)).length < 1024 then { c with queue := c.queue ++ [t] }
  else { c with lost := c.lost + 1 }

/-- An event raised on both channels (R321). No event is raised where no firmware runs. -/
def State.event (s : State) (op : Nat) (payload : List Byte) : State :=
  if s.book.fwState < 2 then s
  else
    let t : OutTicket := { opcode := op, event := true, client := 0, tag := 0, code := 0, detail := 0
                           payload := payload }
    (s.modChan .pcie (fun c => c.addEvent t)).modChan .mctp (fun c => c.addEvent t)

/-- Opcodes of the requests of classes 2 to 9 that are not recorded (R526). -/
def unrecorded : List Nat :=
  [0x0204, 0x020B, 0x0220, 0x0301, 0x0302, 0x0400, 0x0401, 0x0500, 0x0503, 0x0600, 0x0601, 0x0603,
   0x0805, 0x0908]

/-- The recording of a completed request (R526): code 0xB000 plus the low 12 bits of the opcode. -/
def State.noteRequest (s : State) (r : Request) (code : Nat) : State :=
  if 0x0200 ≤ r.opcode ∧ r.opcode < 0x0A00 ∧ r.opcode ∉ unrecorded then
    s.note (0xB000 + r.opcode % 4096) r.client (.value code)
  else s

/-- The one reply to a request (R322): it leaves the running requests and joins the outbound queue. A reply
with a code other than OK or SHORTFALL has no payload (R350). -/
def State.reply (s : State) (r : Request) (code detail : Nat) (payload : List Byte) : State :=
  let t : OutTicket := { opcode := r.opcode, event := false, client := r.client, tag := r.tag
                         code := code, detail := detail, answers := some (r.seq, r.parts)
                         payload := if code = stOk ∨ code = stShort then payload else [] }
  ((s.noteRequest r code).modChan r.chan
    (fun c => { c with running := c.running.erase r, queue := c.queue ++ [t] }))

/-- A reply OK. -/
def State.ok (s : State) (r : Request) (payload : List Byte) : State := s.reply r stOk 0 payload

/-! ## Messages and writes to the host (R375, R377, R386) -/

/-- The endpoint may send requests: the link is up, the function is in D0 and Bus Master Enable is set. -/
def State.hostUp (s : State) : Bool := s.pcie.linkUp && s.pcie.busMaster && !s.pcie.d3hot

/-- An access of the host to a BAR: answered with, or logged as, an Unsupported Request while the function claims no
memory request (R375). -/
def State.onBar (s : State) (act : State → State) : State := if s.hostUp then act s else s.emit .unsupported

/-- An MSI-X table entry. -/
def State.msixEntry (s : State) (v : Nat) : MsixEntry := Table.get MsixEntry.reset s.pcie.msix v

/-- A vector's message, now: pending in the PBA where it is masked, not programmed, not enabled or may not be
sent (R375, R386). -/
def State.msixNow (s : State) (v : Nat) : State :=
  let e := s.msixEntry v
  if e.masked ∨ ¬ e.programmed ∨ ¬ s.pcie.msixEnabled ∨ ¬ s.hostUp then
    { s with pcie.pba := addTo v s.pcie.pba }
  else
    { s with pcie.holdoff := addTo v s.pcie.holdoff, out := s.out ++ [.msix v e.addr e.data] }

/-- A vector raised: no more than one message in 2 µs (R337, R386). -/
def State.raiseVector (s : State) (v : Nat) : State :=
  if v ∈ s.pcie.holdoff then { s with pcie.due := addTo v s.pcie.due } else s.msixNow v

/-- The vector of a ring (R385). -/
def ringVector (n : Nat) : Nat := 1 + n % 2047

/-- A ring's interrupt: its PEND bit, then its vector (R383). -/
def State.raiseRing (s : State) (n : Nat) : State :=
  { s with pcie.irqPend := addTo n s.pcie.irqPend }.raiseVector (ringVector n)

/-! ## Sizes (R214, R222) -/

/-- GiB. -/
def gib : Nat := 2 ^ 30

/-- Devices of the map (R214). -/
def Memory.d (m : Memory) : Nat := m.map.length

/-- Bytes of module memory. -/
def Memory.total (m : Memory) : Nat := 128 * m.d * gib

/-- Bytes below the firmware-reserved region (R214). -/
def Memory.usable (m : Memory) : Nat := (128 * m.d - 4) * gib

/-- The Yard's key of a physical offset of a partition. -/
def yardKey (part off : Nat) : Nat := part * 2 ^ 27 + off

/-- Blocks of a partition below the reserved regions (R222). -/
def yardBlocks : Nat := 1472

/-- Blocks of a partition that an allotment of some context covers. -/
def State.yardHeld (s : State) (p b : Nat) : Bool :=
  s.ctxs.any (fun (_, c) => c.yard.any (fun w => w.phys = p ∧ w.base ≤ b ∧ b < w.base + w.size))

/-- A block available to contexts: below the reserved regions, not retired, not given to a reserved region. -/
def State.yardOpen (s : State) (p b : Nat) : Bool :=
  b < yardBlocks && !(s.yard.retired.contains (p * 2048 + b)) &&
    !(s.yard.moved.any (fun m => m.2 = p * 2048 + b))

/-! ## Free values -/

/-- The state with n free values taken. -/
def State.take (s : State) (n : Nat) : State := { s with fresh := s.fresh + n }

/-- n bytes that the manual does not specify (log entry 6). -/
def State.freeBytes (s : State) (n : Nat) : List Byte :=
  (List.range n).map (fun i => Config.freeByte (s.fresh + i))

end Sys2Proof.Machine
end

