-- ==== Sys2Proof/Machine/Cap.lean ====
section
/-! DEFINITION. The capability descriptor (R387 to R391), serviceability (R6) and the logical engines of a
partition (R134, R135). -/

namespace Sys2Proof.Machine

/-! ## Parts (R2) -/

/-- Partitions of the part's highest profile. -/
def profileMax : Part → Nat
  | .qsw720H => 6
  | _ => 8

/-- Memory devices fitted on a part. -/
def memFitted : Part → Nat
  | .qsw720H => 9
  | _ => 12

/-- Rail ports fitted on a part. -/
def railFitted : Part → Nat
  | .qsw720H => 16
  | _ => 20

/-- The name of a part, as IDENTITY_GET spells it (R2, R351). -/
def partName : Part → String
  | .qsw960H => "QSW-960-H"
  | .qsw960N => "QSW-960-N"
  | .qsw720H => "QSW-720-H"

/-- Profiles by their partitions, largest first (R5). -/
def rungs : List Nat := [8, 6, 4, 2, 1]

/-- The largest profile of at most n partitions (R7); 0 where there is none. -/
def rungOf (n : Nat) : Nat := (rungs.find? (fun r => r ≤ n)).getD 0

/-- The profile one rung below (R460). -/
def rungBelow (n : Nat) : Nat := rungOf (n - 1)

/-- The profile one rung above (R591). -/
def rungAbove (n : Nat) : Nat := (rungs.reverse.find? (fun r => n < r)).getD 8

/-! ## Units -/

/-- A partition is serviceable: tested, its Yard good, 18 engines, its vector engine and its movers free of
fences (R6, R591). -/
def Partition.serviceable (p : Partition) : Bool :=
  p.tested && !p.yardFailed && p.unit ≠ .absent && p.unit ≠ .fenced && p.unit ≠ .pending &&
    18 ≤ (p.mes.filter (fun e => e.unit ≠ .fenced)).length && p.vec.unit ≠ .fenced &&
    p.dms.all (fun d => d.unit ≠ .fenced)

/-- The state a unit of a partition reports (R391). -/
def underPart (p u : UnitState) : UnitState :=
  if u = .fenced then .fenced
  else match p with
    | .held => .held
    | .fenced => .fenced
    | .absent => .absent
    | _ => u

/-- A unit entry: LOGICAL in [7:3], STATE in [2:0] (R390). -/
def unitEntry (u : UnitState) (logical : Nat) : Byte := BitVec.ofNat 8 (logical * 8 + unitCode u)

/-- The entry of a matrix engine: LOGICAL while in service, 31 otherwise. -/
def MatrixEngine.entry (p : UnitState) (e : MatrixEngine) : Byte :=
  let u := underPart p e.unit
  unitEntry u (if u = .inService then e.logical else 31)

/-- Logical engines assigned after a self-test: the first 18 in ascending physical order that are free of
fences, the rest spares (R134). -/
def assignLogical : Nat → List MatrixEngine → List MatrixEngine
  | _, [] => []
  | k, e :: t =>
    if e.unit = .fenced then { e with logical := 31 } :: assignLogical k t
    else if k < 18 then { e with unit := .inService, logical := k } :: assignLogical (k + 1) t
    else { e with unit := .spare, logical := 31 } :: assignLogical k t

/-- The physical engine with a logical index, if any (R134). -/
def Partition.physical (p : Partition) (logical : Nat) : Option Nat :=
  p.mes.findIdx? (fun e => e.unit = .inService ∧ e.logical = logical)

/-- An engine fenced: a spare takes its logical index and its open tile sequences, which marshalling
replays into the same banks, and the DATA_ERR held for the logical engine (R135, R238). True where no spare was
left. -/
def Partition.fenceEngine (p : Partition) (e : Nat) : Bool × Partition :=
  let old := nth MatrixEngine.reset p.mes e
  if old.unit = .fenced then (false, p)
  else
    let gone := setNth p.mes e (fun m => { m with unit := .fenced, logical := 31, pace := .parked, wants := none,
                                                  bank0 := Bank.closed, bank1 := Bank.closed })
    if old.unit ≠ .inService then (false, { p with mes := gone })
    else
      match p.mes.findIdx? (fun m => m.unit = .spare) with
      | none => (true, { p with mes := gone })
      | some k =>
        (false, { p with mes := setNth gone k (fun m => { m with
            unit := .inService, logical := old.logical, feedErr := m.feedErr || old.feedErr
            bank0 := { old.bank0 with rebuild := old.bank0.seq.isSome }
            bank1 := { old.bank1 with rebuild := old.bank1.seq.isSome } }) })

/-- The spare that takes over from an engine about to be fenced (R135). -/
def Partition.spareFor (p : Partition) (e : Nat) : Option Nat :=
  if (nth MatrixEngine.reset p.mes e).unit = .inService then p.mes.findIdx? (fun m => m.unit = .spare) else none

/-! ## The descriptor -/

/-- The reservoir is in service (R408). -/
def State.hayIn (s : State) : Bool := s.hay.entry = .inService

/-- Partitions in service, ascending. -/
def State.serving (s : State) : List Nat := (List.range 8).filter (fun p => (s.part p).unit = .inService)

/-- Yard of a partition available to contexts, in bytes (R222). -/
def State.yardBytes (s : State) (p : Nat) : Nat :=
  if (s.part p).unit = .inService then
    ((List.range yardBlocks).filter (fun b => s.yardOpen p b)).length * 65536
  else 0

/-- The firmware staging area: 3 MiB for each partition in service or held (R224). -/
def State.stagingBytes (s : State) : Nat :=
  (s.parts.filter (fun p => p.unit = .inService ∨ p.unit = .held)).length * (3 * 2 ^ 20)

/-- Module memory available to contexts (R212, R217, R389). -/
def State.memContextBytes (s : State) : Nat :=
  if s.mem.map = [] then 0
  else s.mem.usable - (s.mem.retired.filter (fun f => f * 2 ^ 21 < s.mem.usable)).length * 2 ^ 21

/-- A unit is fenced somewhere (R389). -/
def State.degraded (s : State) : Bool :=
  s.parts.any (fun p => p.unit = .fenced ∨ p.vec.unit = .fenced ∨ p.mes.any (fun e => e.unit = .fenced) ∨
    p.dms.any (fun d => d.unit = .fenced)) ||
  s.cores.any (fun c => c.unit = .fenced) || s.mem.devices.any (fun d => d.unit = .fenced) ||
  s.rails.ports.any (fun p => p.unit = .fenced) || s.hay.entry = .fenced

/-- The descriptor without its change count, from byte 4 on (R389). -/
def State.capBody (s : State) : List Byte :=
  leBytes 2 1 ++ leBytes 2 1024 ++ leBytes 1 s.cap.profile ++ leBytes 1 (profileMax s.fuses.part)
  ++ leBytes 1 s.mem.d ++ leBytes 1 (b2n s.cap.starting + 2 * b2n s.degraded + 4 * b2n (s.parts.any (fun p => p.heldForPower)))
  ++ leBytes 2 0x0302 ++ leBytes 2 0x00B0 ++ leBytes 8 s.memContextBytes ++ leBytes 4 s.stagingBytes
  ++ leBytes 4 0 ++ ((List.range 8).map (fun p => leBytes 4 (s.yardBytes p))).flatten
  ++ leBytes 4 4096 ++ leBytes 4 262144 ++ leBytes 4 65536 ++ leBytes 4 0
  ++ [unitEntry s.hay.entry 0] ++ leBytes 15 0
  ++ s.parts.map (fun p => unitEntry p.unit 0)
  ++ s.parts.map (fun p => unitEntry (underPart p.unit p.vec.unit) 0)
  ++ s.cores.map (fun c => unitEntry c.unit 0)
  ++ s.mem.devices.map (fun d => unitEntry d.unit 0) ++ leBytes 4 0
  ++ s.rails.ports.map (fun p => unitEntry p.unit 0) ++ leBytes 12 0
  ++ (s.parts.map (fun p => p.dms.map (fun d => unitEntry (underPart p.unit d.unit) 0))).flatten
  ++ (s.parts.map (fun p => p.mes.map (fun e => e.entry p.unit))).flatten
  ++ leBytes 656 0

/-- The 1,024 bytes of the descriptor: zero until published (R387). -/
def State.capBytes (s : State) : List Byte :=
  if s.cap.published then leBytes 4 s.cap.changeCount.toNat ++ s.capBody else leBytes 1024 0

/-- A change of the descriptor: CHANGE_COUNT goes to odd and on to the next even value around it (R54). The
odd value stands only inside the one step (log entry 13). -/
def State.recap (f : State → State) (s : State) : State :=
  let t := f s
  if t.cap.published ∧ t.capBody ≠ s.capBody then { t with cap.changeCount := t.cap.changeCount + 2 } else t

end Sys2Proof.Machine
end

