-- ==== Sys2Proof/Machine/Ops.lean ====
section
/-! DEFINITION. The operations over module memory and the Yard with their error correction and retirement (R155, R214
to R216, R232, R241 to R251, R260). -/

namespace Sys2Proof.Machine

/-! ## Module memory (R155, R214, R215, R241 to R251) -/

/-- Size of a page (R155). -/
def Page.size (p : Page) : Nat := if p.big then 2 ^ 30 else 2 ^ 21

/-- The page that maps a virtual address. -/
def Context.page (c : Context) (va : Nat) : Option Page :=
  c.pages.find? (fun p => p.vbase ≤ va ∧ va < p.vbase + p.size)

/-- The module memory address of a virtual address (R155), for a write where `w`. -/
def Context.translate (c : Context) (w : Bool) (va : Nat) : Option Nat :=
  match c.page va with
  | none => none
  | some p => if w ∧ ¬ p.write then none else some (p.addr + (va - p.vbase))

/-! ## Frames and grants (R204, R210 to R212, R217, R220, R248, R249, R612) -/

/-- Frames (2 MiB) that a page covers: first and count. -/
def Page.frames (p : Page) : Nat × Nat := (p.addr / 2 ^ 21, p.size / 2 ^ 21)

/-- Frames allotted: the pages of every context and of every grant that waits for zeroing. -/
def State.usedFrames (s : State) : List (Nat × Nat) :=
  (s.ctxs.map (fun (_, c) => c.pages.map Page.frames)).flatten ++
    (s.mem.grants.map (fun g => g.pages.map Page.frames)).flatten

/-- A frame is allotted. -/
def frameUsed (used : List (Nat × Nat)) (f : Nat) : Bool := used.any (fun (a, n) => a ≤ f ∧ f < a + n)

/-- A 1 GiB frame is free and whole: none of its 2 MiB frames allotted or retired (R212, R249). -/
def gibWhole (used : List (Nat × Nat)) (retired : List Nat) (g : Nat) : Bool :=
  !used.any (fun (a, n) => a < 512 * g + 512 ∧ 512 * g < a + n) && !retired.any (fun f => f / 512 = g)

/-- 1 GiB frames available to contexts (R217: none before the map is built). -/
def State.gibs (s : State) : Nat := if s.mem.map = [] then 0 else 128 * s.mem.d - 4

/-- Whole free 1 GiB frames, ascending. -/
def State.wholeFrames (s : State) : List Nat :=
  let used := s.usedFrames
  (List.range s.gibs).filter (fun g => gibWhole used s.mem.retired g)

/-- Free 2 MiB frames outside whole free 1 GiB frames, ascending. -/
def State.looseFrames (s : State) : List Nat :=
  let used := s.usedFrames
  ((List.range s.gibs).filter (fun g => ¬ gibWhole used s.mem.retired g)).flatMap (fun g =>
    ((List.range 512).map (fun i => 512 * g + i)).filter (fun f => ¬ frameUsed used f ∧ f ∉ s.mem.retired))

/-- Shortfall of module memory in bytes (R211). -/
def shortMem (f1 f2 g1 g2 : Nat) : Nat :=
  let use1 := min g1 f1
  (g1 - use1) * 2 ^ 30 + (g2 - ((f1 - use1) * 512 + f2)) * 2 ^ 21

/-- Placement of g1 pages of 1 GiB and g2 of 2 MiB from a virtual address (R354, R612). -/
def State.place (s : State) (g1 g2 vbase : Nat) (write : Bool) : List Page :=
  let whole := s.wholeFrames
  let rest := whole.drop g1
  let small := (s.looseFrames ++ (rest.take ((g2 + 511) / 512)).flatMap (fun g =>
    (List.range 512).map (fun i => 512 * g + i))).take g2
  (whole.take g1).zipIdx.map (fun (g, i) =>
      { vbase := vbase + i * 2 ^ 30, big := true, addr := g * 2 ^ 30, write := write : Page }) ++
    small.zipIdx.map (fun (f, i) =>
      { vbase := vbase + g1 * 2 ^ 30 + i * 2 ^ 21, big := false, addr := f * 2 ^ 21, write := write : Page })

/-- Pages kept in rising order of virtual address. -/
def addPages (old new : List Page) : List Page :=
  old.filter (fun p => p.vbase < (new.head?.map (fun q => q.vbase)).getD 0) ++ new ++
    old.filter (fun p => ¬ p.vbase < (new.head?.map (fun q => q.vbase)).getD 0)

/-- Frames freed join those awaiting zeroing, retired ones excepted (R204, R248). -/
def State.freePages (s : State) (ps : List Page) : State :=
  let fs := (ps.flatMap (fun p => (List.range p.frames.2).map (fun i => p.frames.1 + i))).filter
    (fun f => f ∉ s.mem.retired)
  { s with mem.zeroing := s.mem.zeroing ++ fs }

/-- A grant of pages: those that await zeroing are zeroed first, and the reply waits for them (R212, R220);
otherwise the pages are mapped and the reply given now. -/
def State.grantPages (s : State) (ctx : Nat) (ps : List Page) (r : Request) (payload : List Byte) : State :=
  let mine := s.mem.zeroing.filter (fun f => frameUsed (ps.map Page.frames) f)
  if mine = [] then
    (s.modCtx ctx (fun c => { c with pages := addPages c.pages ps })).ok r payload
  else
    { s with
      mem.zeroing := s.mem.zeroing.filter (fun f => ¬ frameUsed (ps.map Page.frames) f)
      mem.grants := s.mem.grants ++ [{ ctx := ctx, frames := mine, req := r, payload := payload, pages := ps }] }

/-- Every token of a context returns to no owner with VALUE 0 (R203). -/
def State.freeTokensOf (s : State) (c : Nat) : State :=
  { s with tokens := s.tokens.filter (fun x => x.2.owner ≠ some c) }

/-- A grant whose request cannot be met any more: the shortfall is answered, and a context that it was to create is FREE
again (R211). -/
def State.dropGrant (s : State) (g : Grant) (short : Nat) : State :=
  let t := s.reply g.req stShort 0 (leBytes 8 short ++ leBytes 20 0)
  if g.req.opcode = 0x0200 then
    (t.freeTokensOf g.ctx).modCtx g.ctx (fun c => { Context.reset with gen := c.gen })
  else t

/-- A grant of which a frame was retired before it was mapped: it is placed anew, clear of that frame, or answered with
its shortfall (R248, log entry 121). -/
def State.placeAgain (s : State) (g : Grant) : State :=
  let big := (g.pages.filter (fun p => p.big)).length
  let small := g.pages.length - big
  let short := shortMem s.wholeFrames.length s.looseFrames.length big small
  if short ≠ 0 then s.dropGrant g short
  else
    match g.pages.head? with
    | some p => s.grantPages g.ctx (s.place big small p.vbase p.write) g.req g.payload
    | none => s.grantPages g.ctx [] g.req g.payload

/-- Grants of which a frame was retired are placed anew; their frames go back to those awaiting zeroing (R248). -/
def State.mendGrants (s : State) : State :=
  let hurt := fun (g : Grant) => s.mem.retired.any (fun f => frameUsed (g.pages.map Page.frames) f)
  let t : State := { s with
    mem.grants := s.mem.grants.filter (fun g => !hurt g)
    mem.zeroing := s.mem.zeroing ++ ((s.mem.grants.filter hurt).flatMap (fun g => g.frames)).filter
      (fun f => f ∉ s.mem.retired) }
  (s.mem.grants.filter hurt).foldl State.placeAgain t

/-! ## The map (R214 to R217) -/

/-- Where an address lies: device, channel and line (R215). -/
def Memory.locate (m : Memory) (addr : Nat) : Nat × Nat × Nat :=
  let d := m.d
  let la := 260046848
  let t : Nat × Nat × Nat × Nat :=
    if addr < 124 * d * gib then (0, d, 0, 0)
    else if addr < m.usable then (124 * d * gib, d - 1, 1, la)
    else (m.usable, 1, 0, la)
  let x := (addr - t.1) / 64
  let q := x / t.2.1
  let o := q / 8
  let ch := Nat.xor (Nat.xor (q % 8) (o % 8)) (Nat.xor (o / 8 % 8) (o / 64 % 8))
  (nth 0 m.map (t.2.2.1 + x % t.2.1), ch, t.2.2.2 + o)

/-- The device on which the firmware-reserved region lies: ordinal 0 of the map, and before the map is built the
lowest-numbered device that has passed training (R214, R217). -/
def Memory.home (m : Memory) : Option Nat :=
  match m.map with
  | d :: _ => some d
  | [] => m.devices.findIdx? (fun d => d.trained)

/-- The bank of a line within its channel (R216). -/
def lineBank (o : Nat) : Nat := Nat.xor (o % 16) (o / 2 ^ 16 % 16)

/-- The device of an address, as a SOURCE value (R481). -/
def State.memSource (s : State) (addr : Nat) : W32 := source 6 0 (s.mem.locate addr).1

/-- The context that maps a module memory address, with the virtual address (R243). -/
def State.mapper (s : State) (addr : Nat) : Option (Nat × Context × Nat) :=
  s.ctxs.findSome? (fun (id, c) =>
    (c.pages.find? (fun p => p.addr ≤ addr ∧ addr < p.addr + p.size)).map
      (fun p => (id, c, p.vbase + (addr - p.addr))))

/-- Retire a frame, once (R247, R248, R251): it is not zeroed, granted or mapped again; the device is named when more than
256 of its frames are retired. -/
def State.retireFrame (s : State) (f : Nat) (dev : Nat) : State :=
  if f ∈ s.mem.retired then s
  else
    let n := nth 0 s.mem.retiredOf dev + 1
    let t := s.recap (fun s => { s with
      mem.retired := s.mem.retired ++ [f], mem.retiredOf := setNth s.mem.retiredOf dev (fun x => x + 1)
      mem.zeroing := dropFrom f s.mem.zeroing })
    (if n = 257 then t.report (source 6 0 dev) 0x030A none 0 else t).mendGrants

/-- The ticket of R243: MEMORY_UNCORRECTABLE names the frame and the context that maps it. -/
def State.memTicket (s : State) (addr : Nat) : State :=
  let line := addr / 64 * 64
  let who := match s.mapper addr with
    | some (id, c, va) => leBytes 4 id ++ leBytes 2 c.gen.toNat ++ leBytes 2 0 ++ leBytes 8 (va - (addr - line))
    | none => leBytes 4 0xFFFFFFFF ++ leBytes 12 0
  s.event 0x0281 (leBytes 8 (addr / 2 ^ 21) ++ who)

/-- A read of the line that holds an address comes out corrected (R241, R247). -/
def State.memCorrected (s : State) (addr : Nat) : State :=
  let line := addr / 64
  let dev := (s.mem.locate addr).1
  let l : List Corrected := (s.mem.corrected.filter (fun e => s.within e.sec 86400)) ++ [{ place := line, sec := s.trg.seconds }]
  let t := { s with mem.corrected := l }.report (source 6 0 dev) 0x0102 none 0
  if 3 ≤ (l.filter (fun e => e.place = line)).length ∨
      16 ≤ (l.filter (fun e => e.place / 2 ^ 15 = addr / 2 ^ 21)).length then
    t.retireFrame (addr / 2 ^ 21) dev
  else t

/-- A read of the line that holds an address comes out uncorrectable (R243, R246, R247). -/
def State.memBad (s : State) (addr : Nat) : State :=
  ({ s with mem.damaged := addTo (addr / 64) s.mem.damaged }.memTicket addr).retireFrame
    (addr / 2 ^ 21) (s.mem.locate addr).1

/-- The outcome of a read of one line: an uncorrectable line stays so until it is wholly rewritten (R246). -/
def State.lineOutcome (s : State) (addr : Nat) (ecc : Ecc) : Ecc :=
  if addr / 64 ∈ s.mem.damaged then .bad else ecc

/-- A read of one line: true where it is uncorrectable, and what the read itself does. -/
def State.lineRead (s : State) (addr : Nat) (ecc : Ecc) : Bool × State :=
  match s.lineOutcome addr ecc with
  | .clean => (false, s)
  | .corrected => (false, s.memCorrected addr)
  | .bad => (true, s.memBad addr)

/-- Bytes stored within one line: a whole line replaces it; a part is merged, and is lost where the merge
read is uncorrectable (R232, R246). -/
def State.lineStore (s : State) (addr : Nat) (bs : List Byte) (ecc : Ecc) : Bool × State :=
  if addr % 64 = 0 ∧ bs.length = 64 then
    (false, { s with mem.bytes := s.mem.bytes.write addr bs, mem.damaged := dropFrom (addr / 64) s.mem.damaged })
  else
    let r := s.lineRead addr ecc
    if r.1 then (true, r.2) else (false, { r.2 with mem.bytes := r.2.mem.bytes.write addr bs })

/-- What a read of the line at an address finds, of the errors that a command's reads meet. -/
def lineErr (x : LineEcc) (addr : Nat) : Ecc :=
  if addr / 64 ∈ x.bad then .bad else if addr / 64 ∈ x.corrected then .corrected else .clean

/-- Reads of module memory that find nothing wrong. -/
def cleanLines : LineEcc := { corrected := [], bad := [] }

/-- The outcome of the read of one line. -/
def lineAt (addr : Nat) : Ecc → LineEcc
  | .clean => cleanLines
  | .corrected => { cleanLines with corrected := [addr / 64] }
  | .bad => { cleanLines with bad := [addr / 64] }

/-- Bytes stored from an address, line by line. True where a merge read was uncorrectable. -/
def State.memStore (s : State) (addr : Nat) (bs : List Byte) (lines : LineEcc) : Nat → Bool × State
  | 0 => (false, s)
  | fuel + 1 =>
    match bs with
    | [] => (false, s)
    | _ =>
      let n := min bs.length (64 - addr % 64)
      let r := s.lineStore addr (bs.take n) (lineErr lines addr)
      let t := r.2.memStore (addr + n) (bs.drop n) lines fuel
      (r.1 || t.1, t.2)

/-- Bytes read from an address, line by line. The bytes of an uncorrectable line read 0 (R94). True where a line was
uncorrectable. -/
def State.memLoad (s : State) (addr n : Nat) (lines : LineEcc) : Nat → Bool × List Byte × State
  | 0 => (false, [], s)
  | fuel + 1 =>
    if n = 0 then (false, [], s)
    else
      let k := min n (64 - addr % 64)
      let r := s.lineRead addr (lineErr lines addr)
      let bs := if r.1 then List.replicate k 0 else s.mem.bytes.read addr k
      let t := r.2.memLoad (addr + k) (n - k) lines fuel
      (r.1 || t.1, bs ++ t.2.1, t.2.2)

/-- Coupled pages marked in D_CUR by a write (R260). -/
def Context.markDirty (c : Context) (va n : Nat) : Context :=
  if n = 0 then c
  else
    let first := va / 2 ^ 21
    let pages := (List.range ((va + n - 1) / 2 ^ 21 - first + 1)).map (fun i => first + i)
    let hit := pages.filter (fun p => c.regions.any (fun r => r.vbase ≤ p * 2 ^ 21 ∧ p * 2 ^ 21 < r.vbase + r.len))
    { c with dCur := hit.foldl (fun l p => addTo p l) c.dCur }

/-- Every page of the coupled regions. -/
def Context.regionPages (c : Context) : List Nat :=
  (c.regions.map (fun r => (List.range (r.len / 2 ^ 21)).map (fun i => r.vbase / 2 ^ 21 + i))).flatten

/-! ## The Yard (R221, R222, R241, R247) -/

/-- The bank of a physical offset of a partition's Yard (R221). -/
def yardBank (a : Nat) : Nat := Nat.xor (field a 13 6) (field a 21 14)

/-- The line of a physical offset within its bank (R221). -/
def yardLine (a : Nat) : Nat := field a 26 14

/-- The block that a block of the reserved regions is used in: itself, or the substitute that took its place, or none
where it runs without one (R225). -/
def Yard.homeOf (y : Yard) (k : Nat) : Option Nat :=
  match y.moved.find? (fun m => m.1 = k) with
  | some m => some m.2
  | none => if k ∈ y.retired then none else some k

/-- A substitute for a retired reserved block: the highest available block that no context holds (R225). -/
def State.yardSubstitute (s : State) (p : Nat) : Option Nat :=
  ((List.range yardBlocks).reverse.find? (fun b => s.yardOpen p b && !s.yardHeld p b)).map (fun b => p * 2048 + b)

/-- The reserved regions take a substitute for a block that they lost, where one is free (R225). -/
def State.moveReserved (s : State) (k : Nat) : State :=
  match s.yardSubstitute (k / 2048) with
  | some b => { s with yard.moved := s.yard.moved ++ [(k, b)] }
  | none => s

/-- Retire a Yard block (R225, R247): where a reserved region uses it, as one of its own blocks or as a substitute, the
region moves on. -/
def State.retireBlock (s : State) (k : Nat) : State :=
  if k ∈ s.yard.retired then s
  else
    s.recap (fun s =>
      let used := s.yard.moved.find? (fun m => m.2 = k)
      let t : State := { s with yard.retired := s.yard.retired ++ [k], yard.moved := s.yard.moved.filter (fun m => m.2 ≠ k) }
      match used with
      | some m => t.moveReserved m.1
      | none => if yardBlocks ≤ k % 2048 then t.moveReserved k else t)

/-- A read of a Yard word (key / 8) comes out corrected (R241, R247). -/
def State.yardCorrected (s : State) (w : Nat) : State :=
  let l : List Corrected := (s.yard.corrected.filter (fun e => s.within e.sec 86400)) ++ [{ place := w, sec := s.trg.seconds }]
  let t := { s with yard.corrected := l }.report (source 7 (w / 2 ^ 24) 0) 0x0101 none 0
  if 3 ≤ (l.filter (fun e => e.place = w)).length ∨
      16 ≤ (l.filter (fun e => e.place / 8192 = w / 8192)).length then
    t.retireBlock (w / 8192)
  else t

/-- A read of a Yard word comes out uncorrectable (R246, R247). -/
def State.yardBad (s : State) (w : Nat) : State :=
  { s with yard.damaged := addTo w s.yard.damaged }.retireBlock (w / 8192)

/-- INFO of an event that names a Yard block: the block index within the partition (R484). -/
def yardInfo (w : Nat) : W32 := BitVec.ofNat 32 (w / 8192 % 2048)

/-- Words (key / 8) that a range of Yard bytes touches. -/
def yardWords (key n : Nat) : List Nat :=
  if n = 0 then [] else (List.range ((key + n - 1) / 8 - key / 8 + 1)).map (fun i => key / 8 + i)

/-- Bytes stored into the Yard from a key. Words wholly written lose their damage; a partly written damaged
word is left as it was (R232, R246). True where a merge read was uncorrectable. -/
def State.yardStore (s : State) (key : Nat) (bs : List Byte) : Bool × State :=
  let n := bs.length
  let touched := yardWords key n
  let bad := touched.filter (fun w => w ∈ s.yard.damaged ∧ ¬ (key ≤ w * 8 ∧ w * 8 + 8 ≤ key + n))
  let whole := touched.filter (fun w => key ≤ w * 8 ∧ w * 8 + 8 ≤ key + n)
  let put := (bs.zipIdx.filter (fun (_, i) => (key + i) / 8 ∉ bad)).foldl
    (fun m (b, i) => Bytes.put m (key + i) b) s.yard.bytes
  let t := { s with yard.bytes := put, yard.damaged := s.yard.damaged.filter (fun w => w ∉ whole) }
  (!bad.isEmpty, bad.foldl (fun t w => t.yardBad w) t)

/-- Bytes of the Yard from a key; the bytes of a damaged word read 0 (R94). -/
def State.yardLoad (s : State) (key n : Nat) : List Byte :=
  (s.yard.bytes.read key n).zipIdx.map (fun (b, i) => if (key + i) / 8 ∈ s.yard.damaged then 0 else b)

/-- What the reads of a command find in the Yard of a partition (R241, R247), and the words (key / 8) of the
command's operands that are uncorrectable. `range` tells which words the command reads. -/
def State.yardSense (s : State) (part : Nat) (ecc : YardEcc) (range : List Nat) : List Nat × State :=
  let at_ := fun w => part * 2 ^ 24 + w
  let corr := (ecc.corrected.map at_).filter (fun w => w ∈ range)
  let bad := range.filter (fun w => w ∈ s.yard.damaged ∨ w ∈ ecc.bad.map at_)
  let t := corr.foldl (fun t w => t.yardCorrected w) s
  (bad, bad.foldl (fun t w => t.yardBad w) t)

end Sys2Proof.Machine
end

