-- ==== Sys2Proof/Machine/RailBase.lean ====
section
/-! DEFINITION. Packets and flits (R271 to R273, R289, R290), routes and ports (R296, R297) and the sending
of a packet. -/

namespace Sys2Proof.Machine

/-- The contact of J2, of 1 to 80 in each of its signal rows A, B, E and F, that carries a lane of a rail port (R580). -/
def railContact (port lane : Nat) : Nat := 4 * port + lane + 1

/-- No node (R289, R296). -/
def noNode : W32 := 0xFFFFFFFF

/-- The compute domain is in reset. -/
def State.computeReset (s : State) : Bool := s.sbx.recoveries.any (fun r => r.level = 4)

/-! ## Packets and flits -/

/-- The virtual lane of a packet kind (R290). -/
def kindVl (kind : Nat) : Nat :=
  if kind = 6 ∨ kind = 9 ∨ kind = 0xB then 1
  else if kind = 8 ∨ kind = 0xA then 2
  else if kind = 0xC then 3
  else 0

/-- Kinds that the destination answers with a DACK entry or a MIRROR_REPLY (R292). -/
def kindAnswered (kind : Nat) : Bool := kind ≠ 6 && kind ≠ 0xB && kind ≠ 0xC

/-- The 32-byte header (R289). -/
def Packet.header (p : Packet) : List Byte :=
  leBytes 8 (p.pflags % 16 + p.kind % 16 * 16 + p.gen.toNat * 2 ^ 8 + p.ctx % 2 ^ 18 * 2 ^ 24 +
    p.length % 2 ^ 22 * 2 ^ 42)
  ++ leBytes 8 p.arg.toNat ++ leBytes 4 p.tag.toNat ++ leBytes 4 p.src.toNat ++ leBytes 4 p.dst.toNat
  ++ leBytes 4 p.epoch.toNat

/-- A packet read from its header and data. -/
def Packet.parse (bs : List Byte) : Packet :=
  let w := getLE bs 0 8
  { pflags := field w 3 0, kind := field w 7 4, gen := BitVec.ofNat 16 (field w 23 8), ctx := field w 41 24
    length := field w 63 42, arg := BitVec.ofNat 64 (getLE bs 8 8), tag := BitVec.ofNat 32 (getLE bs 16 4)
    src := BitVec.ofNat 32 (getLE bs 20 4), dst := BitVec.ofNat 32 (getLE bs 24 4)
    epoch := BitVec.ofNat 32 (getLE bs 28 4), data := slice bs 32 (field w 63 42) }

/-- Flits that a packet of a LENGTH takes: 224 bytes of data in the first, 256 in each later one. -/
def flitCount (length : Nat) : Nat := 1 + (length - 224 + 255) / 256

/-- The flits of a packet, padded with zeros; sequence numbers are given when a flit is first sent. -/
def Packet.flits (p : Packet) : List Flit :=
  let bs := p.header ++ p.data
  let n := flitCount p.length
  (List.range n).map (fun i =>
    { seq := 0, vl := kindVl p.kind, first := i = 0, last := i + 1 = n, bytes := slice bs (256 * i) 256 })

/-! ## Routes (R296, R297) -/

/-- The route entry of an unset index. -/
def noRoute : W32 × BitVec 20 := (noNode, 0)

/-- Ports of the route to a node, UP or not. -/
def State.routeMask (s : State) (node : W32) : List Nat :=
  match s.rails.routes.find? (fun e => e.2.1 = node ∧ node ≠ noNode) with
  | some e => (List.range 20).filter (fun i => bit e.2.2.toNat i)
  | none => []

/-- Ports of the route to a node that are UP. -/
def State.route (s : State) (node : W32) : List Nat :=
  (s.routeMask node).filter (fun i => (s.port i).state = .up)

/-- A destination with no route entry or no port in service is unreachable (R297). -/
def State.unreachable (s : State) (node : W32) : Bool := (s.route node).isEmpty

/-- A port holds a credit on a virtual lane (R281). -/
def Port.hasCredit (p : Port) (vl : Nat) : Bool := 0 < (nth 0 p.cred vl - nth 0 p.sent vl).toNat

/-- A port holds a credit on a virtual lane beyond those that the flits queued on it will take (R281, R297). -/
def Port.spare (p : Port) (vl : Nat) : Bool :=
  (nth [] p.txq vl).length < (nth 0 p.cred vl - nth 0 p.sent vl).toNat

/-- The ports that a packet may take: those of its route, but for one that it must not take again where there is another
(R297, R304, log entry 125). -/
def State.portsFor (s : State) (node : W32) (not_ : Nat) : List Nat :=
  let ports := s.route node
  let others := ports.filter (fun i => i ≠ not_)
  if others = [] then ports else others

/-- The port for a packet: in rotation over the ports of the route, one that holds a credit (R297). -/
def State.pickPort (s : State) (node : W32) (vl not_ : Nat) : Option Nat :=
  let ports := s.portsFor node not_
  let turn := ports.filter (fun i => s.rails.lastPort < i) ++ ports.filter (fun i => i ≤ s.rails.lastPort)
  turn.find? (fun i => (s.port i).spare vl)

/-- A packet's flits queued on a port. -/
def State.queueOn (s : State) (port : Nat) (p : Packet) : State :=
  s.modPort port (fun q => { q with txq := setNth q.txq (kindVl p.kind) (fun l => l ++ p.flits) })

/-- A packet takes a port: it waits there for its answer, if it gets one (R292). -/
def State.takePort (s : State) (o : OutPacket) (port : Nat) : State :=
  let t := { s.queueOn port o.packet with rails.lastPort := port }
  if kindAnswered o.packet.kind then { t with rails.out := t.rails.out ++ [{ o with port := port }] } else t

/-- A packet waits for a port behind another one to the same node on the same lane. -/
def Rails.behind (r : Rails) (o : OutPacket) : Bool :=
  r.waiting.any (fun x => x.packet.dst = o.packet.dst ∧ kindVl x.packet.kind = kindVl o.packet.kind)

/-- A packet toward a reachable destination takes a port, or waits until one of the route holds a credit (R297). -/
def State.place_ (s : State) (o : OutPacket) : State :=
  match if s.rails.behind o then none else s.pickPort o.packet.dst (kindVl o.packet.kind) o.port with
  | some i => s.takePort o i
  | none => { s with rails.waiting := s.rails.waiting ++ [o] }

/-- The packets that wait for a port try again, oldest first (R297). -/
def State.sendWaiting (s : State) : State :=
  s.rails.waiting.foldl State.place_ { s with rails.waiting := [] }

/-- A packet sent toward its destination; none where the destination is unreachable. -/
def State.launch (s : State) (p : Packet) (ctx : Nat) (w : Waiter) : Option State :=
  if s.unreachable p.dst then none else some (s.place_ { packet := p, port := 20, ctx := ctx, waiter := w })

/-- A packet formed now, with the module's epoch and node id and the next REQ_TAG (R289). -/
def State.form (s : State) (kind : Nat) (dst : W32) (ctx : Nat) (gen : W16) (arg : Nat) (pflags : Nat)
    (data : List Byte) : Packet :=
  { epoch := s.rails.epoch, dst := dst, src := s.rails.node, tag := BitVec.ofNat 32 s.rails.nextTag
    arg := BitVec.ofNat 64 arg, length := data.length, ctx := ctx, gen := gen, kind := kind
    pflags := pflags, data := data }

/-- A context packet sent to a peer: none where no packet is formed (no node id, or the epoch revoked by a
notice, R296, R301) or the peer is unreachable. Answers with the tag. -/
def State.sendTo (s : State) (kind : Nat) (peer : Peer) (arg pflags : Nat) (data : List Byte) (ctx : Nat)
    (w : Waiter) : Option (Nat × State) :=
  if s.rails.node = noNode ∨ s.rails.stopped then none
  else
    let p := s.form kind peer.node peer.remoteCtx peer.remoteGen arg pflags data
    match ({ s with rails.nextTag := (s.rails.nextTag + 1) % 2 ^ 32 }).launch p ctx w with
    | none => none
    | some t => some (s.rails.nextTag, t)

/-- A DACK with one entry to a node (R291, R292); a node that cannot be reached gets none. -/
def State.dack (s : State) (dst tag : W32) (result : Nat) : State :=
  let p := { s.form 0xB dst 0 0 1 0 (leBytes 4 tag.toNat ++ leBytes 4 result) with tag := 0 }
  (s.launch p 0 .nobody).getD s

/-- A MIRROR_REPLY (R290, R292). -/
def State.mirrorReplyTo (s : State) (dst tag : W32) (arg : W64) (accept : Bool) : State :=
  let p := { s.form 6 dst 0 0 arg.toNat (b2n accept) [] with tag := tag }
  if s.rails.node = noNode then s else (s.launch p 0 .nobody).getD s

/-- An EPOCH_NOTICE, at most one to a node in 1 ms (R300). -/
def State.notice (s : State) (dst revoked : W32) : State :=
  if s.rails.node = noNode ∨ s.rails.notices.any (fun n => n.1 = dst ∧ s.start.us < n.2 + 1000) then s
  else
    let p := s.form 0xC dst 0 0 (s.rails.epoch.toNat * 2 ^ 32 + revoked.toNat) 0 []
    let t := (s.launch p 0 .nobody).getD s
    { t with rails.notices := t.rails.notices.filter (fun n => n.1 ≠ dst) ++ [(dst, s.start.us)] }

/-! ## Results of a DACK (R291) -/

def rsApplied : Nat := 0
def rsGen : Nat := 1
def rsPerm : Nat := 2
def rsEpoch : Nat := 3
def rsReset : Nat := 4
def rsTranslation : Nat := 5
def rsMerge : Nat := 6
def rsProtocol : Nat := 7
def rsTarget : Nat := 8
def rsBusy : Nat := 9

/-- A peer entry that is in use (R157), below PEER_COUNT. -/
def Context.peer (c : Context) (i : Nat) : Option Peer :=
  match c.peers[i]? with
  | some p => if p.valid then some p else none
  | none => none

/-- An epoch joins the revoked list, which keeps the eight most recent (R298). -/
def State.revoke (s : State) (e : W32) : State :=
  if e = 0 then s else { s with rails.revoked := (e :: s.rails.revoked.filter (fun x => x ≠ e)).take 8 }

end Sys2Proof.Machine
end

