-- ==== Sys2Proof/Machine/Operands.lean ====
section
/-! DEFINITION. The fields of a wagon (R96 to R98), its body by opcode, and the unit it goes to (R172). -/

namespace Sys2Proof.Machine

/-- A wagon: 64 bytes, byte 0 in bits [7:0] (R96). -/
abbrev Wagon := BitVec 512

/-- Bits [hi:lo] of a wagon. -/
def wbits (w : Wagon) (hi lo : Nat) : Nat := field w.toNat hi lo

/-- Bits [hi:lo] of a wagon as a signed number. -/
def wsigned (w : Wagon) (hi lo : Nat) : Int := signed (hi + 1 - lo) (wbits w hi lo)

/-- A wagon from the 64 bytes of its slot. -/
def wagonOf (bs : List Byte) : Wagon := BitVec.ofNat 512 (leNat bs)

/-! ## Header (R97) -/

def wOpcode (w : Wagon) : Nat := wbits w 7 0
def wSig (w : Wagon) : Bool := wbits w 8 8 = 1
def wOpflags (w : Wagon) : Nat := wbits w 15 12
def wPart (w : Wagon) : Nat := wbits w 18 16
def wEngine (w : Wagon) : Nat := wbits w 23 19
def wBank (w : Wagon) : Nat := wbits w 24 24
def wSigToken (w : Wagon) : Nat := wbits w 47 32
def wSigAdd (w : Wagon) : Nat := wbits w 63 48

/-- The header's own malformed cases: reserved bits, and SIG_TOKEN and SIG_ADD against SIG (R16, R97). -/
def badHeader (w : Wagon) : Bool :=
  wbits w 11 9 ≠ 0 || wbits w 31 25 ≠ 0 ||
    (if wSig w then wSigAdd w = 0 else wSigToken w ≠ 0 || wSigAdd w ≠ 0)

/-- A range of reserved bits carries a one. -/
def anySet (w : Wagon) (rs : List (Nat × Nat)) : Bool := rs.any (fun (hi, lo) => wbits w hi lo ≠ 0)

/-- Opcodes that are defined (R98, R201, R228, R307). -/
def opDefined (op : Nat) : Bool :=
  op = 0x01 || op = 0x10 || op = 0x11 || op = 0x12 || op = 0x20 || (0x30 ≤ op && op ≤ 0x33) ||
    (0x38 ≤ op && op ≤ 0x3A) || (0x40 ≤ op && op ≤ 0x43)

/-- Wagons of a matrix engine. -/
def opMatrix (op : Nat) : Bool := op = 0x10 || op = 0x11 || op = 0x12

/-- Wagons of a data mover. -/
def opMover (op : Nat) : Bool := 0x30 ≤ op && op ≤ 0x33

/-- Wagons of the collective engine. -/
def opColl (op : Nat) : Bool := 0x38 ≤ op && op ≤ 0x3A

/-! ## Mover wagons (R228, R229) -/

def wLink (w : Wagon) : Nat := wbits w 15 14
def wDrain (w : Wagon) : Bool := wbits w 13 13 = 1
def mvPeer (w : Wagon) : Nat := wbits w 442 432
def mvDstLoc (w : Wagon) : Nat := wbits w 423 420
def mvSrcLoc (w : Wagon) : Nat := wbits w 419 416
def mvAux (w : Wagon) : Nat := wbits w 415 384
def mvDstPlane (w : Wagon) : Int := wsigned w 383 352
def mvSrcPlane (w : Wagon) : Int := wsigned w 351 320
def mvDstRow (w : Wagon) : Int := wsigned w 319 288
def mvSrcRow (w : Wagon) : Int := wsigned w 287 256
def mvPlanes (w : Wagon) : Nat := wbits w 255 240
def mvRows (w : Wagon) : Nat := wbits w 239 224
def mvRowBytes (w : Wagon) : Nat := wbits w 223 192
def mvDst (w : Wagon) : Nat := wbits w 191 128
def mvSrc (w : Wagon) : Nat := wbits w 127 64

/-- The link target of a mover wagon (R179, R228). -/
def wTarget (w : Wagon) : Option Target :=
  if ¬ opMover (wOpcode w) then none
  else if wLink w = 1 then some { part := wPart w, eng := some (wEngine w) }
  else if wLink w = 2 then some { part := wPart w, eng := none }
  else none

/-- The target an engine wagon executes on. -/
def wRunsOn (w : Wagon) : Option Target :=
  if opMatrix (wOpcode w) then some { part := wPart w, eng := some (wEngine w) }
  else if wOpcode w = 0x20 then some { part := wPart w, eng := none }
  else none

/-- A closing wagon of its target: a READOUT with KEEP clear, any VECTOR wagon (R179). -/
def wCloses (w : Wagon) : Bool := wOpcode w = 0x20 || (wOpcode w = 0x12 && wbits w 12 12 = 0)

/-! ## Collective wagons (R307) -/

def clTimeout (w : Wagon) : Nat := wbits w 447 432
def clGroup (w : Wagon) : Nat := wbits w 419 416
def clDstLoc (w : Wagon) : Nat := wbits w 415 412
def clSrcLoc (w : Wagon) : Nat := wbits w 411 408
def clOpseq (w : Wagon) : W32 := BitVec.ofNat 32 (wbits w 383 352)
def clLast (w : Wagon) : Nat := wbits w 351 336
def clSegs (w : Wagon) : Nat := wbits w 335 320
def clDstStride (w : Wagon) : Nat := wbits w 319 304
def clSrcStride (w : Wagon) : Nat := wbits w 303 288
def clDst (w : Wagon) : Nat := wbits w 191 128
def clSrc (w : Wagon) : Nat := wbits w 127 64

/-! ## Token wagons (R190 to R196) -/

def tkTimeout (w : Wagon) : Nat := wbits w 159 144
def tkValue (w : Wagon) : W32 := BitVec.ofNat 32 (wbits w 127 96)
def tkPeer (w : Wagon) : Nat := wbits w 90 80
def tkToken (w : Wagon) : Nat := wbits w 79 64
def tkRemote (w : Wagon) : Bool := wbits w 12 12 = 1
def tkExpect (w : Wagon) : W64 := BitVec.ofNat 64 (wbits w 127 64)

/-- A token wagon names a local token (R186). -/
def tkLocal (w : Wagon) : Bool :=
  wOpcode w = 0x40 || wOpcode w = 0x42 || (wOpcode w = 0x41 && !tkRemote w)

/-! ## Where a wagon goes (R134, R172, R226, R306) -/

/-- The Yard word of a logical partition of a context. -/
def Context.lp (c : Context) (p : Nat) : Option YardWord := c.yard[p]?

/-- The physical partition of a logical one. -/
def State.physPart (s : State) (ctx lp : Nat) : Option Nat := ((s.ctx ctx).lp lp).map (fun y => y.phys)

/-- Queue depths (R174). -/
def unitDepth : UnitRef → Nat
  | .matrix _ _ => 32
  | .vector _ => 32
  | .mover _ _ => 64
  | .coll _ => 64
  | .token _ => 1

/-- A unit's number in the dispatch table. -/
def unitNo : UnitRef → Nat
  | .matrix p e => 20 * p.val + e.val
  | .vector p => 160 + p.val
  | .mover p m => 168 + 4 * p.val + m.val
  | .coll h => 200 + h.val
  | .token r => 256 + r.val

/-- Dispatch state of a unit (R177). -/
def State.unit (s : State) (u : UnitRef) : Dispatch := Table.get Dispatch.reset s.marsh.units (unitNo u)

/-- The state with the dispatch state of one unit changed. -/
def State.modUnit (s : State) (u : UnitRef) (f : Dispatch → Dispatch) : State :=
  { s with marsh.units := Table.mod Dispatch.reset (unitNo u) f s.marsh.units }

/-- The mover of a partition with the most free credits, the lowest index on a tie (R226). -/
def State.bestMover (s : State) (p : Nat) : Nat :=
  let free := fun m => 64 - (s.unit (.mover (Fin.ofNat 8 p) (Fin.ofNat 4 m))).taken
  [1, 2, 3].foldl (fun b m => if free b < free m then m else b) 0

/-- The engine half of a tree: on the die of the port that reaches the parent, RC0 at a root (R306). -/
def State.treeHalf (s : State) (c : Context) (t : Tree) : Nat :=
  match t.parent.bind c.peer with
  | none => 0
  | some p => match (s.routeMask p.node).head? with
    | some i => i / 10
    | none => 0

/-- The unit that a ring's wagon goes to. A wagon that names no unit of the context's grant goes to the
ring's token unit, which completes it; a collective wagon goes by tree 0 of its group (log entry 141). -/
def State.unitFor (s : State) (ring : Nat) (w : Wagon) : UnitRef :=
  let c := (s.ring ring).ctx
  let tok : UnitRef := .token (Fin.ofNat 4096 ring)
  let op := wOpcode w
  match s.physPart c (wPart w) with
  | none => tok
  | some p =>
    if opMatrix op then
      match (s.part p).physical (wEngine w) with
      | some e => .matrix (Fin.ofNat 8 p) (Fin.ofNat 20 e)
      | none => tok
    else if op = 0x20 then .vector (Fin.ofNat 8 p)
    else if opMover op then .mover (Fin.ofNat 8 p) (Fin.ofNat 4 (s.bestMover p))
    else if opColl op then
      match Table.get [] (s.ctx c).groups (clGroup w) with
      | [] => .coll 0
      | t :: _ => .coll (Fin.ofNat 2 (s.treeHalf (s.ctx c) t))
    else tok

end Sys2Proof.Machine
end

