-- ==== Sys2Proof/Machine/Units.lean ====
section
/-! DEFINITION. Units: their engines and movers, whether they take wagons, their mileposts (R490), and the departure states
and slot requests of engines (R138, R141). -/

namespace Sys2Proof.Machine

/-! ## Units -/

/-- The compute clock is stopped: nothing is dispatched, started or issued (R609). -/
def State.frozen (s : State) : Bool := s.power.tripped || s.power.clockStopped

/-- An engine of a partition. -/
def State.engine (s : State) (p e : Nat) : MatrixEngine := nth MatrixEngine.reset (s.part p).mes e

/-- The state with one matrix engine changed. -/
def State.modEngine (s : State) (p e : Nat) (f : MatrixEngine → MatrixEngine) : State :=
  s.modPart p (fun q => { q with mes := setNth q.mes e f })

/-- The state with a vector engine changed. -/
def State.modVec (s : State) (p : Nat) (f : VectorEngine → VectorEngine) : State :=
  s.modPart p (fun q => { q with vec := f q.vec })

/-- A data mover of a partition. -/
def State.mover (s : State) (p m : Nat) : Mover := nth Mover.reset (s.part p).dms m

/-- The state with one data mover changed. -/
def State.modMover (s : State) (p m : Nat) (f : Mover → Mover) : State :=
  s.modPart p (fun q => { q with dms := setNth q.dms m f })

/-- The SOURCE value of a unit (R481). -/
def unitSource : UnitRef → W32
  | .matrix p e => source 1 p.val e.val
  | .vector p => source 2 p.val 0
  | .mover p m => source 3 p.val m.val
  | .coll h => source 0x13 (h.val + 1) 0
  | .token r => source 4 0 r.val

/-- The partition that holds a source (R486): units of a partition, its Yard, its compute-die temperature sensors. -/
def partOf (src : W32) : Option Nat :=
  let k := srcKind src
  if k = 1 ∨ k = 2 ∨ k = 3 ∨ k = 7 then some (srcMid src)
  else if k = 0xC ∧ srcMid src = 0 then some (srcIdx src / 8)
  else none

/-- Sources in the compute domain (R486). -/
def inCompute (src : W32) : Bool := (partOf src).isSome || srcKind src = 4 || srcKind src = 8

/-- A source lies inside the scope of a recovery (R485, R503). -/
def Recovery.covers (r : Recovery) (src : W32) : Bool :=
  if r.level ≤ 2 then r.scope = src
  else if r.level = 3 then (partOf src).isSome && partOf src = partOf r.scope
  else if r.level = 4 then inCompute src
  else true

/-- A reset that holds the source is in progress. -/
def State.underReset (s : State) (src : W32) : Bool := s.sbx.recoveries.any (fun r => r.covers src)

/-- The unit takes wagons: in service, and not under a reset. -/
def State.unitUp (s : State) (u : UnitRef) : Bool :=
  !s.underReset (unitSource u) &&
    match u with
    | .matrix p e => (s.part p.val).unit = .inService && (s.engine p.val e.val).unit = .inService
    | .vector p => (s.part p.val).unit = .inService && (s.part p.val).vec.unit = .inService
    | .mover p m => (s.part p.val).unit = .inService && (s.mover p.val m.val).unit = .inService
    | _ => true

/-- A milepost counter moved on (R490). -/
def State.mile (s : State) (src : W32) (n : Nat) : State :=
  let up := fun (m : Milepost) => { count := m.count + BitVec.ofNat 32 n : Milepost }
  let zero : Milepost := { count := 0 }
  { s with sbx.mileposts := Table.mod zero src.toNat up s.sbx.mileposts }

/-- Departure state of an engine (R138); every other unit has none. -/
def State.pace (s : State) : UnitRef → Pace
  | .matrix p e => (s.engine p.val e.val).pace
  | .vector p => (s.part p.val).vec.pace
  | _ => .running

/-- A unit's departure state and its slot request set. -/
def State.setPace (s : State) (u : UnitRef) (pace : Pace) (wants : Option (SlotKind × Nat)) : State :=
  match u with
  | .matrix p e => s.modEngine p.val e.val (fun x => { x with pace := pace, wants := wants })
  | .vector p => s.modVec p.val (fun x => { x with pace := pace, wants := wants })
  | _ => s

/-- The slot request of an engine. -/
def State.wants (s : State) : UnitRef → Option (SlotKind × Nat)
  | .matrix p e => (s.engine p.val e.val).wants
  | .vector p => (s.part p.val).vec.wants
  | _ => none

/-- The partition of an engine. -/
def unitPart : UnitRef → Nat
  | .matrix p _ => p.val
  | .vector p => p.val
  | .mover p _ => p.val
  | _ => 0

/-- An engine's place within its partition: matrix engines by physical index, then the vector engine (R141). -/
def unitPlace : UnitRef → Nat
  | .matrix _ e => e.val
  | .vector _ => 20
  | _ => 21

/-- The place of a slot request in the order of grants (R141): by its fabric-clock cycle, then partition by partition from the
one after the partition that received the last slot, then by engine (log entry 80). -/
def State.slotOrder (s : State) (u : UnitRef) (cycle : Nat) : Nat :=
  cycle * 256 + (unitPart u + 7 - s.power.lastSlotPart % 8) % 8 * 32 + unitPlace u

/-- A slot requested in a fabric-clock cycle (R138, R141). -/
def State.wantSlot (s : State) (u : UnitRef) (k : SlotKind) (cycle : Nat) : State :=
  if (s.wants u).isSome then s else s.setPace u (s.pace u) (some (k, s.slotOrder u cycle))

/-- Wagons dispatched to a unit and not complete. -/
def State.unitFlights (s : State) (u : UnitRef) : List Flight :=
  s.marsh.flights.filter (fun f => f.unit = u ∧ f.stage ≠ .done)

/-- The DATA_ERR indicator that a closing wagon reports and clears as it completes, whatever its status (R238): its
target's indicator, and the state with it clear. -/
def State.takeFeed (s : State) (u : UnitRef) (w : Wagon) : Bool × State :=
  if ¬ wCloses w then (false, s)
  else
    match u with
    | .matrix p e => ((s.engine p.val e.val).feedErr, s.modEngine p.val e.val (fun x => { x with feedErr := false }))
    | .vector p => ((s.part p.val).vec.feedErr, s.modVec p.val (fun v => { v with feedErr := false }))
    | _ => (false, s)

/-- An engine that runs no started wagon coasts (R138). -/
def State.settle (s : State) (u : UnitRef) : State :=
  if s.pace u = .running ∧ ¬ (s.unitFlights u).any (fun f => f.stage = .started) then s.setPace u .coasting none else s

end Sys2Proof.Machine
end

