-- ==== Sys2Proof/Machine/Work.lean ====
section
/-! DEFINITION. Dispatched wagons, completion records (R167, R168, R611), halts and the stop of a context's
work (R203, R206, R209), and the end of a mirror (R260). -/

namespace Sys2Proof.Machine

/-! ## Flights -/

/-- A flight is the wagon of a ring at an index, not yet complete. -/
def Flight.is (f : Flight) (ring : Nat) (index : W32) : Bool :=
  f.ring = ring && f.index = index && f.stage ≠ .done

/-- The dispatched wagon of a ring at an index. -/
def State.flight (s : State) (ring : Nat) (index : W32) : Option Flight :=
  s.marsh.flights.find? (fun f => f.is ring index)

/-- The state with that dispatched wagon changed. -/
def State.modFlight (s : State) (ring : Nat) (index : W32) (f : Flight → Flight) : State :=
  { s with marsh.flights := s.marsh.flights.map (fun x => if x.is ring index then f x else x) }

/-- A wagon's completion is decided with a status and flags; it waits for WAGON_COMPLETE. -/
def State.decide (s : State) (ring : Nat) (index : W32) (status flags : Byte) : State :=
  s.modFlight ring index (fun f => { f with stage := .decided, status := status, flags := flags })

/-- Earlier wagons of the same ring still in the list of flights. -/
def State.earlier (s : State) (f : Flight) : List Flight :=
  (s.marsh.flights.filter (fun x => x.ring = f.ring)).takeWhile (fun x => x.index ≠ f.index)

/-- Every earlier wagon of the ring has completed (R176). -/
def State.fenceMet (s : State) (f : Flight) : Bool := (s.earlier f).all (fun x => x.stage = .done)

/-! ## Completion records -/

/-- The 16 bytes of a record (R167). -/
def recordBytes (step : W64) (index : W32) (gen : W16) (flags status : Byte) : List Byte :=
  [status, flags] ++ leBytes 2 gen.toNat ++ leBytes 4 index.toNat ++ leBytes 8 step.toNat

/-- A record written into slot x mod 2^S of its ring. True where it cannot be written: a page not mapped or
not writable, a merge read uncorrectable, a host write that cannot be sent (R611). -/
def State.writeRecord (s : State) (ring : Nat) (index : W32) (bs : List Byte) (ecc : Ecc) : Bool × State :=
  let r := s.ring ring
  let a := r.cplBase + 16 * (index.toNat % 2 ^ r.logSize)
  if r.host then
    if s.hostUp then (false, s.emit (.hostWrite a bs false)) else (true, s)
  else
    match (s.ctx r.ctx).translate true a with
    | none => (true, s)
    | some pa => s.memStore pa bs (lineAt pa ecc) 2

/-! ## Tokens of a wagon (R147, R182 to R189) -/

/-- A token that a context does not own (R182, R186). -/
def State.foreign (s : State) (ctx tok : Nat) : Bool := (s.token tok).owner ≠ some ctx

/-- The token fault of R186. -/
def State.tokenFault (s : State) (ctx : Nat) (w : Wagon) : Bool :=
  (wSig w && s.foreign ctx (wSigToken w)) || (tkLocal w && s.foreign ctx (tkToken w))

/-- A signal applied to a token (R183). -/
def State.addToken (s : State) (tok : Nat) (n : W32) : State := s.modToken tok (fun t => { t with value := t.value + n })

/-- The completion signals SIG_TOKEN: units signal on every status but ABORTED, the token unit on OK only, and a
token fault on none (R147, R186, R188, R189). -/
def State.signals (s : State) (f : Flight) : Bool :=
  let op := wOpcode f.bits
  let unit := opMatrix op || op = 0x20 || opMover op || opColl op
  wSig f.bits && f.status ≠ wsAborted && !s.tokenFault f.ctx f.bits && (unit || f.status = wsOk)

/-- SIG_TOKEN signalled, where the completion signals. -/
def State.signalDone (s : State) (f : Flight) : State :=
  if s.signals f then s.addToken (wSigToken f.bits) (BitVec.ofNat 32 (wSigAdd f.bits)) else s

/-- STEP of a record: the committed step for a commit that completes OK, the next one for any other wagon (R167). -/
def State.recordStep (s : State) (f : Flight) : W64 :=
  let c := s.ctx f.ctx
  if wOpcode f.bits = 0x43 ∧ f.status = wsOk then c.step else c.step + 1

/-- STEP_INVALID noted for a STEP_COMMIT of a ring whose fence is met for the first time (R176, R198). -/
def State.noteFence (s : State) (ring : Nat) : State :=
  { s with marsh.flights := s.marsh.flights.map (fun f =>
      if f.ring = ring ∧ wOpcode f.bits = 0x43 ∧ f.fence = none ∧ s.fenceMet f then
        { f with fence := some (s.ctx f.ctx).stepInvalid } else f) }

/-- The context and generation of a wagon, for an event. -/
def Flight.who (f : Flight) : Option (Nat × W16) := some (f.ctx, f.gen)

/-- Event 0x0205 for a cause of a mover wagon that 0x0201 does not record (R237, R484), from a source. -/
def State.noteMove (s : State) (src : W32) (f : Flight) (code : Byte) : State :=
  if code = wsOk ∨ code = wsData ∨ code = wsMergeLost then s
  else s.report src 0x0205 f.who (BitVec.ofNat 32 (code.toNat + 256 * wOpcode f.bits))

/-! ## Mirrors (R260, R261) -/

/-- A mirror that ends other than by its commit completing OK sets both bits of every coupled page and forgets
the store's committed slot. -/
def Context.endMirror (c : Context) : Context :=
  if c.mirror.isSome then
    { c with mirror := none, committed := none, dCur := c.regionPages, dPrev := c.regionPages }
  else c

/-! ## Stopping a context's work -/

/-- The rings bound to a context, ascending. -/
def State.ringsOf (s : State) (c : Nat) : List Nat :=
  (s.rings.filter (fun (_, r) => r.state ≠ .unbound ∧ r.ctx = c)).map (fun x => x.1)

/-- A queue place freed by a wagon that leaves its unit (R25, R174). -/
def State.freePlace (s : State) (u : UnitRef) : State := s.modUnit u (fun d => { d with freed := d.freed + 1 })

/-- Every bank whose open tile sequence belongs to a ring that satisfies a test closes without output. -/
def Bank.closeIf (p : Nat → Bool) (b : Bank) : Bank :=
  match b.seq with
  | some r => if p r then Bank.closed else b
  | none => b

/-- The banks of every engine closed where their sequence's ring satisfies a test (R206). -/
def State.closeBanks (s : State) (p : Nat → Bool) : State :=
  { s with parts := s.parts.map (fun q => { q with mes := q.mes.map (fun e =>
      { e with bank0 := e.bank0.closeIf p, bank1 := e.bank1.closeIf p }) }) }

/-- The tree neighbours of a group: parents and children (R305). -/
def groupNeighbours (ts : List Tree) : List Nat :=
  (ts.map (fun t => t.parent.toList ++ t.children)).flatten.eraseDups

/-- COLL_ABORT for an operation to the listed peers (R313). -/
def State.collAbortTo (s : State) (ctx group : Nat) (opseq : W32) (peers : List Nat) : State :=
  peers.foldl (fun t i =>
    match (t.ctx ctx).peer i with
    | none => t
    | some p =>
      match t.sendTo 0xA p (group * 2 ^ 48 + opseq.toNat) 0 [] ctx .nobody with
      | some (_, u) => u
      | none => t) s

/-- A collective wagon that ends with a status other than OK or DATA_UNCORRECTABLE aborts its operation at
its neighbours, and its accumulators are freed (R310, R313). -/
def State.collEnd (s : State) (f : Flight) (status : Byte) (except : List Nat) : State :=
  let g := clGroup f.bits
  let o := clOpseq f.bits
  let n := (groupNeighbours (Table.get [] (s.ctx f.ctx).groups g)).filter (fun i => i ∉ except)
  let t := if status = wsOk ∨ status = wsData then s else s.collAbortTo f.ctx g o n
  let u := { t with rails.accums := t.rails.accums.filter (fun a => ¬ (a.ctx = f.ctx ∧ a.group = g ∧ a.opseq = o)) }
  u.modCtx f.ctx (fun c => { c with opDone := Table.put none g (some o) c.opDone })

/-- A ring becomes HALTED with a cause and raises its interrupt in modes 1 and 2 (R161, R170). -/
def State.haltWith (s : State) (r : Nat) (cause : HaltCause) : State :=
  let t := s.modRing r (fun x => { x with state := .halted, cause := cause })
  if 1 ≤ (s.ring r).irq then t.raiseRing r else t

/-- A ring that a halt did not start with becomes HALTED with a cause; one that is HALTED already keeps its cause (log
entry 14). -/
def State.haltRing (s : State) (r : Nat) (cause : HaltCause) : State :=
  if (s.ring r).state = .running then s.haltWith r cause else s

/-- A wagon as a halt completes it: ABORTED, but for a STEP_COMMIT whose end is decided, which keeps it (R198, R206, log
entry 116). -/
def Flight.atHalt (f : Flight) : Flight :=
  if f.stage = .decided ∧ wOpcode f.bits = 0x43 then f else { f with status := wsAborted }

/-- What a record that was written brings: HEAD passes a commit that is not ABORTED (R207), and the ring raises its
interrupt in modes 1 and 2 (R170). -/
def State.haltRecord (s : State) (f : Flight) : State :=
  let t := if f.status ≠ wsAborted ∧ ¬ (s.ring f.ring).recordLost then
      s.modRing f.ring (fun r => { r with head := f.index + 1 }) else s
  if 1 ≤ (s.ring f.ring).irq then t.raiseRing f.ring else t

/-- A dispatched wagon completed by a halt: its record carries the generation under which it was dispatched, its queue
place is freed, a closing wagon takes its target's DATA_ERR, a mover wagon is recorded, a collective is aborted at its
neighbours, and a record that cannot be written halts the ring with RECORD_FAIL (R167, R203, R206, R237, R238, R313,
R611). -/
def State.abortFlight (s : State) (f : Flight) : State :=
  if f.stage = .done then s
  else
    let g := f.atHalt
    let op := wOpcode f.bits
    let fed := s.takeFeed f.unit f.bits
    let err := wCloses f.bits && (fed.1 || (flagsOf f.flags.toNat).dataErr)
    let t := fed.2
    let w := t.writeRecord f.ring f.index
      (recordBytes (t.recordStep g) f.index f.gen { noFlags with dataErr := err }.byte g.status) .clean
    let t := if w.1 then (w.2.modRing f.ring (fun r => { r with recordLost := true })).haltWith f.ring .recordFail
      else w.2.haltRecord g
    let t := (t.freePlace f.unit).signalDone g
    if opColl op then t.collEnd f wsAborted []
    else if opMover op then t.noteMove (unitSource f.unit) f wsAborted
    else t

/-- The work of a context stops: its dispatched wagons complete ABORTED and leave, its open tile sequences
close, its mirror ends, its rings drop what they fetched, the step is invalid and the generation goes up
(R203, R206). -/
def State.stopWork (s : State) (c : Nat) : State :=
  let mine := s.marsh.flights.filter (fun f => f.ctx = c)
  let t := mine.foldl State.abortFlight s
  let rings := s.ringsOf c
  let t := { t with
    marsh.flights := t.marsh.flights.filter (fun f => f.ctx ≠ c)
    rails.accums := t.rails.accums.filter (fun a => a.ctx ≠ c) }
  let t := t.closeBanks (fun r => rings.contains r)
  let t := rings.foldl (fun t r => t.modRing r (fun x => { x with window := [] })) t
  let t := mine.foldl (fun t f => t.settle f.unit) t
  t.modCtx c (fun x => { x.endMirror with stepInvalid := true, gen := nextGen x.gen })

/-- CONTEXT_HALTED: context, new generation, the halting ring or 0xFFFF, and the cause (R206, R370). -/
def State.haltTicket (s : State) (c : Nat) (ring : Nat) (cause : HaltCause) : State :=
  s.event 0x0280 (leBytes 4 c ++ leBytes 2 (s.ctx c).gen.toNat ++ leBytes 2 ring ++ leBytes 1 (causeCode cause)
    ++ leBytes 7 0)

/-- A halt by one ring: that ring with its own cause, the others with CONTEXT (R206). -/
def State.haltByRing (s : State) (ring : Nat) (cause : HaltCause) : State :=
  let c := (s.ring ring).ctx
  let t := (s.stopWork c).haltWith ring cause
  let t := (s.ringsOf c).foldl (fun t r => t.haltRing r .context) t
  (t.modCtx c (fun x => { x with state := .halted })).haltTicket c ring cause

/-- A halt that no ring caused: every ring takes the same cause, and the ticket names ring 0xFFFF (R206,
R370). -/
def State.haltAll (s : State) (c : Nat) (cause : HaltCause) : State :=
  let t := (s.ringsOf c).foldl (fun t r => t.haltRing r cause) (s.stopWork c)
  (t.modCtx c (fun x => { x with state := .halted })).haltTicket c 0xFFFF cause

/-- A context affected by a reset: its work stops, its rings halt with cause RESET, and it passes through
RESTORING (R41, R209). A context that has no work to stop (FREE, QUARANTINE) is left; one in TEARDOWN goes
on tearing down. -/
def State.restoreStart (s : State) (c : Nat) : State :=
  match (s.ctx c).state with
  | .active | .halted =>
    ((s.ringsOf c).foldl (fun t r => t.haltRing r .reset) (s.stopWork c)).modCtx c
      (fun x => { x with state := .restoring })
  | _ => s

/-- A context restored after a reset is HALTED, and its ticket is raised once it is (R209, R506). -/
def State.restoreEnd (s : State) (c : Nat) : State :=
  if (s.ctx c).state = .restoring then
    (s.modCtx c (fun x => { x with state := .halted })).haltTicket c 0xFFFF .reset
  else s

/-- Contexts that are listed in the table, ascending. -/
def State.ctxIds (s : State) : List Nat := s.ctxs.map (fun x => x.1)

/-- Contexts granted a physical partition (R209). -/
def State.grantedTo (s : State) (p : Nat) : List Nat :=
  (s.ctxs.filter (fun (_, c) => c.yard.any (fun w => w.phys = p) ∧
    (c.state = .active ∨ c.state = .halted ∨ c.state = .restoring))).map (fun x => x.1)

/-- Teardown begins (R203): TEARDOWN, a new generation, dispatched wagons ABORTED, and no ring fetches or
dispatches: its rings read HALTED with cause CONTEXT, and the step is invalid (log entry 142). A request that waits for
its completion is kept. -/
def State.beginTeardown (s : State) (c : Nat) (req : Option Request) : State :=
  let t := (s.ringsOf c).foldl (fun t r => t.haltRing r .context) (s.stopWork c)
  t.modCtx c (fun x => { x with state := .teardown, destroyReq := req })

/-- The step of a context is marked invalid (R197). -/
def State.markInvalid (s : State) (c : Nat) : State := s.modCtx c (fun x => { x with stepInvalid := true })

end Sys2Proof.Machine
end

