-- ==== Sys2Proof/Machine/Requests.lean ====
section
/-! DEFINITION. What every request goes through before its own rules: its place in its channel (R344), the power
state (R603), the lifecycle and debug level (R572), its form (R16, R350), its authorisation block (R330, R558 to
R560) and the context it names (R607). The order of the checks is log entry 15. -/

namespace Sys2Proof.Machine

/-! ## Lifecycle (R541) -/

/-- Lifecycle states, with Returned split by OWNER_DESTROYED. -/
inductive Life where
  | blank | provisioned | fielded | owned | destroyed
  deriving DecidableEq, Repr

/-- The lifecycle state: that of the highest LIFECYCLE bit set (R541). -/
def Fuses.life (f : Fuses) : Life :=
  if bit f.lifecycle.toNat 2 then (if f.ownerDestroyed then .destroyed else .owned)
  else if bit f.lifecycle.toNat 1 then .fielded
  else if bit f.lifecycle.toNat 0 then .provisioned
  else .blank

/-- LIFECYCLE of IDENTITY_GET: the three fuse bits (R351, R539). -/
def Fuses.lifeByte (f : Fuses) : Byte := f.lifecycle.zeroExtend 8

/-! ## The combination table (R572) -/

/-- The letters of R572; `none` for a request that no letter names. `F` covers both fault injections. -/
inductive Letter where
  | none | r | q | p | l | d | c | u | f
  deriving DecidableEq, Repr

/-- Whether a cell outside Hold-up allows a letter (R572). -/
def letterAllows (life : Life) (level : Nat) (standby : Bool) : Letter → Bool
  | .none => true
  | .r => true
  | .q => life = .provisioned || life = .fielded || life = .owned
  | .p => life = .blank
  | .l => life = .provisioned || life = .fielded
  | .d => life = .owned
  | .c => life ≠ .blank
  | .u => !standby
  | .f => !standby && (level = 2 || life = .provisioned)

/-! ## Rules of a request -/

/-- What a request must look like and where it is allowed. -/
structure Rule where
  /-- Its letter in R572 -/
  letter : Letter := .none
  /-- Answered in Hold-up (R603) -/
  holdup : Bool := false
  /-- AUTH may be set: the table of R560 names the opcode -/
  authOpen : Bool := false
  /-- A block is required in this state, and with which key; `none`: DENIED whatever the key -/
  authNeed : State → Request → Bool := fun _ _ => false
  authKey : State → Request → Option Nat := fun _ _ => some 0
  /-- HOSTBUF may be set (R329) -/
  hostOpen : Bool := false
  /-- The payload, without an authorisation block, has a length that the opcode allows -/
  lenOk : List Byte → Bool
  /-- Reserved payload bytes: (offset, count) -/
  reserved : List (Nat × Nat) := []
  /-- The request names a context at offset 0, with GEN at 4 (R607) -/
  ctx : Bool := false

/-- Length of an authorisation block (R330). -/
def authBytes : Nat := 2856

/-- AUTH of a request (R324). -/
def Request.auth (r : Request) : Bool := bit r.flags.toNat 4

/-- HOSTBUF of a request (R324). -/
def Request.hostbuf (r : Request) : Bool := bit r.flags.toNat 5

/-- The payload before the authorisation block. -/
def Request.body (r : Request) : List Byte :=
  if r.auth then r.payload.take (r.payload.length - authBytes) else r.payload

/-- The authorisation block. -/
def Request.block (r : Request) : List Byte := r.payload.drop (r.payload.length - authBytes)

/-- A field of the payload: n bytes at an offset. -/
def Request.get (r : Request) (off n : Nat) : Nat := getLE r.payload off n

/-- The first nonzero byte among reserved ranges of a payload. -/
def firstSet (bs : List Byte) (rs : List (Nat × Nat)) : Option Nat :=
  ((rs.map (fun (o, n) => (List.range n).map (fun i => o + i))).flatten).find?
    (fun i => (bs[i]?).getD 0 ≠ 0)

/-! ## Order and concurrency (R344) -/

/-- Requests that name a context at offset 0 of their payload (R607). -/
def namesCtx (op : Nat) : Bool :=
  (0x0201 ≤ op && op ≤ 0x0205) || (0x0208 ≤ op && op ≤ 0x020B) || (0x0210 ≤ op && op ≤ 0x0212) ||
    op = 0x0218 || (0x0903 ≤ op && op ≤ 0x0907)

/-- The context a request names: its own, that of a context abort, or that whose ring it asks to reset (R344, R362). -/
def State.names (s : State) (r : Request) : Option Nat :=
  if namesCtx r.opcode then some (r.get 0 4)
  else if r.opcode ≠ 0x0502 then none
  else if r.get 1 1 = 0 then some (r.get 4 4)
  else
    let ring := s.ring (field (r.get 4 4) 15 0)
    if r.get 1 1 = 4 ∧ ring.state ≠ .unbound then some ring.ctx else none

/-- Classes 6, 7 and 8 act one at a time for the whole module. -/
def Request.serial (r : Request) : Bool := 6 ≤ r.opcode / 256 && r.opcode / 256 ≤ 8

/-- Two requests name one context. -/
def State.sameCtx (s : State) (a b : Request) : Bool := (s.names a).isSome && s.names a = s.names b

/-- Requests of both channels that have started and wait for their reply. -/
def State.running (s : State) : List Request := s.book.pcie.running ++ s.book.mctp.running

/-- The FW_UPDATE_COMMIT that writes the NOR (R562). -/
def State.commitRunning (s : State) : Option Request := s.running.find? (fun r => r.opcode = 0x0803)

/-- The other channel. -/
def otherChan : Chan → Chan
  | .pcie => .mctp
  | .mctp => .pcie

/-- Two requests of classes that act one at a time (R344): but FW_UPDATE_ABORT is answered during a commit (R562). -/
def Request.excludes (q r : Request) : Bool := q.serial && r.serial && !(q.opcode = 0x0803 && r.opcode = 0x0804)

/-- A request that stands first in its channel may start: no request of its context runs, or was received before it on the
other channel, and where its class acts one at a time none of those classes runs (R344). -/
def State.mayStart (s : State) (r : Request) : Bool :=
  !s.running.any (fun q => s.sameCtx q r || q.excludes r) &&
    !(s.chan (otherChan r.chan)).received.any (fun q => q.arrival < r.arrival && s.sameCtx q r)

/-- The request a command acts on: the oldest received of its channel, where it carries the command's opcode,
tickets are accepted (R333) and it may start (R344). It moves to the running requests. -/
def State.takeReq (s : State) (ch : Chan) (p : Nat → Bool) : Option (Request × State) :=
  match (s.chan ch).received with
  | [] => none
  | r :: rest =>
    if s.book.fwState = 3 ∧ p r.opcode ∧ s.mayStart r then
      some (r, s.modChan ch (fun c => { c with received := rest, running := c.running ++ [r] }))
    else none

/-! ## Authorisation (R330, R558 to R560) -/

/-- The nonce that a request's block presents. -/
def Request.nonce (r : Request) : BitVec 256 := BitVec.ofNat 256 (leNat (slice r.block 0 32))

/-- A presented nonce is consumed whether or not the request succeeds (R559). True where it was a live nonce of
the same channel, issued less than 60 s before (R330). -/
def State.presentNonce (s : State) (r : Request) : Bool × State :=
  if r.auth ∧ authBytes ≤ r.payload.length then
    let live := s.sec.nonces.any (fun n => n.chan = r.chan ∧ n.value = r.nonce ∧ s.start.us < n.issued + 60000000)
    (live, { s with sec.nonces := s.sec.nonces.filter (fun n => ¬ (n.chan = r.chan ∧ n.value = r.nonce)) })
  else (false, s)

/-- ASCII text padded with zeros to n bytes. -/
def asciiPad (t : String) (n : Nat) : List Byte := slice (t.toList.map (fun c => BitVec.ofNat 8 c.toNat)) 0 n

/-- The channel's number in the signed message (R558). -/
def chanNo : Chan → Nat
  | .pcie => 0
  | .mctp => 1

/-- The message that an authorisation block signs (R558). -/
def State.authMessage (s : State) (r : Request) : List Byte :=
  asciiPad "SUENE-AUTH-V1" 16 ++ leBytes 16 s.fuses.serial.toNat ++ leBytes 2 r.opcode
  ++ leBytes 1 (chanNo r.chan) ++ leBytes 1 0 ++ leBytes 4 s.book.session.toNat ++ slice r.block 0 32
  ++ slice r.block 32 1 ++ leBytes 3 0 ++ r.body

/-- The 68 bytes of a key. -/
def keyBytes (k : BitVec 544) : List Byte := leBytes 68 k.toNat

/-- The owner key copy, where it agrees with OWNER_HASH (R547). -/
def State.ownerKey (s : State) : Option (List Byte) :=
  s.mram.ownerKey.value.bind (fun k => if keyHash k = s.fuses.ownerHash then some k else none)

/-- The public key that KEY names (R330). -/
def State.authPublic (s : State) (key : Nat) : Option (List Byte) :=
  if key = 0 then s.ownerKey else if key = 1 then some (keyBytes Config.vendorKey) else none

/-- The signature of the block verifies under the key its KEY names (R558). -/
def State.signatureOk (s : State) (r : Request) : Bool :=
  match s.authPublic (getLE r.block 32 1) with
  | none => false
  | some k => xmssVerify k (s.authMessage r) (slice r.block 36 2820)

/-! ## The checks -/

/-- The checks of R607 on CTX and GEN. -/
def State.ctxRefusal (s : State) (r : Request) : Option (Nat × Nat) :=
  let n := r.get 0 4
  if 262143 < n then some (stRange, 0)
  else
    let c := s.ctx n
    if c.state ≠ .active ∧ c.state ≠ .halted then some (stState, ctxCode c.state)
    else if r.get 4 2 ≠ c.gen.toNat then some (stStale, c.gen.toNat)
    else none

/-- The first check that refuses a request, with the code and DETAIL of its answer (log entry 15). -/
def State.refusal (s : State) (r : Request) (rule : Rule) (live : Bool) : Option (Nat × Nat) :=
  if r.broken then some (stMalformed, 0xFFFF)
  else if s.power.state = .holdUp ∧ ¬ rule.holdup then some (stState, 3)
  else if s.power.state ≠ .holdUp ∧
      ¬ letterAllows s.fuses.life s.sec.level (s.power.state = .standby) rule.letter then some (stDenied, 0)
  else if r.auth ∧ ¬ rule.authOpen then some (stMalformed, 0xFFFF)
  else if r.hostbuf ∧ ¬ (rule.hostOpen ∧ r.chan = .pcie) then some (stMalformed, 0xFFFF)
  else if rule.authNeed s r ∧ ¬ r.auth then some (stDenied, 0)
  else if r.auth ∧ r.payload.length < authBytes then some (stLength, 0)
  else if ¬ rule.lenOk r.body then some (stLength, 0)
  else
    match firstSet r.body rule.reserved with
    | some i => some (stMalformed, i)
    | none =>
      match (if r.auth then firstSet r.block [(33, 3)] else none) with
      | some i => some (stMalformed, r.body.length + i)
      | none =>
        if r.auth ∧ rule.authKey s r ≠ some (getLE r.block 32 1) then some (stDenied, 0)
        else if r.auth ∧ ¬ live then some (stAuth, 0)
        else if r.auth ∧ ¬ s.signatureOk r then some (stAuth, 0)
        else if rule.ctx then s.ctxRefusal r
        else none

/-- A request command: the request it acts on is refused, or its own rules run. Without such a request the
state is unchanged (log entry 8). -/
def State.onRequest (s : State) (ch : Chan) (p : Nat → Bool) (rule : Rule) (act : Request → State → State) :
    State :=
  match s.takeReq ch p with
  | none => s
  | some (r, t) =>
    let n := t.presentNonce r
    match n.2.refusal r rule n.1 with
    | some (code, detail) => n.2.reply r code detail []
    | none => act r n.2

/-- A payload of exactly n bytes. -/
def lenIs (n : Nat) : List Byte → Bool := fun b => b.length = n

/-- The requests of one opcode. -/
def opIs (n : Nat) : Nat → Bool := fun m => m = n

/-! ## Fault injection -/

/-- Injection is permitted: Intrusive debug, or the authorisation block that began it in Provisioned; never in Hold-up or
Standby (R317, R572). -/
def State.mayInject (s : State) (i : Injection) : Bool :=
  s.power.state ≠ .holdUp && s.power.state ≠ .standby && (if i.byLevel then s.sec.level = 2 else s.fuses.life = .provisioned)

/-- Every injection whose permission has lapsed ends (R317). -/
def State.endInjections (s : State) : State :=
  { s with rails.ports := s.rails.ports.map (fun p => { p with inject := p.inject.filter s.mayInject }) }

end Sys2Proof.Machine
end

