-- ==== Sys2Proof/Machine/Book.lean ====
section
/-! DEFINITION. The Booking Office's channels: tickets as bytes (R323), receipt and framing (R327, R328, R335,
R342), acknowledgement (R338) and the writing of outbound tickets (R337, R339, R342, R343). -/

namespace Sys2Proof.Machine

/-! ## Tickets as bytes (R323) -/

/-- FLAGS of an outbound ticket (R324). -/
def SentTicket.flags (t : SentTicket) : Nat :=
  b2n (!t.ticket.event) + 2 * b2n t.ticket.event + 4 * b2n t.replayed + 8 * b2n t.more

/-- The bytes of an outbound ticket with its CRC; ACK is the last request received in order. -/
def SentTicket.bytes (t : SentTicket) (ack : W32) : List Byte :=
  let head := fun (crc : Nat) =>
    leBytes 4 t.seq.toNat ++ leBytes 4 ack.toNat ++ leBytes 2 t.ticket.opcode ++ leBytes 2 t.flags
    ++ leBytes 2 t.ticket.payload.length ++ leBytes 2 t.ticket.tag.toNat ++ leBytes 4 t.ticket.client.toNat
    ++ leBytes 2 t.ticket.code ++ leBytes 2 t.ticket.detail ++ leBytes 4 crc ++ leBytes 4 0
  head (crc32c (head 0 ++ t.ticket.payload)).toNat ++ t.ticket.payload

/-- A ticket read from the bytes of a slot or message. -/
def ticketOf (bs : List Byte) : Ticket :=
  { seq := BitVec.ofNat 32 (getLE bs 0 4), ack := BitVec.ofNat 32 (getLE bs 4 4), opcode := getLE bs 8 2
    flags := BitVec.ofNat 16 (getLE bs 10 2), length := getLE bs 12 2, tag := BitVec.ofNat 16 (getLE bs 14 2)
    client := BitVec.ofNat 32 (getLE bs 16 4), status := BitVec.ofNat 32 (getLE bs 20 4)
    crc := BitVec.ofNat 32 (getLE bs 24 4), reserved := BitVec.ofNat 32 (getLE bs 28 4)
    payload := slice bs 32 (min (getLE bs 12 2) 480) }

/-- The CRC over a ticket's header with CRC taken as zero, and its payload. -/
def ticketCrc (bs : List Byte) : W32 :=
  crc32c (slice bs 0 24 ++ leBytes 4 0 ++ slice bs 28 4 ++ slice bs 32 (min (getLE bs 12 2) 480))

/-- ERR of a framing error (R327, R332): 1 CRC, 2 sequence, 3 length; 0 where the request frames. A LENGTH
above 480 cannot be checked by a CRC and is reported as 3. -/
def frameError (bs : List Byte) (expected : W32) : Nat :=
  let t := ticketOf bs
  if 480 < t.length then 3 else if ticketCrc bs ≠ t.crc then 1 else if t.seq ≠ expected then 2 else 0

/-- The header of a request breaks R327's rules: CLIENT zero, reserved bits, outbound flags or STATUS set. -/
def Ticket.headerBad (t : Ticket) : Bool :=
  t.client = 0 || t.reserved ≠ 0 || t.status ≠ 0 || field t.flags.toNat 15 6 ≠ 0 || field t.flags.toNat 2 0 ≠ 0

/-- MORE of a ticket. -/
def Ticket.more (t : Ticket) : Bool := bit t.flags.toNat 3

/-! ## Acknowledgement (R338, R348) -/

/-- An acknowledgement lies from OUT_ACK to OUT_SEQ − 1. -/
def Channel.ackInRange (c : Channel) (ack : W32) : Bool := sub32 ack c.outAck ≤ sub32 (c.outSeq - 1) c.outAck

/-- OUT_ACK taken from an acknowledgement; one behind it, or at or beyond OUT_SEQ, is ignored. -/
def Channel.takeAck (c : Channel) (ack : W32) : Channel := if c.ackInRange ack then { c with outAck := ack } else c

/-- Tickets sent after OUT_ACK. -/
def Channel.unacked (c : Channel) : List SentTicket :=
  c.sent.filter (fun t => sub32 (t.seq - 1) c.outAck < sub32 c.outSeq (c.outAck + 1))

/-- Requests received and not yet replied. -/
def Channel.openCount (c : Channel) : Nat := c.received.length + c.running.length

/-! ## Receipt (R328, R335) -/

/-- A frame-correct ticket joins its chain: the chain's request once its last part is in, a broken chain's
MALFORMED request, or nothing yet (R328). -/
def Channel.receive (c : Channel) (ch : Chan) (arrival : Nat) (t : Ticket) : Channel :=
  let c := { c with inSeq := c.inSeq + 1 }.takeAck t.ack
  let parts := c.chain ++ [t]
  let mk := fun (broken : Bool) => { chan := ch, opcode := t.opcode, flags := t.flags, client := t.client, tag := t.tag
                                     ack := t.ack, payload := (parts.map (fun p => p.payload)).flatten, broken := broken
                                     seq := t.seq, parts := parts.length, arrival := arrival : Request }
  let joins : Bool := match c.chain with
    | [] => true
    | h :: _ => h.opcode = t.opcode && h.client = t.client && h.tag = t.tag
  if ¬ joins ∨ 16 < parts.length ∨ (t.more ∧ parts.length = 16) ∨ (¬ c.chain.isEmpty ∧ t.headerBad) then
    { c with chain := [], received := c.received ++ [mk true] }
  else if t.more then { c with chain := parts }
  else { c with chain := [], received := c.received ++ [mk (parts.any (fun p => p.headerBad))] }

/-- A frame-correct ticket received on a channel. -/
def State.receiveTicket (s : State) (ch : Chan) (t : Ticket) : State :=
  { s.modChan ch (fun c => c.receive ch s.book.arrivals t) with book.arrivals := s.book.arrivals + 1 }

/-- A channel holds a free place among its 64 reply places (R339). -/
def Channel.hasPlace (c : Channel) : Bool :=
  c.openCount + (c.queue.filter (fun t => !t.event)).length < 64

/-! ## MCTP packets on SMBus (R341, DSP0236, DSP0237; log entry 134) -/

/-- Eight shifts of the SMBus polynomial x^8 + x^2 + x + 1. -/
def crc8Bits : Nat → Nat → Nat
  | 0, c => c
  | n + 1, c => crc8Bits n (if 128 ≤ c then Nat.xor (2 * c % 256) 7 else 2 * c)

/-- The packet error code of the bytes of a packet. -/
def smbPec (bs : List Byte) : Byte := BitVec.ofNat 8 (bs.foldl (fun c b => crc8Bits 8 (Nat.xor c b.toNat)) 0)

/-- The module's SMBus address (R584). -/
def smbAddress : Byte := 0x4E

/-- The transmission unit: the largest payload of a packet (R341). -/
def mctpUnit : Nat := 64

/-- A block write that carries one packet: to an address, from an address, with its packet error code. -/
def smbWrite (dst src : Byte) (packet : List Byte) : List Byte :=
  let bs := [dst <<< 1, 0x0F, BitVec.ofNat 8 (packet.length + 1), src <<< 1 ||| 1] ++ packet
  bs ++ [smbPec bs]

/-- The packets of a message from packet n on: pieces of one transmission unit, the first and the last marked. -/
def mctpPackets (dst src : Byte) : (fuel n : Nat) → List Byte → List (List Byte)
  | 0, _, _ => []
  | fuel + 1, n, bs =>
    let last := bs.length ≤ mctpUnit
    let flags := 128 * b2n (n = 0) + 64 * b2n last + 16 * (n % 4) + 8
    ([1, dst, src, BitVec.ofNat 8 flags] ++ bs.take mctpUnit) ::
      (if last then [] else mctpPackets dst src fuel (n + 1) (bs.drop mctpUnit))

/-- A packet received: its source, whether it begins and ends a message, its sequence number, its tag and its payload. -/
structure MctpPacket where
  src : Byte
  som : Bool
  eom : Bool
  seq : Nat
  tag : Nat
  payload : List Byte

/-- The packet in a block write to the module for its endpoint ID; none where it is dropped: a wrong packet error code,
another address, version or length (R341). -/
def readPacket (own : Byte) (bs : List Byte) : Option MctpPacket :=
  let b := fun i => (bs[i]?).getD 0
  let n := bs.length
  let flags := (b 7).toNat
  if n < 10 ∨ 9 + mctpUnit < n ∨ b 0 ≠ smbAddress <<< 1 ∨ b 1 ≠ 0x0F ∨ (b 2).toNat + 4 ≠ n ∨ bit (b 3).toNat 0 = false ∨
      field (b 4).toNat 3 0 ≠ 1 ∨ b 5 ≠ own ∨ smbPec (bs.take (n - 1)) ≠ b (n - 1) then none
  else some { src := b 6, som := bit flags 7, eom := bit flags 6, seq := field flags 5 4, tag := field flags 3 0
              payload := (bs.drop 8).take (n - 9) }

/-- A packet joins the message under way: none where it starts none and continues none. -/
def MctpPacket.join (p : MctpPacket) (m : Option MctpPacket) : Option MctpPacket :=
  if ¬ p.eom ∧ p.payload.length ≠ mctpUnit then none
  else if p.som then some p
  else m.bind (fun q =>
    if q.eom ∨ q.src ≠ p.src ∨ q.tag ≠ p.tag ∨ p.seq ≠ (q.seq + 1) % 4 then none
    else some { p with payload := q.payload ++ p.payload })

/-- The message that some packets carry, and who sent it: none where it does not arrive whole (R341). -/
def assemble (own : Byte) : Option MctpPacket → List (List Byte) → Option (Byte × List Byte)
  | m, [] => m.bind (fun q => if q.eom then some (q.src, q.payload) else none)
  | m, bs :: t =>
    match readPacket own bs with
    | none => assemble own m t
    | some p => assemble own (p.join m) t

/-! ## Outbound tickets (R337, R339, R342) -/

/-- The channel may write at OUT_SEQ: at most 32 tickets lie beyond OUT_ACK. -/
def Channel.mayWrite (c : Channel) : Bool := sub32 c.outSeq c.outAck ≤ 32

/-- EVENTS_LOST joins the queue as soon as a place is free (R339). -/
def Channel.addLost (c : Channel) : Channel :=
  if 0 < c.lost ∧ (c.queue.filter (fun q => q.event)).length < 1024 then
    { c with queue := c.queue ++ [{ opcode := 0x0182, event := true, client := 0, tag := 0, code := 0, detail := 0
                                    payload := leBytes 4 c.lost }], lost := 0 }
  else c

/-- The oldest outbound ticket, as the next part to write: 480 bytes of it and MORE where it is longer. -/
def Channel.nextPart (c : Channel) : Option (SentTicket × List OutTicket) :=
  match c.queue with
  | [] => none
  | t :: rest =>
    let more := 480 < t.payload.length
    some ({ seq := c.outSeq, more := more, replayed := false, ticket := { t with payload := t.payload.take 480 } },
      if more then { t with payload := t.payload.drop 480 } :: rest else rest)

/-- Tickets a channel holds after sending: 32 in the window, 64 on MCTP (R331, R342). -/
def heldTickets : Chan → Nat
  | .pcie => 32
  | .mctp => 64

/-- ACK of an outbound ticket: the last request received in order. -/
def Channel.ackOut (c : Channel) : W32 := c.inSeq - 1

/-- The vendor-defined message that carries a ticket's bytes. The enterprise number keeps the byte order of DSP0236. -/
def ticketMessage (bs : List Byte) : List Byte := [0x7F] ++ (leBytes 4 Config.enterprise.toNat).reverse ++ bs

/-- The packets of a whole message. -/
def messagePackets (dst src : Byte) (message : List Byte) : List (List Byte) :=
  mctpPackets dst src (message.length / mctpUnit + 1) 0 message

/-- The block writes that carry a message to the endpoint of the tray controller. -/
def State.blockWrites (s : State) (dst : Byte) (message : List Byte) : List (List Byte) :=
  (messagePackets dst (s.book.eid.getD 0) message).map (smbWrite s.book.peerSlave smbAddress)

/-- A ticket put where the far side reads it: its slot of the outbound window, or a message to the tray
controller (R337, R342). -/
def State.putTicket (s : State) (ch : Chan) (t : SentTicket) : State :=
  let bs := t.bytes (s.chan ch).ackOut
  match ch with
  | .pcie => { s with book.outWin := s.book.outWin.write (512 * (t.seq.toNat % 32)) bs }
  | .mctp =>
    match s.book.peer with
    | some dst => s.emit (.mctp dst (s.blockWrites dst (ticketMessage bs)))
    | none => s

/-- Where an outbound ticket can be put: tickets flow, and on MCTP the endpoint ID is set (R333, R341). -/
def State.chanUp (s : State) (ch : Chan) : Bool :=
  (s.book.fwState = 3 || s.book.fwState = 4) && (ch = .pcie || (s.book.eid.isSome && s.book.peer.isSome))

/-- One outbound ticket written: into its slot, then OUT_SEQ, then PENDING, then vector 0 (R337). -/
def State.writeTicket (s : State) (ch : Chan) : State :=
  let c := s.chan ch
  if ¬ s.chanUp ch ∨ ¬ c.mayWrite then s
  else
    match c.nextPart with
    | none => s
    | some (t, rest) =>
      let u := (s.putTicket ch t).modChan ch (fun c =>
        { c with outSeq := c.outSeq + 1, queue := rest
                 sent := (c.sent ++ [t]).drop (c.sent.length + 1 - heldTickets ch) }.addLost)
      match ch with
      | .pcie => { u with book.pending := true }.raiseVector 0
      | .mctp => u

/-- Every outbound ticket after OUT_ACK rewritten in place, or resent, with REPLAYED set (R343, R348). -/
def State.resendTickets (s : State) (ch : Chan) : State :=
  let c := s.chan ch
  let l := c.unacked
  let t := l.foldl (fun t x => t.putTicket ch { x with replayed := true }) s
  t.modChan ch (fun c => { c with sent := c.sent.map (fun x => if x ∈ l then { x with replayed := true } else x) })

/-- TICKET_REJECTED with the expected sequence, the slot and ERR, and the ERR field set (R335, R336). -/
def State.reject (s : State) (slot err : Nat) : State :=
  { s with book.err := err, book.errSlot := slot }.event 0x0183
    (leBytes 4 s.book.pcie.inSeq.toNat ++ leBytes 1 slot ++ leBytes 1 err ++ leBytes 2 0)

/-- The slots of the inbound window read from IN_SEQ up to TAIL − 1: each request that frames is received while
a reply place is free; the first that does not frame stops it (R335, R339). -/
def State.receiveUpTo (s : State) (tail : W32) : Nat → State
  | 0 => s
  | n + 1 =>
    let c := s.book.pcie
    if c.inSeq = tail then { s with book.pcie := { c with tail := none } }
    else if ¬ c.hasPlace then { s with book.pcie := { c with tail := some tail } }
    else
      let bs := s.book.inWin.read (512 * (c.inSeq.toNat % 32)) 512
      let err := frameError bs c.inSeq
      if err ≠ 0 then ({ s with book.pcie := { c with tail := none } }).reject (c.inSeq.toNat % 32) err
      else
        ({ s.receiveTicket .pcie (ticketOf bs) with book.err := 0, book.errSlot := 0 }).receiveUpTo tail n

end Sys2Proof.Machine
end

