-- ==== Sys2Proof/Machine/Session.lean ====
section
/-! DEFINITION. Class 0x01: sessions, identity and the capability descriptor (R347, R348, R351, R352), and
requests with reserved opcodes (R371). -/

namespace Sys2Proof.Machine

/-- The reply of SESSION_QUERY (R351); OPEN leaves the query itself out. -/
def State.sessionReply (s : State) (ch : Chan) : List Byte :=
  let c := s.chan ch
  leBytes 4 c.inSeq.toNat ++ leBytes 4 c.outSeq.toNat ++ leBytes 4 c.outAck.toNat
  ++ leBytes 4 s.book.session.toNat ++ leBytes 4 (c.openCount - 1)

/-- The reply to a SESSION_QUERY on MCTP: SEQ 0xFFFF_FFFF, not held for resending (R347). -/
def State.queryReply (s : State) (r : Request) (code detail : Nat) (payload : List Byte) : State :=
  let reply : SentTicket :=
    { seq := 0xFFFFFFFF, more := false, replayed := false
      ticket := { opcode := r.opcode, event := false, client := r.client, tag := r.tag, code := code, detail := detail
                  payload := payload, answers := some (r.seq, 1) } }
  (s.putTicket .mctp reply).modChan .mctp (fun c => { c with running := c.running.erase r })

/-- What a SESSION_QUERY must look like. -/
def queryRule : Rule := { holdup := true, lenOk := lenIs 0 }

/-- SESSION_QUERY (R347, R351). -/
def execSessionQuery (ch : Chan) (s : State) : Host.Outcome State Fault Refusal :=
  .next (match ch with
    | .pcie => s.onRequest .pcie (opIs 0x0100) queryRule (fun r t => t.ok r (t.sessionReply .pcie))
    | .mctp =>
      match s.takeReq .mctp (opIs 0x0100) with
      | none => s
      | some (r, t) =>
        match t.refusal r queryRule false with
        | some (code, detail) => t.queryReply r code detail []
        | none => t.queryReply r stOk 0 (t.sessionReply .mctp))

/-- SESSION_RESUME (R348). -/
def execSessionResume (ch : Chan) (s : State) : Host.Outcome State Fault Refusal :=
  .next (s.onRequest ch (opIs 0x0101) { holdup := true, lenOk := lenIs 0 } (fun r t =>
    let c := t.chan ch
    let behind := 1 ≤ sub32 c.outAck r.ack ∧ sub32 c.outAck r.ack < 2 ^ 31
    if ¬ behind ∧ ¬ c.ackInRange r.ack then t.reply r stRange 0xFFFF []
    else
      let t := t.modChan ch (fun c => c.takeAck r.ack)
      let c := t.chan ch
      (t.resendTickets ch).ok r (leBytes 4 (c.outAck + 1).toNat ++ leBytes 4 c.unacked.length
        ++ leBytes 4 t.book.session.toNat ++ leBytes 4 (c.openCount - 1))))

/-- SESSION_ACK (R322, R327): OUT_ACK from ACK, whatever its CLIENT, and no reply. -/
def execSessionAck (ch : Chan) (s : State) : Host.Outcome State Fault Refusal :=
  .next (match s.takeReq ch (opIs 0x0102) with
    | none => s
    | some (r, t) => t.modChan ch (fun c => { c.takeAck r.ack with running := c.running.erase r }))

/-- IDENTITY_KEY: the identity key, free bytes before there is one (R351). -/
def State.identityKey (s : State) : List Byte := (s.sec.identityRam.map KeyPair.publicKey).getD (keyBytes Config.noKey)

/-- IDENTITY_GET (R351). -/
def execIdentityGet (ch : Chan) (s : State) : Host.Outcome State Fault Refusal :=
  .next (s.onRequest ch (opIs 0x0110) { letter := .r, holdup := true, lenOk := lenIs 0 } (fun r t =>
    t.ok r (asciiPad (partName t.fuses.part) 16 ++ leBytes 16 t.fuses.serial.toNat ++ leBytes 2 0x00B0
      ++ leBytes 2 0x0302 ++ leBytes 4 t.sec.runVersion ++ t.identityKey ++ [t.fuses.lifeByte] ++ leBytes 3 0)))

/-- CAP_READ (R351, R352): bytes of one state of the descriptor. -/
def execCapRead (ch : Chan) (s : State) : Host.Outcome State Fault Refusal :=
  .next (s.onRequest ch (opIs 0x0111) { letter := .r, holdup := true, lenOk := lenIs 8, reserved := [(6, 2)] }
    (fun r t =>
      let off := r.get 0 4
      let n := r.get 4 2
      if n = 0 ∨ 472 < n then t.reply r stRange 4 []
      else if 1024 < off + n then t.reply r stRange 0 []
      else t.ok r (leBytes 4 t.cap.changeCount.toNat ++ leBytes 4 0 ++ slice t.capBytes off n)))

/-- The opcodes that the tables of *The Booking Office* define for requests (R371). -/
def requestOpcodes : List Nat :=
  [0x0100, 0x0101, 0x0102, 0x0110, 0x0111, 0x0200, 0x0201, 0x0202, 0x0203, 0x0204, 0x0205, 0x0206, 0x0208, 0x0209,
   0x020A, 0x020B, 0x0210, 0x0211, 0x0212, 0x0218, 0x0220, 0x0300, 0x0301, 0x0302, 0x0303, 0x0304, 0x0400, 0x0401,
   0x0402, 0x0403, 0x0500, 0x0501, 0x0502, 0x0503, 0x0600, 0x0601, 0x0602, 0x0603, 0x0604, 0x0605, 0x0606, 0x0700,
   0x0701, 0x0710, 0x0711, 0x0800, 0x0801, 0x0802, 0x0803, 0x0804, 0x0805, 0x0806, 0x0900, 0x0901, 0x0902, 0x0903,
   0x0904, 0x0905, 0x0906, 0x0907, 0x0908, 0x0909]

/-- A request with a reserved opcode, or with an event's opcode (R371): UNKNOWN_OPCODE. -/
def execReservedOpcodeRequest (ch : Chan) (s : State) : Host.Outcome State Fault Refusal :=
  .next (match s.takeReq ch (fun m => m ∉ requestOpcodes) with
    | none => s
    | some (r, t) =>
      if r.broken then t.reply r stMalformed 0xFFFF []
      else if t.power.state = .holdUp then t.reply r stState 3 []
      else t.reply r stUnknown 0 [])

end Sys2Proof.Machine
end

