-- ==== Sys2Proof/Machine/Admit.lean ====
section
/-! DEFINITION. Admission (R210 to R212, R612): Yard extents, tokens and context ids, and the shortfalls. Frames and
pages stand in Ops. -/

namespace Sys2Proof.Machine

/-! ## Yard -/

/-- A block free for a grant: available to contexts and held by none. -/
def State.blockFree (s : State) (p b : Nat) : Bool := s.yardOpen p b && !s.yardHeld p b

/-- The largest run of free blocks, with the lowest base among the largest: base and length (R612). -/
def largestRun (free : Nat → Bool) : Nat → Nat → Nat → Nat → Nat × Nat → Nat × Nat
  | 0, _, _, _, best => best
  | n + 1, b, start, len, best =>
    if free b then
      let start := if len = 0 then b else start
      let len := len + 1
      largestRun free n (b + 1) start len (if best.2 < len then (start, len) else best)
    else largestRun free n (b + 1) start 0 best

/-- The extent of a partition in blocks: base and length. -/
def State.extent (s : State) (p : Nat) : Nat × Nat := largestRun (s.blockFree p) yardBlocks 0 0 0 (0, 0)

/-- A list of (key, size) in descending size; equal sizes keep their order (R612). -/
def insertDesc (x : Nat × Nat × Nat) : List (Nat × Nat × Nat) → List (Nat × Nat × Nat)
  | [] => [x]
  | y :: t => if y.1 < x.1 then x :: y :: t else y :: insertDesc x t

/-- Sorted in descending size, stable. -/
def sortDesc (l : List (Nat × Nat × Nat)) : List (Nat × Nat × Nat) := l.foldl (fun acc x => insertDesc x acc) []

/-- Extents of the partitions in service: (blocks, partition, base), in the order of R612. -/
def State.extents (s : State) : List (Nat × Nat × Nat) :=
  sortDesc (s.serving.map (fun p => let e := s.extent p; (e.2, p, e.1)))

/-- Requests of the logical partitions: (blocks, logical partition, 0), in the order of R612. -/
def yardRequests (bytes : List Nat) : List (Nat × Nat × Nat) :=
  sortDesc (bytes.zipIdx.map (fun (b, k) => ((b + 65535) / 65536, k, 0)))

/-- Shortfall of Yard in bytes (R211). -/
def shortYard (reqs exts : List (Nat × Nat × Nat)) : Nat :=
  (reqs.zipIdx.map (fun (r, k) => (r.1 - (nth (0, 0, 0) exts k).1) * 65536)).foldl (· + ·) 0

/-- The Yard words of a grant, by logical partition (R150, R612). -/
def yardWordsOf (reqs exts : List (Nat × Nat × Nat)) : List YardWord :=
  (List.range reqs.length).map (fun lp =>
    match (reqs.zip exts).find? (fun (r, _) => r.2.1 = lp) with
    | some (r, e) => { phys := e.2.1, base := e.2.2, size := r.1 }
    | none => { phys := 0, base := 0, size := 0 })

/-- A Yard allotment word (R150). -/
def YardWord.bits (w : YardWord) : Nat := w.size + w.base * 2 ^ 12 + w.phys * 2 ^ 24 + 2 ^ 31

/-! ## Tokens and context ids -/

/-- The n lowest numbers from `i` on that a test finds free, looking at most `fuel` of them. -/
def lowest (free : Nat → Bool) : Nat → Nat → Nat → List Nat
  | 0, _, _ => []
  | _ + 1, _, 0 => []
  | fuel + 1, i, n + 1 => if free i then i :: lowest free fuel (i + 1) n else lowest free fuel (i + 1) (n + 1)

/-- Unallotted tokens. -/
def State.freeTokens (s : State) : Nat := 65536 - (s.tokens.filter (fun (_, t) => t.owner.isSome)).length

/-- The n lowest-numbered unallotted tokens (R182). -/
def State.pickTokens (s : State) (n : Nat) : List Nat := lowest (fun t => (s.token t).owner.isNone) 65536 0 n

/-- Tokens allotted to a context, at VALUE 0 (R182). -/
def State.allotTokens (s : State) (ids : List Nat) (c : Nat) : State :=
  ids.foldl (fun t i => t.modToken i (fun _ => { value := 0, owner := some c })) s

/-- Tokens of a context, ascending. -/
def State.tokensOf (s : State) (c : Nat) : List Nat :=
  (s.tokens.filter (fun (_, t) => t.owner = some c)).map (fun x => x.1)

/-- The lowest-numbered FREE context id (R354). -/
def State.freeCtx (s : State) : Option Nat := (lowest (fun c => (s.ctx c).state = .free) 262144 0 1).head?

/-- The shortfall reply (R353). -/
def shortReply (mem yard parts tokens ctx : Nat) : List Byte :=
  leBytes 8 mem ++ leBytes 8 yard ++ leBytes 4 parts ++ leBytes 4 tokens ++ leBytes 4 ctx

/-- Ids of a list, two bytes each. -/
def idBytes (l : List Nat) : List Byte := (l.map (leBytes 2)).flatten

end Sys2Proof.Machine
end

