-- ==== Sys2Proof/Machine/Contexts.lean ====
section
/-! DEFINITION. Class 0x02: contexts, memory and tokens (R353 to R357). -/

namespace Sys2Proof.Machine

/-- A wagon prefetch that R149 allows: 8 to 255, or 0 for 256. -/
def prefetchOk (n : Nat) : Bool := n = 0 || 8 ≤ n

/-- PT_ROOT where firmware places the tables: a multiple of 4 KiB in the firmware-reserved region, where 32 KiB fit,
otherwise free (R149, R155, log entry 7). -/
def State.ptRoot (s : State) : W64 := BitVec.ofNat 64 (s.mem.usable + Config.ptRoot s.fresh % (2 ^ 20 - 8) * 4096)

/-- The YARD entries of CONTEXT_CREATE. -/
def Request.yard (r : Request) : List Nat := (List.range 8).map (fun k => r.get (32 + 4 * k) 4)

/-- What CONTEXT_CREATE's fields are refused for (R149, R354, R16, log entry 16). -/
def Request.createRefusal (r : Request) : Option (Nat × Nat) :=
  let parts := r.get 4 1
  if parts = 0 ∨ 8 < parts then some (stRange, 4)
  else
    match firstSet r.payload [(32 + 4 * parts, 32 - 4 * parts)] with
    | some i => some (stMalformed, i)
    | none =>
      if 7 < r.get 5 1 then some (stRange, 5)
      else if 4095 < r.get 6 2 then some (stRange, 6)
      else if r.get 10 1 = 0 ∨ 8 < r.get 10 1 then some (stRange, 10)
      else if ¬ prefetchOk (r.get 11 1) then some (stRange, 11)
      else if 4095 < r.get 12 2 then some (stRange, 12)
      else if 2 ^ 42 < r.get 24 4 * 2 ^ 30 + r.get 28 4 * 2 ^ 21 then some (stRange, 24)
      else ((List.range parts).find? (fun k => r.get (32 + 4 * k) 4 = 0)).map (fun k => (stRange, 32 + 4 * k))

/-- A context created (R354). -/
def Request.newContext (r : Request) (gen : W16) (root : W64) (yard : List YardWord) : Context :=
  { Context.reset with
    state := .active, gen := gen, priority := r.get 5 1, prefetch := r.get 11 1, feedAhead := r.get 10 1
    commitRing := r.get 12 2, energyId := r.get 6 2, tenant := BitVec.ofNat 32 (r.get 0 4)
    srSeed := BitVec.ofNat 64 (r.get 16 8), ptRoot := root, yard := yard }

/-- CONTEXT_CREATE (R210 to R212, R353, R354, R612): admitted whole, or the shortfalls. -/
def execContextCreate (ch : Chan) (s : State) : Host.Outcome State Fault Refusal :=
  .next (s.onRequest ch (opIs 0x0200) { lenOk := lenIs 64, reserved := [(14, 2)] } (fun r t =>
    match r.createRefusal with
    | some (code, detail) => t.reply r code detail []
    | none =>
      let parts := r.get 4 1
      let reqs := yardRequests (r.yard.take parts)
      let exts := t.extents
      let mem := shortMem t.wholeFrames.length t.looseFrames.length (r.get 24 4) (r.get 28 4)
      let yard := shortYard reqs exts
      let np := parts - t.serving.length
      let nt := r.get 8 2 - t.freeTokens
      match t.freeCtx with
      | none => t.reply r stShort 0 (shortReply mem yard np nt 1)
      | some id =>
        if mem + yard + np + nt ≠ 0 then t.reply r stShort 0 (shortReply mem yard np nt 0)
        else
          let words := yardWordsOf reqs exts
          let ids := t.pickTokens (r.get 8 2)
          let pages := t.place (r.get 24 4) (r.get 28 4) 0 true
          let gen := (t.ctx id).gen
          let u := ((t.modCtx id (fun _ => r.newContext gen t.ptRoot words)).allotTokens ids id).take 1
          u.grantPages id pages r (leBytes 4 id ++ leBytes 2 gen.toNat ++ leBytes 2 ids.length
            ++ (words.map (fun w => leBytes 4 w.bits)).flatten ++ leBytes (32 - 4 * parts) 0
            ++ idBytes (ids.take 3820))))

/-- CONTEXT_DESTROY (R203): teardown begins; the reply comes when it is complete. -/
def execContextDestroy (ch : Chan) (s : State) : Host.Outcome State Fault Refusal :=
  .next (s.onRequest ch (opIs 0x0201) { lenOk := lenIs 8, reserved := [(6, 2)], ctx := true } (fun r t =>
    t.beginTeardown (r.get 0 4) (some r)))

/-- CONTEXT_HALT (R206): halts with cause CONTEXT and replies the new generation. -/
def execContextHalt (ch : Chan) (s : State) : Host.Outcome State Fault Refusal :=
  .next (s.onRequest ch (opIs 0x0202) { lenOk := lenIs 8, reserved := [(6, 2)], ctx := true } (fun r t =>
    let u := t.haltAll (r.get 0 4) .context
    u.ok r (leBytes 2 (u.ctx (r.get 0 4)).gen.toNat ++ leBytes 2 0)))

/-- A ring is fenced (R497, R502). -/
def State.ringFenced (s : State) (n : Nat) : Bool := s.past.fences.contains (source 4 0 n)

/-- A ring is bound to a context. -/
def State.boundTo (s : State) (ring c : Nat) : Bool :=
  ring < 4096 && (s.ring ring).state ≠ .unbound && (s.ring ring).ctx = c

/-- What refuses entry i of CONTEXT_RESUME: a ring not bound to the context, a fenced ring, or a HEAD more than
2^S behind TAIL (R160, R161, R497). -/
def State.resumeRefusal (s : State) (r : Request) (i : Nat) : Option (Nat × Nat) :=
  let ring := r.get (8 + 8 * i) 2
  if ¬ s.boundTo ring (r.get 0 4) then some (stRange, 8 + 8 * i)
  else if s.ringFenced ring then some (stAbsent, 0)
  else if 2 ^ (s.ring ring).logSize < sub32 (s.ring ring).tail (BitVec.ofNat 32 (r.get (12 + 8 * i) 4)) then
    some (stRange, 12 + 8 * i)
  else none

/-- A ring named by CONTEXT_RESUME takes its HEAD, and runs unless it was halted with HOST_STOP (R208). Its
tile numbering starts again (R179). -/
def Ring.resume (r : Ring) (head : W32) : Ring :=
  let x := { r with head := head, fetched := head, window := [], counts := [], recordLost := false }
  if r.cause = .hostStop then x else { x with state := .running, cause := .none }

/-- CONTEXT_RESUME (R208, R497, R498). -/
def execContextResume (ch : Chan) (s : State) : Host.Outcome State Fault Refusal :=
  .next (s.onRequest ch (opIs 0x0203)
    { lenOk := fun b => 16 ≤ b.length ∧ b.length ≤ 480 ∧ b.length = 8 + 8 * getLE b 6 2
      reserved := (List.range 59).map (fun i => (10 + 8 * i, 2)), ctx := true } (fun r t =>
    let c := r.get 0 4
    let idx := List.range (r.get 6 2)
    if (t.ctx c).state ≠ .halted then t.reply r stState (ctxCode (t.ctx c).state) []
    else if (t.ctx c).lostPart then t.reply r stAbsent 0 []
    else
      match idx.findSome? (t.resumeRefusal r) with
      | some (code, detail) => t.reply r code detail []
      | none =>
        let u := idx.foldl (fun u i =>
          u.modRing (r.get (8 + 8 * i) 2) (fun x => x.resume (BitVec.ofNat 32 (r.get (12 + 8 * i) 4)))) t
        (u.modCtx c (fun x => { x with stepInvalid := false, state := .active })).ok r []))

/-- Bytes mapped by a page table (R149). -/
def Context.memBytes (c : Context) : Nat := (c.pages.map Page.size).foldl (· + ·) 0

/-- The 128-byte context table entry (R149); TOKEN_COUNT is stored modulo 2^16 (log entry 140). -/
def State.ctxEntry (s : State) (id : Nat) : List Byte :=
  let c := s.ctx id
  leBytes 1 (ctxCode c.state + 16 * b2n c.stepInvalid + 32 * c.priority) ++ leBytes 1 c.prefetch
  ++ leBytes 2 (c.feedAhead + 16 * c.commitRing) ++ leBytes 2 (16 * c.energyId) ++ leBytes 2 c.gen.toNat
  ++ leBytes 2 (s.ringsOf id).length ++ leBytes 2 (s.tokensOf id).length ++ leBytes 4 c.tenant.toNat
  ++ leBytes 8 c.srSeed.toNat ++ leBytes 8 c.step.toNat ++ leBytes 8 c.ptRoot.toNat ++ leBytes 8 c.memBytes
  ++ leBytes 4 0 ++ leBytes 2 c.peers.length ++ leBytes 2 0
  ++ slice ((c.yard.map (fun w => leBytes 4 w.bits)).flatten) 0 32 ++ leBytes 40 0

/-- CONTEXT_READ (R353): the entry, in every state. -/
def execContextRead (ch : Chan) (s : State) : Host.Outcome State Fault Refusal :=
  .next (s.onRequest ch (opIs 0x0204) { lenOk := lenIs 4 } (fun r t =>
    if 262143 < r.get 0 4 then t.reply r stRange 0 [] else t.ok r (t.ctxEntry (r.get 0 4))))

/-- What CONTEXT_SET is refused for: mask bits above 6, fields that need a HALTED context, values out of range
(R149, R154, R200, R356). -/
def State.setRefusal (s : State) (r : Request) : Option (Nat × Nat) :=
  let m := r.get 6 2
  let st := (s.ctx (r.get 0 4)).state
  if bit m 7 then some (stMalformed, 6)
  else if field m 15 8 ≠ 0 then some (stMalformed, 7)
  else if (field m 3 0 ≠ 0 ∨ bit m 6) ∧ st ≠ .halted then some (stState, ctxCode st)
  else if bit m 3 ∧ 4095 < r.get 24 2 then some (stRange, 24)
  else if bit m 5 ∧ 4095 < r.get 26 2 then some (stRange, 26)
  else if bit m 1 ∧ (r.get 28 1 = 0 ∨ 8 < r.get 28 1) then some (stRange, 28)
  else if bit m 2 ∧ ¬ prefetchOk (r.get 29 1) then some (stRange, 29)
  else if bit m 4 ∧ 7 < r.get 30 1 then some (stRange, 30)
  else none

/-- The masked fields of CONTEXT_SET stored. -/
def Request.setFields (r : Request) (c : Context) : Context :=
  let m := r.get 6 2
  { c with
    srSeed := if bit m 0 then BitVec.ofNat 64 (r.get 8 8) else c.srSeed
    feedAhead := if bit m 1 then r.get 28 1 else c.feedAhead
    prefetch := if bit m 2 then r.get 29 1 else c.prefetch
    commitRing := if bit m 3 then r.get 24 2 else c.commitRing
    priority := if bit m 4 then r.get 30 1 else c.priority
    energyId := if bit m 5 then r.get 26 2 else c.energyId
    step := if bit m 6 then BitVec.ofNat 64 (r.get 16 8) else c.step }

/-- CONTEXT_SET (R154, R200, R356). -/
def execContextSet (ch : Chan) (s : State) : Host.Outcome State Fault Refusal :=
  .next (s.onRequest ch (opIs 0x0205) { lenOk := lenIs 32, reserved := [(31, 1)], ctx := true } (fun r t =>
    match t.setRefusal r with
    | some (code, detail) => t.reply r code detail []
    | none => (t.modCtx (r.get 0 4) r.setFields).ok r []))

/-- CLASS_WEIGHTS (R177). -/
def execClassWeights (ch : Chan) (s : State) : Host.Outcome State Fault Refusal :=
  .next (s.onRequest ch (opIs 0x0206) { lenOk := lenIs 8 } (fun r t =>
    match (List.range 8).find? (fun i => r.get i 1 = 0) with
    | some i => t.reply r stRange i []
    | none => { t with marsh.weights := (List.range 8).map (fun i => r.get i 1) }.ok r []))

/-- Virtual bytes from VBASE overlap a mapped page, or a page of a grant that waits for zeroing. -/
def State.overlaps (s : State) (c vbase n : Nat) : Bool :=
  let hits := fun (p : Page) => p.vbase < vbase + n && vbase < p.vbase + p.size
  (s.ctx c).pages.any hits || s.mem.grants.any (fun g => g.ctx = c && g.pages.any hits)

/-- MEM_RESERVE (R210 to R212, R354, R612). -/
def execMemReserve (ch : Chan) (s : State) : Host.Outcome State Fault Refusal :=
  .next (s.onRequest ch (opIs 0x0208) { lenOk := lenIs 24, reserved := [(7, 1)], ctx := true } (fun r t =>
    let c := r.get 0 4
    let vbase := r.get 8 8
    let g1 := r.get 16 4
    let g2 := r.get 20 4
    let n := g1 * 2 ^ 30 + g2 * 2 ^ 21
    if 1 < r.get 6 1 then t.reply r stRange 6 []
    else if vbase % (if g1 ≠ 0 then 2 ^ 30 else 2 ^ 21) ≠ 0 ∨ 2 ^ 42 < vbase + n ∨ t.overlaps c vbase n then
      t.reply r stRange 8 []
    else
      let mem := shortMem t.wholeFrames.length t.looseFrames.length g1 g2
      if mem ≠ 0 then t.reply r stShort 0 (shortReply mem 0 0 0 0)
      else
        ((t.modCtx c (fun x => { x with ptRoot := t.ptRoot })).take 1).grantPages c
          (t.place g1 g2 vbase (r.get 6 1 = 1)) r []))

/-- MEM_RELEASE (R204, R257, R355): whole mapped pages, none of a coupled region. -/
def execMemRelease (ch : Chan) (s : State) : Host.Outcome State Fault Refusal :=
  .next (s.onRequest ch (opIs 0x0209) { lenOk := lenIs 24, reserved := [(6, 2)], ctx := true } (fun r t =>
    let c := t.ctx (r.get 0 4)
    let lo := r.get 8 8
    let hi := lo + r.get 16 8
    let inside := fun (p : Page) => lo ≤ p.vbase && p.vbase + p.size ≤ hi
    let touched := fun (p : Page) => p.vbase < hi && lo < p.vbase + p.size
    let gone := c.pages.filter inside
    if c.regions.any (fun g => g.vbase < hi ∧ lo < g.vbase + g.len) then t.reply r stRange 8 []
    else if c.pages.any (fun p => touched p && !inside p) ∨ (gone.map Page.size).foldl (· + ·) 0 ≠ hi - lo then
      t.reply r stRange 8 []
    else
      (((t.modCtx (r.get 0 4) (fun x => { x with
          pages := x.pages.filter (fun p => ¬ inside p), ptRoot := t.ptRoot })).take 1).freePages gone).ok r []))

/-- TOKEN_ALLOC (R182, R211, R357). -/
def execTokenAlloc (ch : Chan) (s : State) : Host.Outcome State Fault Refusal :=
  .next (s.onRequest ch (opIs 0x020A) { lenOk := lenIs 8, ctx := true } (fun r t =>
    let n := r.get 6 2
    if n = 0 then t.reply r stRange 6 []
    else if t.freeTokens < n then t.reply r stShort 0 (shortReply 0 0 0 (n - t.freeTokens) 0)
    else
      let ids := t.pickTokens n
      let listed := ids.take 3838
      (t.allotTokens ids (r.get 0 4)).ok r (leBytes 2 n ++ leBytes 2 listed.length ++ idBytes listed)))

/-- TOKEN_LIST (R357). -/
def execTokenList (ch : Chan) (s : State) : Host.Outcome State Fault Refusal :=
  .next (s.onRequest ch (opIs 0x020B) { lenOk := lenIs 12, reserved := [(6, 2)], ctx := true } (fun r t =>
    let all := (t.tokensOf (r.get 0 4)).filter (fun i => r.get 8 4 ≤ i)
    let l := all.take 3836
    let next := if all.length ≤ 3836 then 0xFFFFFFFF else (l.getLast?.getD 0) + 1
    t.ok r (leBytes 4 next ++ leBytes 2 l.length ++ leBytes 2 0 ++ idBytes l)))

/-- What RING_BIND's fields are refused for (R159, R171, log entry 16). -/
def Request.bindRefusal (r : Request) : Option (Nat × Nat) :=
  let sz := r.get 8 1
  if 4095 < r.get 6 2 then some (stRange, 6)
  else if sz < 6 ∨ 16 < sz then some (stRange, 8)
  else if 1 < r.get 9 1 ∨ (r.get 9 1 = 1 ∧ r.get 11 1 = 1) then some (stRange, 9)
  else if 2 < r.get 10 1 then some (stRange, 10)
  else if 1 < r.get 11 1 then some (stRange, 11)
  else if r.get 11 1 = 1 ∧ 1023 < r.get 12 2 then some (stRange, 12)
  else if r.get 24 8 % (64 * 2 ^ sz) ≠ 0 then some (stRange, 24)
  else if r.get 32 8 % (16 * 2 ^ sz) ≠ 0 then some (stRange, 32)
  else none

/-- The ring that RING_BIND makes: RUNNING under an ACTIVE context, HALTED with cause CONTEXT under a HALTED one
(R161). -/
def Request.boundRing (r : Request) (st : CtxState) : Ring :=
  let i := BitVec.ofNat 32 (r.get 16 4)
  { Ring.reset with
    state := if st = .active then .running else .halted
    cause := if st = .active then .none else .context
    ctx := r.get 0 4, logSize := r.get 8 1, base := r.get 24 8, cplBase := r.get 32 8, host := r.get 9 1 = 1
    irq := r.get 10 1, feeder := if r.get 11 1 = 1 then some (r.get 12 2) else none
    head := i, tail := i, fetched := i }

/-- RING_BIND (R159, R161, R497). -/
def execRingBind (ch : Chan) (s : State) : Host.Outcome State Fault Refusal :=
  .next (s.onRequest ch (opIs 0x0210) { lenOk := lenIs 40, reserved := [(14, 2), (20, 4)], ctx := true }
    (fun r t =>
      let n := r.get 6 2
      match r.bindRefusal with
      | some (code, detail) => t.reply r code detail []
      | none =>
        if t.ringFenced n then t.reply r stAbsent 0 []
        else if (t.ring n).state ≠ .unbound then t.reply r stState (ringCode (t.ring n).state) []
        else (t.modRing n (fun _ => r.boundRing (t.ctx (r.get 0 4)).state)).ok r []))

/-- The ring stopped by RING_STOP: what it fetched and did not dispatch is fetched again. -/
def Ring.unfetch (r : Ring) : Ring :=
  match r.window with
  | [] => r
  | (i, _) :: _ => { r with window := [], fetched := i }

/-- RING_STOP (R161). -/
def execRingStop (ch : Chan) (s : State) : Host.Outcome State Fault Refusal :=
  .next (s.onRequest ch (opIs 0x0211) { lenOk := lenIs 8, ctx := true } (fun r t =>
    let n := r.get 6 2
    if ¬ t.boundTo n (r.get 0 4) then t.reply r stRange 6 []
    else ((t.haltRing n .hostStop).modRing n Ring.unfetch).ok r (leBytes 4 (t.ring n).head.toNat)))

/-- Dispatched wagons of a ring complete ABORTED, marking the step invalid (R148), and leave; its open tile sequences
close; a record that cannot be written halts the context (R611). Log entry 118. -/
def State.dropRing (s : State) (n : Nat) : State :=
  let mine := s.marsh.flights.filter (fun f => f.ring = n ∧ f.stage ≠ .done)
  let t := mine.foldl State.abortFlight s
  let t : State := { t with marsh.flights := t.marsh.flights.filter (fun f => f.ring ≠ n) }
  let t := t.closeBanks (fun r => r = n)
  let t := mine.foldl (fun t f => t.settle f.unit) t
  let t := if mine = [] then t else t.markInvalid (s.ring n).ctx
  if (t.ring n).recordLost ∧ ¬ (s.ring n).recordLost then t.haltByRing n .recordFail else t

/-- RING_UNBIND (R161). -/
def execRingUnbind (ch : Chan) (s : State) : Host.Outcome State Fault Refusal :=
  .next (s.onRequest ch (opIs 0x0212) { lenOk := lenIs 8, ctx := true } (fun r t =>
    let n := r.get 6 2
    if ¬ t.boundTo n (r.get 0 4) then t.reply r stRange 6 []
    else if (t.ring n).state = .running then t.reply r stState (ringCode .running) []
    else ((t.dropRing n).modRing n (fun _ => Ring.reset)).ok r []))

/-- APERTURE_BIND (R252, R356). -/
def execApertureBind (ch : Chan) (s : State) : Host.Outcome State Fault Refusal :=
  .next (s.onRequest ch (opIs 0x0218) { lenOk := lenIs 16, ctx := true } (fun r t =>
    let mode := r.get 7 1
    if ch = .mctp then t.reply r stChannel 0 []
    else if 2 < mode then t.reply r stRange 7 []
    else if mode ≠ 0 ∧ (r.get 8 8 % 2 ^ 30 ≠ 0 ∨ 2 ^ 42 ≤ r.get 8 8) then t.reply r stRange 8 []
    else
      let w : Window :=
        { bound := if mode = 0 then none else some (r.get 0 4, (t.ctx (r.get 0 4)).gen, r.get 8 8, mode = 2) }
      { t with windows := Table.put Window.reset (r.get 6 1) w t.windows }.ok r []))

/-- The drop counters, in the order of DROP_COUNTERS (R353). -/
def Drops.counters (d : Drops) : List W64 :=
  [d.reply, d.flit, d.refused, d.signal, d.doorbell, d.aperture, d.epoch, d.misroute]

/-- DROP_COUNTERS (R202, R295, R353). -/
def execDropCounters (ch : Chan) (s : State) : Host.Outcome State Fault Refusal :=
  .next (s.onRequest ch (opIs 0x0220) { lenOk := lenIs 0 } (fun r t =>
    t.ok r ((t.drops.counters.map (fun v => leBytes 8 v.toNat)).flatten)))

end Sys2Proof.Machine
end

