-- ==== Sys2Proof/Machine/Formats.lean ====
section
/-! DEFINITION. Number formats (R56 to R62), rounding (R65, R74, R75), block scales (R58, R76), ledgers
(R63, R65), residues (R82 to R85) and L128 segments (R77 to R79). -/

namespace Sys2Proof.Machine

/-! ## Formats (R56) -/

/-- An element's value: a NaN, an infinity, or (−1)^neg × m × 2^e. -/
inductive Val where
  | nan
  | inf (neg : Bool)
  | fin (neg : Bool) (m : Nat) (e : Int)
  deriving DecidableEq, Repr

/-- A floating-point format: bits of exponent and significand, bias, and the code of the largest finite
value. -/
structure FloatFmt where
  ebits : Nat
  mbits : Nat
  bias : Nat
  top : Nat
  deriving DecidableEq, Repr

/-- The floating-point formats. -/
def floatFmt (f : Nat) : Option FloatFmt :=
  if f = 0x1 then some { ebits := 2, mbits := 1, bias := 1, top := 0x7 }
  else if f = 0x2 then some { ebits := 3, mbits := 2, bias := 3, top := 0x1F }
  else if f = 0x3 then some { ebits := 2, mbits := 3, bias := 1, top := 0x1F }
  else if f = 0x4 then some { ebits := 4, mbits := 3, bias := 7, top := 0x7E }
  else if f = 0x5 then some { ebits := 5, mbits := 2, bias := 15, top := 0x7B }
  else if f = 0x8 then some { ebits := 8, mbits := 7, bias := 127, top := 0x7F7F }
  else if f = 0x9 then some { ebits := 5, mbits := 10, bias := 15, top := 0x7BFF }
  else if f = 0xA then some { ebits := 8, mbits := 23, bias := 127, top := 0x7F7FFFFF }
  else none

/-- The integer formats: bits, and the weight of the last bit as a power of two. -/
def intFmt (f : Nat) : Option (Nat × Int) :=
  if f = 0x6 then some (8, -6) else if f = 0x7 then some (8, 0) else if f = 0xB then some (32, 0) else none

/-- Bits of an element. -/
def fmtBits (f : Nat) : Nat :=
  match floatFmt f with
  | some p => 1 + p.ebits + p.mbits
  | none => match intFmt f with
    | some p => p.1
    | none => 128

/-- An MX format. -/
def isMx (f : Nat) : Bool := 1 ≤ f && f ≤ 6

/-- A defined element format other than L128. -/
def isElem (f : Nat) : Bool := 1 ≤ f && f ≤ 0xB

/-- Bytes of a row of n elements (R59). -/
def rowBytes (f n : Nat) : Nat := (n * fmtBits f + 7) / 8

/-- The codes with an all-ones exponent that are no numbers: none in the MX formats below E4M3, S.1111.111 in
E4M3, and all of them in the IEEE formats. -/
def specialCode (f : Nat) (p : FloatFmt) (ex m : Nat) : Option Bool :=
  if ex ≠ 2 ^ p.ebits - 1 ∨ f ≤ 3 then none
  else if f = 4 then (if m = 7 then some true else none)
  else some (m ≠ 0)

/-- The value of a code (R57). -/
def decode (f code : Nat) : Val :=
  match floatFmt f with
  | some p =>
    let m := code % 2 ^ p.mbits
    let ex := code / 2 ^ p.mbits % 2 ^ p.ebits
    let neg := bit code (p.ebits + p.mbits)
    match specialCode f p ex m with
    | some true => .nan
    | some false => .inf neg
    | none =>
      if ex = 0 then .fin neg m (1 - (p.bias : Int) - p.mbits)
      else .fin neg (2 ^ p.mbits + m) ((ex : Int) - p.bias - p.mbits)
  | none =>
    match intFmt f with
    | some (n, w) => let v := signed n (code % 2 ^ n); .fin (v < 0) v.natAbs w
    | none => .nan

/-- The codes of n elements packed from bit 0 of a row (R59). -/
def codesOf (f n : Nat) (row : List Byte) : List Nat :=
  let w := fmtBits f
  let v := leNat row
  (List.range n).map (fun k => v / 2 ^ (w * k) % 2 ^ w)

/-- The row that packs some codes, its last byte filled with zeros (R59, R115). -/
def packCodes (f : Nat) (codes : List Nat) : List Byte :=
  let w := fmtBits f
  leBytes (rowBytes f codes.length) (codes.reverse.foldl (fun acc c => acc * 2 ^ w + c) 0)

/-- The power of two of an E8M0 scale; none for NaN (R58). -/
def scaleExp (x : Nat) : Option Int := if x = 255 then none else some ((x : Int) - 127)

/-- A value with its block scale applied; NaN for the scale 0xFF. -/
def Val.scaled (v : Val) (s : Option Int) : Val :=
  match v, s with
  | _, none => .nan
  | .fin neg m e, some k => .fin neg m (e + k)
  | x, some _ => x

/-! ## Rounding (R65, R74, R75) -/

/-- The magnitude m × 2^sh rounded to an integer, and whether it was rounded: mode 0 to nearest even, 1 toward
zero, 2 stochastic with a draw r, in which the lower neighbour of a negative value is the larger in
magnitude. -/
def roundShift (mode r : Nat) (neg : Bool) (m : Nat) (sh : Int) : Nat × Bool :=
  match sh with
  | .ofNat k => (m * 2 ^ k, false)
  | .negSucc k =>
    let d := 2 ^ (k + 1)
    let q := m / d
    let rem := m % d
    if rem = 0 then (q, false)
    else
      let up : Bool :=
        if mode = 0 then d < 2 * rem || (2 * rem = d && q % 2 = 1)
        else if mode = 1 then false
        else if neg then !decide (r < (d - rem) * 2 ^ 32 / d)
        else r < rem * 2 ^ 32 / d
      (if up then q + 1 else q, true)

/-- The residue of an integer (R82, R85). -/
def residue (m : Nat) (n : Int) : Nat := (n % m).toNat

/-- round_half_even((−1)^neg × m × 2^sh), and whether it was rounded. -/
def roundInt (neg : Bool) (m : Nat) (sh : Int) : Int × Bool :=
  let t := roundShift 0 0 neg m sh
  (if neg then -(t.1 : Int) else t.1, t.2)

/-- The canonical NaN of a format, +0 where it has none (R74). -/
def nanCode (f : Nat) : Nat :=
  if f = 4 then 0x7F else if f = 5 then 0x7E else if f = 8 then 0x7FC0 else if f = 9 then 0x7E00
  else if f = 0xA then 0x7FC00000 else 0

/-- The code of the largest finite value with a sign. -/
def topCode (f : Nat) (neg : Bool) : Nat :=
  match floatFmt f with
  | some p => p.top + (if neg then 2 ^ (p.ebits + p.mbits) else 0)
  | none =>
    let n := (intFmt f).elim 8 (fun p => p.1)
    if neg then 2 ^ (n - 1) + 1 else 2 ^ (n - 1) - 1

/-- A zero with a sign; integer formats have one zero. -/
def zeroCode (f : Nat) (neg : Bool) : Nat :=
  match floatFmt f with
  | some p => if neg then 2 ^ (p.ebits + p.mbits) else 0
  | none => 0

/-- The code of (−1)^neg × m × 2^e in a format, unbounded above: the magnitude's code and whether it was
rounded. -/
def FloatFmt.magnitude (p : FloatFmt) (mode r : Nat) (neg : Bool) (m : Nat) (e : Int) : Nat × Bool :=
  let least : Int := 1 - (p.bias : Int) - p.mbits
  let q := max least ((Nat.log2 m : Int) + e - p.mbits)
  let t := roundShift mode r neg m (e - q)
  (if t.1 < 2 ^ p.mbits then t.1
    else ((q + p.mbits + p.bias).toNat) * 2 ^ p.mbits + (t.1 - 2 ^ p.mbits), t.2)

/-- A finite value converted to a format (R74): its code, and the flags INEXACT and OUT_SAT. -/
def convert (f mode r : Nat) (neg : Bool) (m : Nat) (e : Int) : Nat × Flags :=
  if m = 0 then (zeroCode f neg, noFlags)
  else
    match floatFmt f with
    | some p =>
      let t := p.magnitude mode r neg m e
      if p.top < t.1 then (topCode f neg, { noFlags with inexact := t.2, outSat := true })
      else (t.1 + (if neg then 2 ^ (p.ebits + p.mbits) else 0), { noFlags with inexact := t.2 })
    | none =>
      let w := (intFmt f).getD (8, 0)
      let t := roundShift mode r neg m (e - w.2)
      if 2 ^ (w.1 - 1) - 1 < t.1 then (topCode f neg, { noFlags with inexact := t.2, outSat := true })
      else (if neg ∧ t.1 ≠ 0 then 2 ^ w.1 - t.1 else t.1, { noFlags with inexact := t.2 })

/-- The weight, as a power of two, of the last bit of a format's integer image of m × 2^e. -/
def imagePlace (f m : Nat) (e : Int) : Int :=
  match floatFmt f with
  | some p => max (1 - (p.bias : Int) - p.mbits) ((Nat.log2 m : Int) + e - p.mbits)
  | none => ((intFmt f).getD (8, 0)).2

/-- The check of R85: an integer image, off by an amount, plus the rounded-off remainder at the same weight agrees modulo
3 with the integer received, m, which is shifted by sh to the image's weight. -/
def imageAgrees (mode r : Nat) (neg : Bool) (m : Nat) (sh off : Int) : Bool :=
  let image : Int := (roundShift mode r neg m sh).1
  let cut : Int := if sh < 0 then m - image * 2 ^ (-sh).toNat else 0
  residue 3 ((image + off) * 2 ^ (-sh).toNat + cut) = residue 3 ((m : Int) * 2 ^ sh.toNat)

/-- The check of R85 for a conversion of (−1)^neg × m × 2^e to a format. -/
def converterAgrees (f mode r : Nat) (neg : Bool) (m : Nat) (e off : Int) : Bool :=
  imageAgrees mode r neg m (e - imagePlace f m e) off

/-- A code that a converter's error changes by an amount. -/
def slipCode (bits code : Nat) (off : Int) : Nat := if off = 0 then code else unsigned bits (code + off)

/-- A value converted to a format other than by a ledger: NaN is invalid, an infinity saturates (R128). -/
def Val.convert (v : Val) (f mode r : Nat) : Nat × Flags :=
  match v with
  | .nan => (nanCode f, { noFlags with invalid := true })
  | .inf neg => (topCode f neg, { noFlags with outSat := true })
  | .fin neg m e => Machine.convert f mode r neg m e

/-- The check of that conversion, the image off by an amount: a NaN and an infinity have the integer 0. -/
def Val.agrees (v : Val) (f mode r : Nat) (off : Int) : Bool :=
  match v with
  | .fin neg m e => converterAgrees f mode r neg m e off
  | _ => residue 3 off = 0

/-! ## Stochastic rounding (R75) -/

/-- mix of R75. -/
def srMix (z : W64) : W64 :=
  let z := (z ^^^ (z >>> 30)) * 0xBF58476D1CE4E5B9
  let z := (z ^^^ (z >>> 27)) * 0x94D049BB133111EB
  z ^^^ (z >>> 31)

/-- The draw of an element: row and column modulo 2^32. -/
def srDraw (seed : W64) (stream row col : Nat) : Nat :=
  let z := srMix (seed ^^^ BitVec.ofNat 64 (row % 2 ^ 32 * 2 ^ 32 + col % 2 ^ 32))
  (srMix (z ^^^ (BitVec.ofNat 64 stream * 0x9E3779B97F4A7C15))).toNat / 2 ^ 32

/-! ## Ledgers (R63, R65) -/

/-- The largest ledger integer. -/
def ledgerTop : Int := 2 ^ 159 - 1

/-- The least ledger integer. -/
def ledgerLow : Int := -(2 ^ 159)

/-- sat160: an integer added to a ledger, saturating. -/
def Ledger.add (l : Ledger) (q : Int) : Ledger :=
  let s := l.l + q
  if ledgerTop < s then { l with l := ledgerTop, sat := true }
  else if s < ledgerLow then { l with l := ledgerLow, sat := true }
  else { l with l := s }

/-- The residue modulo 255 of an operand's integer significand (R82), with its sign. -/
def Val.residue : Val → Nat
  | .fin neg m _ => Machine.residue 255 (if neg then -(m : Int) else m)
  | _ => 0

/-- The check of R83: q, at a weight 2^(−sh) times that of the product, and the low part, at the weight of the product,
agree modulo 255 with the product of the operand residues. As 2^8 is 1 modulo 255, only sh modulo 8 counts. -/
def productAgrees (operands : Nat) (sh q low : Int) : Bool :=
  residue 255 (q * 2 ^ residue 8 (-sh) + low) = operands % 255

/-- No error. -/
def Slip.zero : Slip := { cell := 0, place := 0, q := 0, low := 0, sum := 0 }

/-- The error of a list at one place of one ledger. -/
def slipAt (slips : List Slip) (cell place : Nat) : Slip :=
  (slips.find? (fun x => x.cell = cell ∧ x.place = place)).getD Slip.zero

/-- A ledger whose integer the logic gets wrong by an amount, within its 160 bits. -/
def Ledger.slip (l : Ledger) (d : Int) : Ledger :=
  if d = 0 then l else { l with l := signed 160 (unsigned 160 (l.l + d)) }

/-- A finite product, (−1)^neg × m × 2^e, aligned to the anchor and added (R65), with the residues of R83: the multiplier
delivers q and the low part that it cuts off, the checker compares them with the product of the operand residues, and
the residue of q joins the running residue. -/
def Ledger.addFin (l : Ledger) (anchor : Int) (operands : Nat) (neg : Bool) (m : Nat) (e : Int) (x : Slip) : Ledger :=
  let sh := e - anchor
  let exact := roundInt neg m sh
  let q := exact.1 + x.q
  let cut : Int := if sh < 0 then (if neg then -(m : Int) else m) - exact.1 * 2 ^ (-sh).toNat else 0
  let low := cut + x.low
  let t := ({ l with inexact := l.inexact || low ≠ 0 }).add q
  { t.slip x.sum with res := (l.res + residue 255 q) % 255, off := l.off || !productAgrees operands sh q low }

/-- The product of two values accumulated (R65, R83). -/
def Ledger.productWith (anchor : Int) (x : Slip) (l : Ledger) (u v : Val) : Ledger :=
  match u, v with
  | .fin a m e, .fin b n d => l.addFin anchor (u.residue * v.residue) (a ^^ b) (m * n) (e + d) x
  | _, _ => { l with invalid := true }

/-- The product of two values accumulated without an error. -/
def Ledger.product (anchor : Int) (l : Ledger) (u v : Val) : Ledger := Ledger.productWith anchor Slip.zero l u v

/-- A term accumulated in place of a product (R68). -/
def Ledger.term (anchor : Int) (x : Slip) (l : Ledger) (v : Val) : Ledger :=
  match v with
  | .fin a m e => l.addFin anchor v.residue a m e x
  | _ => { l with invalid := true }

/-- The comparison of R84, and those of R83 before it: a saturated ledger's residue is not compared. -/
def Ledger.agrees (l : Ledger) : Bool := !l.off && (l.sat || residue 255 l.l = l.res)

/-- The two BF16 parts of a binary32 value (R72); none for a NaN or an infinity. -/
def split32 (code : Nat) : Option (Val × Val) :=
  match decode 0xA code with
  | .fin neg m e =>
    match decode 0x8 (code / 2 ^ 16) with
    | .fin _ h k =>
      let low := m - h * 2 ^ (k - e).toNat
      some (.fin neg h k, decode 0x8 (Machine.convert 0x8 0 0 neg low e).1)
    | _ => none
  | _ => none

/-- The three products of a binary32 pair (R72), with the errors of their three places. -/
def Ledger.product32 (anchor : Int) (x : Nat → Slip) (l : Ledger) (a b : Nat) : Ledger :=
  match split32 a, split32 b with
  | some (ha, la), some (hb, lb) =>
    let l := Ledger.productWith anchor (x 0) l ha hb
    let l := Ledger.productWith anchor (x 1) l ha lb
    Ledger.productWith anchor (x 2) l la hb
  | _, _ => { l with invalid := true }

/-- Flags that a ledger's status bits bring to a flags byte (R69). -/
def Ledger.flags (l : Ledger) : Flags :=
  { noFlags with invalid := l.invalid, ledgerSat := l.sat, inexact := l.inexact }

/-- A ledger converted to an output format at anchor A (R74). -/
def Ledger.convert (l : Ledger) (anchor : Int) (f mode r : Nat) : Nat × Flags :=
  if l.invalid then (nanCode f, l.flags)
  else if l.sat then (topCode f (l.l < 0), { l.flags with outSat := true })
  else
    let t := Machine.convert f mode r (l.l < 0) l.l.natAbs anchor
    (t.1, t.2.or l.flags)

/-- The check of that conversion (R85): a ledger that is not converted by rounding has the integer 0. -/
def Ledger.converts (l : Ledger) (anchor : Int) (f mode r : Nat) (off : Int) : Bool :=
  if l.invalid ∨ l.sat then residue 3 off = 0 else converterAgrees f mode r (l.l < 0) l.l.natAbs anchor off

/-! ## Block scales (R76) -/

/-- emax of an MX format. -/
def fmtEmax (f : Nat) : Int :=
  if f = 1 then 2 else if f = 2 then 4 else if f = 3 then 2 else if f = 4 then 8 else if f = 5 then 15 else 0

/-- The larger of two optional exponents. -/
def maxExp (a b : Option Int) : Option Int :=
  match a, b with
  | none, x => x
  | x, none => x
  | some x, some y => some (max x y)

/-- floor(log2) of a finite value; none for zero, infinities and NaN. -/
def Val.logTop : Val → Option Int
  | .fin _ m e => if m = 0 then none else some ((Nat.log2 m : Int) + e)
  | _ => none

/-- The scale X of a block by the values that enter amax. -/
def blockScale (f : Nat) (vs : List Val) : Nat :=
  match (vs.map Val.logTop).foldl maxExp none with
  | none => 127
  | some t => (max 0 (min 254 (t - fmtEmax f + 127))).toNat

/-- The value of a ledger at an anchor, for amax: an invalid one stays out. -/
def Ledger.val (l : Ledger) (anchor : Int) : Val :=
  if l.invalid then .nan else .fin (l.l < 0) l.l.natAbs anchor

/-! ## L128 (R77 to R79) -/

/-- The largest L128 magnitude. -/
def l128Top : Int := 2 ^ 127 - 1

/-- The invalid marker. -/
def l128Marker : Int := -(2 ^ 127)

/-- A segment. -/
structure Segment where
  contrib : Nat
  flags : Flags
  count : Nat
  anchor : Int
  elems : List Int
  deriving DecidableEq, Repr

/-- Bytes of a segment. -/
def segBytes : Nat := 4112

/-- A segment read from its bytes. -/
def Segment.parse (bs : List Byte) : Segment :=
  { contrib := getLE bs 8 4, flags := flagsOf (getLE bs 5 1), count := field (getLE bs 2 2) 8 0
    anchor := signed 16 (getLE bs 0 2)
    elems := (List.range 256).map (fun e => signed 128 (getLE bs (16 + 16 * e) 16)) }

/-- The bytes of a segment: elements at and above COUNT are zero. -/
def Segment.bytes (s : Segment) : List Byte :=
  leBytes 2 (unsigned 16 s.anchor) ++ leBytes 3 (s.count % 512) ++ [s.flags.byte] ++ leBytes 2 0
  ++ leBytes 4 s.contrib ++ leBytes 4 0
  ++ ((List.range 256).map (fun e => leBytes 16 (if e < s.count then unsigned 128 (nth 0 s.elems e) else 0))).flatten

/-- A ledger converted to L128 at a segment anchor (R78). -/
def Ledger.toL128 (l : Ledger) (anchor segAnchor : Int) : Int × Flags :=
  if l.invalid then (l128Marker, l.flags)
  else if l.sat then ((if l.l < 0 then -l128Top else l128Top), l.flags)
  else
    let t := roundInt (l.l < 0) l.l.natAbs (anchor - segAnchor)
    let f := { l.flags with inexact := l.inexact || t.2 }
    if l128Top < t.1.natAbs then ((if l.l < 0 then -l128Top else l128Top), { f with ledgerSat := true })
    else (t.1, f)

/-- The check of that conversion (R85). -/
def Ledger.toAgrees (l : Ledger) (anchor segAnchor off : Int) : Bool :=
  if l.invalid ∨ l.sat then residue 3 off = 0 else imageAgrees 0 0 (l.l < 0) l.l.natAbs (anchor - segAnchor) off

/-- Two elements added (R79): the marker absorbs, a sum beyond the range saturates. -/
def l128Add (a b : Int) : Int × Bool :=
  if a = l128Marker ∨ b = l128Marker then (l128Marker, false)
  else
    let s := a + b
    if l128Top < s then (l128Top, true) else if s < -l128Top then (-l128Top, true) else (s, false)

/-- Two segments of equal ANCHOR and COUNT added. -/
def Segment.add (a b : Segment) : Segment :=
  let es := (a.elems.zip b.elems).map (fun (x, y) => l128Add x y)
  let f := a.flags.or b.flags
  { contrib := (a.contrib + b.contrib) % 2 ^ 32
    flags := { f with ledgerSat := f.ledgerSat || es.any (fun e => e.2) }
    count := a.count, anchor := a.anchor, elems := es.map (fun e => e.1) }

end Sys2Proof.Machine
end

