-- ==== Sys2Proof/Machine/Forms.lean ====
section
/-! DEFINITION. The bodies of wagons and what makes a wagon malformed whatever the state (R16, R56, R60, R62, R64,
R97, R98, R104 to R106, R110, R113, R117, R118, R123 to R127, R190 to R196, R228 to R233, R307, R308). -/

namespace Sys2Proof.Machine

/-! ## Fields of the matrix wagons (R104, R110, R113) -/

def mmCols (w : Wagon) : Nat := wbits w 310 304
def mmRows (w : Wagon) : Nat := wbits w 302 296
def mmBFmt (w : Wagon) : Nat := wbits w 295 292
def mmAFmt (w : Wagon) : Nat := wbits w 291 288
def mmAnchor (w : Wagon) : Int := wsigned w 287 272
def mmK (w : Wagon) : Nat := wbits w 271 256
def mmBScaleStride (w : Wagon) : Nat := wbits w 255 240
def mmAScaleStride (w : Wagon) : Nat := wbits w 239 224
def mmBStride (w : Wagon) : Nat := wbits w 223 208
def mmAStride (w : Wagon) : Nat := wbits w 207 192
def mmBScale (w : Wagon) : Nat := wbits w 191 160
def mmAScale (w : Wagon) : Nat := wbits w 159 128
def mmB (w : Wagon) : Nat := wbits w 127 96
def mmA (w : Wagon) : Nat := wbits w 95 64

/-- CLEAR of MMA and LEDGER_ADD. -/
def wClear (w : Wagon) : Bool := wbits w 12 12 = 1

def laCols (w : Wagon) : Nat := wbits w 142 136
def laRows (w : Wagon) : Nat := wbits w 134 128
def laAnchor (w : Wagon) : Int := wsigned w 127 112
def laStride (w : Wagon) : Nat := wbits w 111 96
def laAddr (w : Wagon) : Nat := wbits w 95 64

def roBias (w : Wagon) : Bool := wbits w 15 15 = 1
def roRelu (w : Wagon) : Bool := wbits w 14 14 = 1
def roTranspose (w : Wagon) : Bool := wbits w 13 13 = 1
def roKeep (w : Wagon) : Bool := wbits w 12 12 = 1
def roCols (w : Wagon) : Nat := wbits w 342 336
def roRows (w : Wagon) : Nat := wbits w 334 328
def roScaleExp (w : Wagon) : Int := wsigned w 327 320
def roBiasFmt (w : Wagon) : Nat := wbits w 315 312
def roMode (w : Wagon) : Nat := wbits w 309 308
def roFmt (w : Wagon) : Nat := wbits w 307 304
def roSegAnchor (w : Wagon) : Int := wsigned w 303 288
def roScaleStride (w : Wagon) : Nat := wbits w 287 272
def roStride (w : Wagon) : Nat := wbits w 271 256
def roStream (w : Wagon) : Nat := wbits w 255 224
def roCol0 (w : Wagon) : Nat := wbits w 223 192
def roRow0 (w : Wagon) : Nat := wbits w 191 160
def roBiasAddr (w : Wagon) : Nat := wbits w 159 128
def roScaleAddr (w : Wagon) : Nat := wbits w 127 96
def roAddr (w : Wagon) : Nat := wbits w 95 64

/-! ## Fields of the vector wagon (R123) -/

def vxStream (w : Wagon) : Nat := wbits w 479 448
def vxCol0 (w : Wagon) : Nat := wbits w 447 416
def vxRow0 (w : Wagon) : Nat := wbits w 415 384
def vxAnchor (w : Wagon) : Int := wsigned w 367 352
def vxImm (w : Wagon) : Nat := wbits w 351 320
def vxCols (w : Wagon) : Nat := wbits w 319 304
def vxRows (w : Wagon) : Nat := wbits w 303 288
def vxDstStride (w : Wagon) : Nat := wbits w 287 272
def vxDst (w : Wagon) : Nat := wbits w 223 192
def vxDstFmt (w : Wagon) : Nat := wbits w 95 92
def vxMode (w : Wagon) : Nat := wbits w 73 72
def vxOp (w : Wagon) : Nat := wbits w 71 64

/-- Stride of source k. -/
def vxStride (w : Wagon) (k : Nat) : Nat := wbits w (239 + 16 * k) (224 + 16 * k)

/-- Address of source k. -/
def vxAddr (w : Wagon) (k : Nat) : Nat := wbits w (127 + 32 * k) (96 + 32 * k)

/-- Format of source k. -/
def vxFmt (w : Wagon) (k : Nat) : Nat := wbits w (83 + 4 * k) (80 + 4 * k)

/-- Sources that a VOP uses as elements (R124). -/
def vopSources (op : Nat) : List Nat :=
  if op = 0x04 then [0, 1, 2]
  else if op = 0x01 ∨ op = 0x02 ∨ op = 0x03 ∨ op = 0x05 ∨ op = 0x06 ∨ op = 0x07 ∨ op = 0x17 then [0, 1]
  else [0]

/-- VOPs 0x01 to 0x1D: one result for each element, in binary32 first (R124, R128). -/
def vopLane (op : Nat) : Bool := (0x01 ≤ op && op ≤ 0x0A) || (0x10 ≤ op && op ≤ 0x1D)

/-- Reductions (R124). -/
def vopReduce (op : Nat) : Bool := 0x20 ≤ op && op ≤ 0x24

/-- Values of VOP that R124 defines. -/
def vopDefined (op : Nat) : Bool := vopLane op || vopReduce op || (0x30 ≤ op && op ≤ 0x32)

/-- Formats 0x7 to 0xB. -/
def wideFmt (f : Nat) : Bool := 7 ≤ f && f ≤ 0xB

/-- Bytes of row r of source k. -/
def vxSrcBytes (w : Wagon) (k : Nat) : Nat :=
  if vxFmt w k = 0xC then segBytes else rowBytes (vxFmt w k) (vxCols w)

/-- The format combinations that R126 accepts. -/
def vxFormatsOk (w : Wagon) : Bool :=
  let op := vxOp w
  let d := vxDstFmt w
  let a := vxFmt w 0
  if op = 0x31 then wideFmt a && isMx d && vxCols w % 32 = 0
  else if op = 0x32 then isMx a && wideFmt d && vxCols w % 32 = 0
  else if op = 0x30 then wideFmt d && (wideFmt a || (a = 0xC && vxCols w ≤ 256))
  else
    (vopSources op).all (fun k => wideFmt (vxFmt w k)) &&
      (if op = 0x20 ∨ op = 0x21 then 7 ≤ d && d ≤ 0xC else if op = 0x24 then d = 0xB else wideFmt d)

/-- A stride, in units of 64 bytes, is shorter than a row. -/
def strideShort (stride n : Nat) : Bool := stride * 64 < n

/-- A stride of R127 other than zero that is shorter than its row. -/
def vxShort (stride n : Nat) : Bool := stride ≠ 0 && strideShort stride n

/-! ## Malformed in every state -/

/-- An anchor out of range (R64). -/
def badAnchor (a : Int) : Bool := a < -512 || 511 < a

/-- A row or column count outside 1 to 64. -/
def badTile (m n : Nat) : Bool := m = 0 || 64 < m || n = 0 || 64 < n

/-- A pair of formats that R62 allows. -/
def pairOk (a b : Nat) : Bool :=
  (1 ≤ a && a ≤ 7 && 1 ≤ b && b ≤ 7) || ((a = 8 || a = 9) && (b = 8 || b = 9)) || (a = 0xA && b = 0xA)

/-- MMA (R60, R62, R64, R104, R106). -/
def badMma (w : Wagon) : Bool :=
  let k := mmK w
  let row := fun f stride => strideShort stride (rowBytes f k)
  let scale := fun f stride => isMx f && strideShort stride (k / 32)
  anySet w [(511, 311), (303, 303), (15, 13)] || badTile (mmRows w) (mmCols w) || !pairOk (mmAFmt w) (mmBFmt w) ||
    k = 0 || ((isMx (mmAFmt w) || isMx (mmBFmt w)) && k % 32 ≠ 0) || badAnchor (mmAnchor w) ||
    row (mmAFmt w) (mmAStride w) || row (mmBFmt w) (mmBStride w) || scale (mmAFmt w) (mmAScaleStride w) ||
    scale (mmBFmt w) (mmBScaleStride w)

/-- LEDGER_ADD (R110). -/
def badLedgerAdd (w : Wagon) : Bool :=
  anySet w [(511, 143), (135, 135), (15, 13)] || badTile (laRows w) (laCols w) || badAnchor (laAnchor w) ||
    laStride w < 65

/-- READOUT (R64, R113, R117, R118). -/
def badReadout (w : Wagon) : Bool :=
  let f := roFmt w
  anySet w [(511, 343), (335, 335), (319, 316), (311, 310)] || badTile (roRows w) (roCols w) || f = 0 || 0xC < f ||
    (if roBias w then !(8 ≤ roBiasFmt w && roBiasFmt w ≤ 0xA) else roBiasFmt w ≠ 0) ||
    (roTranspose w && (isMx f || f = 0xC)) ||
    badAnchor (roSegAnchor w) ||
    (if f = 0xC then roStride w < 65
     else roMode w = 3 || strideShort (roStride w) (rowBytes f (if roTranspose w then roRows w else roCols w)))

/-- VECTOR (R64, R123, R124, R126, R127). The stride of a reduction to another format than L128, which has one row, is not
compared with the row's length (log entry 119). -/
def badVector (w : Wagon) : Bool :=
  let op := vxOp w
  anySet w [(511, 480), (383, 368), (79, 74), (24, 19), (15, 12)] || vxMode w = 3 || !vopDefined op ||
    vxRows w = 0 || vxCols w = 0 || !vxFormatsOk w || badAnchor (vxAnchor w) ||
    (vopSources op).any (fun k => vxShort (vxStride w k) (vxSrcBytes w k)) ||
    (op = 0x31 && vxShort (vxStride w 2) (vxCols w / 32)) || (op = 0x32 && vxShort (vxStride w 1) (vxCols w / 32)) ||
    (if vxDstFmt w = 0xC then vxDstStride w < 65
     else !vopReduce op && vxShort (vxDstStride w) (rowBytes (vxDstFmt w) (vxCols w)))

/-- Mover wagons (R16, R228, R229, R233), but for the peer entry and the ring's feeder. -/
def badMover (w : Wagon) : Bool :=
  let op := wOpcode w
  let list := op = 0x31 || op = 0x32
  anySet w [(511, 443), (431, 424), (24, 24), (12, 12)] || wLink w = 3 ||
    (wLink w = 0 && (wEngine w ≠ 0 || wDrain w)) || (wLink w = 1 && 17 < wEngine w) ||
    mvRowBytes w = 0 || 16777216 < mvRowBytes w || mvRows w = 0 || mvPlanes w = 0 || (list && mvPlanes w ≠ 1) ||
    3 < mvDstLoc w || (if op = 0x33 then mvSrcLoc w ≠ 0 else 2 < mvSrcLoc w) ||
    (mvDstLoc w = 3 && mvSrcLoc w = 2) || (mvDstLoc w ≠ 3 && mvPeer w ≠ 0) || (list && mvAux w % 4 ≠ 0) ||
    (op = 0x30 && mvAux w ≠ 0)

/-- The least stride of a collective's segments (R308). -/
def clLeast (w : Wagon) : Nat := if wOpcode w = 0x3A then 64 else 65

/-- Collective wagons (R307, R308), but for the group and a BROADCAST's source. -/
def badColl (w : Wagon) : Bool :=
  let cast := wOpcode w = 0x3A
  anySet w [(511, 448), (431, 420), (407, 384), (287, 192), (24, 19), (15, 12)] || clSegs w = 0 || 1 < clDstLoc w ||
    clDstStride w < clLeast w || (if cast then clLast w = 0 || 4096 < clLast w else clLast w ≠ 0) ||
    (!cast && (1 < clSrcLoc w || clSrcStride w < clLeast w))

/-- Token, commit and NOP wagons (R98, R190, R192, R194, R196). The manual gives a NOP no body: its bits [511:64] and OPFLAGS
are taken as reserved, and PART, ENGINE and BANK as without meaning (log entry 119). -/
def badToken (w : Wagon) : Bool :=
  let op := wOpcode w
  if op = 0x01 then anySet w [(511, 64), (15, 12)]
  else anySet w [(24, 16)] ||
    (if op = 0x40 then anySet w [(511, 160), (143, 128), (95, 80), (15, 12)]
     else if op = 0x41 then
       anySet w [(511, 128), (95, 91), (15, 13)] || tkValue w = 0 || (!tkRemote w && tkPeer w ≠ 0)
     else if op = 0x42 then anySet w [(511, 128), (95, 80), (15, 12)]
     else anySet w [(511, 128), (15, 12)])

/-- A wagon malformed in every state. -/
def badWagon (w : Wagon) : Bool :=
  let op := wOpcode w
  badHeader w ||
    (if op = 0x10 then badMma w
     else if op = 0x11 then badLedgerAdd w
     else if op = 0x12 then badReadout w
     else if op = 0x20 then badVector w
     else if opMover op then badMover w
     else if opColl op then badColl w
     else if op = 0x01 ∨ (0x40 ≤ op ∧ op ≤ 0x43) then badToken w
     else true)

end Sys2Proof.Machine
end

