-- ==== Sys2Proof/Machine/Marshal.lean ====
section
/-! DEFINITION. Marshalling: fetch (R169, R173), dispatch (R172 to R178, R186), the start conditions of units (R101,
R138, R179, R227, R233, R609), and the return of queue credits (R25). -/

namespace Sys2Proof.Machine

/-! ## Fetch (R169, R173) -/

/-- PREFETCH in wagons: 0 means 256 (R149). -/
def Context.prefetchDepth (c : Context) : Nat := if c.prefetch = 0 then 256 else c.prefetch

/-- An index within the prefetch of its ring. -/
def State.inPrefetch (s : State) (ring : Nat) (x : W32) : Bool :=
  let r := s.ring ring
  sub32 x r.head < (s.ctx r.ctx).prefetchDepth

/-- A ring that runs under an ACTIVE context. -/
def State.live (s : State) (ring : Nat) : Bool :=
  (s.ring ring).state = .running && (s.ctx (s.ring ring).ctx).state = .active

/-- A wagon fetched joins the ring's window. -/
def State.fetched (s : State) (ring : Nat) (bs : List Byte) : State :=
  s.modRing ring (fun r => { r with window := r.window ++ [(r.fetched, wagonOf bs)], fetched := r.fetched + 1 })

/-- WAGON_FETCH (R169, R173, R375): the ring's next wagon is read, or the context halts with FETCH_FAIL. -/
def execWagonFetch (ring : Fin 4096) (how : FetchEnd) (s : State) : Host.Outcome State Fault Refusal :=
  let r := s.ring ring.val
  .next (
    if s.frozen ∨ ¬ s.live ring.val ∨ r.fetched = r.tail ∨ ¬ s.inPrefetch ring.val r.fetched then s
    else
      let a := r.base + 64 * (r.fetched.toNat % 2 ^ r.logSize)
      match how with
      | .host reply =>
        if ¬ r.host then s
        else
          match reply with
          | .data bs => if s.hostUp then s.fetched ring.val (slice bs 0 64) else s.haltByRing ring.val .fetchFail
          | .error => s.haltByRing ring.val .fetchFail
      | .memory ecc =>
        if r.host then s
        else
          match (s.ctx r.ctx).translate false a with
          | none => s.haltByRing ring.val .fetchFail
          | some pa =>
            let t := s.memLoad pa 64 (lineAt pa ecc) 2
            if t.1 then t.2.2.haltByRing ring.val .fetchFail else t.2.2.fetched ring.val t.2.1)

/-! ## Dispatch (R172 to R178, R186) -/

/-- A mover wagon of a ring fed by a peer that names host memory is malformed (R233). -/
def State.fedToHost (s : State) (ring : Nat) (w : Wagon) : Bool :=
  opMover (wOpcode w) && (s.ring ring).feeder.isSome && (mvSrcLoc w = 2 || mvDstLoc w = 2)

/-- The status with which marshalling completes a ring's wagon without dispatching it: a token fault, a reserved opcode, a
unit outside the grant (R98, R100, R186, R237, R315). -/
def State.undispatched (s : State) (ring : Nat) (w : Wagon) : Option Byte :=
  let ctx := (s.ring ring).ctx
  let op := wOpcode w
  let granted := (s.physPart ctx (wPart w)).isSome
  if s.tokenFault ctx w ∨ ¬ opDefined op then some wsMalformed
  else if (opMatrix op ∨ op = 0x20 ∨ opMover op ∨ opColl op) ∧ ¬ granted ∨ (opMatrix op ∧ 17 < wEngine w) then
    some (if badWagon w ∨ s.fedToHost ring w then wsMalformed else wsUnitRange)
  else none

/-- The unit that takes a ring's wagon. One that is not dispatched passes through the ring's token unit, which
completes it (log entry 18). -/
def State.goesTo (s : State) (ring : Nat) (w : Wagon) : UnitRef :=
  if (s.undispatched ring w).isSome then .token (Fin.ofNat 4096 ring) else s.unitFor ring w

/-- A wagon that holds back every later wagon of its ring until it completes (R176). -/
def wHolds (w : Wagon) : Bool := wOpcode w = 0x40 || wOpcode w = 0x43

/-- The open tile sequence of an engine's bank: its ring. -/
def MatrixEngine.bank (e : MatrixEngine) (b : Nat) : Bank := if b = 0 then e.bank0 else e.bank1

/-- A matrix wagon waits: its bank's tile sequence, open or about to be opened, is another ring's (R178). -/
def State.bankHeld (s : State) (ring : Nat) (w : Wagon) (u : UnitRef) : Bool :=
  match u with
  | .matrix p e =>
    opMatrix (wOpcode w) &&
      (((s.engine p.val e.val).bank (wBank w)).seq.any (fun r => r ≠ ring) ||
        s.marsh.flights.any (fun f => f.ring ≠ ring && f.unit = u && wBank f.bits = wBank w &&
          wOpcode f.bits ≠ 0x12 && wClear f.bits && (f.stage = .queued || f.stage = .started)))
  | _ => false

/-- A ring is ready for a unit: its next wagon goes there and nothing holds it back (R173, R176, R177, R178). -/
def State.ready (s : State) (u : UnitRef) (ring : Nat) : Bool :=
  match (s.ring ring).window with
  | [] => false
  | (x, w) :: _ =>
    s.live ring && s.inPrefetch ring x && s.goesTo ring w = u && !s.bankHeld ring w u &&
      !s.marsh.flights.any (fun f => f.ring = ring && f.stage ≠ .done && wHolds f.bits)

/-- Among rings in ascending order, the first after the last one chosen, wrapping. -/
def afterLast (last : Option Nat) (rings : List Nat) : Option Nat :=
  match last with
  | none => rings.head?
  | some l => match rings.find? (fun r => l < r) with
    | some r => some r
    | none => rings.head?

/-- One pass of R177: the class and ring chosen. -/
def Dispatch.pass (d : Dispatch) (weights : List Nat) (ready : Nat → List Nat) : Option (Nat × Nat) :=
  (List.range 8).findSome? (fun step =>
    let c := (d.cur + step) % 8
    if nth 0 d.spent c < nth 0 weights c then (afterLast (nth none d.last c) (ready c)).map (fun r => (c, r)) else none)

/-- The choice of R177 with the unit's state after it; none where no ring is ready. -/
def Dispatch.choose (d : Dispatch) (weights : List Nat) (ready : Nat → List Nat) : Option (Nat × Dispatch) :=
  let take := fun (d : Dispatch) (x : Nat × Nat) =>
    (x.2, { d with spent := setNth d.spent x.1 (fun n => n + 1), last := setNth d.last x.1 (fun _ => some x.2)
                   cur := x.1 })
  match d.pass weights ready with
  | some x => some (take d x)
  | none =>
    let d := { d with spent := List.replicate 8 0 }
    (d.pass weights ready).map (take d)

/-- The count of a target in a ring (R179). -/
def Ring.count (r : Ring) (t : Target) : TargetCount :=
  (r.counts.find? (fun c => c.target = t)).getD { target := t, numbered := 0, done := 0 }

/-- A ring with the count of a target changed. -/
def Ring.modCount (r : Ring) (t : Target) (f : TargetCount → TargetCount) : Ring :=
  { r with counts := r.counts.filter (fun c => c.target ≠ t) ++ [f (r.count t)] }

/-- The tile number of a mover wagon's target: that of the next closing wagon in the ring (R179). -/
def Ring.tileOf (r : Ring) (w : Wagon) : Nat :=
  match wTarget w with
  | some t => (r.count t).numbered
  | none => 0

/-- The mover that event 0x0205 names for a wagon that marshalling completes itself: the one it would have gone to, the
ring where its partition is not granted (R237, log entry 117). -/
def State.moveSource (s : State) (ring : Nat) (w : Wagon) : W32 := unitSource (s.unitFor ring w)

/-- What the completion of a wagon that was not dispatched brings besides its status: a closing wagon takes its target's
DATA_ERR, a mover wagon is recorded, a collective is aborted at its neighbours (R237, R238, R313). -/
def State.refused (s : State) (f : Flight) : State :=
  let op := wOpcode f.bits
  let fed := s.takeFeed (s.unitFor f.ring f.bits) f.bits
  let t := fed.2.modFlight f.ring f.index (fun x => { x with flags := { noFlags with dataErr := fed.1 }.byte })
  if opColl op then t.collEnd f f.status []
  else if opMover op then t.noteMove (t.moveSource f.ring f.bits) f f.status
  else t

/-- A ring's next wagon dispatched to a unit: numbered where it closes, completed at once where it is not to be
dispatched. -/
def State.dispatchFrom (s : State) (u : UnitRef) (ring : Nat) : State :=
  let r := s.ring ring
  match r.window with
  | [] => s
  | (x, w) :: rest =>
    let st := s.undispatched ring w
    let f : Flight :=
      { ring := ring, index := x, ctx := r.ctx, gen := (s.ctx r.ctx).gen, bits := w, unit := u
        stage := if st.isSome then .decided else .queued, tile := r.tileOf w, status := st.getD 0, flags := 0
        causes := [], plane := 0, row := 0, col := 0, issuedAll := false, peer := none, tags := [], cutShort := false
        fence := none, list := [] }
    let r := { r with window := rest }
    let r := match wRunsOn w with
      | some t => if wCloses w then r.modCount t (fun c => { c with numbered := c.numbered + 1 }) else r
      | none => r
    let t := s.modRing ring (fun _ => r)
    let t := ({ t with marsh.flights := t.marsh.flights ++ [f] }).noteFence ring
    if st.isSome then t.refused f else t

/-- MARSHALLING_DISPATCH (R172 to R178, R186, R226, R437, R609): outside Idle, on a free credit in the unit's queue, the next wagon of the ring
that R177 chooses. -/
def execMarshallingDispatch (unit : UnitRef) (s : State) : Host.Outcome State Fault Refusal :=
  let d := s.unit unit
  let ready := (s.rings.map (fun x => x.1)).filter (fun r => s.ready unit r)
  .next (
    if s.frozen ∨ s.power.state = .idle ∨ unitDepth unit ≤ d.taken ∨ ¬ s.unitUp unit then s
    else
      match d.choose s.marsh.weights (fun c => ready.filter (fun r => (s.ctx (s.ring r).ctx).priority = c)) with
      | none => s
      | some (ring, e) => (s.modUnit unit (fun _ => { e with taken := e.taken + 1 })).dispatchFrom unit ring)

/-! ## Starts (R101, R138, R179, R227, R233, R609) -/

/-- A mover wagon of a ring linked to a target, FEED (`drain` false) or DRAIN. -/
def linked (t : Target) (drain : Bool) (w : Wagon) : Bool := wTarget w = some t && wDrain w = drain

/-- The links of R179 and the order of R101 that a wagon waits for. -/
def State.startMet (s : State) (f : Flight) : Bool :=
  let open_ := (s.earlier f).filter (fun x => x.stage ≠ .done)
  let op := wOpcode f.bits
  let target := (wRunsOn f.bits).getD { part := 0, eng := none }
  let ahead := (s.unitFlights f.unit).takeWhile (fun x => ¬ x.is f.ring f.index)
  let busy := ahead.any (fun x => (x.stage = .queued || x.stage = .started) && wBank x.bits = wBank f.bits)
  if opMatrix op ∨ op = 0x20 then
    !busy && !open_.any (fun x => linked target false x.bits) &&
      (op ≠ 0x12 || !open_.any (fun x => linked target true x.bits))
  else if opMover op then
    !ahead.any (fun x => x.stage = .queued) &&
      ((s.unitFlights f.unit).filter (fun x => x.stage = .started ∨ x.stage = .waiting)).length < 8 &&
      (match wTarget f.bits with
       | none => true
       | some t =>
         if wDrain f.bits then !open_.any (fun x => wRunsOn x.bits = some t)
         else f.tile < ((s.ring f.ring).count t).done + (s.ctx f.ctx).feedAhead)
  else true

/-- The peer entry of a mover wagon, as it stands when the wagon first starts (R233, R240). -/
def State.startPeer (s : State) (f : Flight) : Option Peer :=
  if f.peer.isSome then f.peer
  else if opMover (wOpcode f.bits) ∧ mvDstLoc f.bits = 3 then (s.ctx f.ctx).peer (mvPeer f.bits)
  else none

/-- WAGON_START (R101, R138, R141, R179, R227, R233, R609): a queued wagon whose conditions hold starts. A parked engine
requests a departure slot instead, and a coasting one runs at once. -/
def execWagonStart (ring : Fin 4096) (index : W32) (cycle : Nat) (s : State) : Host.Outcome State Fault Refusal :=
  .next (match s.flight ring.val index with
    | none => s
    | some f =>
      if s.frozen ∨ f.stage ≠ .queued ∨ ¬ s.unitUp f.unit ∨ ¬ s.startMet f then s
      else if s.pace f.unit = .parked then s.wantSlot f.unit .departure cycle
      else
        (s.setPace f.unit .running none).modFlight ring.val index (fun x =>
          { x with stage := .started, peer := s.startPeer f }))

/-! ## Credits (R25, R174) -/

/-- CREDIT_RETURN (R25, R27, R174): a place freed in a unit's queue comes back as a credit. -/
def execCreditReturn (unit : UnitRef) (s : State) : Host.Outcome State Fault Refusal :=
  .next (if (s.unit unit).freed = 0 then s
    else s.modUnit unit (fun d => { d with freed := d.freed - 1, taken := d.taken - 1 }))

end Sys2Proof.Machine
end

