-- ==== Sys2Proof/Machine/Engine.lean ====
section
/-! DEFINITION. The matrix engines: Yard operands (R99, R94, R232), MMA (R104 to R108), LEDGER_ADD (R110 to R112),
READOUT (R113 to R119), the replay log (R121, R122, R136) and residue mismatches (R88 to R92). -/

namespace Sys2Proof.Machine

/-! ## Wagons under execution -/

/-- A command on a dispatched wagon: it acts only where the wagon satisfies a test. -/
def State.onFlight (s : State) (ring : Nat) (index : W32) (ok : Flight → Bool) (act : Flight → State → State) : State :=
  match s.flight ring index with
  | none => s
  | some f => if s.frozen ∨ ¬ ok f then s else act f s

/-- A wagon's completion decided; a closing wagon reports and clears the DATA_ERR held for its target (R238), and an
engine whose last wagon it was coasts (R138). -/
def State.finish (s : State) (f : Flight) (status : Byte) (flags : Flags) : State :=
  let t := s.takeFeed f.unit f.bits
  (t.2.decide f.ring f.index status { flags with dataErr := flags.dataErr || t.1 }.byte).settle f.unit

/-- A started wagon of an opcode on a unit that runs. -/
def State.runs (s : State) (op : Nat) (f : Flight) : Bool :=
  f.stage = .started && wOpcode f.bits = op && s.unitUp f.unit

/-! ## The Yard of a context (R99, R150) -/

/-- A range of bytes: offset and count. -/
abbrev Span := Nat × Nat

/-- The allotment of a wagon's partition. -/
def State.allot (s : State) (f : Flight) : YardWord :=
  ((s.ctx f.ctx).lp (wPart f.bits)).getD { phys := 0, base := 0, size := 0 }

/-- Every byte of some spans lies in an allotment. -/
def YardWord.holds (y : YardWord) (spans : List Span) : Bool := spans.all (fun (o, n) => o + n ≤ y.size * 65536)

/-- The Yard key of an offset in an allotment. -/
def YardWord.key (y : YardWord) (off : Nat) : Nat := yardKey y.phys (y.base * 65536 + off)

/-- Bytes of a context's Yard. -/
def State.yardGet (s : State) (y : YardWord) (off n : Nat) : List Byte := s.yardLoad (y.key off) n

/-- What the operand reads of a wagon find: true where a word was uncorrectable, each recorded as event 0x0201 (R94,
R241, R484). -/
def State.operands (s : State) (f : Flight) (y : YardWord) (ecc : YardEcc) (spans : List Span) : Bool × State :=
  let words := (spans.flatMap (fun (o, n) => yardWords (y.key o) n)).dedup
  let t := s.yardSense y.phys ecc words
  (!t.1.isEmpty, t.1.foldl (fun u w => u.report (source 7 y.phys 0) 0x0201 f.who (yardInfo w)) t.2)

/-- Words that a range of the Yard covers only in part. -/
def partWords (key n : Nat) : List Nat := (yardWords key n).filter (fun w => ¬ (key ≤ w * 8 ∧ w * 8 + 8 ≤ key + n))

/-- Results stored in a context's Yard: true where a partly written word was uncorrectable (R232, R241). -/
def State.yardPut (s : State) (f : Flight) (y : YardWord) (ecc : YardEcc) (puts : List (Nat × List Byte)) :
    Bool × State :=
  puts.foldl (fun (bad, t) (o, bs) =>
    let t := (t.yardSense y.phys ecc (partWords (y.key o) bs.length)).2
    let hurt := (yardWords (y.key o) bs.length).any (fun w => w ∈ t.yard.damaged)
    let u := t.yardStore (y.key o) bs
    if hurt ∧ u.1 then (true, u.2.report (source 7 y.phys 0) 0x0201 f.who (yardInfo (y.key o / 8))) else (bad, u.2))
    (false, s)

/-- A Yard read that finds nothing wrong. -/
def cleanYard : YardEcc := { corrected := [], bad := [] }

/-! ## Operands of an MMA (R105) -/

/-- Spans of rows: n bytes each, 64 × stride apart. -/
def rowSpans (addr stride rows n : Nat) : List Span := (List.range rows).map (fun i => (addr + 64 * stride * i, n))

/-- Spans that an MMA reads. -/
def mmaSpans (w : Wagon) : List Span :=
  let k := mmK w
  let side := fun (f addr stride saddr sstride n : Nat) =>
    rowSpans addr stride n (rowBytes f k) ++ (if isMx f then rowSpans saddr sstride n (k / 32) else [])
  side (mmAFmt w) (mmA w) (mmAStride w) (mmAScale w) (mmAScaleStride w) (mmRows w) ++
    side (mmBFmt w) (mmB w) (mmBStride w) (mmBScale w) (mmBScaleStride w) (mmCols w)

/-- The values of one row of an operand, block scales applied (R57, R58). -/
def State.rowVals (s : State) (y : YardWord) (f k off soff : Nat) : List Val :=
  let codes := codesOf f k (s.yardGet y off (rowBytes f k))
  if isMx f then
    let scales := s.yardGet y soff (k / 32)
    codes.zipIdx.map (fun (c, i) => (decode f c).scaled (scaleExp (nth 0 scales (i / 32)).toNat))
  else codes.map (decode f)

/-- Every ledger (i, j) of a corner of a bank changed. -/
def mapLedgers (cells : Table Ledger) (rows cols : Nat) (f : Nat → Nat → Ledger → Ledger) : Table Ledger :=
  (List.range rows).foldl (fun t i =>
    (List.range cols).foldl (fun t j => Table.mod Ledger.zero (64 * i + j) (f i j) t) t) cells

/-- The ledgers of a bank after an MMA (R65, R72, R83, R107), with the errors that its logic makes. -/
def State.mmaLedgers (s : State) (y : YardWord) (w : Wagon) (x : List Slip) (cells : Table Ledger) : Table Ledger :=
  let k := mmK w
  if mmAFmt w = 0xA then
    let row := fun addr stride i => codesOf 0xA k (s.yardGet y (addr + 64 * stride * i) (4 * k))
    let as_ := (List.range (mmRows w)).map (row (mmA w) (mmAStride w))
    let bs := (List.range (mmCols w)).map (row (mmB w) (mmBStride w))
    mapLedgers cells (mmRows w) (mmCols w) (fun i j l =>
      ((nth [] as_ i).zip (nth [] bs j)).zipIdx.foldl (fun l (ab, n) =>
        l.product32 (mmAnchor w) (fun t => slipAt x (64 * i + j) (3 * n + t)) ab.1 ab.2) l)
  else
    let row := fun f addr stride saddr sstride i => s.rowVals y f k (addr + 64 * stride * i) (saddr + 64 * sstride * i)
    let as_ := (List.range (mmRows w)).map (row (mmAFmt w) (mmA w) (mmAStride w) (mmAScale w) (mmAScaleStride w))
    let bs := (List.range (mmCols w)).map (row (mmBFmt w) (mmB w) (mmBStride w) (mmBScale w) (mmBScaleStride w))
    mapLedgers cells (mmRows w) (mmCols w) (fun i j l =>
      ((nth [] as_ i).zip (nth [] bs j)).zipIdx.foldl (fun l (ab, n) =>
        Ledger.productWith (mmAnchor w) (slipAt x (64 * i + j) n) l ab.1 ab.2) l)

/-! ## Operands of a LEDGER_ADD (R111) -/

/-- Spans that a LEDGER_ADD reads. -/
def addSpans (w : Wagon) : List Span := rowSpans (laAddr w) (laStride w) ((laRows w + 3) / 4) segBytes

/-- The segments that a LEDGER_ADD reads. -/
def State.addSegments (s : State) (y : YardWord) (w : Wagon) : List Segment :=
  (addSpans w).map (fun (o, n) => Segment.parse (s.yardGet y o n))

/-- One element added to its ledger (R83, R111). -/
def Ledger.addElem (anchor : Int) (seg : Segment) (e : Int) (x : Slip) (l : Ledger) : Ledger :=
  if e = l128Marker then { l with invalid := true }
  else
    let l := if seg.flags.ledgerSat ∧ (e.natAbs : Int) = l128Top then { l with sat := true } else l
    let l := l.addFin anchor (residue 255 e) (e < 0) e.natAbs seg.anchor x
    { l with inexact := l.inexact || seg.flags.inexact }

/-- The ledgers of a bank after a LEDGER_ADD. -/
def State.addLedgers (s : State) (y : YardWord) (w : Wagon) (x : List Slip) (cells : Table Ledger) : Table Ledger :=
  let segs := s.addSegments y w
  mapLedgers cells (laRows w) (laCols w) (fun i j l =>
    match segs[i / 4]? with
    | some seg => l.addElem (laAnchor w) seg (nth 0 seg.elems (64 * (i % 4) + j)) (slipAt x (64 * i + j) 0)
    | none => l)

/-! ## The replay log (R121, R122, R136) -/

/-- The ledgers that a log leaves, from a cleared bank: its reads are made again and meet errors of their own. True first
where one of them was uncorrectable. -/
def State.replay (s : State) (f : Flight) (y : YardWord) (log : List Wagon) (m : ReplayFaults) :
    Bool × Table Ledger × State :=
  log.zipIdx.foldl (fun (bad, cells, t) (w, n) =>
    let x := nth (cleanYard, []) m n
    let mul : Bool := wOpcode w = 0x10
    let r := t.operands f y x.1 (if mul then mmaSpans w else addSpans w)
    let cells := if wClear w then [] else cells
    (bad || r.1, if mul then r.2.mmaLedgers y w x.2 cells else r.2.addLedgers y w x.2 cells, r.2)) (false, [], s)

/-- A bank rebuilt from its log where its ledgers were lost (R122, R136). True first where a check of R83 failed during the
replay, which its next READOUT then does not count again. -/
def State.rebuilt (s : State) (f : Flight) (y : YardWord) (b : Bank) (m : ReplayFaults) : Bool × Bank × State :=
  if b.rebuild then
    let r := s.replay f y b.log m
    let off := r.2.1.any (fun c => c.2.off)
    (off, { b with cells := r.2.1, rebuild := false, dataErr := b.dataErr || r.1, held := b.held || off }, r.2.2)
  else (false, b, s)

/-- The state with a bank of an engine changed. -/
def State.modBank (s : State) (p e bank : Nat) (f : Bank → Bank) : State :=
  s.modEngine p e (fun x => if bank = 0 then { x with bank0 := f x.bank0 } else { x with bank1 := f x.bank1 })

/-- A bank of an engine. -/
def State.bank (s : State) (p e bank : Nat) : Bank := (s.engine p e).bank bank

/-- Accumulation into a bank, for MMA and LEDGER_ADD: a clear opens the sequence for the ring; the wagon enters the
log. -/
def Bank.accumulate (b : Bank) (f : Flight) (anchor : Int) (cells : Table Ledger) (dataErr retried : Bool) : Bank :=
  if wClear f.bits then
    { Bank.closed with seq := some f.ring, anchor := anchor, cells := cells, log := [f.bits], dataErr := dataErr
                       retried := retried }
  else
    { b with cells := cells, log := b.log ++ [f.bits], dataErr := b.dataErr || dataErr
             retried := b.retried || retried }

/-- What refuses an accumulating wagon: malformed, a bank with no open sequence, an anchor or a log that does not
allow it, an allotment that does not hold it (R65, R99, R108, R121). -/
def accumulateRefusal (f : Flight) (bad : Bool) (b : Bank) (anchor : Int) (y : YardWord) (spans : List Span) :
    Option Byte :=
  if bad then some wsMalformed
  else if ¬ wClear f.bits ∧ b.seq = none then some wsNoLedger
  else if ¬ wClear f.bits ∧ (b.anchor ≠ anchor ∨ 64 ≤ b.log.length) then some wsMalformed
  else if ¬ y.holds spans then some wsYardRange
  else none

/-- Contraction depth in cycles of an MMA (R62, R109). -/
def mmaCycles (w : Wagon) : Nat :=
  if mmAFmt w = 0xA then 3 * mmK w
  else if mmAFmt w = 1 ∧ mmBFmt w = 1 then (mmK w + 3) / 4
  else if mmAFmt w ≤ 7 then (mmK w + 1) / 2
  else mmK w

/-- The engine of a wagon that last ran (R144). -/
def State.ranOn (s : State) (p e : Nat) (f : Flight) : State := s.modEngine p e (fun x => { x with lastCtx := some f.ctx })

/-- A started matrix wagon executed, with the engine's partition and physical index. -/
def State.onEngine (s : State) (op ring : Nat) (index : W32) (act : Nat → Nat → Flight → State → State) : State :=
  s.onFlight ring index (s.runs op) (fun f t =>
    match f.unit with
    | .matrix p e => act p.val e.val f (t.ranOn p.val e.val f)
    | _ => t)

/-- A residue mismatch counted against a matrix engine: the second within 600 s fences it (R91). -/
def State.residueHit (s : State) (p e : Nat) : State :=
  let again := (s.engine p e).residueAt.any (fun t => s.within t 600)
  let t := s.modEngine p e (fun x => { x with residueAt := some s.trg.seconds })
  if again then t.report (source 1 p e) 0x0301 none 0 else t

/-- The bank that a wagon of an open sequence finds, rebuilt first where its ledgers were lost, a mismatch on the way
counted (R122). A clearing wagon needs none of the old ledgers. -/
def State.bankFor (s : State) (p e : Nat) (f : Flight) (m : ReplayFaults) : Bank × State :=
  let b := s.bank p e (wBank f.bits)
  if wOpcode f.bits ≠ 0x12 ∧ wClear f.bits then ({ b with cells := [] }, s)
  else
    let r := s.rebuilt f (s.allot f) b m
    (r.2.1, if r.1 then r.2.2.residueHit p e else r.2.2)

/-- MMA (R56 to R67, R72, R82, R83, R94, R104 to R108, R121, R122). -/
def execMma (ring : Fin 4096) (index : W32) (ecc : YardEcc) (slips : List Slip) (rebuild : ReplayFaults) (s : State) :
    Host.Outcome State Fault Refusal :=
  .next (s.onEngine 0x10 ring.val index (fun p e f t =>
    let y := t.allot f
    let w := f.bits
    match accumulateRefusal f (badWagon w) (t.bank p e (wBank w)) (mmAnchor w) y (mmaSpans w) with
    | some status => t.finish f status noFlags
    | none =>
      let b := t.bankFor p e f rebuild
      let r := b.2.operands f y ecc (mmaSpans w)
      let cells := r.2.mmaLedgers y w slips b.1.cells
      ((r.2.modBank p e (wBank w) (fun _ => b.1.accumulate f (mmAnchor w) cells r.1 false)).mile
        (source 1 p e) (mmaCycles w)).finish f (if r.1 then wsData else wsOk) noFlags))

/-- LEDGER_ADD (R77, R79, R83, R110 to R112, R121, R122). -/
def execLedgerAdd (ring : Fin 4096) (index : W32) (ecc : YardEcc) (slips : List Slip) (rebuild : ReplayFaults)
    (s : State) : Host.Outcome State Fault Refusal :=
  .next (s.onEngine 0x11 ring.val index (fun p e f t =>
    let y := t.allot f
    let w := f.bits
    match accumulateRefusal f (badWagon w) (t.bank p e (wBank w)) (laAnchor w) y (addSpans w) with
    | some status => t.finish f status noFlags
    | none =>
      let r := t.operands f y ecc (addSpans w)
      let segs := r.2.addSegments y w
      if segs.any (fun g => g.anchor < laAnchor w) then r.2.finish f wsMalformed noFlags
      else
        let b := r.2.bankFor p e f rebuild
        let cells := b.2.addLedgers y w slips b.1.cells
        let err := r.1 || segs.any (fun g => g.flags.dataErr)
        ((b.2.modBank p e (wBank w) (fun _ =>
          b.1.accumulate f (laAnchor w) cells err (segs.any (fun g => g.flags.retried)))).mile
          (source 1 p e) ((segs.length * segBytes + 255) / 256)).finish f (if r.1 then wsData else wsOk) noFlags))

/-! ## READOUT (R113 to R119) -/

/-- A ledger of a tile with its bias added (R114). -/
def roBiased (w : Wagon) (anchor : Int) (x : List Slip) (bias : List Val) (cells : Table Ledger) (i j : Nat) : Ledger :=
  let l := Table.get Ledger.zero cells (64 * i + j)
  if roBias w ∧ ¬ l.invalid then l.term anchor (slipAt x (64 * i + j) 0) (nth .nan bias j) else l

/-- A negative value cut by RELU (R114). -/
def Ledger.relu (l : Ledger) (on : Bool) : Ledger :=
  if on ∧ ¬ l.invalid ∧ l.l < 0 then { l with l := 0, sat := false } else l

/-- One element of an output: its code, its flags, and what the check of R85 says. -/
abbrev Elem := Nat × Flags × Bool

/-- A ledger converted to an element, the converter's image off by an amount (R74, R85). -/
def Ledger.elem (l : Ledger) (anchor : Int) (f mode r : Nat) (off : Int) : Elem :=
  let c := l.convert anchor f mode r
  (slipCode (fmtBits f) c.1 off, c.2, l.converts anchor f mode r off)

/-- The OR of a list of flags. -/
def flagsAll (fs : List Flags) : Flags := fs.foldl Flags.or noFlags

/-- What elements come to: their codes, the OR of their flags, and whether every check agrees. -/
def elemCodes (es : List Elem) : List Nat := es.map (fun c => c.1)

def elemFlags (es : List Elem) : Flags := flagsAll (es.map (fun c => c.2.1))

def elemsAgree (es : List Elem) : Bool := es.all (fun c => c.2.2)

/-- One stored row of a plain output (R74, R115): each ledger with its image error. -/
def roRow (w : Wagon) (seed : W64) (anchor : Int) (row : Nat) (ls : List (Ledger × Int)) : List Elem :=
  ls.zipIdx.map (fun (l, c) =>
    l.1.elem anchor (roFmt w) (roMode w) (srDraw seed (roStream w) (roRow0 w + row) (roCol0 w + c)) l.2)

/-- One block of an MX output: its scale and its elements (R76). -/
def roBlock (w : Wagon) (seed : W64) (anchor : Int) (row col : Nat) (ls : List (Ledger × Int)) : Nat × List Elem :=
  let x := blockScale (roFmt w) (ls.map (fun l => l.1.val anchor))
  (x, ls.zipIdx.map (fun (l, c) =>
    l.1.elem (anchor - ((x : Int) - 127)) (roFmt w) (roMode w)
      (srDraw seed (roStream w) (roRow0 w + row) (roCol0 w + col + c)) l.2))

/-- The L128 elements of segment k of a tile (R78, R117): element, flags and check. -/
def roSegment (w : Wagon) (anchor : Int) (l : Nat → Nat → Ledger × Int) (k : Nat) : List (Int × Flags × Bool) :=
  (List.range 256).map (fun e =>
    let i := 4 * k + e / 64
    let j := e % 64
    if i < roRows w ∧ j < roCols w then
      let c := (l i j).1.toL128 anchor (roSegAnchor w)
      (c.1 + (l i j).2, c.2, (l i j).1.toAgrees anchor (roSegAnchor w) (l i j).2)
    else (0, noFlags, true))

/-- What a wagon stores and where, its flags, and whether every check of its conversions agrees. -/
abbrev WagonOut := List (Nat × List Byte) × Flags × Bool

/-- The output of a tile (R115 to R117), from its ledgers with their image errors. The FLAGS of an L128 segment also carry
the DATA_ERR and RETRIED of the tile (R69, R77, R94, R112). -/
def roOutput (w : Wagon) (seed : W64) (bankAnchor : Int) (tile : Flags) (l : Nat → Nat → Ledger × Int) : WagonOut :=
  let anchor := bankAnchor + roScaleExp w
  let at_ := fun i => roAddr w + 64 * roStride w * i
  if roFmt w = 0xC then
    let segs := (List.range ((roRows w + 3) / 4)).map (fun k =>
      let es := roSegment w anchor l k
      let fl := (flagsAll (es.map (fun e => e.2.1))).or tile
      let seg : Segment :=
        { contrib := 1, flags := fl, count := 64 * min 4 (roRows w - 4 * k), anchor := roSegAnchor w
          elems := es.map (fun e => e.1) }
      (at_ k, seg.bytes, fl, es.all (fun e => e.2.2)))
    (segs.map (fun x => (x.1, x.2.1)), flagsAll (segs.map (fun x => x.2.2.1)), segs.all (fun x => x.2.2.2))
  else if isMx (roFmt w) then
    let rows := (List.range (roRows w)).map (fun i =>
      let ls := (List.range (roCols w)).map (l i)
      let b0 := roBlock w seed anchor i 0 (ls.take 32)
      let b1 := roBlock w seed anchor i 32 (ls.drop 32)
      let es := b0.2 ++ b1.2
      let scales := if roCols w ≤ 32 then [b0.1] else [b0.1, b1.1]
      ([(at_ i, packCodes (roFmt w) (elemCodes es)),
        (roScaleAddr w + 64 * roScaleStride w * i, scales.map (BitVec.ofNat 8))], elemFlags es, elemsAgree es))
    (rows.flatMap (fun x => x.1), flagsAll (rows.map (fun x => x.2.1)), rows.all (fun x => x.2.2))
  else
    let n := if roTranspose w then roCols w else roRows w
    let m := if roTranspose w then roRows w else roCols w
    let rows := (List.range n).map (fun r =>
      let es := roRow w seed anchor r ((List.range m).map (fun c => if roTranspose w then l c r else l r c))
      ((at_ r, packCodes (roFmt w) (elemCodes es)), elemFlags es, elemsAgree es))
    (rows.map (fun x => x.1), flagsAll (rows.map (fun x => x.2.1)), rows.all (fun x => x.2.2))

/-- Spans that a READOUT writes. -/
def roSpans (w : Wagon) : List Span :=
  if roFmt w = 0xC then rowSpans (roAddr w) (roStride w) ((roRows w + 3) / 4) segBytes
  else
    let n := if roTranspose w then roCols w else roRows w
    let m := if roTranspose w then roRows w else roCols w
    rowSpans (roAddr w) (roStride w) n (rowBytes (roFmt w) m) ++
      (if isMx (roFmt w) then rowSpans (roScaleAddr w) (roScaleStride w) n (if m ≤ 32 then 1 else 2) else [])

/-- Span of the bias values that a READOUT reads: those of its N_COLS columns (log entry 119). -/
def roBiasSpans (w : Wagon) : List Span :=
  if roBias w then [(roBiasAddr w, rowBytes (roBiasFmt w) (roCols w))] else []

/-! ## Residue mismatches (R84 to R92, R122) -/

/-- The engine that re-executes a tile sequence: the lowest in-service one but the mismatching one that has a bank
without an open sequence (R122). -/
def State.reexecutor (s : State) (p e : Nat) : Option Nat :=
  (List.range 20).find? (fun k => k ≠ e ∧ (s.engine p k).unit = .inService ∧
    ((s.engine p k).bank0.seq = none ∨ (s.engine p k).bank1.seq = none))

/-- A READOUT's tile sequence left open or closed by its status (R119). -/
def Bank.afterReadout (b : Bank) (keep : Bool) (status : Byte) : Bank :=
  if keep ∧ (status = wsOk ∨ status = wsData) then b else Bank.closed

/-- The bias values of a READOUT read: true first where the read was uncorrectable (R94, R113). -/
def State.biasRead (s : State) (f : Flight) (y : YardWord) (ecc : YardEcc) : Bool × List Val × State :=
  let w := f.bits
  let r := s.operands f y ecc (roBiasSpans w)
  (r.1, if roBias w then
      (codesOf (roBiasFmt w) (roCols w) (r.2.yardGet y (roBiasAddr w) (rowBytes (roBiasFmt w) (roCols w)))).map
        (decode (roBiasFmt w))
    else [], r.2)

/-- What the converter's image of a ledger is off by. -/
def imageOff (x : TileFaults) (i j : Nat) : Int := ((x.image.find? (fun a => a.1 = 64 * i + j)).map (fun a => a.2)).getD 0

/-- DATA_ERR and RETRIED of a READOUT (R69, R94, R112, R238). -/
def State.tileFlags (s : State) (p e : Nat) (w : Wagon) (b : Bank) (readBad retried : Bool) : Flags :=
  { noFlags with dataErr := readBad || b.dataErr || (wCloses w && (s.engine p e).feedErr)
                 retried := retried || b.retried }

/-- The output of a READOUT from a bank; its check is that of every ledger's residue before the conversion (R84) and of the
conversions (R85). -/
def State.tileOut (s : State) (f : Flight) (b : Bank) (bias : List Val) (x : TileFaults) (tile : Flags) : WagonOut :=
  let w := f.bits
  let l := roBiased w b.anchor x.slips bias b.cells
  let o := roOutput w (s.ctx f.ctx).srSeed b.anchor tile (fun i j => ((l i j).relu (roRelu w), imageOff x i j))
  let whole := (List.range (roRows w)).all (fun i => (List.range (roCols w)).all (fun j => (l i j).agrees))
  (o.1, o.2.1, o.2.2 && whole && !x.parity)

/-- The output of a READOUT stored, and its completion; engine k made it. After a re-execution the bank's own ledgers are
rebuilt before the sequence goes on (R122). -/
def State.storeReadout (s : State) (p e k : Nat) (f : Flight) (y : YardWord) (ecc : YardEcc) (b : Bank)
    (readBad : Bool) (tile : Flags) (o : WagonOut) : State :=
  let w := f.bits
  let t := s.yardPut f y ecc o.1
  let status := if readBad ∨ t.1 then wsData else wsOk
  let u := t.2.modBank p e (wBank w) (fun _ =>
    { b with rebuild := b.rebuild || k ≠ e, held := false }.afterReadout (roKeep w) status)
  (u.mile (source 1 p k) (if roTranspose w then roCols w else roRows w)).finish f status (o.2.1.or tile)

/-- A READOUT whose sequence is lost or whose re-execution mismatched: no output, and the sequence closes (R92, R119,
R136). -/
def State.loseReadout (s : State) (p e : Nat) (f : Flight) (status : Byte) (tile : Flags) : State :=
  (s.modBank p e (wBank f.bits) (fun _ => Bank.closed)).finish f status tile

/-- A READOUT that mismatched on engine e: re-executed on engine k, whose own mismatch ends it (R88 to R92, R122); it asks for no
departure slot (log entry 145). -/
def State.reexecute (s : State) (p e k : Nat) (f : Flight) (y : YardWord) (b : Bank) (again : Reexecution) : State :=
  let r := s.replay f y b.log again.log
  let v := r.2.2.biasRead f y again.ecc
  let b := { b with cells := r.2.1, dataErr := b.dataErr || r.1 }
  let tile := v.2.2.tileFlags p e f.bits b v.1 true
  let o := v.2.2.tileOut f b v.2.1 again.faults tile
  let t := v.2.2.ranOn p k f
  if o.2.2 then (t.report (source 1 p e) 0x0103 f.who 0).storeReadout p e k f y again.ecc b v.1 tile o
  else ((t.residueHit p k).report (source 1 p e) 0x0202 f.who 0).loseReadout p e f wsResidue
    (v.2.2.tileFlags p e f.bits b v.1 false)

/-- READOUT (R74 to R78, R84, R85, R88 to R92, R113 to R119, R122, R136). A mismatch for which no engine has a free bank
waits, counted once, until the command comes again with one (log entry 144). -/
def execReadout (ring : Fin 4096) (index : W32) (ecc : YardEcc) (faults : TileFaults) (rebuild : ReplayFaults)
    (again : Reexecution) (s : State) : Host.Outcome State Fault Refusal :=
  .next (s.onEngine 0x12 ring.val index (fun p e f t =>
    let y := t.allot f
    let w := f.bits
    let old := t.bank p e (wBank w)
    if badWagon w then t.finish f wsMalformed noFlags
    else if old.seq = none then t.finish f wsNoLedger noFlags
    else if roFmt w = 0xC ∧ roSegAnchor w < old.anchor + roScaleExp w then t.finish f wsMalformed noFlags
    else if ¬ y.holds (roBiasSpans w ++ roSpans w) then t.finish f wsYardRange noFlags
    else if old.lost then t.loseReadout p e f wsLedgerLost (t.tileFlags p e w old false false)
    else
      let b := t.bankFor p e f rebuild
      let v := b.2.biasRead f y ecc
      let tile := v.2.2.tileFlags p e w b.1 v.1 false
      let o := v.2.2.tileOut f b.1 v.2.1 faults tile
      if ¬ b.1.held ∧ o.2.2 then v.2.2.storeReadout p e e f y ecc b.1 v.1 tile o
      else
        let u := if b.1.held then v.2.2 else v.2.2.residueHit p e
        match u.reexecutor p e with
        | none => u.modBank p e (wBank w) (fun _ => { b.1 with held := true })
        | some k => u.reexecute p e k f y b.1 again))

end Sys2Proof.Machine
end

