-- ==== Sys2Proof/Machine/Movers.lean ====
section
/-! DEFINITION. The data movers (R226 to R238): the rows of a wagon, the issue of its reads, the delivery of what they
bring, and the replies (R39, R202, R373). -/

namespace Sys2Proof.Machine

/-! ## Rows (R231) -/

/-- The index list of a GATHER or SCATTER as the Yard holds it. -/
def State.indexList (s : State) (y : YardWord) (w : Wagon) : List Nat :=
  (List.range (mvRows w)).map (fun r => leNat (s.yardGet y (mvAux w + 4 * r) 4))

/-- Source address of row r of plane p, for the index list that the wagon read. -/
def srcRow (w : Wagon) (idx : List Nat) (p r : Nat) : Int :=
  if wOpcode w = 0x31 then (mvSrc w : Int) + nth 0 idx r * mvSrcRow w
  else (mvSrc w : Int) + p * mvSrcPlane w + r * mvSrcRow w

/-- Destination address of row r of plane p, for the index list that the wagon read. -/
def dstRow (w : Wagon) (idx : List Nat) (p r : Nat) : Int :=
  if wOpcode w = 0x32 then (mvDst w : Int) + nth 0 idx r * mvDstRow w
  else (mvDst w : Int) + p * mvDstPlane w + r * mvDstRow w

/-- A row lies in the allotment. -/
def YardWord.holdsRow (y : YardWord) (a : Int) (n : Nat) : Bool := 0 ≤ a && a + n ≤ (y.size * 65536 : Nat)

/-- Rows and planes at which an address that is linear in both takes its extremes. -/
def corners (w : Wagon) : List (Nat × Nat) :=
  [(0, 0), (0, mvRows w - 1), (mvPlanes w - 1, 0), (mvPlanes w - 1, mvRows w - 1)]

/-- Rows whose Yard addresses must be looked at. -/
def mvCheck (w : Wagon) (listed : Bool) : List (Nat × Nat) :=
  if listed then (List.range (mvRows w)).map (fun r => (0, r)) else corners w

/-- Every Yard byte of the wagon, its index list included, lies in the allotment (R99, R237). -/
def mvYardOk (y : YardWord) (w : Wagon) (idx : List Nat) : Bool :=
  let n := mvRowBytes w
  let op := wOpcode w
  ((op ≠ 0x31 && op ≠ 0x32) || mvAux w + 4 * mvRows w ≤ y.size * 65536) &&
    (mvSrcLoc w ≠ 1 || op = 0x33 || (mvCheck w (op = 0x31)).all (fun (p, r) => y.holdsRow (srcRow w idx p r) n)) &&
    (mvDstLoc w ≠ 1 || (mvCheck w (op = 0x32)).all (fun (p, r) => y.holdsRow (dstRow w idx p r) n))

/-! ## Causes and completion (R237) -/

/-- A cause met by a mover wagon. -/
def State.cause (s : State) (f : Flight) (code : Byte) : State :=
  s.modFlight f.ring f.index (fun x => { x with causes := addTo code x.causes })

/-- The mover of a wagon: partition and index. -/
def moverOf : UnitRef → Nat × Nat
  | .mover p m => (p.val, m.val)
  | _ => (0, 0)

/-- Event 0x0205 for a cause of a mover wagon (R237, R484). -/
def State.noteCause (s : State) (f : Flight) (code : Byte) : State := s.noteMove (unitSource f.unit) f code

/-- A mover wagon decided with the lowest cause it met, each cause recorded. -/
def State.finishMove (s : State) (f : Flight) : State :=
  (f.causes.foldl (fun t c => t.noteCause f c) s).finish f (lowestCause f.causes) noFlags

/-- The wagon's completion is decided once every read was issued and answered, and every remote write
acknowledged (R235). -/
def State.tryMove (s : State) (ring : Nat) (index : W32) : State :=
  match s.flight ring index with
  | none => s
  | some f =>
    let pm := moverOf f.unit
    if f.stage = .waiting ∧ f.issuedAll ∧ f.tags = [] ∧
        ¬ (s.mover pm.1 pm.2).reads.any (fun r => r.ring = ring ∧ r.index = index) then s.finishMove f
    else s

/-! ## Delivery -/

/-- The pieces of a range that lie within one 64-byte line each. -/
def linePieces : Nat → Nat → List Byte → List (Nat × List Byte)
  | 0, _, _ => []
  | fuel + 1, a, bs =>
    match bs with
    | [] => []
    | _ => let n := 64 - a % 64; (a, bs.take n) :: linePieces fuel (a + n) (bs.drop n)

/-- Event 0x0201 for an uncorrectable line of module memory (R484). -/
def State.noteLine (s : State) (addr : Nat) (who : Option (Nat × W16)) : State :=
  s.report (s.memSource addr) 0x0201 who (BitVec.ofNat 32 (addr / 2 ^ 21))

/-- A piece of one line written to module memory of the context (R156, R232, R260). -/
def State.toMemory (s : State) (f : Flight) (lines : LineEcc) (va : Nat) (bs : List Byte) : State :=
  match (s.ctx f.ctx).translate true va with
  | none => s.cause f wsTranslation
  | some pa =>
    let t := s.lineStore pa bs (lineErr lines pa)
    if t.1 then (t.2.noteLine pa f.who).cause f wsMergeLost
    else t.2.modCtx f.ctx (fun c => c.markDirty va bs.length)

/-- The Yard's DATA_ERR indicator of a FEED wagon's link target (R238). -/
def State.markFeed (s : State) (f : Flight) : State :=
  match wTarget f.bits, s.physPart f.ctx (wPart f.bits) with
  | some t, some p =>
    if wDrain f.bits then s
    else match t.eng with
      | none => s.modVec p (fun v => { v with feedErr := true })
      | some k => match (s.part p).physical k with
        | some e => s.modEngine p e (fun x => { x with feedErr := true })
        | none => s
  | _, _ => s

/-- What the reads of a command find where it meets no error of its own (log entry 122). -/
def noErrs : MemErrs := { lines := cleanLines, yard := cleanYard }

/-- Bytes of a mover wagon written at their destination (R230, R232, R235, R377); `bad` where zeros stand for an
uncorrectable source. -/
def State.deliver (s : State) (f : Flight) (errs : MemErrs) (dst : Nat) (bs : List Byte) (bad : Bool) : State :=
  let s := if bad then s.cause f wsData else s
  let loc := mvDstLoc f.bits
  if loc = 0 then (linePieces (bs.length + 1) dst bs).foldl (fun t (a, b) => t.toMemory f errs.lines a b) s
  else if loc = 1 then
    let t := s.yardPut f (s.allot f) errs.yard [(dst, bs)]
    let u := if t.1 then t.2.cause f wsMergeLost else t.2
    if bad then u.markFeed f else u
  else if loc = 2 then
    if s.hostUp then s.emit (.hostWrite dst bs s.pcie.relaxed) else s.cause f wsHostError
  else
    match f.peer.bind (fun p => s.sendTo 0x1 p dst 0 bs f.ctx (.wagon f.ring f.index)) with
    | none => s.cause f wsPeerUnreachable
    | some (tag, t) => t.modFlight f.ring f.index (fun x => { x with tags := x.tags ++ [tag] })

/-! ## Issue (R227, R236) -/

/-- The largest packet of remote writes (R290). -/
def packetMax : Nat := 2097152

/-- Bytes of the piece of a row at a column: up to the end of the source's line where the source is memory, of the
destination's line where it is the Yard or a pattern, and of a packet where the destination is a peer (log entry
20). -/
def pieceBytes (w : Wagon) (src dst : Nat) (col : Nat) : Nat :=
  let left := mvRowBytes w - col
  if mvSrcLoc w = 0 ∧ wOpcode w ≠ 0x33 ∨ mvSrcLoc w = 2 then min left (64 - src % 64)
  else if mvDstLoc w = 3 then min left packetMax
  else min left (64 - dst % 64)

/-- A mover wagon past a piece of n bytes: on along the row, to the next row, to the next plane. -/
def Flight.past (f : Flight) (n : Nat) : Flight :=
  if f.col + n < mvRowBytes f.bits then { f with col := f.col + n }
  else if f.row + 1 < mvRows f.bits then { f with col := 0, row := f.row + 1 }
  else if f.plane + 1 < mvPlanes f.bits then { f with col := 0, row := 0, plane := f.plane + 1 }
  else { f with col := 0, issuedAll := true }

/-- A read joins a mover's outstanding reads, with a tag of its own. -/
def Mover.ask (m : Mover) (r : ReadReq) : Mover :=
  { m with reads := m.reads ++ [{ r with tag := m.reads.foldl (fun a x => max a (x.tag + 1)) 0 }] }

/-- Address of a row as a 64-bit number. -/
def wrap64 (a : Int) : Nat := unsigned 64 a

/-- One piece of a started mover wagon: moved at once from the Yard or a pattern, asked for from memory. -/
def State.issueOne (s : State) (f : Flight) (errs : MemErrs) : State :=
  let w := f.bits
  let y := s.allot f
  let src := wrap64 (srcRow w f.list f.plane f.row + f.col)
  let dst := wrap64 (dstRow w f.list f.plane f.row + f.col)
  let n := pieceBytes w src dst f.col
  let pm := moverOf f.unit
  let ask := fun (t : State) (host : Bool) (a : Nat) =>
    t.modMover pm.1 pm.2 (fun m => m.ask
      { tag := 0, ring := f.ring, index := f.index, ctx := f.ctx, gen := f.gen, host := host, src := a, dst := dst, n := n
        held := none })
  let t :=
    if wOpcode w = 0x33 then
      s.deliver f errs dst ((List.range n).map (fun i => BitVec.ofNat 8 (mvAux w / 256 ^ ((f.col + i) % 4)))) false
    else if mvSrcLoc w = 1 then
      let r := s.operands f y errs.yard [(src, n)]
      r.2.deliver f errs dst (r.2.yardGet y src n) r.1
    else if mvSrcLoc w = 2 then (if s.hostUp then ask s true src else s.cause f wsHostError)
    else
      match (s.ctx f.ctx).translate false src with
      | none => s.cause f wsTranslation
      | some pa => ask s false pa
  t.modFlight f.ring f.index (fun x => x.past n)

/-- Pieces issued until the mover has 2,048 reads outstanding or the wagon has issued all (R236). -/
def State.issue (s : State) (ring : Nat) (index : W32) (errs : MemErrs) : Nat → State
  | 0 => s
  | fuel + 1 =>
    match s.flight ring index with
    | none => s
    | some f =>
      let pm := moverOf f.unit
      if f.stage ≠ .waiting ∨ f.issuedAll ∨ 2048 ≤ (s.mover pm.1 pm.2).reads.length then s
      else (s.issueOne f errs).issue ring index errs fuel

/-- Pieces of a mover wagon at most. -/
def mvPieces (w : Wagon) : Nat := mvPlanes w * mvRows w * (mvRowBytes w / 64 + 2)

/-- Wagons of a mover issue in queue order, a wagon only once every earlier started one has issued all (R236). -/
def State.issueQueue (s : State) (errs : MemErrs) : List Flight → State
  | [] => s
  | f :: rest =>
    match s.flight f.ring f.index with
    | none => s.issueQueue errs rest
    | some g =>
      if g.stage = .started then s
      else if g.stage = .waiting ∧ ¬ g.issuedAll then
        let t := s.issue f.ring f.index errs (mvPieces f.bits)
        if (t.flight f.ring f.index).any (fun x => !x.issuedAll) then t
        else (t.tryMove f.ring f.index).issueQueue errs rest
      else (s.tryMove f.ring f.index).issueQueue errs rest

/-- The mover's started wagons go on issuing (R227, R236). Nothing is issued while the clock is stopped (R609). -/
def State.issueMore (s : State) (u : UnitRef) (errs : MemErrs) : State :=
  if s.frozen then s else s.issueQueue errs (s.unitFlights u)

/-- What refuses a mover wagon outright (R99, R233, R237). -/
def State.mvRefusal (s : State) (f : Flight) : Option Byte :=
  let w := f.bits
  let fed := (s.ring f.ring).feeder.isSome
  if badWagon w ∨ (mvDstLoc w = 3 ∧ f.peer = none) ∨ (fed ∧ (mvSrcLoc w = 2 ∨ mvDstLoc w = 2)) then some wsMalformed
  else if ¬ mvYardOk (s.allot f) w f.list then some wsYardRange
  else none

/-- The index list of a GATHER or SCATTER read, and kept for its rows (R231): zeros stand for what is uncorrectable. -/
def State.readList (s : State) (f : Flight) (errs : MemErrs) : State :=
  let w := f.bits
  if (wOpcode w = 0x31 ∨ wOpcode w = 0x32) ∧ ¬ badWagon w ∧ mvAux w + 4 * mvRows w ≤ (s.allot f).size * 65536 then
    let r := s.operands f (s.allot f) errs.yard [(mvAux w, 4 * mvRows w)]
    let t := r.2.modFlight f.ring f.index (fun x => { x with list := r.2.indexList (s.allot f) w })
    if r.1 then t.cause f wsData else t
  else s

/-- A started mover wagon executed: refused, or issued in its turn as far as its mover's reads allow (R227, R231, R233,
R236, R237). -/
def State.runMover (s : State) (op ring : Nat) (index : W32) (errs : MemErrs) : State :=
  s.onFlight ring index (s.runs op) (fun f t =>
    let u := t.readList f errs
    let g := (u.flight ring index).getD f
    match u.mvRefusal g with
    | some st => ((u.noteCause g st).finish g st noFlags).issueMore f.unit errs
    | none => (u.modFlight ring index (fun x => { x with stage := .waiting })).issueMore f.unit errs)

/-- COPY (R228 to R237). -/
def execCopy (ring : Fin 4096) (index : W32) (errs : MemErrs) (s : State) : Host.Outcome State Fault Refusal :=
  .next (s.runMover 0x30 ring.val index errs)

/-- GATHER (R231). -/
def execGather (ring : Fin 4096) (index : W32) (errs : MemErrs) (s : State) : Host.Outcome State Fault Refusal :=
  .next (s.runMover 0x31 ring.val index errs)

/-- SCATTER (R231). -/
def execScatter (ring : Fin 4096) (index : W32) (errs : MemErrs) (s : State) : Host.Outcome State Fault Refusal :=
  .next (s.runMover 0x32 ring.val index errs)

/-- FILL (R231). -/
def execFill (ring : Fin 4096) (index : W32) (errs : MemErrs) (s : State) : Host.Outcome State Fault Refusal :=
  .next (s.runMover 0x33 ring.val index errs)

/-! ## Replies (R39, R94, R202, R237, R373) -/

/-- What a reply brings reaches its destination, and the mover goes on. -/
def State.landed (s : State) (part dm : Nat) (errs : MemErrs) (r : ReadReq) (x : Option (List Byte × Bool)) : State :=
  let t := s.modMover part dm (fun m => { m with reads := m.reads.filter (fun y => y.tag ≠ r.tag) })
  match t.flight r.ring r.index with
  | none => t
  | some f =>
    ((match x with
      | none => t.cause f wsHostError
      | some (bs, bad) => t.deliver f errs r.dst bs bad).tryMove r.ring r.index).issueMore f.unit errs

/-- A reply taken by a mover: dropped where its generation is not current (R202), kept while the compute clock is
stopped (R609), else delivered. -/
def State.takeReply (s : State) (part dm tag : Nat) (errs : MemErrs) (ok : ReadReq → Bool)
    (fetch : ReadReq → State → Option (List Byte × Bool) × State) : State :=
  match (s.mover part dm).reads.find? (fun r => r.tag = tag ∧ r.held = none) with
  | none => s
  | some r =>
    if ¬ ok r then s
    else
      let t := s.mile (source 3 part dm) 1
      if (t.ctx r.ctx).gen ≠ r.gen ∨ (t.flight r.ring r.index).isNone then
        (t.modMover part dm (fun m => { m with reads := m.reads.filter (fun y => y.tag ≠ tag) })).drop
          (fun d => { d with reply := d.reply + 1 })
      else
        let x := fetch r t
        if s.frozen then
          x.2.modMover part dm (fun m =>
            { m with reads := m.reads.map (fun y => if y.tag = tag then { y with held := some x.1 } else y) })
        else x.2.landed part dm errs r x.1

/-- The replies taken in while the clock was stopped are delivered (R469, R609). -/
def State.thaw (s : State) : State :=
  let all := (List.range 8).flatMap (fun p => (List.range 4).flatMap (fun m =>
    (s.mover p m).reads.filterMap (fun r => r.held.map (fun x => (p, m, r, x)))))
  all.foldl (fun t (p, m, r, x) => t.landed p m noErrs r x) s

/-- MEMORY_READ_REPLY (R39, R94, R202, R232, R237, R238, R241 to R243, R609). -/
def execMemoryReadReply (part : Fin 8) (dm : Fin 4) (tag : Nat) (reply : HostRead) (errs : MemErrs) (s : State) :
    Host.Outcome State Fault Refusal :=
  .next (s.takeReply part.val dm.val tag errs (fun _ => true) (fun r t =>
    if r.host then
      match reply with
      | .data bs => (some (slice bs 0 r.n, false), t)
      | .error => (none, t)
    else
      let x := t.memLoad r.src r.n errs.lines 2
      let u := if x.1 then x.2.2.noteLine r.src (some (r.ctx, r.gen)) else x.2.2
      (some (x.2.1, x.1), u)))

/-- PCIE_COMPLETION_TIMEOUT (R237, R373): a read of host memory that was never answered. -/
def execPcieCompletionTimeout (part : Fin 8) (dm : Fin 4) (tag : Nat) (errs : MemErrs) (s : State) :
    Host.Outcome State Fault Refusal :=
  .next (s.takeReply part.val dm.val tag errs (fun r => r.host) (fun _ t => (none, t)))

end Sys2Proof.Machine
end

