-- ==== Sys2Proof/Machine/Mirrors.lean ====
section
/-! DEFINITION. The mirror of a step commit, at the source (R197, R198, R256 to R261, R263, R264). -/

namespace Sys2Proof.Machine

/-- 2 MiB: a page of a coupled region. -/
def mib2 : Nat := 2 ^ 21

/-- 64 KiB: the header of a store. -/
def storeHeader : Nat := 65536

/-- SLOT_BYTES: the sum of the region lengths (R259). -/
def Context.slotBytes (c : Context) : Nat := (c.regions.map (fun r => r.len)).foldl (· + ·) 0

/-- Pages of the coupled regions with their place in a slot, in region-table order: (page, offset). -/
def Context.slotPages (c : Context) : List (Nat × Nat) := c.regionPages.zipIdx.map (fun (p, i) => (p, i * mib2))

/-- Pages to be mirrored: D_CUR or D_PREV set (R261). -/
def Context.mirrorPages (c : Context) : List (Nat × Nat) :=
  c.slotPages.filter (fun x => x.1 ∈ c.dCur ∨ x.1 ∈ c.dPrev)

/-- The 256 bytes of a region table (R259). -/
def regionTable (rs : List Region) : List Byte :=
  slice ((rs.map (fun r => leBytes 8 r.vbase ++ leBytes 8 r.len)).flatten) 0 256

/-- The peer entry of the buddy. -/
def Context.buddyPeer (c : Context) : Option Peer := c.buddy.bind c.peer

/-- A commit acts OK: the step is committed, D_PREV takes D_CUR (R198, R260). -/
def State.commitStep (s : State) (ring : Nat) (index : W32) (ctx : Nat) : State :=
  (s.modCtx ctx (fun c => { c with step := c.step + 1, dPrev := c.dCur, dCur := [], mirror := none })).decide ring index
    wsOk 0

/-- The mirror of a context fails, and its commit completes COUPLING_FAILED (R260, R263). -/
def State.mirrorFail (s : State) (ctx : Nat) : State :=
  match (s.ctx ctx).mirror with
  | none => s
  | some m => (s.modCtx ctx Context.endMirror).decide m.ring m.index wsCoupling 0

/-- The slot as a number. -/
def slotNo (slot : Bool) : Nat := b2n slot

/-- MIRROR_OPEN sent for a slot; a buddy that cannot be reached fails the mirror. -/
def State.sendOpen (s : State) (ctx : Nat) (m : Mirror) : State :=
  let c := s.ctx ctx
  let t := s.modCtx ctx (fun c => { c with mirror := some m })
  match c.buddyPeer.bind (fun p => t.sendTo 0x4 p (c.step + 1).toNat (slotNo m.slot) [] ctx (.mirrorOpen ctx)) with
  | none => t.mirrorFail ctx
  | some (tag, u) => u.modCtx ctx (fun c => { c with mirror := some { m with tags := [tag] } })

/-- MIRROR_CLOSE sent once every page is acknowledged: bytes sent, seed and region table (R290). A mirror read that
met an uncorrectable error fails the mirror instead. -/
def State.sendClose (s : State) (ctx : Nat) (m : Mirror) : State :=
  let c := s.ctx ctx
  let data := leBytes 8 m.bytesSent ++ leBytes 8 c.srSeed.toNat ++ regionTable c.regions
  if m.bad then s.mirrorFail ctx
  else
    match c.buddyPeer.bind (fun p => s.sendTo 0x5 p (c.step + 1).toNat (slotNo m.slot) data ctx (.mirrorClose ctx)) with
    | none => s.mirrorFail ctx
    | some (tag, u) => u.modCtx ctx (fun c => { c with mirror := some { m with phase := .closing, tags := [tag] } })

/-- One page read and sent to its place in the slot. -/
def State.sendPage (s : State) (ctx : Nat) (lines : LineEcc) (page off : Nat) : State :=
  let c := s.ctx ctx
  match c.mirror, c.buddyPeer, c.translate false (page * mib2) with
  | some m, some p, some pa =>
    let r := s.memLoad pa mib2 lines (mib2 / 64)
    let t := if r.1 then r.2.2.noteLine pa (some (ctx, c.gen)) else r.2.2
    match t.sendTo 0x1 p (storeHeader + slotNo m.slot * c.slotBytes + off) 0 r.2.1 ctx (.mirrorPage ctx) with
    | none => t.mirrorFail ctx
    | some (tag, u) =>
      u.modCtx ctx (fun c => { c with mirror := some { m with tags := m.tags ++ [tag], bytesSent := m.bytesSent + mib2
                                                              bad := m.bad || r.1 } })
  | _, _, _ => s.mirrorFail ctx

/-- The pages of a mirror whose OPEN was applied are read and sent (R261); with none to send, the CLOSE follows. -/
def State.sendPages (s : State) (ctx : Nat) (lines : LineEcc) (m : Mirror) : State :=
  let t := s.modCtx ctx (fun c => { c with mirror := some { m with phase := .pages, tags := [] } })
  let u := (t.ctx ctx).mirrorPages.foldl (fun t (p, o) => if (t.ctx ctx).mirror.isSome then t.sendPage ctx lines p o else t) t
  match (u.ctx ctx).mirror with
  | some n => if n.tags = [] then u.sendClose ctx n else u
  | none => u

/-- The mirror of a commit begins (R261): slot 1 − committed where it is known, else slot 0. -/
def State.beginMirror (s : State) (ring : Nat) (index : W32) (ctx : Nat) : State :=
  let c := s.ctx ctx
  let m : Mirror :=
    { ring := ring, index := index, phase := .opening, slot := c.committed.elim false (fun x => !x), retried := false
      left := [], tags := [], bytesSent := 0, bad := false }
  s.sendOpen ctx m

/-- The DACK of an OPEN (R261): pages follow; a busy slot is tried once more as the other slot; else failed. -/
def State.openAnswered (s : State) (ctx : Nat) (lines : LineEcc) (tag result : Nat) : State :=
  match (s.ctx ctx).mirror with
  | none => s
  | some m =>
    if m.phase ≠ .opening ∨ tag ∉ m.tags then s
    else if result = rsApplied then s.sendPages ctx lines m
    else if result = rsBusy ∧ ¬ m.retried then s.sendOpen ctx { m with slot := !m.slot, retried := true, tags := [] }
    else s.mirrorFail ctx

/-- The DACK of a page: the commit ring's milepost moves on (R263), and the CLOSE follows the last one. -/
def State.pageAnswered (s : State) (ctx : Nat) (tag result : Nat) : State :=
  match (s.ctx ctx).mirror with
  | none => s
  | some m =>
    if m.phase ≠ .pages ∨ tag ∉ m.tags then s
    else if result ≠ rsApplied then s.mirrorFail ctx
    else
      let n := { m with tags := dropFrom tag m.tags }
      let t := (s.modCtx ctx (fun c => { c with mirror := some n })).mile (source 4 0 m.ring) 1
      if n.tags = [] then t.sendClose ctx n else t

/-- The answer to a CLOSE (R261). -/
def State.closeAnswered (s : State) (ctx : Nat) (tag : Nat) (accept : Bool) : State :=
  match (s.ctx ctx).mirror with
  | none => s
  | some m =>
    if m.phase ≠ .closing ∨ tag ∉ m.tags then s
    else if accept then
      (s.modCtx ctx (fun c => { c with committed := some m.slot })).commitStep m.ring m.index ctx
    else s.mirrorFail ctx

/-- MIRROR_ACK_TIMEOUT (R263): no DACK of the OPEN, or no page acknowledged, for 500 ms. -/
def execMirrorAckTimeout (ctx : Fin 262144) (s : State) : Host.Outcome State Fault Refusal :=
  .next (match (s.ctx ctx.val).mirror with
    | some m => if m.phase = .closing then s else s.mirrorFail ctx.val
    | none => s)

/-- MIRROR_CLOSE_TIMEOUT (R263): no reply to the CLOSE within 10 ms. -/
def execMirrorCloseTimeout (ctx : Fin 262144) (s : State) : Host.Outcome State Fault Refusal :=
  .next (match (s.ctx ctx.val).mirror with
    | some m => if m.phase = .closing then s.mirrorFail ctx.val else s
    | none => s)

end Sys2Proof.Machine
end

