-- ==== Sys2Proof/Machine/Collectives.lean ====
section
/-! DEFINITION. The rail collective engine at a member (R79, R305 to R315): own contributions, sums, results, and the
end of a collective wagon. -/

namespace Sys2Proof.Machine

/-! ## Memory of a context, across pages -/

/-- The pieces of a range of addresses that lie within one 64-byte line each: address and count. -/
def lineSpans (a n : Nat) : List Span := (linePieces (n + 1) a (List.replicate n 0)).map (fun (a, bs) => (a, bs.length))

/-- Every byte of a range of virtual addresses is mapped, writable where `w`. -/
def Context.mapped (c : Context) (w : Bool) (va n : Nat) : Bool :=
  (lineSpans va n).all (fun (a, _) => (c.translate w a).isSome)

/-- Bytes read from a context's memory; zeros for uncorrectable lines (R94). -/
def State.memGet (s : State) (ctx : Nat) (lines : LineEcc) (va n : Nat) : Bool × List Byte × State :=
  (lineSpans va n).foldl (fun (bad, bs, t) (a, k) =>
    match (t.ctx ctx).translate false a with
    | none => (bad, bs ++ List.replicate k 0, t)
    | some pa =>
      let r := t.memLoad pa k lines 2
      let u := if r.1 then r.2.2.noteLine pa (some (ctx, (t.ctx ctx).gen)) else r.2.2
      (bad || r.1, bs ++ r.2.1, u)) (false, [], s)

/-- Bytes written to a context's memory: true where a merge read was uncorrectable (R232). -/
def State.memPut (s : State) (ctx : Nat) (lines : LineEcc) (va : Nat) (bs : List Byte) : Bool × State :=
  (linePieces (bs.length + 1) va bs).foldl (fun (bad, t) (a, b) =>
    match (t.ctx ctx).translate true a with
    | none => (bad, t)
    | some pa =>
      let r := t.lineStore pa b (lineErr lines pa)
      if r.1 then (true, r.2.noteLine pa (some (ctx, (t.ctx ctx).gen)))
      else (bad, r.2.modCtx ctx (fun c => c.markDirty a b.length))) (false, s)

/-! ## Trees and segments (R305 to R309) -/

/-- The trees of a wagon's group. -/
def State.trees (s : State) (f : Flight) : List Tree := Table.get [] (s.ctx f.ctx).groups (clGroup f.bits)

/-- A tree of no one. -/
def noTree : Tree := { parent := none, children := [] }

/-- The tree on which segment k travels (R306). -/
def treeOf (ts : List Tree) (k : Nat) : Tree := nth noTree ts (k % max 1 ts.length)

/-- The wagon is a BROADCAST. -/
def isCast (w : Wagon) : Bool := wOpcode w = 0x3A

/-- Bytes of segment k, or of chunk k of a BROADCAST. -/
def clBytes (w : Wagon) (k : Nat) : Nat :=
  if isCast w then (if k + 1 = clSegs w then clLast w else 4096) else segBytes

def clSrcAt (w : Wagon) (k : Nat) : Nat := clSrc w + 64 * clSrcStride w * k
def clDstAt (w : Wagon) (k : Nat) : Nat := clDst w + 64 * clDstStride w * k

/-- This module is the root of every tree of a group. -/
def rootOfAll (ts : List Tree) : Bool := ts.all (fun t => t.parent = none)

/-- The module uses its own source (R308). -/
def usesSource (w : Wagon) (ts : List Tree) : Bool := !isCast w || rootOfAll ts

/-- Segment k is written here (R309). -/
def writesHere (w : Wagon) (ts : List Tree) (k : Nat) : Bool := wOpcode w ≠ 0x39 || (treeOf ts k).parent = none

/-- What refuses a collective wagon outright (R308, R315). -/
def State.collRefusal (s : State) (f : Flight) : Option Byte :=
  let w := f.bits
  let ts := s.trees f
  let c := s.ctx f.ctx
  let y := s.allot f
  let ks := List.range (clSegs w)
  let src := usesSource w ts
  let mixed := isCast w && !rootOfAll ts && ts.any (fun t => t.parent = none)
  let badSrc := src && (1 < clSrcLoc w || clSrcStride w < clLeast w)
  if badWagon w ∨ ts = [] ∨ mixed ∨ badSrc then some wsMalformed
  else
    let spans := fun at_ (use : Nat → Bool) => (ks.filter use).map (fun k => (at_ k, clBytes w k))
    let ins := if src then spans (clSrcAt w) (fun _ => true) else []
    let outs := spans (clDstAt w) (writesHere w ts)
    if (clSrcLoc w = 1 ∧ ¬ y.holds ins) ∨ (clDstLoc w = 1 ∧ ¬ y.holds outs) then some wsYardRange
    else if (clSrcLoc w = 0 ∧ ¬ ins.all (fun (a, n) => c.mapped false a n)) ∨
        (clDstLoc w = 0 ∧ ¬ outs.all (fun (a, n) => c.mapped true a n)) then some wsTranslation
    else none

/-! ## Accumulators (R310) -/

/-- The accumulator of a segment of a wagon's operation. -/
def Accum.is (a : Accum) (ctx group : Nat) (opseq : W32) (seg : Nat) : Bool :=
  a.ctx = ctx && a.group = group && a.opseq = opseq && a.seg = seg

/-- The accumulator of a segment, if there is one. -/
def State.accum (s : State) (ctx group : Nat) (opseq : W32) (seg : Nat) : Option Accum :=
  s.rails.accums.find? (fun a => a.is ctx group opseq seg)

/-- The state with the accumulator of a segment set. -/
def State.setAccum (s : State) (a : Accum) : State :=
  { s with rails.accums := s.rails.accums.filter (fun x => !x.is a.ctx a.group a.opseq a.seg) ++ [a] }

/-- An engine half has a free accumulator: a result that came down and waits for its wagon holds none (log entry 123). -/
def State.accumFree (s : State) (half : Nat) : Bool :=
  (s.rails.accums.filter (fun a => a.half = half ∧ a.sum.isSome ∧ ¬ a.sentUp)).length < 2048

/-- A fresh accumulator for a segment. -/
def State.newAccum (s : State) (ctx group : Nat) (opseq : W32) (seg : Nat) : Accum :=
  let ts := Table.get [] (s.ctx ctx).groups group
  { ctx := ctx, group := group, opseq := opseq, seg := seg, tree := seg % max 1 ts.length
    half := s.treeHalf (s.ctx ctx) (treeOf ts seg), sources := [], sum := none, mismatch := false, sentUp := false
    written := false }

/-- What the addition of an element is off by (R85). -/
def sumOff (sums : List SumSlip) (seg elem : Nat) : Int :=
  ((sums.find? (fun x => x.seg = seg ∧ x.elem = elem)).map (fun x => x.off)).getD 0

/-- Two segments added by an engine that errs at some elements (R79, R85): the modulo-3 check finds an error that is no
multiple of 3, and the addition is made again (log entry 124). -/
def Segment.addWith (sums : List SumSlip) (seg : Nat) (a b : Segment) : Segment :=
  let c := a.add b
  { c with elems := c.elems.zipIdx.map (fun e =>
      let off := sumOff sums seg e.2
      if off = 0 ∨ off % 3 ≠ 0 then e.1 else signed 128 (unsigned 128 (e.1 + off))) }

/-- A contribution added into an accumulator (R79, R311): segments that differ in ANCHOR or COUNT mismatch. -/
def Accum.take (a : Accum) (src : Option Nat) (bs : List Byte) (mismatch : Bool) (sums : List SumSlip) : Accum :=
  let a := { a with sources := a.sources ++ [src], mismatch := a.mismatch || mismatch }
  match a.sum with
  | none => { a with sum := some bs }
  | some old =>
    let x := Segment.parse old
    let y := Segment.parse bs
    if x.anchor = y.anchor ∧ x.count = y.count then { a with sum := some (x.addWith sums a.seg y).bytes } else { a with mismatch := true }

/-- Every contribution of a tree is in: the own one and each child's. -/
def Accum.full (a : Accum) (t : Tree) : Bool :=
  a.sources.contains none && t.children.all (fun c => a.sources.contains (some c))

/-! ## The end of a collective (R313, R315) -/

/-- The running wagon of an operation. -/
def State.running_ (s : State) (ctx group : Nat) (opseq : W32) : Option Flight :=
  s.marsh.flights.find? (fun f => f.ctx = ctx && opColl (wOpcode f.bits) && f.stage = .waiting &&
    clGroup f.bits = group && clOpseq f.bits = opseq)

/-- A collective wagon ends with a status; its flags byte is what it gathered. -/
def State.collFinish (s : State) (f : Flight) (status : Byte) (except : List Nat) : State :=
  (s.collEnd f status except).decide f.ring f.index status f.flags

/-- The flags of a segment written or sent join the wagon's (R315). -/
def State.collFlags (s : State) (f : Flight) (bs : List Byte) : State :=
  if isCast f.bits then s
  else
    let g := (Segment.parse bs).flags
    let t := s.modFlight f.ring f.index (fun x => { x with flags := x.flags ||| g.byte })
    if g.dataErr then t.cause f wsData else t

/-- COLL_UP or COLL_DOWN sent to a peer entry; a peer that cannot be reached ends the wagon (R315). -/
def State.collSend (s : State) (f : Flight) (kind : Nat) (peer : Nat) (a : Accum) (bs : List Byte) : State :=
  let arg := b2n a.mismatch * 2 ^ 56 + a.tree * 2 ^ 52 + a.group * 2 ^ 48 + a.seg * 2 ^ 32 + a.opseq.toNat
  match ((s.ctx f.ctx).peer peer).bind (fun p => s.sendTo kind p arg 0 bs f.ctx (.wagon f.ring f.index)) with
  | none => s.cause f wsCollLost
  | some (tag, t) =>
    if kind = 8 then t.modFlight f.ring f.index (fun x => { x with tags := x.tags ++ [tag] }) else t

/-- A result written to its destination here and passed to every child, its flags joining the wagon's (R309, R311,
R315). -/
def State.collResult (s : State) (f : Flight) (errs : MemErrs) (a : Accum) (bs : List Byte) : State :=
  let w := f.bits
  let ts := s.trees f
  let t := treeOf ts a.seg
  let down := wOpcode w ≠ 0x39
  let s := if a.mismatch then s.cause f wsSegment else s
  let s := if writesHere w ts a.seg ∧ ¬ a.mismatch then
      let r := if clDstLoc w = 1 then s.yardPut f (s.allot f) errs.yard [(clDstAt w a.seg, bs)]
        else s.memPut f.ctx errs.lines (clDstAt w a.seg) bs
      (if r.1 then r.2.cause f wsData else r.2).collFlags f bs
    else if down ∧ t.children ≠ [] then s.collFlags f bs
    else s
  let s := if down then t.children.foldl (fun s c => s.collSend f 9 c a bs) s else s
  s.setAccum { a with sum := none, sentUp := true, written := true }

/-- A full sum goes up; at a root it is the result (R306, R311). -/
def State.collSum (s : State) (f : Flight) (errs : MemErrs) (a : Accum) : State :=
  let t := treeOf (s.trees f) a.seg
  match a.sum with
  | none => s
  | some bs =>
    if a.sentUp ∨ ¬ a.full t then s.setAccum a
    else
      match t.parent with
      | none => s.collResult f errs a bs
      | some p =>
        let s := if a.mismatch then s.cause f wsSegment else s
        ((s.collFlags f bs).collSend f 8 p a bs).setAccum { a with sum := none, sentUp := true }

/-- Segment k needs nothing more here. -/
def State.collSettled (s : State) (f : Flight) (k : Nat) : Bool :=
  match s.accum f.ctx (clGroup f.bits) (clOpseq f.bits) k with
  | none => false
  | some a => a.sentUp && (!writesHere f.bits (s.trees f) k || a.written)

/-- The wagon completes once every result it must write is visible and every COLL_UP acknowledged, or once a peer is
lost (R315). -/
def State.collTry (s : State) (ring : Nat) (index : W32) : State :=
  match s.flight ring index with
  | none => s
  | some f =>
    if f.stage ≠ .waiting then s
    else if wsCollLost ∈ f.causes then s.collFinish f (lowestCause f.causes) []
    else if f.issuedAll ∧ f.tags = [] ∧ (List.range (clSegs f.bits)).all (s.collSettled f) then
      s.collFinish f (lowestCause f.causes) []
    else s

/-! ## Own contributions -/

/-- Segment k read from the source (R94, R312): uncorrectable words read zero, with DATA_ERR in its FLAGS. -/
def State.collRead (s : State) (f : Flight) (k : Nat) (errs : MemErrs) : List Byte × State :=
  let w := f.bits
  let r : Bool × List Byte × State :=
    if clSrcLoc w = 1 then
      let t := s.operands f (s.allot f) errs.yard [(clSrcAt w k, clBytes w k)]
      (t.1, t.2.yardGet (t.2.allot f) (clSrcAt w k) (clBytes w k), t.2)
    else s.memGet f.ctx errs.lines (clSrcAt w k) (clBytes w k)
  if isCast w then (r.2.1, if r.1 then r.2.2.cause f wsData else r.2.2)
  else
    let g := Segment.parse r.2.1
    ((if r.1 then { g with flags := { g.flags with dataErr := true } } else g).bytes, r.2.2)

/-- Segment k of the wagon contributed: the own segment of a reduction, a chunk at the root of a BROADCAST, or a
result that arrived before the wagon started (R309, R310). -/
def State.collOwn (s : State) (f : Flight) (k : Nat) (errs : MemErrs) (sums : List SumSlip) : State :=
  let w := f.bits
  let a := (s.accum f.ctx (clGroup w) (clOpseq w) k).getD (s.newAccum f.ctx (clGroup w) (clOpseq w) k)
  if isCast w then
    if rootOfAll (s.trees f) then
      let r := s.collRead f k errs
      r.2.collResult f errs a r.1
    else
      match a.sum with
      | some bs => s.collResult f errs a bs
      | none => s.setAccum a
  else
    let r := s.collRead f k errs
    r.2.collSum f errs (a.take none r.1 false sums)

/-- Own segments contributed while accumulators are free. -/
def State.collPump (s : State) (ring : Nat) (index : W32) (errs : MemErrs) (sums : List SumSlip) : Nat → State
  | 0 => s
  | fuel + 1 =>
    match s.flight ring index with
    | none => s
    | some f =>
      let w := f.bits
      let held := (s.accum f.ctx (clGroup w) (clOpseq w) f.plane).any (fun a => a.sum.isSome)
      if f.stage ≠ .waiting ∨ f.issuedAll then s
      else if clSegs w ≤ f.plane then s.modFlight ring index (fun x => { x with issuedAll := true })
      else if isCast w ∨ held ∨ s.accumFree (s.treeHalf (s.ctx f.ctx) (treeOf (s.trees f) f.plane)) then
        ((s.modFlight ring index (fun x => { x with plane := x.plane + 1 })).collOwn f f.plane errs sums).collPump ring index
          errs sums fuel
      else s

/-- A result that came down while the clock was stopped is written and passed on once it runs (R282, R609). -/
def State.collLate (s : State) (f : Flight) (errs : MemErrs) : State :=
  (s.rails.accums.filter (fun a => a.ctx = f.ctx ∧ a.group = clGroup f.bits ∧ a.opseq = clOpseq f.bits ∧ a.sentUp ∧
      ¬ a.written ∧ (¬ isCast f.bits ∨ a.seg < f.plane))).foldl (fun t a =>
    match a.sum with
    | some bs => t.collResult f errs a bs
    | none => t) s

/-- A running collective wagon goes on: results that waited, own segments, its completion. -/
def State.collMore (s : State) (ring : Nat) (index : W32) (errs : MemErrs) (sums : List SumSlip) : State :=
  match s.flight ring index with
  | none => s
  | some f =>
    if f.stage ≠ .waiting then s
    else ((s.collLate f errs).collPump ring index errs sums (clSegs f.bits + 1)).collTry ring index

/-- The collective wagons that wait go on where accumulators were freed (R310). -/
def State.resumeColls (s : State) (errs : MemErrs) (sums : List SumSlip) : State :=
  if s.frozen then s
  else
    (s.marsh.flights.filter (fun f => opColl (wOpcode f.bits) ∧ f.stage = .waiting)).foldl
      (fun t f => t.collMore f.ring f.index errs sums) s

/-- A started collective wagon executed: refused, or contributing. -/
def State.runColl (s : State) (op ring : Nat) (index : W32) (errs : MemErrs) (sums : List SumSlip) : State :=
  s.onFlight ring index (s.runs op) (fun f t =>
    match t.collRefusal f with
    | some st => (t.collFinish f st []).resumeColls errs sums
    | none => (t.modFlight ring index (fun x => { x with stage := .waiting })).resumeColls errs sums)

/-- ALLREDUCE (R306 to R315). -/
def execAllreduce (ring : Fin 4096) (index : W32) (errs : MemErrs) (sums : List SumSlip) (s : State) :
    Host.Outcome State Fault Refusal :=
  .next (s.runColl 0x38 ring.val index errs sums)

/-- REDUCE (R306 to R315). -/
def execReduce (ring : Fin 4096) (index : W32) (errs : MemErrs) (sums : List SumSlip) (s : State) :
    Host.Outcome State Fault Refusal :=
  .next (s.runColl 0x39 ring.val index errs sums)

/-- BROADCAST (R306 to R315). -/
def execBroadcast (ring : Fin 4096) (index : W32) (errs : MemErrs) (s : State) : Host.Outcome State Fault Refusal :=
  .next (s.runColl 0x3A ring.val index errs [])

/-- COLL_TIMEOUT (R313, R314): a collective with a TIMEOUT that has not completed. -/
def execCollTimeout (ring : Fin 4096) (index : W32) (s : State) : Host.Outcome State Fault Refusal :=
  .next (s.onFlight ring.val index (fun f => f.stage = .waiting && opColl (wOpcode f.bits)) (fun f t =>
    if clTimeout f.bits = 0 then t
    else (t.collFinish f (lowestCause (addTo wsCollTimeout f.causes)) []).resumeColls noErrs []))

end Sys2Proof.Machine
end

