-- ==== Sys2Proof/Machine/Tokens.lean ====
section
/-! DEFINITION. The token unit: NOP, token and STEP_COMMIT wagons (R98, R176, R183, R184, R190 to R201), and the
signals from the host (R195). -/

namespace Sys2Proof.Machine

/-- A wagon of an opcode at the token unit, not yet acted on. -/
def atTokenUnit (op : Nat) (f : Flight) : Bool :=
  (f.stage = .queued || f.stage = .started) && wOpcode f.bits = op

/-- A token-unit wagon on which a command acts once its fence is met (R176). -/
def State.onFenced (s : State) (op ring : Nat) (index : W32) (act : Flight → State → State) : State :=
  s.onFlight ring index (atTokenUnit op) (fun f t =>
    if ¬ t.fenceMet f then t
    else if badWagon f.bits then t.decide ring index wsMalformed 0
    else act f t)

/-- A wait is satisfied (R184). -/
def waitMet (value target : W32) : Bool := (value - target).toNat < 2 ^ 31

/-- NOP (R98, R176). -/
def execNop (ring : Fin 4096) (index : W32) (s : State) : Host.Outcome State Fault Refusal :=
  .next (s.onFenced 0x01 ring.val index (fun _ t => t.decide ring.val index wsOk 0))

/-- TOKEN_WAIT (R184, R190, R191): completes OK once its wait is satisfied. -/
def execTokenWait (ring : Fin 4096) (index : W32) (s : State) : Host.Outcome State Fault Refusal :=
  .next (s.onFlight ring.val index (atTokenUnit 0x40) (fun f t =>
    if badWagon f.bits then t.decide ring.val index wsMalformed 0
    else if waitMet (t.token (tkToken f.bits)).value (tkValue f.bits) then t.decide ring.val index wsOk 0
    else t))

/-- TOKEN_WAIT_TIMEOUT (R191): a wait with a TIMEOUT that is not satisfied completes WAIT_TIMEOUT; its halt follows
with its completion. -/
def execTokenWaitTimeout (ring : Fin 4096) (index : W32) (s : State) : Host.Outcome State Fault Refusal :=
  .next (s.onFlight ring.val index (atTokenUnit 0x40) (fun f t =>
    if badWagon f.bits ∨ tkTimeout f.bits = 0 ∨ waitMet (t.token (tkToken f.bits)).value (tkValue f.bits) then t
    else t.decide ring.val index wsWaitTimeout 0))

/-- TOKEN_SIGNAL (R183, R192, R193): a local token takes its amount at once; a remote one is sent to the peer. -/
def execTokenSignal (ring : Fin 4096) (index : W32) (s : State) : Host.Outcome State Fault Refusal :=
  .next (s.onFenced 0x41 ring.val index (fun f t =>
    let w := f.bits
    if ¬ tkRemote w then (t.addToken (tkToken w) (tkValue w)).decide ring.val index wsOk 0
    else
      match (t.ctx f.ctx).peer (tkPeer w) with
      | none => t.decide ring.val index wsMalformed 0
      | some p =>
        match t.sendTo 0x2 p (tkToken w * 2 ^ 32 + (tkValue w).toNat) 0 [] f.ctx (.wagon ring.val index) with
        | none => t.decide ring.val index wsPeerLost 0
        | some (tag, u) => u.modFlight ring.val index (fun x => { x with stage := .waiting, tags := [tag] })))

/-- TOKEN_SET (R183, R194). -/
def execTokenSet (ring : Fin 4096) (index : W32) (s : State) : Host.Outcome State Fault Refusal :=
  .next (s.onFenced 0x42 ring.val index (fun f t =>
    (t.modToken (tkToken f.bits) (fun k => { k with value := tkValue f.bits })).decide ring.val index wsOk 0))

/-- STEP_COMMIT (R196 to R198, R260, R261): STEP_INVALID counts as it stood when the fence was met. -/
def execStepCommit (ring : Fin 4096) (index : W32) (s : State) : Host.Outcome State Fault Refusal :=
  .next (s.onFenced 0x43 ring.val index (fun f t =>
    let c := t.ctx f.ctx
    if c.commitRing ≠ ring.val then t.decide ring.val index wsMalformed 0
    else if tkExpect f.bits ≠ c.step + 1 then t.decide ring.val index wsStepMismatch 0
    else if f.fence.getD c.stepInvalid then t.decide ring.val index wsStepInvalid 0
    else if c.regions = [] then t.commitStep ring.val index f.ctx
    else
      (t.modFlight ring.val index (fun x => { x with stage := .waiting })).beginMirror ring.val index f.ctx))

/-- TOK_SIGNAL (R183, R195, R202): acted on as a single aligned 64-bit write with the owner's generation, otherwise
counted. -/
def execTokSignal (token : Fin 65536) (value : W64) (whole : Bool) (s : State) : Host.Outcome State Fault Refusal :=
  .next (s.onBar (fun s => match (s.token token.val).owner with
    | some c =>
      if whole ∧ (s.ctx c).gen.toNat = field value.toNat 63 48 then
        s.addToken token.val (BitVec.ofNat 32 (field value.toNat 31 0))
      else s.drop (fun d => { d with signal := d.signal + 1 })
    | none => s.drop (fun d => { d with signal := d.signal + 1 })))

end Sys2Proof.Machine
end

