-- ==== Sys2Proof/Machine/Completion.lean ====
section
/-! DEFINITION. The completion of a wagon (R146 to R148, R167 to R170, R186 to R189, R197, R611). -/

namespace Sys2Proof.Machine

/-- A completed closing wagon counted for its target (R179). -/
def State.countDone (s : State) (f : Flight) : State :=
  match wRunsOn f.bits with
  | some t =>
    if wCloses f.bits then s.modRing f.ring (fun r => r.modCount t (fun c => { c with done := c.done + 1 })) else s
  | none => s

/-- Completed wagons at the head of a ring's flights, in ring order. -/
def doneAtHead (ring : Nat) (fs : List Flight) : List Flight :=
  (fs.filter (fun f => f.ring = ring)).takeWhile (fun f => f.stage = .done)

/-- HEAD passes every wagon at the head of the ring that is complete with its record visible (R168); the wagons
leave, and the ring's milepost moves on (R490). -/
def State.passHead (s : State) (ring : Nat) : State :=
  let r := s.ring ring
  let gone := doneAtHead ring s.marsh.flights
  match gone.getLast? with
  | none => s
  | some f =>
    if r.recordLost then s
    else
      let t := s.modRing ring (fun r => { r with head := f.index + 1 })
      { t with marsh.flights := t.marsh.flights.filter (fun x => x ∉ gone) }.mile (source 4 0 ring) gone.length

/-- The ring raises its interrupt on this completion (R170). -/
def interrupts (mode : Nat) (f : Flight) : Bool :=
  mode = 2 || (mode = 1 && (f.status ≠ wsOk || wOpcode f.bits = 0x43))

/-- The halt that a completion brings, if any (R191, R198). -/
def Flight.halts (f : Flight) : Option HaltCause :=
  if wOpcode f.bits = 0x40 ∧ f.status = wsWaitTimeout then some .waitTimeout
  else if wOpcode f.bits = 0x43 ∧ f.status ≠ wsOk then some .stepFailed
  else none

/-- A completion moves the milepost of an engine or a mover on (R490). -/
def State.mileUnit (s : State) (u : UnitRef) : State :=
  match u with
  | .token _ => s
  | .coll _ => s
  | _ => s.mile (unitSource u) 1

/-- WAGON_COMPLETE (R146 to R148, R167 to R170, R186 to R189, R197, R611): the decided wagon's step is marked, its
record written, its token signalled, HEAD moved, its queue place freed, its ring's interrupt raised, and its context
halted where the completion or a lost record asks for it. -/
def execWagonComplete (ring : Fin 4096) (index : W32) (ecc : Ecc) (s : State) : Host.Outcome State Fault Refusal :=
  .next (s.onFlight ring.val index (fun f => f.stage = .decided) (fun f t =>
    let t := if f.status = wsOk then t else t.markInvalid f.ctx
    let w := t.writeRecord ring.val index (recordBytes (t.recordStep f) index f.gen f.flags f.status) ecc
    let t := if w.1 then (w.2.markInvalid f.ctx).modRing ring.val (fun r => { r with recordLost := true }) else w.2
    let t := (t.signalDone f).countDone f
    let t := (t.freePlace f.unit).mileUnit f.unit
    let t := ((t.modFlight ring.val index (fun x => { x with stage := .done })).noteFence ring.val).passHead ring.val
    if w.1 then t.haltByRing ring.val .recordFail
    else
      let t := if interrupts (t.ring ring.val).irq f then t.raiseRing ring.val else t
      match f.halts with
      | some cause => t.haltByRing ring.val cause
      | none => t))

end Sys2Proof.Machine
end

