-- ==== Sys2Proof/Machine/TrainTickets.lean ====
section
/-! DEFINITION. The Train Register: its records as bytes (R482, R521, R528, R533, R536), the flush (R523 to R525,
R535 to R538), and the requests of classes 0x04 and 0x05 that only read or acknowledge (R360, R361, R489, R530,
R532). -/

namespace Sys2Proof.Machine

/-! ## Records as bytes -/

/-- A 32-bit signed field. -/
def leInt4 (v : Int) : List Byte := leBytes 4 (unsigned 32 v)

/-- A slot record of 384 bytes (R521). -/
def Slot.bytes (t : Slot) : List Byte :=
  leBytes 4 t.seq ++ leBytes 8 0 ++ leBytes 2 t.code ++ leBytes 2 0 ++ leBytes 4 t.source.toNat
  ++ leBytes 1 (b2n t.lin) ++ leBytes 3 0 ++ leInt4 t.base ++ leBytes 4 t.width ++ leBytes 8 t.total
  ++ leInt4 t.low ++ leInt4 t.high ++ leBytes 8 t.firstStamp.toNat ++ leBytes 8 t.lastStamp.toNat
  ++ ((List.range 64).map (fun i => leBytes 4 (Table.get 0 t.bins i))).flatten ++ leBytes 4 t.seq ++ leBytes 60 0

/-- A summary slot of 64 bytes (R536). -/
def Slot.summaryBytes (t : Slot) : List Byte :=
  leBytes 4 t.seq ++ leBytes 16 0 ++ leBytes 2 t.code ++ leBytes 2 0 ++ leBytes 4 t.source.toNat
  ++ leBytes 8 t.total ++ leInt4 t.low ++ leInt4 t.high ++ leBytes 8 t.firstStamp.toNat
  ++ leBytes 8 t.lastStamp.toNat ++ leBytes 4 t.seq

/-- An event entry of 32 bytes (R482). -/
def Event.bytes (e : Event) : List Byte :=
  leBytes 4 e.id ++ leBytes 1 0 ++ leBytes 1 e.cls ++ leBytes 2 0 ++ leBytes 2 e.code
  ++ leBytes 6 (b2n e.absorbed + 2 * b2n e.escalated + 4 * e.level + 32 * e.taken + 256 * e.state +
      2 ^ 12 * b2n e.injected +
      (match e.ctx with
       | some (c, g) => 2 ^ 13 + 2 ^ 14 * g.toNat + 2 ^ 30 * c
       | none => 0))
  ++ leBytes 8 e.stamp.toNat ++ leBytes 4 e.source.toNat ++ leBytes 4 e.info.toNat

/-- An annotation entry of 96 bytes (R528). -/
def Annotation.bytes (a : Annotation) : List Byte :=
  leBytes 8 a.stamp.toNat ++ leBytes 8 a.wall.toNat ++ leBytes 4 a.client.toNat ++ leBytes 1 a.text.length
  ++ leBytes 11 0 ++ slice a.text 0 64

/-- A clear record of 64 bytes (R533). -/
def ClearRecord.bytes (c : ClearRecord) : List Byte :=
  leBytes 8 c.stamp.toNat ++ leBytes 4 c.genBefore ++ leBytes 4 c.genAfter ++ leBytes 4 c.client.toNat
  ++ leBytes 2 c.slotsBefore ++ leBytes 1 (b2n c.done) ++ leBytes 1 c.key ++ leBytes 4 c.overflowBefore
  ++ leBytes 4 0 ++ slice c.nonce 0 32

/-! ## The flush -/

/-- Slots as a flush writes them in place: a changed slot's SEQ goes up by two (R524). -/
def flushSlots (live old : List Slot) : List Slot :=
  live.zipIdx.map (fun (t, i) =>
    match old[i]? with
    | some o => if { t with seq := o.seq } = o then o else { t with seq := (o.seq + 2) % 2 ^ 32 }
    | none => { t with seq := 2 })

/-- The recorder's contents as a flush leaves them in bank 0. -/
def Trg.flushed (t : Trg) : TrgData := { t.live with slots := flushSlots t.live.slots t.bank0.slots }

/-- A whole flush (R518, R523, R524). -/
def State.flush (s : State) : State :=
  if s.trg.stopped then { s with trg.stored := s.trg.seconds }
  else if s.trg.bad then
    let l := flushSlots s.trg.summary s.trg.sumStored
    { s with trg.summary := l, trg.sumStored := l, trg.stored := s.trg.seconds }
  else
    let d := s.trg.flushed
    { s with trg.live := d, trg.bank0 := d, trg.journal := none, trg.stored := s.trg.seconds }

/-- The move to the summary form: code 0x7F01 in summary slot 0, then GENERATION, then RECORDER_DEGRADED (R535,
R537). -/
def State.degrade (s : State) (offset : Nat) : State :=
  if s.trg.bad then s
  else
    let t := { s with trg.bad := true }.note 0x7F01 0 (.value offset)
    { t with trg.live.generation := (t.trg.live.generation + 1) % 2 ^ 32 }.event 0x0480 []

/-! ## Reading -/

/-- What TRG_SUMMARY counts: what was flushed, of the summary form too, which keeps no list, or what control SRAM holds once
the recorder has stopped (R537, R538, log entry 17). -/
def Trg.view (t : Trg) : TrgData :=
  if t.bad then
    { t.live with slots := if t.stopped then t.summary else t.sumStored, overflow := t.sumOverflow, firsts := [], notes := [] }
  else t.bank0

/-- TRG_SUMMARY (R360, R538). -/
def execTrgSummary (ch : Chan) (s : State) : Host.Outcome State Fault Refusal :=
  .next (s.onRequest ch (opIs 0x0400) { holdup := true, lenOk := lenIs 0 } (fun r t =>
    let v := t.trg.view
    t.ok r (leBytes 4 v.generation ++ leBytes 4 v.overflow ++ leBytes 2 v.slots.length
      ++ leBytes 2 v.firsts.length ++ leBytes 4 (b2n (t.trg.bad || t.trg.stopped)) ++ leBytes 8 t.stamp.toNat)))

/-- Entry i of n, as a record with the cursor of the next of its kind (R530). -/
def readEntry {α : Type} (l : List α) (base i : Nat) (f : α → List Byte) : Option (Nat × List Byte) :=
  match l[i]? with
  | none => none
  | some x => some (if i + 1 < l.length then base + i + 1 else 0xFFFFFFFF, f x)

/-- The record at a cursor of an area, with NEXT_CURSOR (R530). -/
def Trg.readAt (t : Trg) (area cursor : Nat) : Option (Nat × List Byte) :=
  if area = 0 then readEntry t.bank0.slots 0 cursor Slot.bytes
  else if area = 1 then
    if cursor < 0x10000 then readEntry t.bank0.firsts 0 cursor Event.bytes
    else readEntry t.bank0.notes 0x10000 (cursor - 0x10000) Annotation.bytes
  else if cursor = 0 then
    some (0xFFFFFFFF, leBytes 64 (Config.summaryHeader t.bad t.sumOverflow t.sumStored.length t.clearCount).toNat)
  else if cursor ≤ 16 then readEntry t.clears 1 (cursor - 1) ClearRecord.bytes
  else if cursor < 0x1000 then none
  else readEntry t.sumStored 0x1000 (cursor - 0x1000) Slot.summaryBytes

/-- The place in bank 0 of the record at a cursor (R520). -/
def bank0Offset (area cursor : Nat) : Nat :=
  if area = 0 then 0x40000 + 384 * cursor
  else if cursor < 0x10000 then 0x20000 + 32 * cursor else 0x28000 + 96 * (cursor - 0x10000)

/-- The record at a cursor read: an uncorrectable read of bank 0 marks it bad (R535, R537). -/
def State.readRecord (s : State) (r : Request) (ecc : Ecc) (area cursor : Nat) : State :=
  match s.trg.readAt area cursor with
  | none => s.reply r stRange 0 []
  | some x =>
    if area < 2 ∧ ecc = .bad then (s.degrade (bank0Offset area cursor)).reply r stState 1 []
    else s.ok r (leBytes 4 s.trg.view.generation ++ leBytes 4 x.1 ++ x.2)

/-- TRG_READ (R530, R535, R537, R538). -/
def execTrgRead (ch : Chan) (ecc : Ecc) (s : State) : Host.Outcome State Fault Refusal :=
  .next (s.onRequest ch (opIs 0x0401) { holdup := true, lenOk := lenIs 8, reserved := [(5, 3)] } (fun r t =>
    let area := r.get 4 1
    let cursor := r.get 0 4
    let clear := area = 2 ∧ 1 ≤ cursor ∧ cursor ≤ 16
    if 2 < area then t.reply r stRange 4 []
    else if t.trg.stopped ∧ ¬ clear then t.reply r stDevice 0 []
    else if t.trg.bad ∧ area < 2 then t.reply r stState 1 []
    else t.readRecord r ecc area cursor))

/-- TRG_ANNOTATE (R528, R537). -/
def execTrgAnnotate (ch : Chan) (s : State) : Host.Outcome State Fault Refusal :=
  .next (s.onRequest ch (opIs 0x0402)
    { lenOk := fun b => 16 ≤ b.length ∧ b.length ≤ 80 ∧ b.length = 16 + getLE b 8 1, reserved := [(9, 7)] }
    (fun r t =>
      let a : Annotation := { stamp := t.stamp, wall := BitVec.ofNat 64 (r.get 0 8), client := r.client
                              text := r.payload.drop 16 }
      let u := if t.trg.bad ∨ t.trg.stopped ∨ 256 ≤ t.trg.live.notes.length then t.note 0x7F02 r.client .occurrence
        else { t with trg.live.notes := t.trg.live.notes ++ [a] }
      u.ok r (leBytes 8 t.stamp.toNat)))

/-- The recorder cleared (R532): slots, lists and counts at their reset values, GENERATION one up. -/
def Trg.cleared (t : Trg) : Trg :=
  let g := (t.live.generation + 1) % 2 ^ 32
  if t.bad then { t with live.generation := g, summary := [], sumStored := [], sumOverflow := 0 }
  else { t with live := { TrgData.empty with generation := g }, bank0 := { TrgData.empty with generation := g }
                journal := none }

/-- The record of a clear that a request asks for, still PENDING (R533). -/
def State.clearRecord (s : State) (r : Request) : ClearRecord :=
  let bad := s.trg.bad
  { stamp := s.stamp, genBefore := s.trg.live.generation, genAfter := s.trg.cleared.live.generation, client := r.client
    slotsBefore := if bad then s.trg.view.slots.length else s.trg.live.slots.length, done := false
    key := getLE r.block 32 1, overflowBefore := if bad then s.trg.sumOverflow else s.trg.live.overflow
    nonce := slice r.block 0 32 }

/-- A clear record among the 16 latest, and counted (R533). -/
def Trg.addClear (t : Trg) (c : ClearRecord) : Trg :=
  { t with clears := (t.clears ++ [c]).drop (t.clears.length + 1 - 16), clearCount := t.clearCount + 1 }

/-- The clear of a PENDING record carried out, and the record DONE (R532, R534). -/
def Trg.finishClear (t : Trg) : Trg :=
  { t.cleared with clears := t.clears.map (fun (c : ClearRecord) => { c with done := true }) }

/-- TRG_CLEAR (R532 to R534): the clear record, then the clear; the request itself is recorded in the new generation. Where
power is lost on the way (`cut`), the record stays PENDING and no reply is written. -/
def execTrgClear (ch : Chan) (cut : Bool) (s : State) : Host.Outcome State Fault Refusal :=
  .next (s.onRequest ch (opIs 0x0403)
    { letter := .c, authOpen := true, authNeed := fun _ _ => true
      authKey := fun t _ => some (if t.fuses.life = .destroyed then 1 else 0)
      lenOk := lenIs 4, reserved := [(1, 3)] }
    (fun r t =>
      if r.get 0 1 ≠ 0 then t.reply r stRange 0 []
      else if t.trg.stopped then t.reply r stDevice 0 []
      else
        let noted := t.trg.addClear (t.clearRecord r)
        if cut then { t with trg := noted }
        else { t with trg := noted.finishClear }.ok r (leBytes 4 noted.finishClear.live.generation)))

/-! ## Faults: the log -/

/-- Event entries in ascending EVENT_ID. -/
def insertEvent (e : Event) : List Event → List Event
  | [] => [e]
  | x :: t => if e.id < x.id then e :: x :: t else x :: insertEvent e t

/-- FAULT_LIST (R361, R483). -/
def execFaultList (ch : Chan) (s : State) : Host.Outcome State Fault Refusal :=
  .next (s.onRequest ch (opIs 0x0500) { holdup := true, lenOk := lenIs 4 } (fun r t =>
    let all := (t.sbx.log.foldl (fun l e => insertEvent e l) []).filter (fun e => r.get 0 4 ≤ e.id)
    let l := all.take 14
    let next := if all.length ≤ 14 then 0xFFFFFFFF else (l.getLast?.map (fun e => e.id + 1)).getD 0
    t.ok r (leBytes 4 next ++ leBytes 2 l.length ++ leBytes 2 0 ++ (l.map Event.bytes).flatten)))

/-- FAULT_ACK (R487, R489). -/
def execFaultAck (ch : Chan) (s : State) : Host.Outcome State Fault Refusal :=
  .next (s.onRequest ch (opIs 0x0501) { lenOk := lenIs 4 } (fun r t =>
    match t.sbx.log.find? (fun e => e.id = r.get 0 4) with
    | none => t.reply r stRange 0 []
    | some e =>
      if e.state ≠ 1 then t.reply r stState e.state []
      else
        let log := t.sbx.log.map (fun (x : Event) => if x.id = e.id then { x with state := 2 } else x)
        { t with sbx.log := log }.ok r []))

/-- STALL_READ (R361, R495): bytes of a partition's save area; in Hold-up module memory has no power, and the bytes are not
specified (R600, R603). -/
def execStallRead (ch : Chan) (s : State) : Host.Outcome State Fault Refusal :=
  .next (s.onRequest ch (opIs 0x0503) { holdup := true, lenOk := lenIs 8, reserved := [(1, 1)] } (fun r t =>
    let p := r.get 0 1
    let n := r.get 2 2
    let off := r.get 4 4
    if 7 < p then t.reply r stRange 0 []
    else if n = 0 ∨ 472 < n then t.reply r stRange 2 []
    else if 2 ^ 20 < off + n then t.reply r stRange 4 []
    else if t.power.state = .holdUp then (t.take n).ok r (t.freeBytes n)
    else t.ok r (t.mem.saveArea.read (p * 2 ^ 20 + off) n)))

end Sys2Proof.Machine
end

