-- ==== Sys2Proof/Machine/HayBase.lean ====
section
/-! DEFINITION. What the reservoir shares with the rest: the operating window (R418), flat-follow mode (R456), the unit
entry (R408), the learned-value record (R428 to R433), the ends of a walk (R425), and the fence of a cartridge (R401). -/

namespace Sys2Proof.Machine

/-! ## Values (R412, R416 to R418) -/

/-- A rational clamped to a range. -/
def clampRat (lo hi x : Rat) : Rat := max lo (min hi x)

/-- s_rep, the reported charge fraction (R412). -/
def Hay.sRep (h : Hay) : Rat := clampRat 0 1 ((h.q + h.c) / h.cap)

/-- m of R418. -/
def Hay.margin (h : Hay) : Rat := max 0 (h.u / h.cap - 1 / 20)

/-- The charge fraction of the hold-up reserve (R418). -/
def floorFraction : Rat := 1302 / 10000

/-- The lower and the upper edge of the operating window (R418). -/
def Hay.window (h : Hay) : Rat × Rat := (floorFraction + h.margin, 1 - h.margin)

/-- The window is narrower than 0.10 (R418). -/
def Hay.narrow (h : Hay) : Bool := h.window.2 - h.window.1 < 1 / 10

/-- cap after a full module reset or with no stored record: 428,572 mC (R416). -/
def Hay.endOfLife : Rat := 428572 / 1000

/-! ## Flat-follow mode (R456) -/

/-- Condition k of R456 holds. -/
def State.flatCause (s : State) (k : Nat) : Bool :=
  if k = 0 then s.hay.entry ≠ .inService
  else if k = 1 then s.hayIn && s.hay.narrow && s.power.state ≠ .holdUp
  else s.power.fallback

/-- The module is in flat-follow mode. -/
def State.flat (s : State) : Bool := [0, 1, 2].any s.flatCause

/-- A change of the state, with an entry to flat-follow mode recorded under the condition that made it (R526). -/
def State.flatWatch (f : State → State) (s : State) : State :=
  let t := f s
  if s.flat ∨ ¬ t.flat then t
  else match [0, 1, 2].find? t.flatCause with
    | some k => t.note 0x800A (BitVec.ofNat 32 k) .occurrence
    | none => t

/-! ## The unit entry (R408) -/

/-- A unit is pending somewhere (R53). -/
def State.anyPending (s : State) : Bool :=
  s.parts.any (fun p => p.unit = .pending) || s.cores.any (fun c => c.unit = .pending) ||
    s.mem.devices.any (fun d => d.unit = .pending) || s.rails.ports.any (fun p => p.unit = .pending) ||
    s.hay.entry = .pending

/-- The end of start-up once no unit is pending (R395, R590, R594): STARTING cleared, the timer of R500 stopped, and a full
module reset complete (R501, R502). -/
def State.startDone (s : State) : State :=
  if s.cap.starting ∧ ¬ s.anyPending then
    let t := s.recap (fun s => { s with cap.starting := false })
    let t := { t with sbx.resetTimer := false }
    if t.start.fast then
      t.noteDone (source 0x12 0 0)
    else t
  else s

/-- The reservoir's unit entry changed in the descriptor; HAYLOFT_CHANGE follows where it becomes in service, fenced or
absent. -/
def State.setEntry (s : State) (u : UnitState) : State :=
  if s.hay.entry = u then s
  else
    let t := s.flatWatch (fun s => s.recap (fun s => { s with hay.entry := u }))
    if u = .pending then t else (t.event 0x0381 (leBytes 1 (unitCode u) ++ leBytes 3 0)).startDone

/-! ## The learned-value record (R428 to R433) -/

/-- The reservoir's SOURCE value (R481). -/
def haySource : W32 := source 0xB 0 0

/-- A limit, stop, trip or record of the reservoir is reported: class P, level 0 (R400, R433, R484). -/
def State.hayNote (s : State) : State := s.report haySource 0x0501 none 0

/-- The 64 bytes of the record (R428). -/
def EstRecord.bytes (r : EstRecord) (seq : Nat) : List Byte :=
  let body := leBytes 8 seq ++ leBytes 8 r.cartId.toNat ++ leBytes 4 r.capacity.toNat ++ leBytes 2 r.learnCount.toNat
    ++ leBytes 2 (b2n r.learned + 2 * b2n r.closed) ++ leBytes 4 r.offset.toNat ++ leBytes 4 0 ++ leBytes 8 r.lastFull.toNat
    ++ leBytes 8 r.lastEmpty.toNat ++ leBytes 8 r.lastLearn.toNat ++ leBytes 4 r.throughput.toNat
  body ++ leBytes 4 (crc32c body).toNat

/-- The record that 64 bytes hold. -/
def EstRecord.ofBytes (bs : List Byte) : EstRecord :=
  let word := fun (k : Nat) => BitVec.ofNat 64 (getLE bs k 8)
  let flags := getLE bs 22 2
  { cartId := word 8, capacity := BitVec.ofNat 32 (getLE bs 16 4), learnCount := BitVec.ofNat 16 (getLE bs 20 2)
    learned := flags % 2 = 1, closed := flags / 2 % 2 = 1, offset := BitVec.ofNat 32 (getLE bs 24 4)
    lastFull := word 32, lastEmpty := word 40, lastLearn := word 48, throughput := BitVec.ofNat 32 (getLE bs 56 4) }

/-- SEQ of a copy whose CRC is correct. -/
def estSeq (bs : List Byte) : Option Nat :=
  if (crc32c (bs.take 60)).toNat = getLE bs 60 4 then some (getLE bs 0 8) else none

/-- The record written to the copy that R431 chooses, and whether its second read-back fails too. -/
def Mram.writeEst (m : Mram) (r : EstRecord) (back : ReadBacks) : Bool × Mram :=
  let t : TwoCopy (List Byte) := { seq0 := estSeq m.est0, val0 := m.est0, seq1 := estSeq m.est1, val1 := m.est1 }
  let v := r.bytes (t.high + 1)
  let held := if back.first.all (fun b => b = v) then v else slice (back.second.getD v) 0 64
  (held ≠ v, if t.target then { m with est1 := held } else { m with est0 := held })

/-- The record as read (R431). -/
def Mram.readEst (m : Mram) : Option EstRecord :=
  let t : TwoCopy (List Byte) := { seq0 := estSeq m.est0, val0 := m.est0, seq1 := estSeq m.est1, val1 := m.est1 }
  t.read.map EstRecord.ofBytes

/-- cap in mC, as the record holds it. -/
def Hay.capMc (h : Hay) : W32 := BitVec.ofNat 32 (h.cap * 1000).floor.toNat

/-- The record written with the working copy's values, `closed` at orderly shutdown (R430): a write whose second read-back
fails is recorded, and the working copy goes on (R433). -/
def State.putEst (s : State) (closed : Bool) (back : ReadBacks) : State :=
  let v := { s.hay.record with capacity := s.hay.capMc, closed := closed }
  let x := s.mram.writeEst v back
  let t := { s with hay.record := v, mram := x.2 }
  if x.1 then t.hayNote else t

/-- The record written, but for Hold-up, where no write begins after those of its entry (R601). -/
def State.writeEst (s : State) (closed : Bool) (back : ReadBacks) : State :=
  if s.power.state = .holdUp then s else s.putEst closed back

/-- The record written at orderly shutdown, `closed` (R430). Without a cartridge in service the
record of the last one stays unchanged (R435). -/
def State.shutEst (s : State) (closed : Bool) (back : ReadBacks) : State :=
  if s.hayIn then s.writeEst closed back else s

/-! ## Walks, runs and stops (R398, R420, R425) -/

/-- A walk that runs or is scheduled ends with an outcome. -/
def State.endWalk (s : State) (outcome : Nat) : State :=
  match s.hay.walk with
  | none => s
  | some w => { s with hay.walk := none }.event 0x0380 (leBytes 4 w.id.toNat ++ leBytes 1 outcome ++ leBytes 3 0)

/-- The converter stops: it ceases to switch and opens the disconnect (R398); cells are no longer bled (R402). -/
def Hay.stop (h : Hay) : Hay := { h with converter := false, closed := false, bled := [] }

/-- The converter stops under R399 or with the cartridge: a learning run is disqualified (R420). -/
def Hay.halt (h : Hay) : Hay := { h.stop with run := none }

/-- The cartridge is fenced (R399, R401, R404, R420, R425). -/
def State.fenceCart (s : State) : State :=
  if s.hay.entry = .fenced ∨ s.hay.entry = .absent then s
  else ({ s with hay := { s.hay.halt with phase := .none } }.setEntry .fenced).endWalk 3

end Sys2Proof.Machine
end

