-- ==== Sys2Proof/Machine/Image.lean ====
section
/-! DEFINITION. The firmware image and the NOR (R543, R544, R561, R562), the measurements (R554, R555), debug levels
(R567 to R569, R571) and the erasure of memory (R565, R569). -/

namespace Sys2Proof.Machine

/-! ## The NOR (R543): unlisted bytes read 0xFF -/

/-- n bytes of the NOR from an offset. -/
def norRead (m : Bytes) (a : Nat) : Nat → List Byte
  | 0 => []
  | n + 1 => Table.get 0xFF m a :: norRead m (a + 1) n

/-- The NOR with bytes programmed from an offset. -/
def norWrite (m : Bytes) (a : Nat) : List Byte → Bytes
  | [] => m
  | b :: t => norWrite (Table.put 0xFF a b m) (a + 1) t

/-! ## Images (R543, R544) -/

/-- Bytes of a signature (R548). -/
def signatureBytes : Nat := 2820

/-- The largest image: 8 MiB. -/
def imageMax : Nat := 8388608

/-- MAGIC of an image header. -/
def imageMagic : Nat := 0x51573936

/-- Fields of an image header. -/
def imgBytes (bs : List Byte) : Nat := getLE bs 4 4
def imgVersion (bs : List Byte) : Nat := getLE bs 8 4
def imgSvn (bs : List Byte) : Nat := getLE bs 16 1
def imgSigner (bs : List Byte) : List Byte := slice bs 32 68

/-- An image without its signature. -/
def imgBody (bs : List Byte) : List Byte := bs.take (imgBytes bs - signatureBytes)

/-- Every condition of R544 but the last holds of the image that begins a list of bytes. -/
def Fuses.imageSigned (f : Fuses) (bs : List Byte) : Bool :=
  let n := imgBytes bs
  getLE bs 0 4 = imageMagic && getLE bs 14 2 = 0x00B0 && 4096 ≤ n && n ≤ imageMax && n ≤ bs.length &&
    keyHash (imgSigner bs) = f.fwSignerHash &&
    xmssVerify (imgSigner bs) (imgBody bs) (slice bs (n - signatureBytes) signatureBytes)

/-- An image is valid (R544). -/
def Fuses.imageValid (f : Fuses) (bs : List Byte) : Bool := f.imageSigned bs && f.svn ≤ imgSvn bs

/-- The image in the NOR, as far as its header says. -/
def State.norImage (s : State) : List Byte := norRead s.sec.nor 0 (min (imgBytes (norRead s.sec.nor 0 128)) imageMax)

/-- The NOR image is valid. -/
def State.norValid (s : State) : Bool := s.fuses.imageValid s.norImage

/-- Measurement 2 of an image (R554). -/
def imgMeasure (bs : List Byte) : List Byte := shake256 64 (imgBody bs)

/-! ## Measurements (R554) -/

/-- A measurement extended by data. -/
def extend (v d : List Byte) : List Byte := shake256 64 (v ++ d)

/-- The state with a measurement set. -/
def State.setMeasure (s : State) (i : Nat) (v : List Byte) : State :=
  { s with sec.measures := setNth s.sec.measures i (fun _ => v) }

/-- A measurement. -/
def State.measure (s : State) (i : Nat) : List Byte := nth (leBytes 64 0) s.sec.measures i

/-- The fuse fields of measurement 1, in their order (the widths in bytes are log entry 25). -/
def Fuses.measured (f : Fuses) : List Byte :=
  leBytes 1 f.lifecycle.toNat ++ leBytes 1 (b2n f.ownerDestroyed) ++ leBytes 8 (2 ^ f.svn - 1)
  ++ leBytes 8 (f.partDisable.toNat + f.memDisable.toNat * 2 ^ 8 + f.railDisable.toNat * 2 ^ 20)
  ++ leBytes 32 f.ownerHash.toNat

/-- Measurement 1 computed anew, after every fuse write. -/
def State.remeasureFuses (s : State) : State := s.setMeasure 1 (extend (leBytes 64 0) s.fuses.measured)

/-- INTRUSIVE_COUNT (R555). -/
def State.intrusiveCount (s : State) : Nat := s.mram.intrusive.read.getD 0

/-- Measurement 4 computed anew, whenever the count or the seal changes. -/
def State.remeasureDebug (s : State) : State :=
  s.setMeasure 4 (extend (leBytes 64 0) (leBytes 4 s.intrusiveCount ++ leBytes 1 (b2n s.sec.idSealed)))

/-! ## Debug levels (R567 to R569, R571) -/

/-- Every halt placed through the debug port released. -/
def State.releaseHalts (s : State) : State :=
  { s with cores := s.cores.map (fun c => { c with halted := false }) }

/-- A change of debug level, with measurement 3 extended by the level and by the key byte of the block that authorised
it (R554). Closed releases every halt, holds DBG_TRIG low and leaves BYPASS only (R567, R568), and an injection whose
permission it takes away ends (R317). -/
def State.setLevel (s : State) (level : Nat) (key : Option Nat) : State :=
  if s.sec.level = level then s
  else
    let v := extend (s.measure 3) (leBytes 1 level)
    let v := match key with
      | some k => extend v (leBytes 1 k)
      | none => v
    let t := { s.setMeasure 3 v with sec.level := level }.endInjections
    if level = 0 then { t.releaseHalts with start.dbgTrig := false, sec.jtag := .bypass } else t

/-- Every Yard block and every frame of module memory zeroed, retired ones excepted, with the save area (R565, R569). -/
def State.eraseAll (s : State) : State :=
  let frameOut := fun (a : Nat) => s.mem.retired.contains (a / 2 ^ 21)
  let blockOut := fun (k : Nat) => s.yard.retired.contains (k / 65536)
  { s with
    mem.bytes := s.mem.bytes.filter (fun c => frameOut c.1)
    mem.damaged := s.mem.damaged.filter (fun l => frameOut (l * 64))
    mem.saveArea := []
    yard.bytes := s.yard.bytes.filter (fun c => blockOut c.1)
    yard.damaged := s.yard.damaged.filter (fun w => blockOut (w * 8)) }

/-- The end of the entry to Intrusive in Fielded: memory zeroed, the identity key sealed, the count written, the
level raised and the request answered (R569). -/
def State.enterIntrusive (s : State) (r : Request) : State :=
  let t := s.eraseAll
  let t := { t with sec.idSealed := true, mram.intrusive := t.mram.intrusive.store (t.intrusiveCount + 1) true }
  ((t.remeasureDebug).setLevel 2 (some (getLE r.block 32 1))).ok r (leBytes 1 2 ++ leBytes 3 0)

end Sys2Proof.Machine
end

