-- ==== Sys2Proof/WellFormed.lean ====
section
/-! DEFINITION. Commands whose operands an outside party can send. -/

namespace Sys2Proof

/-- A frame is 32 slots of 256 bytes (R270, R271). -/
def frameOk (frame : List Byte) : Bool := frame.length = 8192

/-- An access through BAR4 moves at least one byte and stays within 4 KiB (PCI Express). -/
def accessOk (addr n : Nat) : Bool := 0 < n ∧ addr % 4096 + n ≤ 4096

/-- A cartridge has 14 cells (R397). -/
def cellsOk (cells : List Nat) : Bool := cells.length = 14

/-- A measurement of the energy of the eight partitions (R472). -/
def partitionsOk {α : Type} (l : List α) : Bool := l.length = 8

/-- A command is well formed when its lists have the lengths that the manual gives them. -/
def Instr.wellFormed : Instr → Bool
  | .frameReceive _ frame _ _ => frameOk frame
  | .apertureRead addr len _ => accessOk addr.toNat len.val
  | .apertureWrite addr data _ => accessOk addr.toNat data.length
  | .zeroMeasurementDone m => cellsOk m.cellsMv
  | .estimatorSample m => cellsOk m.cellsMv
  | .energySample partMj _ _ _ => partitionsOk partMj
  | .computeDomainResetDone tests => partitionsOk tests
  | _ => true

end Sys2Proof
end

