-- ==== Sys2Proof/Machine/MemEvents.lean ====
section
/-! DEFINITION. What happens to contexts and memory on its own: teardown and quarantine (R203 to R205), zeroing (R212,
R220), the scrubs (R244 to R247); and the host's accesses through BAR2 and BAR4 (R162 to R166, R252 to R254). -/

namespace Sys2Proof.Machine

/-! ## Teardown (R203 to R205) -/

/-- The Yard of an allotment zeroed, with fresh check symbols; retired blocks are left (R205, R220, R248). -/
def State.zeroAllotment (s : State) (w : YardWord) : State :=
  let lo := yardKey w.phys (w.base * 65536)
  let hi := lo + w.size * 65536
  let hit := fun k => lo ≤ k && k < hi && !s.yard.retired.contains (k / 65536)
  { s with
    yard.bytes := s.yard.bytes.filter (fun c => !hit c.1)
    yard.damaged := s.yard.damaged.filter (fun d => !hit (8 * d)) }

/-- Reserved regions that run without a retired block take a released one (R225). -/
def State.resettle (s : State) : State :=
  (s.yard.retired.filter (fun k => yardBlocks ≤ k % 2048 ∧ ¬ s.yard.moved.any (fun m => m.1 = k))).foldl
    State.moveReserved s

/-- The grants that still wait for zeroing under a context end: their pages are freed and their requests answered
ABORTED. -/
def State.dropGrants (s : State) (c : Nat) : State :=
  let mine := s.mem.grants.filter (fun g => g.ctx = c)
  let t := { s with mem.grants := s.mem.grants.filter (fun g => g.ctx ≠ c) }
  mine.foldl (fun t g => { t with mem.zeroing := t.mem.zeroing ++ g.frames }.reply g.req stAborted 0 []) t

/-- A COUPLE_RESTORE that reads this context's store ends ABORTED. -/
def State.dropRestore (s : State) (c : Nat) : State :=
  match (s.ctx c).store.bind (fun x => x.restoring) with
  | some x => s.reply x.req stAborted 0 []
  | none => s

/-- Everything a context held is given back, and it is QUARANTINE under its generation (R203), its other fields at their
reset values (log entry 143). -/
def State.release (s : State) (c : Nat) : State :=
  let x := s.ctx c
  let t := (s.ringsOf c).foldl (fun t r => t.modRing r (fun _ => Ring.reset)) (s.freeTokensOf c)
  let t := (x.yard.foldl State.zeroAllotment ((t.dropGrants c).dropRestore c)).freePages x.pages
  let t := (t.modCtx c (fun _ => { Context.reset with state := .quarantine, gen := x.gen })).resettle
  match x.destroyReq with
  | some r => t.ok r []
  | none => t

/-- Every context is QUARANTINE or FREE (R510). -/
def State.allQuiet (s : State) : Bool := s.ctxs.all (fun (_, c) => c.state = .free ∨ c.state = .quarantine)

/-- What waits until every context is QUARANTINE or FREE: a SIDING_ENTER is answered (R510), and the entry to
Intrusive of a DEBUG_UNLOCK goes on (R569). -/
def State.answerSiding (s : State) : State :=
  if s.allQuiet then
    let t := (s.running.filter (fun r => r.opcode = 0x0909)).foldl (fun t r => t.ok r []) s
    (t.running.filter (fun r => r.opcode = 0x0700)).foldl State.enterIntrusive t
  else s

/-- TEARDOWN_COMPLETE (R203 to R205, R510): the last row of the teardown of a context. -/
def execTeardownComplete (ctx : Fin 262144) (s : State) : Host.Outcome State Fault Refusal :=
  .next (if (s.ctx ctx.val).state = .teardown then (s.recap (fun s => s.release ctx.val)).answerSiding else s)

/-- QUARANTINE_EXPIRY (R203): the id may be allotted again, under its generation. -/
def execQuarantineExpiry (ctx : Fin 262144) (s : State) : Host.Outcome State Fault Refusal :=
  .next (if (s.ctx ctx.val).state = .quarantine then
      s.modCtx ctx.val (fun c => { Context.reset with gen := c.gen })
    else s)

/-! ## Zeroing (R204, R212, R220) -/

/-- A frame zeroed with fresh check symbols. -/
def State.zeroFrame (s : State) (f : Nat) : State :=
  { s with
    mem.bytes := s.mem.bytes.clear (f * 2 ^ 21) ((f + 1) * 2 ^ 21)
    mem.damaged := s.mem.damaged.filter (fun l => l / 32768 ≠ f) }

/-- Grants whose frames are all zeroed: their pages are mapped and their requests answered (R212). -/
def State.settleGrants (s : State) : State :=
  let ready := s.mem.grants.filter (fun g => g.frames = [])
  let t := { s with mem.grants := s.mem.grants.filter (fun g => g.frames ≠ []) }
  ready.foldl (fun t g => (t.modCtx g.ctx (fun c => { c with pages := addPages c.pages g.pages })).ok g.req g.payload) t

/-- The frame zeroed next: those that a grant takes come first, then those freed, in their order (R220). -/
def State.nextZeroed (s : State) : State :=
  match (s.mem.grants.flatMap (fun g => g.frames)).head? with
  | some f =>
    { s.zeroFrame f with mem.grants := s.mem.grants.map (fun g => { g with frames := dropFrom f g.frames }) }
  | none =>
    match s.mem.zeroing with
    | f :: rest => { s.zeroFrame f with mem.zeroing := rest }
    | [] => s

/-- ZEROING_DONE (R204, R212, R220): the frame next in order is zero. -/
def execZeroingDone (s : State) : Host.Outcome State Fault Refusal :=
  .next s.nextZeroed.settleGrants

/-! ## Scrubs (R225, R241 to R247, R251) -/

/-- PATROL_SCRUB_READ (R241 to R247, R251): one line read by the memory controllers. -/
def execPatrolScrubRead (line : Nat) (ecc : Ecc) (s : State) : Host.Outcome State Fault Refusal :=
  let addr := 64 * line
  .next (
    if s.mem.total ≤ addr then s
    else
      let t := s.lineRead addr ecc
      if t.1 then
        t.2.report (s.memSource addr) 0x0309 ((s.mapper addr).map (fun (id, c, _) => (id, c.gen)))
          (BitVec.ofNat 32 (addr / 2 ^ 21))
      else t.2)

/-- The context whose allotment covers a block of a partition. -/
def State.blockHolder (s : State) (p b : Nat) : Option (Nat × W16) :=
  (s.ctxs.find? (fun (_, c) => c.yard.any (fun w => w.phys = p ∧ w.base ≤ b ∧ b < w.base + w.size))).map
    (fun (id, c) => (id, c.gen))

/-- Words of a partition's Yard: 96 MiB. -/
def yardWordCount : Nat := 12582912

/-- Partitions whose Yard is scrubbed: in service or held. -/
def State.scrubParts (s : State) : List Nat :=
  (List.range 8).filter (fun p => (s.part p).unit = .inService ∨ (s.part p).unit = .held)

/-- A word (key / 8) read in the scrub pass; the next pass begins once every word of every Yard was read (R245). -/
def State.scrubbed (s : State) (w : Nat) : State :=
  let l := addRange w (w + 1) s.yard.scrubbed
  let whole := s.scrubParts.all (fun p => l.any (fun r => r.1 ≤ p * 2 ^ 24 ∧ p * 2 ^ 24 + yardWordCount ≤ r.2))
  { s with yard.scrubbed := if whole then [] else l }

/-- YARD_SCRUB_READ (R225, R241, R245 to R247): one word of a partition that is in service or held. -/
def execYardScrubRead (part : Fin 8) (word : Nat) (ecc : Ecc) (s : State) : Host.Outcome State Fault Refusal :=
  let w := part.val * 2 ^ 24 + word
  let unit := (s.part part.val).unit
  .next (
    if yardWordCount ≤ word ∨ (unit ≠ .inService ∧ unit ≠ .held) then s
    else
      let s := s.scrubbed w
      if w ∈ s.yard.damaged ∨ ecc = .bad then
        (s.yardBad w).report (source 7 part.val 0) 0x0309 (s.blockHolder part.val (word / 8192)) (yardInfo w)
      else if ecc = .corrected then s.yardCorrected w
      else s)

/-! ## Doorbells (R162 to R166) -/

/-- A TAIL in the range of R163: from the accepted TAIL to HEAD + 2^S. -/
def Ring.tailOk (r : Ring) (tail : W32) : Bool :=
  sub32 tail r.tail ≤ sub32 (r.head + BitVec.ofNat 32 (2 ^ r.logSize)) r.tail

/-- A doorbell with the bound generation: its TAIL is accepted, or the context halts with cause OVERRUN (R163,
R166). -/
def State.newTail (s : State) (ring : Nat) (tail : W32) : State :=
  let r := s.ring ring
  let st := (s.ctx r.ctx).state
  if r.tailOk tail then s.modRing ring (fun r => { r with tail := tail })
  else if st = .active ∨ st = .halted then s.haltByRing ring .overrun
  else s

/-- RNG_DOORBELL (R162 to R166): acted on as a single aligned 64-bit write to a bound ring that the host feeds,
otherwise counted. -/
def execRngDoorbell (ring : Fin 4096) (value : W64) (whole : Bool) (s : State) : Host.Outcome State Fault Refusal :=
  .next (s.onBar (fun s =>
    let r := s.ring ring.val
    let gen := field value.toNat 63 48
    if ¬ whole ∨ r.state = .unbound ∨ r.feeder.isSome ∨ (s.ctx r.ctx).gen.toNat ≠ gen then
      s.drop (fun d => { d with doorbell := d.doorbell + 1 })
    else s.newTail ring.val (BitVec.ofNat 32 (field value.toNat 31 0))))

/-! ## The aperture (R252 to R254) -/

/-- The context and virtual address behind a BAR4 address: bound, and the generation current (R252, R253). -/
def State.aperture (s : State) (addr : Nat) (write : Bool) : Option (Nat × Nat) :=
  match (Table.get Window.reset s.windows (addr / 2 ^ 30)).bound with
  | none => none
  | some (c, gen, vbase, w) =>
    if (s.ctx c).gen = gen ∧ (w ∨ ¬ write) then some (c, vbase + addr % 2 ^ 30) else none

/-- APERTURE_READ (R252, R253): the bytes, an Unsupported Request, or a Completer Abort. In Hold-up module memory has no
power (R600), and the bytes are not specified. -/
def execApertureRead (addr : BitVec 38) (len : Fin 4097) (lines : LineEcc) (s : State) : Host.Outcome State Fault Refusal :=
  if ¬ accessOk addr.toNat len.val then .fault .illFormed
  else
    .next (s.onBar (fun s =>
      match (s.aperture addr.toNat false).bind (fun (c, va) => (s.ctx c).translate false va) with
      | none => s.emit .unsupported
      | some pa =>
        if s.power.state = .holdUp then (s.take len.val).emit (.readData (s.freeBytes len.val))
        else
        let t := s.memLoad pa len.val lines 65
        if t.1 then t.2.2.emit .completerAbort else t.2.2.emit (.readData t.2.1)))

/-- A BAR4 write that is dropped (R253). -/
def State.dropAperture (s : State) : State := s.drop (fun d => { d with aperture := d.aperture + 1 })

/-- APERTURE_WRITE (R232, R252 to R254, R260): applied, with a partial line merged, or dropped and counted. In Hold-up what
is written is lost with the memory (R600, R605). -/
def execApertureWrite (addr : BitVec 38) (data : List Byte) (lines : LineEcc) (s : State) : Host.Outcome State Fault Refusal :=
  if ¬ accessOk addr.toNat data.length then .fault .illFormed
  else
    .next (s.onBar (fun s =>
      match (s.aperture addr.toNat true).bind (fun (c, va) => ((s.ctx c).translate true va).map (fun pa => (c, va, pa))) with
      | none => s.dropAperture.emit .unsupported
      | some (c, va, pa) =>
        if s.power.state = .holdUp then s
        else
        let t := s.memStore pa data lines 65
        let u := t.2.modCtx c (fun x => x.markDirty va data.length)
        if t.1 then u.dropAperture else u))

end Sys2Proof.Machine
end

