-- ==== Sys2Proof/Machine/Stores.lean ====
section
/-! DEFINITION. Mirror stores (R258, R259, R262, R265) and what a packet's answer, or its loss, means to what waits for
it (R193, R235, R261, R263, R265, R293, R301, R304, R315). -/

namespace Sys2Proof.Machine

/-! ## The store record (R259) -/

/-- A store record. -/
structure StoreRecord where
  step : W64
  seed : W64
  node : W32
  ctx : Nat
  gen : W16
  slot : Bool
  valid : Bool
  epoch : W32
  slotBytes : W64
  regions : Nat
  deriving DecidableEq, Repr

/-- A store record read from its 64 bytes. -/
def StoreRecord.parse (bs : List Byte) : StoreRecord :=
  let w := getLE bs 20 8
  { step := BitVec.ofNat 64 (getLE bs 0 8), seed := BitVec.ofNat 64 (getLE bs 8 8)
    node := BitVec.ofNat 32 (getLE bs 16 4), ctx := field w 17 0, gen := BitVec.ofNat 16 (field w 47 32)
    slot := bit w 48, valid := bit w 49, epoch := BitVec.ofNat 32 (getLE bs 28 4)
    slotBytes := BitVec.ofNat 64 (getLE bs 32 8), regions := getLE bs 40 1 }

/-- The 64 bytes of a store record. -/
def StoreRecord.bytes (r : StoreRecord) : List Byte :=
  leBytes 8 r.step.toNat ++ leBytes 8 r.seed.toNat ++ leBytes 4 r.node.toNat
  ++ leBytes 8 (r.ctx + r.gen.toNat * 2 ^ 32 + b2n r.slot * 2 ^ 48 + b2n r.valid * 2 ^ 49)
  ++ leBytes 4 r.epoch.toNat ++ leBytes 8 r.slotBytes.toNat ++ leBytes 1 r.regions ++ leBytes 23 0

/-- The store record in a context's memory; true first where its read was uncorrectable. -/
def State.storeRecord (s : State) (c : Nat) (lines : LineEcc) : Bool × StoreRecord × State :=
  let r := s.memGet c lines 0 64
  (r.1, StoreRecord.parse r.2.1, r.2.2)

/-- The state with the store of a context changed. -/
def State.modStore (s : State) (c : Nat) (f : Store → Store) : State :=
  s.modCtx c (fun x => { x with store := x.store.map f })

/-- Bytes of a write that fall into a range. -/
def overlap (va n lo hi : Nat) : Nat := min (va + n) hi - max va lo

/-- Bytes applied to the slot of the last OPEN are counted (R262). -/
def Store.count (x : Store) (va n : Nat) : Store :=
  match x.opened with
  | none => x
  | some (_, slot, _) =>
    let lo := storeHeader + slotNo slot * x.slotBytes
    { x with applied := x.applied + overlap va n lo (lo + x.slotBytes) }

/-! ## COUPLE_RESTORE (R265) -/

/-- A restore ends with an error. -/
def State.restoreFail (s : State) (c : Nat) : State :=
  match (s.ctx c).store.bind (fun x => x.restoring) with
  | none => s
  | some x => (s.modStore c (fun y => { y with restoring := none })).reply x.req stDevice 0 []

/-- A write of a restore was answered: another result than APPLIED ends it; the last APPLIED completes it with the
STEP_COMMITTED and SR_SEED of the record as the restore read it. -/
def State.restoreAnswered (s : State) (c tag : Nat) (applied : Bool) : State :=
  match (s.ctx c).store.bind (fun x => x.restoring) with
  | none => s
  | some x =>
    if tag ∉ x.tags then s
    else if ¬ applied then s.restoreFail c
    else
      let tags := dropFrom tag x.tags
      if tags = [] then
        (s.modStore c (fun y => { y with restoring := none })).ok x.req (leBytes 8 x.step.toNat ++ leBytes 8 x.seed.toNat)
      else s.modStore c (fun y => { y with restoring := some { x with tags := tags } })

/-! ## Answers and losses (R193, R235, R293) -/

/-- A wagon's packet was answered: with another result than APPLIED, or none, it takes its peer-lost status. -/
def State.wagonAnswered (s : State) (ring : Nat) (index : W32) (tag : Nat) (applied : Bool) : State :=
  match s.flight ring index with
  | none => s
  | some f =>
    if tag ∉ f.tags then s
    else
      let t := s.modFlight ring index (fun x => { x with tags := dropFrom tag x.tags })
      let op := wOpcode f.bits
      if opMover op then (if applied then t else t.cause f wsPeerUnreachable).tryMove ring index
      else if opColl op then (if applied then t else t.cause f wsCollLost).collTry ring index
      else t.decide ring index (if applied then wsOk else wsPeerLost) 0

/-- A packet of a mirror was lost: the mirror fails (R263). -/
def State.mirrorLost (s : State) (c tag : Nat) : State :=
  match (s.ctx c).mirror with
  | none => s
  | some m => if tag ∈ m.tags then s.mirrorFail c else s

/-- The answer to a packet reaches what waits for it: a result of R291, or none where the packet is given up. -/
def State.answered (s : State) (o : OutPacket) (result : Option Nat) (lines : LineEcc) : State :=
  let tag := o.packet.tag.toNat
  let applied : Bool := result = some rsApplied
  match o.waiter, result with
  | .wagon ring index, _ => s.wagonAnswered ring index tag applied
  | .restore c, _ => s.restoreAnswered c tag applied
  | .mirrorOpen c, some r => s.openAnswered c lines tag r
  | .mirrorPage c, some r => s.pageAnswered c tag r
  | .mirrorOpen c, none => s.mirrorLost c tag
  | .mirrorPage c, none => s.mirrorLost c tag
  | .mirrorClose c, none => s.mirrorLost c tag
  | .mirrorClose _, some _ => s
  | .nobody, _ => s

/-- The packets that have been formed and not settled: sent or queued on a port, waiting for a port with a credit, and
waiting to be resent. -/
def Rails.unsettled (r : Rails) : List OutPacket := r.out ++ r.waiting ++ r.resend.flatMap (fun x => x.2)

/-- Packets whose destination satisfies a test are given up (R288, R301, R304). -/
def State.giveUp (s : State) (p : W32 → Bool) : State :=
  let hit := fun (o : OutPacket) => p o.packet.dst
  let lost := s.rails.unsettled.filter hit
  let t := { s with
    rails.out := s.rails.out.filter (fun o => !hit o)
    rails.waiting := s.rails.waiting.filter (fun o => !hit o)
    rails.resend := s.rails.resend.map (fun x => (x.1, x.2.filter (fun o => !hit o))) }
  lost.foldl (fun t o => t.answered o none cleanLines) t

/-- A running collective wagon has a tree neighbour at a node that satisfies a test. -/
def State.collTouches (s : State) (f : Flight) (p : W32 → Bool) : Bool :=
  (groupNeighbours (s.trees f)).any (fun i => ((s.ctx f.ctx).peer i).any (fun x => p x.node))

/-- Running collective wagons with such a neighbour complete COLL_PEER_LOST (R315). -/
def State.collLost (s : State) (p : W32 → Bool) : State :=
  (s.marsh.flights.filter (fun f => opColl (wOpcode f.bits) ∧ f.stage = .waiting ∧ s.collTouches f p)).foldl (fun t f =>
    (t.cause f wsCollLost).collTry f.ring f.index) s

/-- Mirrors whose buddy is at such a node fail (R263). -/
def State.mirrorsLost (s : State) (p : W32 → Bool) : State :=
  (s.ctxs.filter (fun (_, c) => c.mirror.isSome ∧ c.buddyPeer.any (fun x => p x.node))).foldl
    (fun t (id, _) => t.mirrorFail id) s

/-- Nodes that satisfy a test are lost to everything that waits on them. -/
def State.loseNodes (s : State) (p : W32 → Bool) : State := ((s.giveUp p).collLost p).mirrorsLost p

end Sys2Proof.Machine
end

