-- ==== Sys2Proof/Machine/RailLink.lean ====
section
/-! DEFINITION. The links of the rail ports: frames and trailers (R270 to R274), sequences and replay (R275 to R279),
credits (R281, R282, R40), link states (R284 to R288), resending (R304), and injection (R317, R318). -/

namespace Sys2Proof.Machine

/-! ## The trailer (R271, R272) -/

/-- A slot descriptor. -/
def slotDesc (f : Flit) : Byte := BitVec.ofNat 8 (64 + 16 * f.vl + 8 * b2n f.first + 4 * b2n f.last)

/-- SLOT_CRC of a data flit: over its bytes and its sequence number (R273). -/
def flitCrc (bs : List Byte) (seq : W32) : W32 := crc32c (bs ++ leBytes 4 seq.toNat)

/-- A slot as it is sent: its check, its descriptor and its bytes. -/
structure SentSlot where
  crc : W32
  desc : Byte
  bytes : List Byte
  deriving DecidableEq, Repr

/-- An idle slot (R272). -/
def SentSlot.idle : SentSlot := { crc := 0, desc := 0, bytes := List.replicate 256 0 }

/-- The slot of a data flit. -/
def Flit.slot (f : Flit) : SentSlot := { crc := flitCrc f.bytes f.seq, desc := slotDesc f, bytes := f.bytes }

/-- Fields of a received trailer. -/
structure Trailer where
  inj : Bool
  replayReq : Bool
  state : Nat
  node : W32
  cred : List W16
  replayFrom : W32
  ack : W32
  seqBase : W32
  deriving DecidableEq, Repr

/-- The 256 bytes of a trailer without its check. -/
def trailerBytes (slots : List SentSlot) (t : Trailer) (port : Nat) (epoch : W32) (frame : W16) : List Byte :=
  (slots.map (fun s => leBytes 4 s.crc.toNat)).flatten ++ slots.map (fun s => s.desc) ++ leBytes 4 t.seqBase.toNat
  ++ leBytes 4 t.ack.toNat ++ leBytes 4 t.replayFrom.toNat ++ (t.cred.map (fun c => leBytes 2 c.toNat)).flatten
  ++ leBytes 4 epoch.toNat ++ leBytes 4 t.node.toNat ++ leBytes 1 port
  ++ leBytes 1 (t.state + 16 * b2n t.replayReq + 32 * b2n t.inj) ++ leBytes 2 frame.toNat ++ leBytes 65 0

/-- The fields of a trailer. -/
def Trailer.parse (bs : List Byte) : Trailer :=
  let w := getLE bs 184 1
  { inj := bit w 5, replayReq := bit w 4, state := field w 3 0, node := BitVec.ofNat 32 (getLE bs 179 4)
    cred := (List.range 4).map (fun i => BitVec.ofNat 16 (getLE bs (167 + 2 * i) 2))
    replayFrom := BitVec.ofNat 32 (getLE bs 163 4), ack := BitVec.ofNat 32 (getLE bs 159 4)
    seqBase := BitVec.ofNat 32 (getLE bs 155 4) }

/-! ## Link down (R287, R288, R304) -/

/-- Causes of a link down (R319). -/
def ldTimeout : Nat := 0
def ldQuiet : Nat := 1
def ldReplay : Nat := 2
def ldProtocol : Nat := 3
def ldReset : Nat := 4

/-- A port at the start of a link: sequences at 0, credits at full depth, nothing held. Whole packets received before
stay, and hold no place in the buffers of the next link. -/
def Port.restart (p : Port) (st : PortState) : Port :=
  { p with
    state := st, txNext := 0, replayBuf := [], replayAt := none, lastReplay := none, sent := [0, 0, 0, 0]
    cred := Port.depths, txq := [[], [], [], []], next := 0, discarding := false, replayFrom := 0
    rxPart := [[], [], [], []], rxCut := [false, false, false, false]
    rxq := p.rxq.map (fun l => l.map (fun x => (x.1, 0))), freed := [0, 0, 0, 0], withheld := [0, 0, 0, 0] }

/-- A port leaves the links: its packets without an answer wait 1 ms, and nodes without a port in service are lost
(R288, R304). -/
def State.portGone (s : State) (port : Nat) (st : PortState) (cause : Nat) : State :=
  let mine := s.rails.out.filter (fun o => o.port = port)
  let t := s.modPort port (fun p =>
    { p.restart st with linkDown := setNth p.linkDown cause (fun n => n + 1) })
  let t := { t with
    rails.out := t.rails.out.filter (fun o => o.port ≠ port)
    rails.resend := t.rails.resend ++ [(port, mine)] }
  t.loseNodes (fun n => t.unreachable n)

/-- A link declared down (R287, R288): the port enters TRAINING, event 0x0307 and a RAIL_DOWN ticket. -/
def State.linkDown (s : State) (port cause : Nat) : State :=
  let node := (s.port port).peerNode
  ((s.portGone port .training cause).report (source 5 0 port) 0x0307 none (BitVec.ofNat 32 cause)).event 0x0980
    (leBytes 1 port ++ leBytes 1 cause ++ leBytes 2 0 ++ leBytes 4 node.toNat)

/-! ## Replay (R277 to R279, R320) -/

/-- Frames sent in 4 µs (R278): 52 of 77.41 ns. -/
def replayFrames : Nat := 52

/-- The replay rate judged over windows of 10 s without injection: a replay under an injection starts the window anew
(R320, log entry 21). -/
def State.noteReplay (s : State) (port : Nat) : State :=
  let p := s.port port
  let start := if p.inject.isSome then (p.replays + 1, s.trg.seconds)
    else if p.rate.2 + 10 ≤ s.trg.seconds then (p.replays, s.trg.seconds)
    else p.rate
  let t := s.modPort port (fun q => { q with replays := q.replays + 1, rate := start })
  if (p.replays + 1 - start.1).toNat = 10001 then t.report (source 5 0 port) 0x0308 none 0 else t

/-- A replay from a sequence number: every flit from it is sent again; the eighth in a row from the same number takes
the link down (R278, R279). Where no flit from it is held, nothing is replayed (log entry 22). -/
def State.startReplay (s : State) (port : Nat) (x : W32) : State :=
  let p := s.port port
  if ¬ p.replayBuf.any (fun f => sub32 f.seq x < 2 ^ 31) then s
  else
    let n := match p.lastReplay with
      | some (y, k, _) => if y = x then k + 1 else 1
      | none => 1
    let t := (s.noteReplay port).modPort port (fun q => { q with replayAt := some x, lastReplay := some (x, n, q.frame) })
    if 8 ≤ n then
      ((t.linkDown port ldReplay).modPort port (fun q => { q with limited := true })).report (source 5 0 port) 0x0306 none 0
    else t

/-- A replay asked for, unless one from the same number was started within the last 4 µs (R278). -/
def State.askedReplay (s : State) (port : Nat) (x : W32) : State :=
  match (s.port port).lastReplay with
  | some (y, _, at_) =>
    if y = x ∧ ((s.port port).frame - at_).toNat < replayFrames then s else s.startReplay port x
  | none => s.startReplay port x

/-! ## Receipt (R274, R275, R281, R283) -/

/-- Buffer places freed: returned as credits, or withheld while the compute domain that a lane feeds is in reset (R40,
R281, R282). -/
def Port.free (p : Port) (reset : Bool) (vl n : Nat) : Port :=
  let m := BitVec.ofNat 16 n
  if reset ∧ vl ≠ 3 then { p with withheld := setNth p.withheld vl (fun x => x + m) }
  else { p with freed := setNth p.freed vl (fun x => x + m) }

/-- The packet being received on a lane is taken out of the buffer as it arrives: a request at the front of its lane
(R281, log entry 126). -/
def Port.streams (p : Port) (vl : Nat) : Bool := vl = 0 && (nth [] p.rxq vl).isEmpty

/-- A packet that was cut by a compute-domain reset is discarded with the rest of its flits: it keeps its header, and its
answer says so (R40). -/
def Packet.cut (x : Packet) : Packet := { x with data := [] }

/-- A packet was cut by a compute-domain reset. -/
def Packet.isCut (x : Packet) : Bool := x.data.length < x.length

/-- A flit accepted in order; none where FIRST and LAST disagree with the packet's LENGTH (R283). -/
def Port.acceptFlit (p : Port) (reset : Bool) (f : Flit) : Option Port :=
  let old := nth [] p.rxPart f.vl
  let part := old ++ [f]
  let bs := (part.map (fun x => x.bytes)).flatten
  let n := flitCount (field (getLE bs 0 8) 63 42)
  if f.first ≠ old.isEmpty ∨ f.last ≠ (part.length == n) then none
  else
    let q := { p with next := p.next + 1, discarding := false }
    let streams := p.streams f.vl
    if f.last then
      let x := Packet.parse bs
      let x := if nth false p.rxCut f.vl then x.cut else x
      some { q with
        rxPart := setNth q.rxPart f.vl (fun _ => []), rxCut := setNth q.rxCut f.vl (fun _ => false)
        rxq := setNth q.rxq f.vl (fun l => l ++ [(x, if streams then 1 else n)]) }
    else
      let r := { q with rxPart := setNth q.rxPart f.vl (fun _ => part) }
      some (if streams then r.free reset f.vl 1 else r)

/-- A data slot of a frame: its flit and whether its check holds. -/
abbrev GotSlot := Flit × Bool

/-- The data slots of a frame, numbered from SEQ_BASE (R273). -/
def dataSlots (frame : List Byte) (base : W32) : List GotSlot :=
  let data := (List.range 31).filter (fun i => field (getLE frame (8060 + i) 1) 7 6 = 1)
  data.zipIdx.map (fun (i, k) =>
    let d := getLE frame (8060 + i) 1
    let seq := base + BitVec.ofNat 32 k
    let bs := slice frame (256 * i) 256
    ({ seq := seq, vl := field d 5 4, first := bit d 3, last := bit d 2, bytes := bs },
      flitCrc bs seq = BitVec.ofNat 32 (getLE frame (7936 + 4 * i) 4)))

/-- The data slots of a valid frame processed in order (R275); none on a protocol error (R283). -/
def Port.receive (p : Port) (reset inj : Bool) : List GotSlot → Option Port
  | [] => some p
  | (f, ok) :: t =>
    let q := if ok then p
      else if inj then { p with slotFailInj := p.slotFailInj + 1 } else { p with slotFail := p.slotFail + 1 }
    if 2 ^ 31 ≤ sub32 f.seq q.next then q.receive reset inj t
    else if f.seq = q.next ∧ ok then
      match q.acceptFlit reset f with
      | none => none
      | some r => r.receive reset inj t
    else { q with discarding := true, replayFrom := q.next }.receive reset inj t

/-- What an acknowledgement, the credits and the replay request of a trailer do at the transmitter (R277, R278,
R281). -/
def State.takeTrailer (s : State) (port : Nat) (t : Trailer) : State :=
  let kept := (s.port port).replayBuf.filter (fun f => sub32 f.seq (t.ack + 1) < 2 ^ 31)
  let moved := kept.length ≠ (s.port port).replayBuf.length
  let u := s.modPort port (fun p =>
    { p with replayBuf := kept, cred := t.cred, lastReplay := if moved then none else p.lastReplay })
  let u := (if moved then u.mile (source 5 0 port) 1 else u).sendWaiting
  if t.replayReq then u.askedReplay port t.replayFrom else u

/-- Packet kinds that R290 defines. -/
def kindDefined (k : Nat) : Bool := k ≠ 0 && k ≠ 7 && k < 0xD

/-- The oldest whole packet of a lane taken, its buffer places freed; what has arrived of the next request goes with them,
which is now at the front of its lane (R281). -/
def Port.pop (p : Port) (reset : Bool) (vl : Nat) : Port :=
  match nth [] p.rxq vl with
  | [] => p
  | (_, n) :: rest =>
    let q := { p with rxq := setNth p.rxq vl (fun _ => rest) }
    q.free reset vl (n + if q.streams vl then (nth [] q.rxPart vl).length else 0)

/-- An EPOCH_NOTICE for a refused packet whose EPOCH was revoked (R300). -/
def State.noticeFor (s : State) (x : Packet) : State :=
  if x.epoch ∈ s.rails.revoked then s.notice x.src x.epoch else s

/-- Whole packets of a reserved kind are refused as they arrive: misrouted ones are counted, others answered PROTOCOL
(R290, R294, R300). -/
def State.refuseReserved (s : State) (port : Nat) : State :=
  let bad := (s.port port).rxq.zipIdx.flatMap (fun (l, vl) =>
    (l.filter (fun x => !kindDefined x.1.kind)).map (fun x => (x.1, x.2, vl)))
  let t := s.modPort port (fun p => { p with rxq := p.rxq.map (fun l => l.filter (fun x => kindDefined x.1.kind)) })
  bad.foldl (fun t (x, n, vl) =>
    let u := t.modPort port (fun p => p.free t.computeReset vl n)
    if x.dst ≠ u.rails.node then u.drop (fun d => { d with misroute := d.misroute + 1 })
    else (u.dack x.src x.tag rsProtocol).noticeFor x) t

/-- RAIL_UP (R370). -/
def State.railUp (s : State) (port : Nat) (node : W32) : State :=
  ((s.modPort port (fun p => { p.restart .up with peerNode := node })).event 0x0981
    (leBytes 1 port ++ leBytes 3 0 ++ leBytes 4 node.toNat)).sendWaiting

/-- A valid frame received (R274, R275, R284, R287). -/
def State.validFrame (s : State) (port : Nat) (frame : List Byte) (t : Trailer) : State :=
  let s := s.modPort port (fun p => { p with peerNode := t.node })
  if t.state = 2 then s.linkDown port ldQuiet
  else if 2 < t.state then s
  else
    let s := if (s.port port).state = .init then s.railUp port t.node else s
    let u := s.takeTrailer port t
    if (u.port port).state ≠ .up then u
    else
      match (u.port port).receive u.computeReset t.inj (dataSlots frame t.seqBase) with
      | none => u.linkDown port ldProtocol
      | some p => (u.modPort port (fun _ => p)).refuseReserved port

/-- FRAME_RECEIVE (R40, R268, R271 to R276, R278 to R284, R287, R318, R319): a frame as the decoder delivers it, with the
symbols it corrected and the codewords it could not. -/
def execFrameReceive (port : Fin 20) (frame : List Byte) (corrected uncorrectable : Nat) (s : State) :
    Host.Outcome State Fault Refusal :=
  if ¬ frameOk frame then .fault .illFormed
  else
    let p := s.port port.val
    .next (
      if (p.state ≠ .init ∧ p.state ≠ .up) ∨ p.unit = .absent then s
      else
        let s := s.modPort port.val (fun p => { p with
          fecCorrected := p.fecCorrected + BitVec.ofNat 64 corrected
          fecUncorrectable := p.fecUncorrectable + BitVec.ofNat 64 uncorrectable })
        let bs := slice frame 7936 256
        let t := Trailer.parse bs
        if crc32c (bs.take 252) = BitVec.ofNat 32 (getLE bs 252 4) then s.validFrame port.val frame t
        else
          s.modPort port.val (fun p =>
            let p := { p with discarding := true, replayFrom := p.next }
            if t.inj then { p with trailerFailInj := p.trailerFailInj + 1 }
            else { p with trailerFail := p.trailerFail + 1 }))

/-! ## Sending (R270 to R273, R276 to R278, R281, R317) -/

/-- Order in which the lanes fill a frame: replies and management before requests (log entry 23). -/
def laneOrder : List Nat := [3, 1, 2, 0]

/-- Flits to be sent again, at most n, and the port after them. -/
def Port.sendReplay (p : Port) (n : Nat) : List Flit × Port :=
  match p.replayAt with
  | none => ([], p)
  | some x =>
    let l := p.replayBuf.filter (fun f => sub32 f.seq x < 2 ^ 31)
    (l.take n, { p with replayAt := if l.length ≤ n then none else (l[n]?).map (fun f => f.seq) })

/-- New flits of one lane, at most n: a credit each, and room in the replay buffer (R277, R281). -/
def Port.sendNew (p : Port) (vl : Nat) : Nat → List Flit × Port
  | 0 => ([], p)
  | n + 1 =>
    match nth [] p.txq vl with
    | [] => ([], p)
    | f :: rest =>
      if ¬ p.hasCredit vl ∨ 2048 ≤ p.replayBuf.length then ([], p)
      else
        let g := { f with seq := p.txNext }
        let q := { p with
          txNext := p.txNext + 1, replayBuf := p.replayBuf ++ [g], txq := setNth p.txq vl (fun _ => rest)
          sent := setNth p.sent vl (fun c => c + 1) }
        let r := q.sendNew vl n
        (g :: r.1, r.2)

/-- The flits of the next frame: those to be sent again, then new ones; how many are new. -/
def Port.fill (p : Port) : List Flit × Nat × Port :=
  let r := p.sendReplay 31
  laneOrder.foldl (fun (l, k, q) vl =>
    let x := q.sendNew vl (31 - l.length)
    (l ++ x.1, k + x.1.length, x.2)) (r.1, 0, r.2)

/-- The injection into a frame's slots (R317): kind 0 DROP, 1 CORRUPT_SLOT, 3 REORDER; CORRUPT_TRAILER acts on the
trailer. -/
def injectSlots (kind : Nat) (slots : List SentSlot) : List SentSlot :=
  if kind = 0 then SentSlot.idle :: slots.drop 1
  else if kind = 1 then setNth slots 0 (fun x => { x with crc := x.crc ^^^ 1 })
  else if kind = 3 then
    match slots with
    | a :: b :: t => b :: a :: t
    | l => l
  else slots

/-- The injection due in a frame with some data flits, and the port's injection after it. -/
def Injection.next (i : Injection) (flits : Nat) : Bool × Option Injection :=
  if flits = 0 then (false, some i)
  else if i.phase + 1 < i.period ∨ (i.kind = 3 ∧ flits < 2) then
    (false, some { i with phase := min (i.phase + 1) (i.period - 1) })
  else (true, if i.left ≤ 1 then none else some { i with left := i.left - 1, phase := 0 })

/-- The frame sent by a port, and the port after it. -/
def State.buildFrame (s : State) (n : Nat) : List Byte × Nat × Port :=
  let p := s.port n
  let up := p.state = .up
  let x : List Flit × Nat × Port := if up then p.fill else ([], 0, p)
  let inj : Bool × Option Injection := match p.inject with
    | some i => if up ∧ s.mayInject i then i.next x.1.length else (false, if s.mayInject i then some i else none)
    | none => (false, none)
  let kind := (p.inject.map (fun i => i.kind)).getD 0
  let slots := x.1.map Flit.slot
  let slots := if inj.1 then injectSlots kind slots else slots
  let slots := slots ++ List.replicate (31 - slots.length) SentSlot.idle
  let first := ((if inj.1 ∧ kind = 0 then x.1.drop 1 else x.1).head?.map (fun f => f.seq)).getD x.2.2.txNext
  let t : Trailer :=
    { inj := inj.1, replayReq := p.discarding, state := if up then 1 else if p.state = .init then 0 else 2
      node := s.rails.node, cred := (List.range 4).map (fun v => nth 0 p.freed v + nth 0 Port.depths v)
      replayFrom := if p.discarding then p.replayFrom else 0, ack := p.next - 1, seqBase := first }
  let tb := trailerBytes slots t n s.rails.epoch p.frame
  let crc := crc32c tb
  let crc := if inj.1 ∧ kind = 2 then crc ^^^ 1 else crc
  ((slots.map (fun s => s.bytes)).flatten ++ tb ++ leBytes 4 crc.toNat, x.2.1,
    { x.2.2 with frame := p.frame + 1, inject := inj.2 })

/-- FRAME_SEND (R40, R270 to R278, R281, R284, R317): a port in INIT, UP or QUIET sends its next frame. -/
def execFrameSend (port : Fin 20) (s : State) : Host.Outcome State Fault Refusal :=
  let st := (s.port port.val).state
  .next (
    if st = .down ∨ st = .training ∨ (s.port port.val).unit = .absent then s
    else
      let x := s.buildFrame port.val
      ((s.modPort port.val (fun _ => x.2.2)).emit (.frame port.val x.1)).mile (source 5 0 port.val) x.2.1)

/-! ## Timers and states (R278, R284, R287, R304) -/

/-- REPLAY_TIMEOUT (R278, R279): the oldest unacknowledged flit had no acknowledgement for 4 µs. -/
def execReplayTimeout (port : Fin 20) (s : State) : Host.Outcome State Fault Refusal :=
  .next (
    if (s.port port.val).state ≠ .up then s
    else match (s.port port.val).replayBuf with
      | [] => s
      | f :: _ => s.startReplay port.val f.seq)

/-- TRAILER_TIMEOUT (R287, R288): 8 µs without a valid trailer. -/
def execTrailerTimeout (port : Fin 20) (s : State) : Host.Outcome State Fault Refusal :=
  .next (if (s.port port.val).state = .up then s.linkDown port.val ldTimeout else s)

/-- TRAINING_DONE (R269, R284): the four lanes are trained. -/
def execTrainingDone (port : Fin 20) (s : State) : Host.Outcome State Fault Refusal :=
  .next (if (s.port port.val).state = .training ∧ (s.port port.val).unit ≠ .absent then
      s.modPort port.val (fun p => p.restart .init)
    else s)

/-- TRAINING_RETRY (R269, R284): training did not succeed; the port stays in TRAINING and tries again. -/
def execTrainingRetry (port : Fin 20) (s : State) : Host.Outcome State Fault Refusal :=
  .next (if (s.port port.val).state = .training then s.modPort port.val (fun p => p.restart .training) else s)

/-- QUIET_END (R284): after 1 µs of QUIET frames the port is DOWN. -/
def execQuietEnd (port : Fin 20) (s : State) : Host.Outcome State Fault Refusal :=
  .next (if (s.port port.val).state = .quiet then s.portGone port.val .down ldQuiet else s)

/-- A packet sent again whole on another port of the route, or given up where its destination is unreachable (R304). -/
def State.resendOne (s : State) (port : Nat) (o : OutPacket) : State :=
  (s.place_ { o with port := port }).modPort port (fun p => { p with resent := p.resent + 1 })

/-- What becomes of a packet 1 ms after its port went down (R304). -/
def State.resettlePacket (s : State) (port : Nat) (o : OutPacket) : State :=
  let k := o.packet.kind
  if s.unreachable o.packet.dst then s.answered o none cleanLines
  else if k = 1 ∨ k = 3 ∨ k = 4 ∨ k = 8 ∨ k = 9 then s.resendOne port o
  else if k = 2 then s.answered o none cleanLines
  else if k = 5 then { s with rails.out := s.rails.out ++ [o] }
  else s

/-- RESEND_WAIT_EXPIRY (R304): 1 ms after a port's link went down. -/
def execResendWaitExpiry (port : Fin 20) (s : State) : Host.Outcome State Fault Refusal :=
  .next (match s.rails.resend.find? (fun x => x.1 = port.val) with
    | none => s
    | some x =>
      x.2.foldl (fun t o => t.resettlePacket port.val o) { s with rails.resend := s.rails.resend.erase x })

end Sys2Proof.Machine
end

