-- ==== Sys2Proof/Machine/RailPackets.lean ====
section
/-! DEFINITION. Packets received (R158, R262, R290 to R301, R309 to R313): each command acts on the oldest whole packet of
its kind at the front of a lane of its port. -/

namespace Sys2Proof.Machine

/-! ## Taking a packet -/

/-- The lane whose oldest whole packet is of a kind, with the packet. -/
def Port.front (p : Port) (kind : Nat) : Option (Nat × Packet) :=
  (List.range 4).findSome? (fun vl =>
    match nth [] p.rxq vl with
    | [] => none
    | (x, _) :: _ => if x.kind = kind then some (vl, x) else none)

/-- A packet taken off its lane, its places freed. -/
def State.popPacket (s : State) (port vl : Nat) : State := s.modPort port (fun p => p.pop s.computeReset vl)

/-- The lengths that R290 allows a kind. -/
def lengthOk (x : Packet) : Bool :=
  if x.kind = 1 then 0 < x.length && x.length ≤ 2097152
  else if x.kind = 5 then x.length = 272
  else if x.kind = 8 then x.length = 4112
  else if x.kind = 9 then x.length = 4112 || (0 < x.length && x.length ≤ 4096)
  else if x.kind = 0xB then
    let n := field x.arg.toNat 7 0
    0 < n && n ≤ 28 && x.length = 8 * n
  else x.length = 0

/-- The answer that a packet gets: a DACK entry, or REJECT for a MIRROR_CLOSE (R292). -/
def State.answer (s : State) (x : Packet) (result : Nat) : State :=
  if x.kind = 5 then s.mirrorReplyTo x.src x.tag x.arg false else s.dack x.src x.tag result

/-- The flits of a discarded packet are counted (R40, R202). -/
def State.dropFlits (s : State) (x : Packet) : State :=
  s.drop (fun d => { d with flit := d.flit + BitVec.ofNat 64 (flitCount x.length) })

/-- A refused packet is counted where its result says so, and answered (R291, R292). -/
def State.refuse (s : State) (x : Packet) (result : Nat) : State :=
  let t :=
    if result = rsGen ∨ result = rsReset then s.dropFlits x
    else if result = rsPerm then s.drop (fun d => { d with refused := d.refused + 1 })
    else if result = rsEpoch then s.drop (fun d => { d with epoch := d.epoch + 1 })
    else if result = rsTarget then
      (if x.kind = 2 then s.drop (fun d => { d with signal := d.signal + 1 })
       else if x.kind = 3 then s.drop (fun d => { d with doorbell := d.doorbell + 1 })
       else s.drop (fun d => { d with refused := d.refused + 1 }))
    else s
  t.answer x result

/-- The permission bit that a kind needs (R157, R158). -/
def Peer.permits (p : Peer) (kind : Nat) : Bool :=
  if kind = 2 then p.signalIn else if kind = 3 then p.doorbellIn else p.writeIn

/-- Peer entries of a context that name a node with the permission for a kind. -/
def Context.entriesFor (c : Context) (node : W32) (kind : Nat) : List Nat :=
  (List.range c.peers.length).filter (fun i => (c.peer i).any (fun p => p.node = node ∧ p.permits kind))

/-- The result that refuses a packet for a context: PROTOCOL, epoch (R299), generation and permission (R158). -/
def State.packetRefusal (s : State) (x : Packet) : Option Nat :=
  let c := s.ctx x.ctx
  if s.computeReset ∨ x.isCut then some rsReset
  else if ¬ lengthOk x then some rsProtocol
  else if s.rails.epoch = 0 ∨ x.epoch ≠ s.rails.epoch then some rsEpoch
  else if (c.state ≠ .active ∧ c.state ≠ .halted) ∨ c.gen ≠ x.gen then some rsGen
  else if c.entriesFor x.src x.kind = [] then some rsPerm
  else none

/-- A packet for a context: taken, and dropped where it is misrouted (R294), refused, or acted on. -/
def State.onPacket (s : State) (port kind : Nat) (act : Packet → State → State) : State :=
  match (s.port port).front kind with
  | none => s
  | some (vl, x) =>
    let t := s.popPacket port vl
    if x.dst ≠ t.rails.node then t.drop (fun d => { d with misroute := d.misroute + 1 })
    else
      match t.packetRefusal x with
      | some r => (t.refuse x r).noticeFor x
      | none => act x t

/-! ## WRITE, SIGNAL, DOORBELL -/

/-- A remote write applied line by line, each line applied counted where it falls into a mirror's slot (R262). True where
a merge read was uncorrectable: that line is left as it was (R232, R291). -/
def State.applyWrite (s : State) (ctx va : Nat) (bs : List Byte) (lines : LineEcc) : Bool × State :=
  (linePieces (bs.length + 1) va bs).foldl (fun (bad, t) (a, b) =>
    match (t.ctx ctx).translate true a with
    | none => (bad, t)
    | some pa =>
      let r := t.lineStore pa b (lineErr lines pa)
      if r.1 then (true, r.2.noteLine pa (some (ctx, (t.ctx ctx).gen)))
      else (bad, (r.2.modCtx ctx (fun c => c.markDirty a b.length)).modStore ctx (fun y => y.count a b.length))) (false, s)

/-- WRITE (R158, R232, R260, R290 to R294, R299, R300). -/
def execWrite (port : Fin 20) (lines : LineEcc) (s : State) : Host.Outcome State Fault Refusal :=
  .next (s.onPacket port.val 1 (fun x t =>
    let va := x.arg.toNat
    if ¬ (t.ctx x.ctx).mapped true va x.length then t.answer x rsTranslation
    else
      let r := t.applyWrite x.ctx va x.data lines
      r.2.answer x (if r.1 then rsMerge else rsApplied)))

/-- SIGNAL (R158, R183, R291, R299). -/
def execSignal (port : Fin 20) (s : State) : Host.Outcome State Fault Refusal :=
  .next (s.onPacket port.val 2 (fun x t =>
    let tok := field x.arg.toNat 47 32
    if (t.token tok).owner ≠ some x.ctx then t.refuse x rsTarget
    else (t.addToken tok (BitVec.ofNat 32 (field x.arg.toNat 31 0))).answer x rsApplied))

/-- DOORBELL (R158, R163, R166, R171, R291): a ring bound to the context and fed by the sending peer entry. -/
def execDoorbell (port : Fin 20) (s : State) : Host.Outcome State Fault Refusal :=
  .next (s.onPacket port.val 3 (fun x t =>
    let ring := field x.arg.toNat 43 32
    let fed := (t.ring ring).feeder.any (fun i => i ∈ (t.ctx x.ctx).entriesFor x.src 3)
    if ¬ t.boundTo ring x.ctx ∨ ¬ fed then t.refuse x rsTarget
    else (t.newTail ring (BitVec.ofNat 32 (field x.arg.toNat 31 0))).answer x rsApplied))

/-! ## Mirrors at the buddy (R262) -/

/-- Whole lines that the module itself writes to a context's memory: they mark no page (R260). -/
def State.putOwn (s : State) (ctx va : Nat) (bs : List Byte) : State :=
  (linePieces (bs.length + 1) va bs).foldl (fun t (a, b) =>
    match (t.ctx ctx).translate true a with
    | none => t
    | some pa => (t.lineStore pa b .clean).2) s

/-- The store record can be written: the page at virtual address 0 is mapped and writable (R155, log entry 127). -/
def Context.headerWritable (c : Context) : Bool := (c.translate true 0).isSome

/-- The store of a context that takes a node's mirror, its restore not running (R258, R265, R291). -/
def State.storeFor (s : State) (x : Packet) : Option Store :=
  match (s.ctx x.ctx).store with
  | some y => if y.sourceNode = x.src ∧ y.restoring.isNone then some y else none
  | none => none

/-- MIRROR_OPEN (R262, R291). -/
def execMirrorOpen (port : Fin 20) (lines : LineEcc) (s : State) : Host.Outcome State Fault Refusal :=
  .next (s.onPacket port.val 4 (fun x t =>
    match t.storeFor x with
    | none => t.refuse x rsTarget
    | some _ =>
      let r := t.storeRecord x.ctx lines
      let slot := bit x.pflags 0
      if r.2.1.valid ∧ r.2.1.slot = slot then r.2.2.answer x rsBusy
      else
        (r.2.2.modStore x.ctx (fun y => { y with opened := some (x.arg, slot, (t.ctx x.ctx).gen), applied := 0 })).answer x
          rsApplied))

/-- Entries of a region table in use. -/
def regionCount (table : List Byte) : Nat := ((List.range 16).filter (fun i => getLE table (16 * i + 8) 8 ≠ 0)).length

/-- MIRROR_CLOSE (R259, R262, R292): ACCEPT writes the store record first; every other case is REJECT. -/
def execMirrorClose (port : Fin 20) (s : State) : Host.Outcome State Fault Refusal :=
  .next (s.onPacket port.val 5 (fun x t =>
    match t.storeFor x with
    | none => t.refuse x rsTarget
    | some y =>
      let c := t.ctx x.ctx
      let slot := bit x.pflags 0
      if y.opened ≠ some (x.arg, slot, c.gen) ∨ y.applied ≠ getLE x.data 0 8 ∨ ¬ c.headerWritable then t.answer x 0
      else
        let p := nth { node := 0, remoteGen := 0, remoteCtx := 0, doorbellIn := false, signalIn := false, writeIn := false
                       valid := false } c.peers y.sourcePeer
        let table := slice x.data 16 256
        let r : StoreRecord :=
          { step := x.arg, seed := BitVec.ofNat 64 (getLE x.data 8 8), node := y.sourceNode, ctx := p.remoteCtx
            gen := p.remoteGen, slot := slot, valid := true, epoch := t.rails.epoch
            slotBytes := BitVec.ofNat 64 y.slotBytes, regions := regionCount table }
        (t.putOwn x.ctx 0 (r.bytes ++ table)).mirrorReplyTo x.src x.tag x.arg true))

/-! ## Answers -/

/-- A packet of a reply lane: taken, and dropped where it is misrouted, or under R40. -/
def State.onReply (s : State) (port kind : Nat) (act : Packet → State → State) : State :=
  match (s.port port).front kind with
  | none => s
  | some (vl, x) =>
    let t := s.popPacket port vl
    if x.dst ≠ t.rails.node then t.drop (fun d => { d with misroute := d.misroute + 1 })
    else if t.computeReset ∨ x.isCut then t.dropFlits x
    else if ¬ lengthOk x then t
    else act x t

/-- The packet not settled that an answer names, from the node that answers. -/
def State.unsettled (s : State) (node tag : W32) (p : OutPacket → Bool) : Option OutPacket :=
  s.rails.unsettled.find? (fun o => o.packet.tag = tag ∧ o.packet.dst = node ∧ p o)

/-- A packet is settled: it waits for nothing any more. -/
def State.settled (s : State) (o : OutPacket) : State :=
  { s with
    rails.out := s.rails.out.filter (fun x => x ≠ o)
    rails.waiting := s.rails.waiting.filter (fun x => x ≠ o)
    rails.resend := s.rails.resend.map (fun x => (x.1, x.2.filter (fun y => y ≠ o))) }

/-- Packets of mirrors' CLOSEs. -/
def isClose (o : OutPacket) : Bool := o.packet.kind = 5

/-- What follows an answer. -/
def State.follow (s : State) (lines : LineEcc) (o : OutPacket) : Answer → State
  | .result r => s.answered o (some r) lines
  | .reply accept =>
    match o.waiter with
    | .mirrorClose c => s.closeAnswered c o.packet.tag.toNat accept
    | _ => s

/-- An answer taken in: its packet is settled, and what follows happens now, or once the compute clock runs again where
it is stopped (R282, R609). -/
def State.takeAnswer (s : State) (lines : LineEcc) (o : OutPacket) (a : Answer) : State :=
  let t := s.settled o
  if s.frozen then { t with rails.held := t.rails.held ++ [(o, a)] } else t.follow lines o a

/-- MIRROR_REPLY (R198, R260, R261, R263, R282, R609): matched by REQ_TAG. -/
def execMirrorReply (port : Fin 20) (s : State) : Host.Outcome State Fault Refusal :=
  .next (s.onReply port.val 6 (fun x t =>
    match t.unsettled x.src x.tag isClose with
    | none => t
    | some o => t.takeAnswer cleanLines o (.reply (bit x.pflags 0))))

/-- One entry of a DACK. -/
def State.dackEntry (s : State) (lines : LineEcc) (node : W32) (entry : Nat) : State :=
  match s.unsettled node (BitVec.ofNat 32 (field entry 31 0)) (fun o => !isClose o) with
  | none => s
  | some o => s.takeAnswer lines o (.result (field entry 39 32))

/-- DACK (R193, R235, R261, R263, R265, R282, R293, R295, R609). -/
def execDack (port : Fin 20) (lines : LineEcc) (s : State) : Host.Outcome State Fault Refusal :=
  .next (s.onReply port.val 0xB (fun x t =>
    ((List.range (field x.arg.toNat 7 0)).foldl (fun t i => t.dackEntry lines x.src (getLE x.data (8 * i) 8)) t).resumeColls
      { noErrs with lines := lines } []))

/-- The answers and replies that were taken in while the compute clock was stopped take their effect (R282, R469, R609). -/
def State.thawAll (s : State) : State :=
  let t := s.rails.held.foldl (fun t x => t.follow cleanLines x.1 x.2) { s with rails.held := [] }
  t.thaw.resumeColls noErrs []

/-! ## Collectives (R309 to R313) -/

/-- ARG of a collective packet (R290). -/
def clArgMismatch (x : Packet) : Bool := bit x.arg.toNat 56
def clArgTree (x : Packet) : Nat := field x.arg.toNat 55 52
def clArgGroup (x : Packet) : Nat := field x.arg.toNat 51 48
def clArgSeg (x : Packet) : Nat := field x.arg.toNat 47 32
def clArgSeq (x : Packet) : W32 := BitVec.ofNat 32 (field x.arg.toNat 31 0)

/-- The trees of the group that a packet names. -/
def State.treesFor (s : State) (x : Packet) : List Tree := Table.get [] (s.ctx x.ctx).groups (clArgGroup x)

/-- Its operation is the group's last completed one, or precedes it (R310, log entry 24). -/
def State.opOver (s : State) (x : Packet) : Bool :=
  match Table.get none (s.ctx x.ctx).opDone (clArgGroup x) with
  | none => false
  | some d => sub32 d (clArgSeq x) < 2 ^ 31

/-- A contribution discarded and counted (R310, R319). -/
def State.duplicate (s : State) (port : Nat) (x : Packet) : State :=
  (s.modPort port (fun p => { p with collDuplicate := p.collDuplicate + 1 })).answer x rsApplied

/-- The accumulator of the segment that a packet names, or a fresh one. -/
def State.accumFor (s : State) (x : Packet) : Accum :=
  (s.accum x.ctx (clArgGroup x) (clArgSeq x) (clArgSeg x)).getD
    (s.newAccum x.ctx (clArgGroup x) (clArgSeq x) (clArgSeg x))

/-- The neighbour that sent a packet, among some entries of the tree that its segment travels on. -/
def State.neighbour (s : State) (x : Packet) (among : Tree → List Nat) : Option Nat :=
  let ts := s.treesFor x
  if ts = [] ∨ clArgTree x ≠ clArgSeg x % ts.length then none
  else (among (treeOf ts (clArgSeg x))).find? (fun i => i ∈ (s.ctx x.ctx).entriesFor x.src x.kind)

/-- A COLL_UP must wait: no accumulator is free for it (R310), or the clock is stopped (R609). -/
def State.upWaits (s : State) (port : Nat) : Bool :=
  s.frozen ||
    match (s.port port).front 8 with
    | none => false
    | some (_, x) =>
      let a := s.accumFor x
      (s.packetRefusal x).isNone && !s.opOver x && a.sum.isNone && !a.sentUp && !s.accumFree a.half

/-- COLL_UP (R79, R85, R306, R310, R311): a child's contribution. -/
def execCollUp (port : Fin 20) (errs : MemErrs) (sums : List SumSlip) (s : State) : Host.Outcome State Fault Refusal :=
  .next (
    if s.upWaits port.val then s
    else s.onPacket port.val 8 (fun x t =>
      match t.neighbour x (fun r => r.children) with
      | none => t.refuse x rsPerm
      | some i =>
        let a := t.accumFor x
        if t.opOver x ∨ a.sources.contains (some i) then t.duplicate port.val x
        else
          let a := a.take (some i) x.data (clArgMismatch x) sums
          let u := match t.running_ x.ctx (clArgGroup x) (clArgSeq x) with
            | none => t.setAccum a
            | some f => (t.collSum f errs a).resumeColls errs sums
          u.answer x rsApplied))

/-- COLL_DOWN (R282, R309, R311, R312, R609): the parent's result; it waits where its wagon has not started or the
compute clock is stopped. -/
def execCollDown (port : Fin 20) (errs : MemErrs) (s : State) : Host.Outcome State Fault Refusal :=
  .next (s.onPacket port.val 9 (fun x t =>
      match t.neighbour x (fun r => r.parent.toList) with
      | none => t.refuse x rsPerm
      | some _ =>
        let a := t.accumFor x
        if t.opOver x ∨ a.written ∨ (a.sentUp ∧ a.sum.isSome) then t.duplicate port.val x
        else
          let a := { a with mismatch := a.mismatch || clArgMismatch x }
          let wait := (t.setAccum { a with sum := some x.data, sentUp := true }).answer x rsApplied
          match t.running_ x.ctx (clArgGroup x) (clArgSeq x) with
          | none => wait
          | some f =>
            if x.length ≠ clBytes f.bits (clArgSeg x) then t.answer x rsProtocol
            else if t.frozen then wait
            else ((t.collResult f errs a x.data).resumeColls errs []).answer x rsApplied))

/-- COLL_ABORT (R313): the running wagon of the operation ends, and the abort goes on to the other neighbours. -/
def execCollAbort (port : Fin 20) (s : State) : Host.Outcome State Fault Refusal :=
  .next (
    if s.frozen then s
    else s.onPacket port.val 0xA (fun x t =>
      let u := match t.running_ x.ctx (clArgGroup x) (clArgSeq x) with
        | none => t
        | some f =>
          (t.collEnd f wsRemoteAbort ((t.ctx x.ctx).entriesFor x.src 0xA)).decide f.ring f.index
            (lowestCause (addTo wsRemoteAbort f.causes)) f.flags
      (u.resumeColls noErrs []).answer x rsApplied))

/-! ## Epoch notices and siding (R301, R510) -/

/-- Siding entered (R510): the epoch becomes 0 and the previous one revoked, and every context's teardown begins. -/
def State.enterSiding (s : State) : State :=
  let e := s.rails.epoch
  let t := { s.revoke e with rails.epoch := 0 }
  (t.ctxIds.filter (fun c =>
    let st := (t.ctx c).state
    st = .active ∨ st = .halted ∨ st = .restoring)).foldl (fun t c => t.beginTeardown c none) t

/-- EPOCH_NOTICE (R294, R301, R510): the own epoch was revoked, under another current one; every other notice is
ignored. -/
def execEpochNotice (port : Fin 20) (s : State) : Host.Outcome State Fault Refusal :=
  .next (match (s.port port.val).front 0xC with
    | none => s
    | some (vl, x) =>
      let t := s.popPacket port.val vl
      let current := BitVec.ofNat 32 (field x.arg.toNat 63 32)
      let revoked := BitVec.ofNat 32 (field x.arg.toNat 31 0)
      if x.dst ≠ t.rails.node then t.drop (fun d => { d with misroute := d.misroute + 1 })
      else if ¬ lengthOk x ∨ t.rails.epoch = 0 ∨ revoked ≠ t.rails.epoch ∨ current = revoked then t
      else
        let u := { t with rails.stopped := true }.event 0x0982 (leBytes 4 revoked.toNat ++ leBytes 4 current.toNat)
        (u.loseNodes (fun _ => true)).enterSiding)

end Sys2Proof.Machine
end

