-- ==== Sys2Proof/Machine/Recover.lean ====
section
/-! DEFINITION. The Signal Box's decisions (R481 to R488, R501, R503, R506) and the ladder of recovery (R36 to R45, R135,
R209, R485, R496 to R499, R502, R504), with the profile (R7 to R9). -/

namespace Sys2Proof.Machine

/-! ## The profile (R7 to R9) -/

/-- Serviceable partitions, ascending (R6). One that ceased to be serviceable counts until its reset is over and it is
fenced (R498). -/
def State.serviceable (s : State) : List Nat :=
  (List.range 8).filter (fun p => (s.part p).unit = .inService ∨ (s.part p).serviceable)

/-- The profile that stands without trimming (R7). -/
def State.untrimmed (s : State) : Nat := rungOf (min s.serviceable.length (profileMax s.fuses.part))

/-- The profile that R7 gives, lowered where it is trimmed (R460). -/
def State.profileDue (s : State) : Nat := if s.cap.trimmed then min s.untrimmed s.cap.trimCap else s.untrimmed

/-- A context is granted a partition. -/
def State.isGranted (s : State) (p : Nat) : Bool :=
  s.ctxs.any (fun (_, c) => c.state ≠ .free && c.state ≠ .quarantine && c.yard.any (fun w => w.phys = p))

/-- The order in which partitions are held: highest first, those without contexts before the others (R8). -/
def State.holdOrder (s : State) (ps : List Nat) : List Nat :=
  (ps.filter (fun p => ¬ s.isGranted p)).reverse ++ (ps.filter (fun p => s.isGranted p)).reverse

/-- The unit state of a partition set. -/
def State.setPart (s : State) (p : Nat) (u : UnitState) : State := s.modPart p (fun q => { q with unit := u })

/-- A context whose partition was lost without replacement: halted with cause RESET, and not to be resumed (R8,
R498). -/
def State.strand (s : State) (c : Nat) : State :=
  (if (s.ctx c).state = .active then s.haltAll c .reset else s).modCtx c (fun x => { x with lostPart := true })

/-- A partition held, with the contexts granted it stranded (R8). -/
def State.holdPart (s : State) (p : Nat) : State := (s.grantedTo p).foldl State.strand (s.setPart p .held)

/-- Trimming over where it holds no partition any more: Run, and TRIMMED clear (R460). -/
def State.trimEnd (s : State) : State :=
  if s.cap.trimmed ∧ s.untrimmed ≤ s.cap.trimCap then
    { s with
      cap.trimmed := false, cap.trimCap := 8
      power.state := if s.power.state = .trimmed then PowerState.run else s.power.state }
  else s

/-- The marks of the partitions held for power: those of the held ones, lowest first, that the profile would have without
trimming (R389, R460). -/
def State.markHeld (s : State) : State :=
  let held := (List.range 8).filter (fun p => (s.part p).unit = .held)
  let marked := if s.cap.trimmed then held.take (s.untrimmed - s.cap.profile) else []
  { s with parts := s.parts.zipIdx.map (fun x => { x.1 with heldForPower := marked.contains x.2 }) }

/-- Partitions brought into service or held as the profile asks (R7, R8, R460). -/
def State.settleParts (s : State) : State :=
  let s := s.trimEnd
  let due := s.profileDue
  let on := s.serviceable.filter (fun p => (s.part p).unit = .inService)
  let held := s.serviceable.filter (fun p => (s.part p).unit = .held)
  let t := (held.take (due - on.length)).foldl (fun t p => t.setPart p .inService) s
  let u := ((t.holdOrder on).take (on.length - due)).foldl State.holdPart t
  { u with cap.profile := due }.markHeld

/-- A change of units and of the profile after it: the descriptor first, then PROFILE_CHANGE (R9). -/
def State.reprofile (s : State) (f : State → State) : State :=
  let t := s.recap (fun s => (f s).settleParts)
  if t.cap.profile = s.cap.profile then t
  else t.event 0x0181 (leBytes 1 s.cap.profile ++ leBytes 1 t.cap.profile ++ leBytes 2 0 ++ leBytes 4 t.cap.changeCount.toNat)

/-! ## Events (R481 to R484) -/

/-- The class of a code: C, D, U, M, P, S from 0 (R484). -/
def codeClass (code : Nat) : Nat := code / 256 - 1

/-- Codes of the catalogue (R484). -/
def codeKnown (code : Nat) : Bool :=
  let n := code % 256
  let limits := [5, 5, 0xA, 7, 5, 1]
  0x0100 ≤ code && code < 0x0700 && 1 ≤ n && n ≤ nth 0 limits (codeClass code) && code ≠ 0x030C

/-- The level that the catalogue gives a code (R484); 0x0405 and 0x0601 have theirs elsewhere. -/
def codeLevel (code : Nat) : Nat :=
  if code = 0x0203 then 1
  else if code = 0x0204 ∨ (0x0301 ≤ code ∧ code ≤ 0x0306) ∨ code = 0x0502 ∨ code = 0x0503 then 2
  else if code = 0x0403 then 4
  else if code = 0x0401 ∨ code = 0x0402 ∨ code = 0x0404 ∨ code = 0x0406 then 5
  else if code = 0x0407 ∨ code = 0x0504 then 6
  else 0

/-- Codes whose level-2 reaction fences, and 0x0406, whose reset fences the device (R484). -/
def codeFences (code : Nat) : Bool :=
  code = 0x0301 || code = 0x0302 || code = 0x0303 || code = 0x0502 || code = 0x0503 || code = 0x0406

/-- A level has a scope for a source (R486). -/
def levelHasScope (level : Nat) (src : W32) (ctx : Bool) : Bool :=
  let k := srcKind src
  if level = 1 then ctx
  else if level = 2 then (1 ≤ k && k ≤ 5) || k = 9 || k = 0xB || k = 0xE
  else if level = 3 then (partOf src).isSome
  else if level = 4 then inCompute src
  else true

/-- The level to be taken: the lowest from a level on that has a scope (R486). -/
def scopedLevel (level : Nat) (src : W32) (ctx : Bool) : Nat :=
  if level = 0 then 0 else ([1, 2, 3, 4, 5].find? (fun l => level ≤ l && levelHasScope l src ctx)).getD 6

/-- A reset of a kind completed within the last 600 s (R501). -/
def State.doneLately (s : State) (src : W32) : Bool := s.past.rungDone.any (fun e => e.source = src ∧ s.within e.sec 600)

/-- Where completions of resets are kept in the history: a partition, the compute domain, the module (R502). -/
def partScope (p : Nat) : W32 := source 7 p 0
def computeScope : W32 := source 8 0 0
def moduleScope : W32 := source 0x12 0 0

/-- The rung taken for a level: partitions, the compute domain and the module climb instead of being counted (R501). -/
def State.rung (s : State) (level : Nat) (src : W32) : Nat :=
  let l3 := if level = 3 ∧ s.doneLately (partScope ((partOf src).getD 0)) then 4 else level
  let l4 := if l3 = 4 ∧ s.doneLately computeScope then 5 else l3
  if l4 = 5 ∧ s.doneLately moduleScope then 6 else l4

/-- The scope of a rung, as a SOURCE value. -/
def rungScope (level : Nat) (src : W32) : W32 :=
  if level ≤ 2 then src
  else if level = 3 then partScope ((partOf src).getD 0)
  else if level = 4 then computeScope
  else moduleScope

/-- An event changed in the log or among those without a place. -/
def State.modEvent (s : State) (id : Nat) (f : Event → Event) : State :=
  let g := fun (e : Event) => if e.id = id then f e else e
  { s with sbx.log := s.sbx.log.map g, sbx.unlogged := s.sbx.unlogged.map g }

/-- Events of the Signal Box, logged or not. -/
def State.events (s : State) : List Event := s.sbx.log ++ s.sbx.unlogged

/-- A new entry of the log: with 1,024 entries it takes the place of the oldest acknowledged one, or finds none, which
the Train Register counts (R483). -/
def State.logEvent (s : State) (e : Event) : State :=
  if s.sbx.log.length < 1024 then { s with sbx.log := s.sbx.log ++ [e] }
  else
    match s.sbx.log.find? (fun x => x.state = 2) with
    | some x => { s with sbx.log := s.sbx.log.erase x ++ [e] }
    | none => { s with sbx.unlogged := s.sbx.unlogged ++ [e] }.note 0x7F05 e.source .occurrence

/-- Power cycles requested within the last 600 s (R507). -/
def State.cyclesLately (s : State) : Nat := (s.past.powerCycles.filter (fun t => s.within t 600)).length

/-! ## Fences (R135, R401, R455, R481, R497) -/

/-- The fallback of R455: flat-follow, and a trial of the restarted engine unless the last fallback was within 600 s. -/
def State.fallBack (s : State) : State :=
  if s.power.fallback then s
  else
    s.flatWatch (fun s => { s with
      power.uc := 0, power.fallback := true, power.trial := ¬ s.power.lastFallback.any (fun t => s.within t 600)
      power.lastFallback := some s.trg.seconds })

/-- Flights of an engine pass to the spare that takes over. -/
def State.moveFlights (s : State) (p e k : Nat) : State :=
  let from_ : UnitRef := .matrix (Fin.ofNat 8 p) (Fin.ofNat 20 e)
  let to_ : UnitRef := .matrix (Fin.ofNat 8 p) (Fin.ofNat 20 k)
  let n := (s.unitFlights from_).length
  let move := fun (f : Flight) => if f.unit = from_ then { f with unit := to_ } else f
  let t := { s with marsh.flights := s.marsh.flights.map move }
  (t.modUnit from_ (fun _ => Dispatch.reset)).modUnit to_ (fun d => { d with taken := n })

/-- One unit marked fenced, with what follows at once. Below 12 control cores the reset and recovery controller reports
that a full module reset is asked for (R50, log entry 129). -/
def State.markFenced (s : State) (src : W32) : State :=
  let p := srcMid src
  let i := srcIdx src
  let k := srcKind src
  if k = 1 then
    let spare := (s.part p).spareFor i
    let t := s.modPart p (fun q => (q.fenceEngine i).2)
    match spare with
    | some j => t.moveFlights p i j
    | none => t
  else if k = 2 then s.modVec p (fun v => { v with unit := .fenced })
  else if k = 3 then s.modMover p i (fun m => { m with unit := .fenced })
  else if k = 5 then
    let t := if (s.port i).state = .up then s.linkDown i ldReset else s
    t.modPort i (fun q => { q.restart .down with unit := .fenced, inject := none })
  else if k = 9 then
    let f := fun (c : ControlCore) => { c with unit := UnitState.fenced, halted := false }
    let t : State := { s with cores := setNth s.cores i f }
    if 12 ≤ (t.cores.filter (fun c => c.unit ≠ .fenced)).length then t else t.report (source 0x12 0 0) 0x0401 none 0
  else if k = 0xB then s.fenceCart
  else if k = 0xE then s.fallBack
  else s

/-- Kinds whose fences the fence list keeps; the cartridge's and the power-control engine's end with a full module reset
(R502). -/
def keptFence (src : W32) : Bool := srcKind src ≠ 0xB && srcKind src ≠ 0xE

/-- A unit fenced, in the fence list and the descriptor (R497, R502); start-up is over where no unit is pending any more
(R395). -/
def State.fence (s : State) (src : W32) : State :=
  (s.reprofile (fun s =>
    let t := s.markFenced src
    if keptFence src then t.listFence src else t)).startDone

/-- The partition of a fenced unit that ceased to be serviceable while in service (R498). -/
def State.mustLeave (s : State) (src : W32) : Option Nat :=
  match partOf src with
  | some p => if (s.part p).unit = .inService ∧ ¬ (s.part p).serviceable then some p else none
  | none => none

/-! ## Resets -/

/-- The tree of a rung's scope: recoveries that a new one replaces (R503). -/
def Recovery.replaces (n r : Recovery) : Bool := 4 ≤ n.level || (n.level = 3 && r.level ≤ 3 && n.covers r.scope)

/-- Ports enter QUIET (R284, R286); a port that sends nothing is DOWN. -/
def State.quietPorts (s : State) : State :=
  { s with rails.ports := s.rails.ports.map (fun p =>
      if p.state = .up ∨ p.state = .init then { p with state := .quiet }
      else if p.state = .training then { p with state := .down } else p) }

/-- Every outbound ticket that may be written is written (R506). -/
def State.flushOut (s : State) (ch : Chan) : State := (s.chan ch).queue.foldl (fun t _ => t.writeTicket ch) s

/-- The block that holds block b of a partition's stall-report region, where the region has one (R223, R225). -/
def State.stallBlock (s : State) (p b : Nat) : Option Nat := s.yard.homeOf (p * 2048 + 1520 + b)

/-- The stall-report region copied to its save area (R42). -/
def State.saveStall (s : State) (p : Nat) : State :=
  let lo := p * 2 ^ 20
  let got : Bytes := (List.range 16).flatMap (fun b =>
    match s.stallBlock p b with
    | none => []
    | some h =>
    let k := h * 65536
    (s.yard.bytes.filter (fun c => k ≤ c.1 ∧ c.1 < k + 65536 ∧ c.1 / 8 ∉ s.yard.damaged)).map
      (fun c => (lo + b * 65536 + (c.1 - k), c.2)))
  { s with mem.saveArea := s.mem.saveArea.filter (fun c => c.1 < lo) ++ got ++
      s.mem.saveArea.filter (fun c => lo + 2 ^ 20 ≤ c.1) }

/-- A full module reset begins (R44, R286, R332, R500, R505, R506, R523): ports QUIET, the recorder flushed, nothing
started any more, the PCIe link dropped. -/
def State.beginModuleReset (s : State) (cause : Nat) (flush : Bool) : State :=
  let t := (if flush then s.flush else s).quietPorts
  { t with
    power.clockStopped := true, start.phase := .resetting, start.cause := cause, sbx.resetTimer := true
    cap.profileBefore := t.cap.profile, book.fwState := if flush then 4 else 0, pcie.linkUp := false
    pcie.ready := false }

/-- A power cycle requested (R506, R507): the clock stopped, ports QUIET, ALERT_L low. -/
def State.requestCycle (s : State) : State :=
  let t := s.flush.quietPorts
  ({ t with power.clockStopped := true, start.phase := .cycle, start.alert := true }.modPast (fun h =>
    { h with powerCycles := h.powerCycles ++ [t.trg.seconds] })).emit .alertLow

/-- The contexts that a partition or compute-domain reset halts pass to RESTORING (R41, R209). -/
def State.restoreAll (s : State) (cs : List Nat) : State := cs.foldl State.restoreStart s

/-- What a unit reset does when it begins: a ring's context halts with MILEPOST (R209), a port's link goes down (R45). -/
def State.unitStart (s : State) (src : W32) : State :=
  let i := srcIdx src
  if srcKind src = 4 then
    let st := (s.ctx (s.ring i).ctx).state
    if (s.ring i).state ≠ .unbound ∧ (st = .active ∨ st = .halted) then s.haltByRing i .milepost else s
  else if srcKind src = 5 then
    let p := s.port i
    if p.unit = .absent then s
    else if p.limited then s.modPort i (fun q => { q with limited := false })
    else s.linkDown i ldReset
  else s

/-- What was received on a lane that feeds the compute domain, as its reset begins (R40): whole packets are discarded and
refused, and one that is still arriving is cut. -/
def State.dropLane (s : State) (port vl : Nat) : State :=
  let t := (nth [] (s.port port).rxq vl).foldl (fun t e =>
    let x := e.1
    let u := t.popPacket port vl
    if x.dst ≠ u.rails.node then u.drop (fun d => { d with misroute := d.misroute + 1 })
    else if kindAnswered x.kind then (u.refuse x rsReset).noticeFor x
    else u.dropFlits x) s
  t.modPort port (fun p => { p with rxCut := setNth p.rxCut vl (fun _ => !(nth [] p.rxPart vl).isEmpty) })

/-- What was received for the compute domain is dropped as its reset begins (R40). -/
def State.dropReceived (s : State) : State :=
  (List.range 20).foldl (fun t p => [0, 1, 2].foldl (fun t vl => t.dropLane p vl) t) s

/-- The commit that writes the NOR is abandoned (R562): its request is answered, and the NOR stays not valid. -/
def State.abortCommit (s : State) : State :=
  match s.commitRunning with
  | some r => s.reply r stAborted 0 []
  | none => s

/-- A recovery begins at a rung that is already settled; recoveries within its scope join it, their events escalated
(R503). -/
def State.startRecovery (s : State) (level : Nat) (src : W32) (events : List Nat) (reqs : List Request)
    (fence : List W32) : State :=
  let new : Recovery := { level := level, scope := rungScope level src, events := events, reqs := reqs, fence := fence }
  let old := s.sbx.recoveries.filter new.replaces
  let s := (old.flatMap (fun r => r.events)).foldl (fun t id =>
    t.modEvent id (fun e => { e with taken := level, escalated := e.escalated || Nat.blt e.level level })) s
  let all : Recovery := { new with
    events := events ++ old.flatMap (fun r => r.events), reqs := reqs ++ old.flatMap (fun r => r.reqs)
    fence := fence ++ old.flatMap (fun r => r.fence) }
  let s := { s with sbx.recoveries := s.sbx.recoveries.filter (fun r => !new.replaces r) ++ [all] }
  if level = 2 then s.unitStart src
  else if level = 3 then
    let p := (partOf src).getD 0
    (s.saveStall p).restoreAll (s.grantedTo p)
  else if level = 4 then
    let t := (List.range 8).foldl State.saveStall s
    let t := { t.abortCommit with sec.update := t.sec.update.map (fun (u : Update) => { u with discarded := true, writing := false }) }
    (t.dropReceived).restoreAll t.ctxIds
  else
    let t := s.modPast (fun h => { h with fences := (all.fence.filter keptFence).foldl (fun l f => addTo f l) h.fences })
    let t := all.reqs.foldl (fun t r => t.ok r (leBytes 1 level ++ leBytes 3 0)) t
    let t := (t.flushOut .pcie).flushOut .mctp
    if level = 5 then t.beginModuleReset 1 true else t.requestCycle

/-- An event's recovery is over: acknowledged after levels 1 and 2, awaiting it after levels 3 and 4 (R487), with its
RECOVERY_DONE (R504). -/
def State.eventDone (s : State) (id : Nat) : State :=
  match s.events.find? (fun e => e.id = id) with
  | none => s
  | some e =>
    (s.modEvent id (fun e => { e with state := if e.taken ≤ 2 then 2 else 1 })).event 0x0581
      (leBytes 4 id ++ leBytes 1 e.taken ++ leBytes 3 0)

/-- A recovery is over: its events and the requests that asked for it (R361, R504). -/
def State.finishRecovery (s : State) (r : Recovery) : State :=
  let t := { s with sbx.recoveries := s.sbx.recoveries.erase r }
  let t := r.events.foldl State.eventDone t
  r.reqs.foldl (fun t q => t.ok q (leBytes 1 r.level ++ leBytes 3 0)) t

/-- A level taken for an event (R485, R499): the halt of a context at once, a reset begun. -/
def State.react (s : State) (level : Nat) (src : W32) (ctx : Option (Nat × W16)) (id : Nat) (fence : List W32) : State :=
  if level = 0 then s
  else if level = 1 then
    let c := (ctx.map (fun x => x.1)).getD 0
    let st := (s.ctx c).state
    (if st = .active ∨ st = .halted then s.haltAll c .signalBox else s).eventDone id
  else s.startRecovery level src [id] [] fence

/-- A reset in progress that halts a context (R209). -/
def State.haltsCtx (s : State) (c : Nat) (r : Recovery) : Bool :=
  if r.level = 2 then srcKind r.scope = 4 && (s.ring (srcIdx r.scope)).ctx = c
  else if r.level = 3 then (s.ctx c).yard.any (fun w => partOf r.scope = some w.phys)
  else true

/-- A reset in progress absorbs an event (R503). -/
def State.absorbs (s : State) (src : W32) (ctx : Option (Nat × W16)) (level : Nat) : Bool :=
  s.sbx.recoveries.any (fun r => (r.covers src && level ≤ r.level) ||
    (level = 1 && ctx.any (fun c => s.haltsCtx c.1 r)))

/-- An event raised (R482 to R488, R501, R503, R506): escalated, scoped, absorbed or taken, recorded, logged, reported, and
acted on. -/
def State.raiseEvent (s : State) (code : Nat) (src : W32) (ctx : Option (Nat × W16)) (info : W32) (injected : Bool)
    (level : Nat) (fence : List W32) : State :=
  let cls := codeClass code
  let exempt := code = 0x030B ∨ code = 0x0205
  let open_ := s.events.any (fun e => e.cls = cls ∧ e.state ≠ 2)
  let l0 := if exempt then 0 else if open_ then min 6 (level + 1) else level
  let l1 := scopedLevel l0 src ctx.isSome
  let absorbed : Bool := ¬ exempt ∧ cls ≠ 5 ∧ s.absorbs src ctx l1
  let taken := if absorbed then 0 else s.rung l1 src
  let e : Event :=
    { id := if cls = 0 then 0 else s.sbx.nextId, code := code, cls := cls, level := level, taken := taken
      escalated := Nat.blt level taken, absorbed := absorbed, injected := injected
      state := if taken = 0 then 2 else 0, ctx := ctx, source := src, stamp := s.stamp
      info := if taken = 6 then BitVec.ofNat 32 (s.cyclesLately + 1) else info }
  let s := (s.note code src .occurrence).noteFirst e
  let s := if cls = 0 then s else { s with sbx.nextId := s.sbx.nextId + 1 }
  let s := if cls = 0 ∨ code = 0x0505 then s else s.logEvent e
  let s := if taken = 0 then s else s.event 0x0580 e.bytes
  let s := if 3 ≤ taken then s.flushOut .pcie else s
  let under := s.sbx.recoveries.find? (fun r => r.covers src ∧ taken ≤ r.level ∧ cls = 5 ∧ taken ≠ 0)
  match under with
  | some r =>
    let merged : Recovery := { r with events := r.events ++ [e.id], fence := r.fence ++ fence }
    { s with sbx.recoveries := s.sbx.recoveries.map (fun x => if x = r then merged else x) }
  | none => s.react taken src ctx e.id fence

end Sys2Proof.Machine
end

