-- ==== Sys2Proof/Machine/Stall.lean ====
section
/-! DEFINITION. Mileposts and stall reports (R223, R490 to R495). -/

namespace Sys2Proof.Machine

/-- A SOURCE value that the table of R481 defines. -/
def srcValid (src : W32) : Bool :=
  let k := srcKind src
  let p := srcMid src
  let i := srcIdx src
  if k = 1 then Nat.blt p 8 && Nat.blt i 20
  else if k = 2 ∨ k = 7 then Nat.blt p 8 && i = 0
  else if k = 3 then Nat.blt p 8 && Nat.blt i 4
  else if k = 4 then p = 0 && Nat.blt i 4096
  else if k = 5 then p = 0 && Nat.blt i 20
  else if k = 6 then p = 0 && Nat.blt i 12
  else if k = 9 then p = 0 && Nat.blt i 16
  else if k = 0xA then p = 0 && Nat.blt i 5
  else if k = 0xC then (p = 0 && Nat.blt i 64) || (1 ≤ p && p ≤ 4)
  else if k = 0xD then 1 ≤ p && p ≤ 4 && i = 0
  else if k = 0x13 then 1 ≤ p && p ≤ 2 && i = 0
  else (k = 8 || k = 0xB || (0xE ≤ k && k ≤ 0x12)) && p = 0 && i = 0

/-- The state of the unit that a SOURCE value names; a source that has no unit entry of its own is in service. -/
def State.unitAt (s : State) (src : W32) : UnitState :=
  let p := srcMid src
  let i := srcIdx src
  match srcKind src with
  | 1 => underPart (s.part p).unit (s.engine p i).unit
  | 2 => underPart (s.part p).unit (s.part p).vec.unit
  | 3 => underPart (s.part p).unit (s.mover p i).unit
  | 5 => (s.port i).unit
  | 6 => (nth MemDevice.reset s.mem.devices i).unit
  | 7 => (s.part p).unit
  | 9 => (nth ControlCore.reset s.cores i).unit
  | _ => .inService

/-- A SOURCE value that names something the part has (R2, R481). -/
def State.srcThere (s : State) (src : W32) : Bool := srcValid src && s.unitAt src ≠ .absent

/-- Wagons of a unit named by its SOURCE value, not complete. -/
def State.flightsAt (s : State) (src : W32) : List Flight :=
  s.marsh.flights.filter (fun f => unitSource f.unit = src ∧ f.stage ≠ .done)

/-- A TOKEN_WAIT or collective with a nonzero TIMEOUT holds the ring (R490). -/
def State.waitHeld (s : State) (ring : Nat) : Bool :=
  s.marsh.flights.any (fun f => f.ring = ring ∧ f.stage ≠ .done ∧
    ((wOpcode f.bits = 0x40 ∧ tkTimeout f.bits ≠ 0) ∨ (opColl (wOpcode f.bits) ∧ clTimeout f.bits ≠ 0)))

/-- A unit has work in the sense of R490. -/
def State.hasWork (s : State) (src : W32) : Bool :=
  let k := srcKind src
  let i := srcIdx src
  if k = 1 ∨ k = 2 then (s.flightsAt src).any (fun f => f.stage ≠ .queued ∨ s.startMet f)
  else if k = 3 then
    (s.flightsAt src).any (fun f => f.stage = .started ∨ (f.stage = .waiting ∧ ¬ f.issuedAll)) ||
      !(s.mover (srcMid src) i).reads.isEmpty
  else if k = 4 then
    let r := s.ring i
    r.head ≠ r.tail && r.state = .running && !s.waitHeld i
  else if k = 5 then
    let p := s.port i
    p.state = .up && (!p.replayBuf.isEmpty ||
      (List.range 4).any (fun vl => p.hasCredit vl && !(nth [] p.txq vl).isEmpty))
  else false

/-- The controller suspends the unit's window (R491). -/
def State.windowOff (s : State) (src : W32) : Bool :=
  s.frozen || s.power.state = .holdUp ||
    s.sbx.recoveries.any (fun r => (r.level = 3 ∨ r.level = 4) ∧ r.covers src) ||
    (s.power.state = .idle && srcKind src = 4 && !s.marsh.flights.any (fun f => f.ring = srcIdx src ∧ f.stage ≠ .done))

/-- The stall event of a unit's kind (R484). -/
def stallCode (src : W32) : Nat :=
  if srcKind src = 4 then 0x0204 else if srcKind src = 3 then 0x0305 else if srcKind src = 5 then 0x0306 else 0x0304

/-- The context whose work a unit holds. -/
def State.stallCtx (s : State) (src : W32) : Option Nat :=
  if srcKind src = 4 then some (s.ring (srcIdx src)).ctx
  else if srcKind src = 5 then none
  else (s.flightsAt src).head?.map (fun f => f.ctx)

/-! ## The report (R493 to R495) -/

/-- A ring record, 24 bytes; WAIT_TARGET is free where no TOKEN_WAIT holds the ring. -/
def State.ringRecord (s : State) (n : Nat) : List Byte :=
  let r := s.ring n
  let w := s.marsh.flights.find? (fun f => f.ring = n ∧ f.stage ≠ .done ∧ wOpcode f.bits = 0x40)
  let tok := match w with
    | some f => (tkToken f.bits, leBytes 4 (tkValue f.bits).toNat)
    | none => (0xFFFF, (List.range 4).map (fun i => Config.freeByte (s.fresh + 70 + 4 * n + i)))
  leBytes 2 n ++ leBytes 1 (ringCode r.state) ++ leBytes 1 (causeCode r.cause) ++ leBytes 4 r.head.toNat
    ++ leBytes 4 r.tail.toNat ++ leBytes 4 r.fetched.toNat ++ leBytes 2 tok.1 ++ leBytes 2 0 ++ tok.2

/-- A token record, 8 bytes. -/
def State.tokenRecord (s : State) (t : Nat) : List Byte := leBytes 2 t ++ leBytes 2 0 ++ leBytes 4 (s.token t).value.toNat

/-- UNIT_STATE of a unit record. -/
def paceCode : Pace → Nat
  | .running => 0 | .coasting => 1 | .parked => 2

/-- A unit record, 128 bytes; free bytes stand for RING, INDEX and WAGON of a unit that holds no wagon. -/
def State.unitRecord (s : State) (stalled src : W32) : List Byte :=
  let zero : Milepost := { count := 0 }
  let fs := s.flightsAt src
  let reads := if srcKind src = 3 then (s.mover (srcMid src) (srcIdx src)).reads.length else 0
  let other := (Config.stallWaiting (s.fresh + src.toNat) &&& 0x2B).toNat
  let waiting := other + 4 * b2n (Nat.blt 0 reads) + 16 * b2n (fs.any (fun f => f.tags ≠ []))
  let state := if src = stalled then 3
    else match fs.head? with
      | some f => paceCode (s.pace f.unit)
      | none => 2
  let now := (fs.find? (fun f => f.stage ≠ .queued)).orElse (fun _ => fs.head?)
  let free := s.freeBytes 70
  let place := match now with
    | some f => (leBytes 2 f.ring, leBytes 4 f.index.toNat, leBytes 64 f.bits.toNat)
    | none => (free.take 2, (free.drop 2).take 4, free.drop 6)
  leBytes 4 src.toNat ++ leBytes 4 (Table.get zero s.sbx.mileposts src.toNat).count.toNat
    ++ leBytes 4 (Config.idleMicroseconds (s.fresh + src.toNat)).toNat
    ++ leBytes 1 (fs.filter (fun f => f.stage = .queued)).length ++ leBytes 1 state ++ leBytes 2 waiting
    ++ leBytes 4 reads ++ leBytes 4 0 ++ place.1 ++ leBytes 2 0 ++ place.2.1 ++ leBytes 32 0 ++ place.2.2

/-- The units of a partition, as SOURCE values. -/
def partUnits (p : Nat) : List W32 :=
  (List.range 20).map (fun e => source 1 p e) ++ [source 2 p 0] ++ (List.range 4).map (fun m => source 3 p m)

/-- The records of a report: ring records, token records that fit, unit records (R495). -/
def State.stallRecords (s : State) (src : W32) : List (List Byte) × List (List Byte) × List (List Byte) :=
  match s.stallCtx src with
  | none => ([], [], (if srcKind src = 5 then [src] else partUnits (srcMid src)).map (s.unitRecord src))
  | some c =>
    let rings := s.ringsOf c
    let tokens := (s.tokens.filter (fun x => x.2.owner = some c)).map (fun x => x.1)
    let units := ((s.marsh.flights.filter (fun f => f.ctx = c ∧ f.stage ≠ .done)).map
      (fun f => unitSource f.unit)).eraseDups
    let fit := (2 ^ 20 - 64 - 24 * rings.length - 128 * units.length) / 8
    (rings.map s.ringRecord, (tokens.take fit).map s.tokenRecord, units.map (s.unitRecord src))

/-- The stall report of a unit, with its CRC (R493). -/
def State.stallReport (s : State) (src : W32) (seq : Nat) : List Byte :=
  let r := s.stallRecords src
  let body := r.1.flatten ++ r.2.1.flatten ++ r.2.2.flatten
  let who := match s.stallCtx src with
    | some c => 2 ^ 13 + (s.ctx c).gen.toNat * 2 ^ 14 + c * 2 ^ 30
    | none => 0
  let head := leBytes 24 0 ++ leBytes 2 r.2.2.length ++ leBytes 2 r.2.1.length ++ leBytes 2 r.1.length
    ++ leBytes 6 who ++ leBytes 8 s.stamp.toNat ++ leBytes 4 src.toNat ++ leBytes 4 s.sbx.nextId
    ++ leBytes 4 seq ++ leBytes 4 (64 + body.length)
  head ++ leBytes 4 (crc32c (head ++ leBytes 4 0 ++ body)).toNat ++ body

/-- The partition whose region takes the report (R223). A unit whose context has no granted partition in service has none,
and no report is written (log entry 130). -/
def State.stallPart (s : State) (src : W32) : Option Nat :=
  match s.stallCtx src with
  | some c => s.serving.find? (fun p => (s.ctx c).yard.any (fun w => w.phys = p))
  | none => s.serving.head?

/-- Bytes written at the start of a partition's stall-report region, block by block; what falls into a block that the
region runs without is lost (R225). -/
def State.putStall (s : State) (p : Nat) (bs : List Byte) : State :=
  (List.range ((bs.length + 65535) / 65536)).foldl (fun t b =>
    match t.stallBlock p b with
    | some k => (t.yardStore (k * 65536) ((bs.drop (b * 65536)).take 65536)).2
    | none => t) s

/-- The stall report written (R492). -/
def State.writeStall (s : State) (src : W32) : State :=
  match s.stallPart src with
  | none => s
  | some p =>
    let seq := nth 0 s.yard.stallSeq p + 1
    let t := s.putStall p (s.stallReport src seq)
    { t with yard.stallSeq := setNth t.yard.stallSeq p (fun _ => seq), fresh := t.fresh + 2 ^ 32 }

/-- MILEPOST_STALL (R223, R490 to R495, R501): a unit whose counter has not moved for a window while it had work. -/
def execMilepostStall (source : W32) (s : State) : Host.Outcome State Fault Refusal :=
  .next (if s.start.phase ≠ .rom ∨ ¬ s.srcThere source ∨ ¬ s.hasWork source ∨ s.windowOff source then s
    else
      let who := (s.stallCtx source).map (fun c => (c, (s.ctx c).gen))
      (s.writeStall source).raiseEvent (stallCode source) source who 0 false 2 [])

end Sys2Proof.Machine
end

