-- ==== Sys2Proof/Machine/Binary32.lean ====
section
/-! DEFINITION. IEEE 754-2019 binary32 as the vector engine computes it (R68, R124, R125, R128, R129). -/

namespace Sys2Proof.Machine

/-- The canonical NaN (R61, R125). -/
def nan32 : Nat := 0x7FC00000

/-- An infinity of binary32. -/
def inf32 (neg : Bool) : Nat := if neg then 0xFF800000 else 0x7F800000

/-- A value rounded to binary32, to nearest even, overflow to infinity: its code, and whether it was rounded. -/
def Val.to32 : Val → Nat × Bool
  | .nan => (nan32, false)
  | .inf neg => (inf32 neg, false)
  | .fin neg m e =>
    if m = 0 then (zeroCode 0xA neg, false)
    else
      let p : FloatFmt := { ebits := 8, mbits := 23, bias := 127, top := 0x7F7FFFFF }
      let t := p.magnitude 0 0 neg m e
      if p.top < t.1 then (inf32 neg, true) else (t.1 + zeroCode 0xA neg, t.2)

/-- A finite value as an integer in units of 2^e. -/
def toUnits (neg : Bool) (m : Nat) (e unit : Int) : Int :=
  let v : Int := m * 2 ^ (e - unit).toNat
  if neg then -v else v

/-- The exact sum of two values. A zero sum is −0 only where both operands are negative. -/
def Val.add : Val → Val → Val
  | .nan, _ => .nan
  | _, .nan => .nan
  | .inf a, .inf b => if a = b then .inf a else .nan
  | .inf a, _ => .inf a
  | _, .inf b => .inf b
  | .fin a m e, .fin b n d =>
    let u := min e d
    let s := toUnits a m e u + toUnits b n d u
    if s = 0 then .fin (a && b) 0 u else .fin (s < 0) s.natAbs u

/-- The exact product of two values. -/
def Val.mul : Val → Val → Val
  | .nan, _ => .nan
  | _, .nan => .nan
  | .inf a, .inf b => .inf (a ^^ b)
  | .inf a, .fin b n _ => if n = 0 then .nan else .inf (a ^^ b)
  | .fin a m _, .inf b => if m = 0 then .nan else .inf (a ^^ b)
  | .fin a m e, .fin b n d => .fin (a ^^ b) (m * n) (e + d)

/-- The sign of a value turned. -/
def Val.neg : Val → Val
  | .nan => .nan
  | .inf a => .inf (!a)
  | .fin a m e => .fin (!a) m e

/-- The sign of a value cleared. -/
def Val.abs : Val → Val
  | .nan => .nan
  | .inf _ => .inf false
  | .fin _ m e => .fin false m e

/-- The order of R129: −0 below +0. NaN compares with nothing. -/
def Val.lt : Val → Val → Bool
  | .nan, _ => false
  | _, .nan => false
  | .inf a, .inf b => a && !b
  | .inf a, .fin _ _ _ => a
  | .fin _ _ _, .inf b => !b
  | .fin a m e, .fin b n d =>
    let u := min e d
    let x := toUnits a m e u
    let y := toUnits b n d u
    x < y || (x = y && a && !b)

/-- IEEE 754-2019 minimum and maximum. -/
def Val.least (a b : Val) : Val := if a = .nan ∨ b = .nan then .nan else if b.lt a then b else a

def Val.most (a b : Val) : Val := if a = .nan ∨ b = .nan then .nan else if a.lt b then b else a

/-- A quotient with at least 63 bits and a last bit that stands for the rest, so that it rounds as the exact
quotient does. -/
def quotient (m n : Nat) : Nat × Int :=
  let k := 64 + Nat.log2 n
  let q := m * 2 ^ k / n
  (2 * q + b2n (m * 2 ^ k % n ≠ 0), -(k : Int) - 1)

/-- Division. -/
def Val.div : Val → Val → Val
  | .nan, _ => .nan
  | _, .nan => .nan
  | .inf _, .inf _ => .nan
  | .inf a, .fin b _ _ => .inf (a ^^ b)
  | .fin a _ _, .inf b => .fin (a ^^ b) 0 0
  | .fin a m e, .fin b n d =>
    if n = 0 then (if m = 0 then .nan else .inf (a ^^ b))
    else if m = 0 then .fin (a ^^ b) 0 0
    else let q := quotient m n; .fin (a ^^ b) q.1 (e - d + q.2)

/-- The integer square root, bit by bit from 2^(n−1) down. -/
def isqrt : Nat → Nat → Nat → Nat
  | 0, _, acc => acc
  | n + 1, v, acc => isqrt n v (if (acc + 2 ^ n) * (acc + 2 ^ n) ≤ v then acc + 2 ^ n else acc)

/-- Square root. -/
def Val.sqrt : Val → Val
  | .nan => .nan
  | .inf a => if a then .nan else .inf false
  | .fin a m e =>
    if m = 0 then .fin a 0 0
    else if a then .nan
    else
      let odd := e % 2 = 1
      let v := (if odd then 2 * m else m) * 2 ^ 80
      let r := isqrt (Nat.log2 v / 2 + 1) v 0
      .fin false (2 * r + b2n (r * r ≠ v)) ((if odd then e - 1 else e) / 2 - 41)

/-- One. -/
def oneVal : Val := .fin false 1 0

/-- A value is the number one. -/
def Val.isOne : Val → Bool
  | .fin false m e => m ≠ 0 && (if e ≤ 0 then m = 2 ^ e.natAbs else false)
  | _ => false

/-- The result that IEEE 754-2019 clause 9.2, or R125 itself, gives for a special operand of VOPs 0x10 to 0x1D. -/
def vopSpecial (op : Nat) (a : Val) : Option Val :=
  match a with
  | .nan => some .nan
  | .inf neg =>
    if op = 0x10 ∨ op = 0x11 then some (if neg then .fin false 0 0 else .inf false)
    else if op = 0x12 ∨ op = 0x13 then some (if neg then .nan else .inf false)
    else if op = 0x15 then some (if neg then .nan else .fin false 0 0)
    else if op = 0x18 ∨ op = 0x1A then some (.fin neg 1 0)
    else if op = 0x19 then some (if neg then .fin false 0 0 else oneVal)
    else if op = 0x1B then some (if neg then .fin true 0 0 else .inf false)
    else if op = 0x1C ∨ op = 0x1D then some .nan
    else none
  | .fin neg m _ =>
    if m = 0 then
      if op = 0x10 ∨ op = 0x11 ∨ op = 0x1D then some oneVal
      else if op = 0x12 ∨ op = 0x13 then some (.inf true)
      else if op = 0x15 then some (.inf neg)
      else if op = 0x18 ∨ op = 0x1C then some (.fin neg 0 0)
      else none
    else if op = 0x12 ∨ op = 0x13 then (if neg then some .nan else if a.isOne then some (.fin false 0 0) else none)
    else if op = 0x15 ∧ neg then some .nan
    else none

end Sys2Proof.Machine
end

