-- ==== Sys2Proof/Machine/Approx.lean ====
section
/-! DEFINITION. The functions of VOPs 0x10 to 0x1D that R124 gives with an error bound, computed far beyond binary32, and
the bounds (R124, R125, R128). -/

namespace Sys2Proof.Machine

/-! ## Fixed-point numbers: integers in units of 2^−512 -/

/-- Bits below the point. -/
def wideBits : Nat := 512

/-- One. -/
def fixOne : Int := 2 ^ wideBits

/-- A finite value, cut off below the last bit. -/
def wideOf (neg : Bool) (m : Nat) (e : Int) : Int :=
  let v : Int := (m * 2 ^ (e + wideBits).toNat / 2 ^ (-(e + wideBits)).toNat : Nat)
  if neg then -v else v

/-- The value of a fixed-point number times 2^k. -/
def fixVal (x k : Int) : Val := .fin (x < 0) x.natAbs (k - wideBits)

def fixMul (a b : Int) : Int := a * b / fixOne

def fixDiv (a b : Int) : Int := a * fixOne / b

/-- Sum of a series: the first term, and what term n becomes at n + 1. -/
def series (step : Nat → Int → Int) : Nat → Nat → Int → Int → Int
  | 0, _, _, sum => sum
  | fuel + 1, n, term, sum => series step fuel (n + 1) (step n term) (sum + term)

/-- Sum of z^(2n+1) / (2n+1), with alternating signs for atan, without for atanh. -/
def oddSeries (alternate : Bool) (z : Int) (terms : Nat) : Int :=
  let zz := if alternate then -fixMul z z else fixMul z z
  ((List.range terms).foldl (fun (acc : Int × Int) n => (acc.1 + acc.2 / (2 * n + 1 : Nat), fixMul acc.2 zz)) (0, z)).1

/-- ln 2 = 2 atanh(1/3). -/
def fixLn2 : Int := 2 * oddSeries false (fixOne / 3) 170

/-- π = 16 atan(1/5) − 4 atan(1/239). -/
def fixPi : Int := 16 * oddSeries true (fixOne / 5) 120 - 4 * oddSeries true (fixOne / 239) 40

/-- Square root of a number that is not negative. -/
def fixSqrt (x : Int) : Int :=
  let v := x.toNat * 2 ^ wideBits
  isqrt (Nat.log2 v / 2 + 1) v 0

/-- e^r for |r| below 1. -/
def fixExp (r : Int) : Int := series (fun n t => fixMul t r / (n + 1 : Nat)) 120 0 fixOne 0

/-- e^x as (y, k): y × 2^k with y from 1 to 2, for |x| below 2^20. -/
def fixExpOf (x : Int) : Int × Int := let k := x / fixLn2; (fixExp (x - k * fixLn2), k)

/-- e^x as a fixed-point number, for x up to 512. -/
def fixExpAt (x : Int) : Int :=
  if x < -(2 ^ 20 * fixOne) then 0
  else let t := fixExpOf x; if t.2 < 0 then t.1 / 2 ^ (-t.2).toNat else t.1 * 2 ^ t.2.toNat

/-- ln y for y from 1 to 2, as 2 atanh((y − 1) / (y + 1)). -/
def fixLn (y : Int) : Int := 2 * oddSeries false (fixDiv (y - fixOne) (y + fixOne)) 170

/-- sin r for r from 0 to π / 2. -/
def fixSin (r : Int) : Int :=
  let rr := fixMul r r
  series (fun n t => -(fixMul t rr) / ((2 * n + 2) * (2 * n + 3) : Nat)) 80 0 r 0

/-- cos r for r from 0 to π / 2. -/
def fixCos (r : Int) : Int :=
  let rr := fixMul r r
  series (fun n t => -(fixMul t rr) / ((2 * n + 1) * (2 * n + 2) : Nat)) 80 0 fixOne 0

/-- sin(x + q π / 2). -/
def fixSinOf (x : Int) (q : Int) : Int :=
  let h := fixPi / 2
  let k := x / h
  let r := x - k * h
  let n := (k + q) % 4
  if n = 0 then fixSin r else if n = 1 then fixCos r else if n = 2 then -fixSin r else -fixCos r

/-- erf z for z from 0 on: (2 / √π) e^(−z²) times the sum of 2^n z^(2n+1) / (1 × 3 × … × (2n+1)); 1 from 16 on, where it
differs by less than 2^−369. -/
def fixErf (z : Int) : Int :=
  if 16 * fixOne ≤ z then fixOne
  else
    let zz := fixMul z z
    let sum := series (fun n t => fixMul (2 * t) zz / (2 * n + 3 : Nat)) 1200 0 z 0
    fixMul (fixDiv (2 * fixExpAt (-zz)) (fixSqrt fixPi)) sum

/-! ## The functions (R124) -/

/-- 2^k of a large power stands for a result far beyond binary32. -/
def hugeVal : Val := .fin false 1 400

/-- e^x: beyond ±512 the result is far beyond binary32's range. -/
def expVal (x : Int) : Val :=
  if 512 * fixOne ≤ x then hugeVal
  else if x ≤ -(512 * fixOne) then .fin false 1 (-400)
  else let t := fixExpOf x; fixVal t.1 t.2

/-- The value of a function of VOPs 0x10 to 0x1D at a finite operand for which R125 gives no result, with a relative error
below 2^−100, or an absolute error below 2^−300 where it is smaller than any binary32 number (R124). -/
def vopExact (op : Nat) (neg : Bool) (m : Nat) (e : Int) : Val :=
  let x := wideOf neg m e
  let big : Bool := 512 * fixOne ≤ x.natAbs
  if op = 0x10 then expVal x
  else if op = 0x11 then
    if big then expVal x
    else
      let k := x / fixOne
      fixVal (fixExp (fixMul (x - k * fixOne) fixLn2)) k
  else if op = 0x12 ∨ op = 0x13 then
    let k := Nat.log2 m
    let n : Int := k + e
    let l := fixLn (wideOf false m (-(k : Int)))
    if op = 0x12 then fixVal (n * fixLn2 + l) 0 else fixVal (n * fixOne + fixDiv l fixLn2) 0
  else if op = 0x15 then
    let odd : Bool := e % 2 = 1
    let n := if odd then 2 * m else m
    let v := 2 ^ 1024 / n
    let r := isqrt 513 v 0
    .fin false (2 * r + b2n (r * r * n ≠ 2 ^ 1024)) (-513 - (if odd then e - 1 else e) / 2)
  else if op = 0x18 then
    let u := fixExpAt (-2 * x.natAbs)
    let t := fixDiv (fixOne - u) (fixOne + u)
    fixVal (if neg then -t else t) 0
  else if op = 0x19 then
    let u := fixExpAt (-x.natAbs)
    fixVal (if neg then fixDiv u (fixOne + u) else fixDiv fixOne (fixOne + u)) 0
  else if op = 0x1A then let t := fixErf x.natAbs; fixVal (if neg then -t else t) 0
  else if op = 0x1B then
    let t := fixErf (fixDiv x.natAbs (fixSqrt (2 * fixOne)))
    .fin neg (m * (if neg then fixOne - t else fixOne + t).toNat) (e - 1 - wideBits)
  else if op = 0x1C then fixVal (fixSinOf x 0) 0
  else fixVal (fixSinOf x 1) 0

/-- The exact result is a binary32 number, so that nothing is rounded (R128): at 0, where the function is rational there;
EXP2 of an integer, LOG2 of a power of two and RSQRT of a power of four, within range. At every other operand the result is
irrational. -/
def vopRational (op : Nat) (neg : Bool) (m : Nat) (e : Int) : Bool :=
  m = 0 ||
    (if op = 0x11 then
      let x := wideOf neg m e
      x % fixOne = 0 && -149 * fixOne ≤ x && x ≤ 127 * fixOne
    else if op = 0x13 then m = 2 ^ Nat.log2 m
    else if op = 0x15 then m = 2 ^ Nat.log2 m && ((Nat.log2 m : Int) + e) % 2 = 0
    else false)

/-! ## The bounds (R124) -/

/-- The bound in ulp. -/
def vopUlps (op : Nat) : Nat :=
  if op = 0x11 ∨ op = 0x13 ∨ op = 0x15 then 1 else if op = 0x1B then 3 else 2

/-- The power of two of the ulp of a result rounded to binary32; that of the last binade for one rounded to infinity. -/
def ulpExp (code : Nat) : Int := min ((max 1 (field code 30 23) : Nat) : Int) 254 - 150

/-- A binary32 code as a number, infinity as 2^128. -/
def gridVal (code : Nat) : Val :=
  match decode 0xA code with
  | .inf neg => .fin neg 1 128
  | v => v

/-- A code lies within the bound of R124 of the exact result. -/
def vopNear (op : Nat) (exact : Val) (code : Nat) : Bool :=
  let off := (exact.add (gridVal code).neg).abs
  let ulp := Val.fin false (vopUlps op) (ulpExp exact.to32.1)
  let bound := if op = 0x1B then ulp.most (.fin false 1 (-140)) else ulp
  off ≠ .nan && !bound.lt off

/-- The result of such a VOP: some binary32 number within the bound, fixed for each operand (R124, R130, log entry 19); and
whether it was rounded (R128). -/
def vopApprox (op : Nat) (neg : Bool) (m : Nat) (e : Int) : Nat × Bool :=
  let exact := vopExact op neg m e
  let free := (Config.vopValue op (BitVec.ofNat 32 (Val.fin neg m e).to32.1)).toNat
  (if vopNear op exact free then free else exact.to32.1, !vopRational op neg m e)

/-- The result of VOPs 0x01 to 0x1D in binary32, and whether IEEE 754 rounding made it inexact. `imm` is IMM. Where
R124 gives an error bound, the result is a free value of the operand within it (log entry 19). -/
def vopResult (op : Nat) (a b c imm : Val) : Nat × Bool :=
  if op = 0x01 then (a.add b).to32
  else if op = 0x02 then (a.add b.neg).to32
  else if op = 0x03 then (a.mul b).to32
  else if op = 0x04 then ((a.mul b).add c).to32
  else if op = 0x05 then ((a.mul imm).add b).to32
  else if op = 0x06 then (a.least b).to32
  else if op = 0x07 then (a.most b).to32
  else if op = 0x08 then a.abs.to32
  else if op = 0x09 then a.neg.to32
  else if op = 0x0A then (if a.lt (.fin false 0 0) then Val.fin false 0 0 else a).to32
  else if op = 0x14 then (oneVal.div a).to32
  else if op = 0x16 then a.sqrt.to32
  else if op = 0x17 then (a.div b).to32
  else
    match vopSpecial op a with
    | some v => v.to32
    | none =>
      match a with
      | .fin neg m e => vopApprox op neg m e
      | _ => (nan32, false)

end Sys2Proof.Machine
end

