-- ==== Sys2Proof/Machine/Vector.lean ====
section
/-! DEFINITION. The vector engine (R68, R93, R123 to R130, R606). -/

namespace Sys2Proof.Machine

/-! ## Spans -/

/-- Spans of source k. -/
def vxSrcSpans (w : Wagon) (k : Nat) : List Span := rowSpans (vxAddr w k) (vxStride w k) (vxRows w) (vxSrcBytes w k)

/-- Spans of the source scales of DEQUANT. -/
def vxScaleSpans (w : Wagon) : List Span :=
  if vxOp w = 0x32 then rowSpans (vxAddr w 1) (vxStride w 1) (vxRows w) (vxCols w / 32) else []

/-- Every span that a VECTOR wagon reads. -/
def vxReads (w : Wagon) : List Span := (vopSources (vxOp w)).flatMap (vxSrcSpans w) ++ vxScaleSpans w

/-- Spans of the destination but for QUANT's scales. -/
def vxDstSpans (w : Wagon) : List Span :=
  if vxDstFmt w = 0xC then rowSpans (vxDst w) (vxDstStride w) ((vxRows w + 255) / 256) segBytes
  else if vopReduce (vxOp w) then [(vxDst w, rowBytes (vxDstFmt w) (vxRows w))]
  else rowSpans (vxDst w) (vxDstStride w) (vxRows w) (rowBytes (vxDstFmt w) (vxCols w))

/-- Spans of the destination scales of QUANT. -/
def vxOutScaleSpans (w : Wagon) : List Span :=
  if vxOp w = 0x31 then rowSpans (vxAddr w 2) (vxStride w 2) (vxRows w) (vxCols w / 32) else []

/-- Two lists of spans share a byte. -/
def spansMeet (a b : List Span) : Bool := a.any (fun (o, n) => b.any (fun (p, m) => o < p + m ∧ p < o + n ∧ 0 < n ∧ 0 < m))

/-- A source that the destination overlaps is worked in place (R606). -/
def vxInPlace (w : Wagon) (k : Nat) : Bool :=
  !vopReduce (vxOp w) && vxAddr w k = vxDst w && vxStride w k = vxDstStride w && vxFmt w k = vxDstFmt w &&
    (vxStride w k ≠ 0 || vxRows w = 1)

/-- An overlap that R606 forbids. -/
def vxForbidden (w : Wagon) : Bool :=
  (vopSources (vxOp w)).any (fun k => spansMeet (vxDstSpans w) (vxSrcSpans w k) && !vxInPlace w k) ||
    spansMeet (vxDstSpans w) (vxScaleSpans w) || spansMeet (vxOutScaleSpans w) (vxReads w)

/-! ## Sources -/

/-- A source element in binary32, and whether it was rounded: only INT32 is (R128). -/
def as32 (f code : Nat) : Val × Bool :=
  if f = 0xB then let t := (decode 0xB code).to32; (decode 0xA t.1, t.2) else (decode f code, false)

/-- The codes of row r of source k. -/
def State.vxCodes (s : State) (y : YardWord) (w : Wagon) (k r : Nat) : List Nat :=
  codesOf (vxFmt w k) (vxCols w) (s.yardGet y (vxAddr w k + 64 * vxStride w k * r) (vxSrcBytes w k))

/-- Row r of source k in binary32, and the INEXACT of its conversion. -/
def State.vxRow (s : State) (y : YardWord) (w : Wagon) (k r : Nat) : List Val × Flags :=
  let xs := (s.vxCodes y w k r).map (as32 (vxFmt w k))
  (xs.map (fun x => x.1), { noFlags with inexact := xs.any (fun x => x.2) })

/-! ## Destinations -/

/-- The draw of an element (R75, R128). -/
def vxDraw (w : Wagon) (seed : W64) (row col : Nat) : Nat :=
  srDraw seed (vxStream w) (vxRow0 w + row) (vxCol0 w + col)

/-! ## Errors of the lanes and of the converters (R85, R86) -/

/-- The integer significand of a value, with its sign. -/
def Val.significand : Val → Int
  | .fin neg m _ => if neg then -(m : Int) else m
  | _ => 0

/-- A value whose significand the lanes get wrong by an amount. -/
def Val.slip (v : Val) (d : Int) : Val :=
  match v with
  | .fin _ _ e => if d = 0 then v else let n := v.significand + d; .fin (n < 0) n.natAbs e
  | _ => v

/-- The check of R86 at a result: the residue of the significand that the lanes deliver against the one that follows from
the operands. -/
def Val.laneAgrees (v : Val) (d : Int) : Bool := Machine.residue 255 (v.significand + d) = Machine.residue 255 v.significand

/-- What the lanes and the converter get wrong at one element. -/
def laneAt (x : LaneFaults) (row col : Nat) : Int × Int :=
  ((x.slips.find? (fun s => s.row = row ∧ s.col = col)).map (fun s => (s.lane, s.image))).getD (0, 0)

/-- A value converted to the destination format (R128), with the check of R86. -/
def vxConvert (w : Wagon) (draw : Nat) (v : Val) (off : Int) : Elem :=
  let c := v.convert (vxDstFmt w) (vxMode w) draw
  (slipCode (fmtBits (vxDstFmt w)) c.1 off, c.2, v.agrees (vxDstFmt w) (vxMode w) draw off)

/-- A binary32 result stored in the destination format (R128): checked as the lanes deliver it and where it is
converted. -/
def store32 (w : Wagon) (draw : Nat) (t : Nat × Bool) (d : Int × Int) : Elem :=
  let v := (decode 0xA t.1).slip d.1
  let code := if d.1 = 0 then t.1 else v.to32.1
  let fl := { noFlags with inexact := t.2 }
  let ok := (decode 0xA t.1).laneAgrees d.1
  if vxDstFmt w = 0xA then (code, { fl with invalid := v = .nan }, ok)
  else let c := vxConvert w draw v d.2; (c.1, c.2.1.or fl, ok && c.2.2)

/-- The bytes of destination row r. -/
def vxPut (w : Wagon) (r : Nat) (codes : List Nat) : Nat × List Byte :=
  (vxDst w + 64 * vxDstStride w * r, packCodes (vxDstFmt w) codes)

/-- A row of elements stored, with the flags of its sources. -/
def vxRowOut (w : Wagon) (r : Nat) (es : List Elem) (src : Flags) : WagonOut :=
  ([vxPut w r (elemCodes es)], (elemFlags es).or src, elemsAgree es)

/-- VOPs 0x01 to 0x1D and CONVERT, row r (R124, R128). -/
def State.vxLane (s : State) (y : YardWord) (w : Wagon) (seed : W64) (x : LaneFaults) (r : Nat) : WagonOut :=
  let op := vxOp w
  let zero : List Val × Flags := (List.replicate (vxCols w) (.fin false 0 0), noFlags)
  let src := fun k => if k ∈ vopSources op then s.vxRow y w k r else zero
  let a := src 0
  let b := src 1
  let c := src 2
  let imm := decode 0xA (vxImm w)
  let es := a.1.zipIdx.map (fun (v, i) =>
    store32 w (vxDraw w seed r i)
      (if op = 0x30 then v.to32 else vopResult op v (nth .nan b.1 i) (nth .nan c.1 i) imm) (laneAt x r i))
  vxRowOut w r es (a.2.or (b.2.or c.2))

/-- An L128 element as a ledger (R79, R128). -/
def segLedger (seg : Segment) (e : Int) : Ledger :=
  { Ledger.zero with l := e, sat := seg.flags.ledgerSat && (e.natAbs : Int) = l128Top, invalid := e = l128Marker }

/-- CONVERT from L128, row r (R85, R128). -/
def State.vxFromL128 (s : State) (y : YardWord) (w : Wagon) (seed : W64) (x : LaneFaults) (r : Nat) : WagonOut :=
  let seg := Segment.parse (s.yardGet y (vxAddr w 0 + 64 * vxStride w 0 * r) segBytes)
  let es := (seg.elems.take (vxCols w)).zipIdx.map (fun (e, i) =>
    (segLedger seg e).elem seg.anchor (vxDstFmt w) (vxMode w) (vxDraw w seed r i) (laneAt x r i).2)
  vxRowOut w r es seg.flags

/-- QUANT, row r: 32 elements and a scale to a block (R76). -/
def State.vxQuant (s : State) (y : YardWord) (w : Wagon) (seed : W64) (x : LaneFaults) (r : Nat) : WagonOut :=
  let a := s.vxRow y w 0 r
  let blocks := (List.range (vxCols w / 32)).map (fun b =>
    let vs := (a.1.drop (32 * b)).take 32
    let k := blockScale (vxDstFmt w) vs
    let es := vs.zipIdx.map (fun (v, i) =>
      let d := laneAt x r (32 * b + i)
      let c := vxConvert w (vxDraw w seed r (32 * b + i)) ((v.slip d.1).scaled (some (127 - (k : Int)))) d.2
      (c.1, c.2.1, v.laneAgrees d.1 && c.2.2))
    (k, es))
  let es := blocks.flatMap (fun b => b.2)
  ([vxPut w r (elemCodes es),
    (vxAddr w 2 + 64 * vxStride w 2 * r, blocks.map (fun b => BitVec.ofNat 8 b.1))],
   (elemFlags es).or a.2, elemsAgree es)

/-- DEQUANT, row r: the exact value times its block scale (R128). -/
def State.vxDequant (s : State) (y : YardWord) (w : Wagon) (seed : W64) (x : LaneFaults) (r : Nat) : WagonOut :=
  let scales := s.yardGet y (vxAddr w 1 + 64 * vxStride w 1 * r) (vxCols w / 32)
  let es := (s.vxCodes y w 0 r).zipIdx.map (fun (code, i) =>
    let v := (decode (vxFmt w 0) code).scaled (scaleExp (nth 0 scales (i / 32)).toNat)
    let d := laneAt x r i
    match v with
    | .inf neg => if vxDstFmt w = 0xA then (inf32 neg, noFlags, residue 3 d.2 = 0) else vxConvert w 0 (.inf neg) d.2
    | v => let c := vxConvert w (vxDraw w seed r i) (v.slip d.1) d.2; (c.1, c.2.1, v.laneAgrees d.1 && c.2.2))
  vxRowOut w r es noFlags

/-- The ledger of a row's sum (R68), with the error of its lane. -/
def State.vxSum (s : State) (y : YardWord) (w : Wagon) (x : LaneFaults) (r : Nat) : Ledger :=
  (((s.vxCodes y w 0 r).map (decode (vxFmt w 0))).foldl (fun l v =>
    if vxOp w = 0x21 then Ledger.product (vxAnchor w) l v v else Ledger.term (vxAnchor w) Slip.zero l v)
    Ledger.zero).slip (laneAt x r 0).1

/-- Column of a row's first NaN, or of its maximum (R129). -/
def argMax (vs : List Val) : Nat :=
  match vs.findIdx? (fun v => v = .nan) with
  | some i => i
  | none => (vs.zipIdx.foldl (fun b (v, i) => if b.1.lt v then (v, i) else b) (nth .nan vs 0, 0)).2

/-- The result of RMAX, RMIN and RARGMAX on a row. -/
def State.vxPick (s : State) (y : YardWord) (w : Wagon) (seed : W64) (x : LaneFaults) (r : Nat) : Elem :=
  let a := s.vxRow y w 0 r
  let first := nth .nan a.1 0
  let d := laneAt x r 0
  if vxOp w = 0x24 then (slipCode 32 (argMax a.1) d.1, a.2, residue 255 d.1 = 0)
  else
    let v := a.1.foldl (if vxOp w = 0x22 then Val.most else Val.least) first
    let c := store32 w (vxDraw w seed r 0) v.to32 d
    (c.1, c.2.1.or a.2, c.2.2)

/-- The rows of segment k of a reduction to L128 read a word that was uncorrectable (R94). -/
def State.vxHurt (s : State) (y : YardWord) (w : Wagon) (k : Nat) : Bool :=
  (((vxSrcSpans w 0).drop (256 * k)).take 256).any (fun (o, n) =>
    (yardWords (y.key o) n).any (fun d => d ∈ s.yard.damaged))

/-- A reduction: one row of results, or L128 segments of 256 (R124, R127). The FLAGS of a segment also carry RETRIED, the
DATA_ERR held under a FEED link, and that of its own rows (R69, R77, R94). -/
def State.vxReduce (s : State) (y : YardWord) (w : Wagon) (seed : W64) (tile : Flags) (x : LaneFaults) : WagonOut :=
  let rows := List.range (vxRows w)
  let a := vxAnchor w
  let sum := fun r => s.vxSum y w x r
  if vxDstFmt w = 0xC then
    let es := rows.map (fun r =>
      let c := (sum r).toL128 a a
      let off := (laneAt x r 0).2
      (c.1 + off, c.2, (sum r).agrees && (sum r).toAgrees a a off))
    let segs := (List.range ((vxRows w + 255) / 256)).map (fun k =>
      let part := (es.drop (256 * k)).take 256
      let fl := { tile with dataErr := tile.dataErr || s.vxHurt y w k }
      let seg : Segment :=
        { contrib := 1, flags := (flagsAll (part.map (fun e => e.2.1))).or fl, count := part.length, anchor := a
          elems := part.map (fun e => e.1) }
      (vxDst w + 64 * vxDstStride w * k, seg.bytes))
    (segs, flagsAll (es.map (fun e => e.2.1)), es.all (fun e => e.2.2))
  else
    let es := rows.map (fun r =>
      if vxOp w = 0x20 ∨ vxOp w = 0x21 then
        let c := (sum r).elem a (vxDstFmt w) (vxMode w) (vxDraw w seed r 0) (laneAt x r 0).2
        (c.1, c.2.1, (sum r).agrees && c.2.2)
      else s.vxPick y w seed x r)
    ([(vxDst w, packCodes (vxDstFmt w) (elemCodes es))], elemFlags es, elemsAgree es)

/-- What a VECTOR wagon stores (R124 to R129), and whether its residue checks agree (R86): a parity error of a register file
counts as a mismatch (log entry 120). -/
def State.vxOutput (s : State) (y : YardWord) (w : Wagon) (seed : W64) (tile : Flags) (x : LaneFaults) : WagonOut :=
  let op := vxOp w
  let o : WagonOut :=
    if vopReduce op then s.vxReduce y w seed tile x
    else
      let row := fun r =>
        if op = 0x31 then s.vxQuant y w seed x r
        else if op = 0x32 then s.vxDequant y w seed x r
        else if vxFmt w 0 = 0xC then s.vxFromL128 y w seed x r
        else s.vxLane y w seed x r
      let rs := (List.range (vxRows w)).map row
      (rs.flatMap (fun o => o.1), flagsAll (rs.map (fun o => o.2.1)), rs.all (fun o => o.2.2))
  (o.1, o.2.1, o.2.2 && !x.parity)

/-- Under a forbidden overlap every stored byte, and each flag that depends on the results, is free (R606). -/
def State.vxFree (s : State) (o : WagonOut) : WagonOut × State :=
  let t := o.1.foldl (fun (acc : List (Nat × List Byte) × State) x =>
    (acc.1 ++ [(x.1, acc.2.freeBytes x.2.length)], acc.2.take x.2.length)) ([], s)
  let b := flagsOf (Config.freeByte t.2.fresh).toNat
  ((t.1, { b with dataErr := false, retried := false }, o.2.2), t.2.take 1)

/-! ## The wagon -/

/-- A residue mismatch counted against a vector engine: the second within 600 s fences it (R93). -/
def State.vectorHit (s : State) (p : Nat) : State :=
  let again := (s.part p).vec.residueAt.any (fun t => s.within t 600)
  let t := s.modVec p (fun x => { x with residueAt := some s.trg.seconds })
  if again then t.report (source 2 p 0) 0x0302 none 0 else t

/-- The results of a VECTOR wagon stored, and its completion. -/
def State.storeVector (s : State) (p : Nat) (f : Flight) (y : YardWord) (ecc : YardEcc) (readBad : Bool) (tile : Flags)
    (o : WagonOut) : State :=
  let x := if vxForbidden f.bits then s.vxFree o else (o, s)
  let t := x.2.yardPut f y ecc x.1.1
  let fl := (x.1.2.1.or tile).or { noFlags with dataErr := readBad }
  (t.2.mile (source 2 p 0) ((vxRows f.bits * vxCols f.bits + 511) / 512)).finish f
    (if readBad ∨ t.1 then wsData else wsOk) fl

/-- VECTOR (R68, R86, R93, R123 to R130, R606): a mismatch is re-executed once. -/
def execVector (ring : Fin 4096) (index : W32) (ecc : YardEcc) (faults again : LaneFaults) (s : State) :
    Host.Outcome State Fault Refusal :=
  .next (s.onFlight ring.val index (s.runs 0x20) (fun f t =>
    match f.unit with
    | .vector p =>
      let t := t.modVec p.val (fun v => { v with lastCtx := some f.ctx })
      let y := t.allot f
      let w := f.bits
      if badWagon w then t.finish f wsMalformed noFlags
      else if ¬ y.holds (vxReads w ++ vxDstSpans w ++ vxOutScaleSpans w) then t.finish f wsYardRange noFlags
      else
        let r := t.operands f y ecc (vxReads w)
        let tile := { noFlags with dataErr := (r.2.part p.val).vec.feedErr }
        let o := r.2.vxOutput y w (r.2.ctx f.ctx).srSeed tile faults
        if o.2.2 then r.2.storeVector p.val f y ecc r.1 tile o
        else
          let tile2 := { tile with retried := true }
          let o2 := r.2.vxOutput y w (r.2.ctx f.ctx).srSeed tile2 again
          let u := r.2.vectorHit p.val
          if o2.2.2 then (u.report (source 2 p.val 0) 0x0104 f.who 0).storeVector p.val f y ecc r.1 tile2 o2
          else ((u.vectorHit p.val).report (source 2 p.val 0) 0x0202 f.who 0).finish f wsResidue
            { tile with dataErr := tile.dataErr || r.1 }
    | _ => t))

end Sys2Proof.Machine
end

