-- ==== Sys2Proof/Machine/Reports.lean ====
section
/-! DEFINITION. What reaches the Signal Box: reports on the pairs (R476, R477), signalling faults and walks (R478,
R479), watchdogs (R48 to R51), the clock monitor (R35), missed deadlines (R499, R500), and the acknowledgement by time
(R487). -/

namespace Sys2Proof.Machine

/-! ## Reports (R477, R484) -/

/-- A control core. -/
def State.core (s : State) (i : Nat) : ControlCore := nth ControlCore.reset s.cores i

/-- A residue mismatch of a control core whose rerun passed: the second within 600 s fences the core (R49). -/
def State.coreHit (s : State) (i : Nat) : State :=
  let again := (s.core i).residueAt.any (fun t => s.within t 600)
  let f := fun (c : ControlCore) => { c with residueAt := some s.trg.seconds }
  let t : State := { s with cores := setNth s.cores i f }
  if again then t.report (source 9 0 i) 0x0303 none 0 else t

/-- The step of the context concerned is invalid (R484), where its generation is still current. -/
def State.spoilStep (s : State) (code : Nat) (ctx : Option (Nat × W16)) : State :=
  match ctx with
  | some (c, g) => if (code = 0x0201 ∨ code = 0x0202) ∧ (s.ctx c).gen = g then s.markInvalid c else s
  | none => s

/-- An uncorrectable read of some line of a frame that no other command has met: the line stays uncorrectable, the ticket
names it, and the frame is retired (R243, R246, R247). Which line it is stands free (log entry 132). -/
def State.frameBad (s : State) (f dev : Nat) : State :=
  let addr := f * 2 ^ 21 + 64 * (Config.freeLine s.fresh % 2 ^ 15)
  (({ s.take 1 with mem.damaged := addTo (addr / 64) s.mem.damaged }).memTicket addr).retireFrame f dev

/-- The same in the firmware-reserved region, where the tables of contexts lie (R149, R155, R157): any frame of it. -/
def State.reservedBad (s : State) (dev : Nat) : State :=
  (s.take 1).frameBad (s.mem.usable / 2 ^ 21 + Config.freeLine s.fresh % 2048) dev

/-- What the catalogue makes of a report that no other command has acted on (R49, R91, R93, R247): mismatches
are counted, and the frame or block of an uncorrectable read is retired; an uncorrectable read of the firmware-reserved
region that a memory device reports raises its ticket too (R243). -/
def State.reported (s : State) (r : Report) : State :=
  let k := srcKind r.source
  let p := srcMid r.source
  let i := srcIdx r.source
  if r.code = 0x0103 ∧ k = 1 then s.residueHit p i
  else if r.code = 0x0104 ∧ k = 2 then s.vectorHit p
  else if r.code = 0x0105 ∧ k = 9 then s.coreHit i
  else if (r.code = 0x0201 ∨ r.code = 0x0309) ∧ k = 6 then s.frameBad r.info.toNat i
  else if (r.code = 0x0203 ∨ r.code = 0x0402) ∧ k = 6 then s.reservedBad i
  else if (r.code = 0x0201 ∨ r.code = 0x0309) ∧ k = 7 then s.retireBlock (p * 2048 + r.info.toNat % 2048)
  else s

/-- A report read by the Signal Box: its event raised. -/
def State.readReport (s : State) (r : Report) : State :=
  (s.spoilStep r.code r.ctx).raiseEvent r.code r.source r.ctx r.info r.injected (codeLevel r.code)
    (if codeFences r.code then [r.source] else [])

/-- Codes that a source reports: those that the reset controller and the Signal Box raise themselves are not
among them. -/
def codeReported (code : Nat) : Bool := codeKnown code && code ≠ 0x0405 && code ≠ 0x0601

/-- SIGNAL_BOX_REPORT (R477, R481 to R488, R499, R501, R503, R506): the oldest report that the source holds is read;
where it holds none, the operands are its report. A pair disregarded after a signalling fault is not read (R479). -/
def execSignalBoxReport (source : W32) (code : Nat) (ctx : Option (Fin 262144)) (info : W32) (s : State) :
    Host.Outcome State Fault Refusal :=
  .next (if s.start.phase ≠ .rom ∨ ¬ s.srcThere source ∨ source ∈ s.sbx.deaf then s
    else
      match s.sbx.reports.find? (fun r => r.source = source) with
      | some r => { s with sbx.reports := s.sbx.reports.erase r }.readReport r
      | none =>
        if codeReported code then
          let who := ctx.map (fun c => (c.val, (s.ctx c.val).gen))
          let r : Report := { source := source, code := code, ctx := who, info := info
                              injected := (source, false) ∈ s.sbx.driven }
          ({ s with sbx.driven := dropFrom (source, false) s.sbx.driven }.reported r).readReport r
        else s)

/-! ## Signalling faults (R478, R479, R481) -/

/-- Compute-die sensors of a partition still regarded (R481). -/
def State.sensors (s : State) (p : Nat) : Nat :=
  ((List.range 8).filter (fun i => source 0xC 0 (8 * p + i) ∉ s.sbx.sensorsOut)).length

/-- Level and fences of a signalling fault (R481). -/
def State.faultAction (s : State) (src : W32) : Nat × List W32 :=
  let k := srcKind src
  if k = 6 then (5, [src])
  else if k = 7 then (3, [src])
  else if k = 8 then (4, [])
  else if k = 0xA ∨ k = 0x12 then (6, [])
  else if k = 0xC then
    let p := srcIdx src / 8
    if srcMid src = 0 ∧ s.sensors p < 6 then (3, [partScope p]) else (0, [])
  else if k = 0xD ∨ k = 0xF ∨ k = 0x10 ∨ k = 0x13 then (5, [])
  else if k = 0x11 then (0, [])
  else (2, [src])

/-- A signalling fault of a pair: the pair is disregarded from now on, and event 0x0601 raised (R479). -/
def State.signallingFault (s : State) (src : W32) : State :=
  if src ∈ s.sbx.deaf ∨ ¬ s.srcThere src then s
  else
    let injected : Bool := (src, true) ∈ s.sbx.driven
    let t := { s with
      sbx.deaf := s.sbx.deaf ++ [src], sbx.driven := s.sbx.driven.filter (fun d => d.1 ≠ src)
      sbx.reports := s.sbx.reports.filter (fun r => r.source ≠ src)
      sbx.sensorsOut := if srcKind src = 0xC then addTo src s.sbx.sensorsOut else s.sbx.sensorsOut }
    let a := t.faultAction src
    t.raiseEvent 0x0601 src none 0 injected a.1 a.2

/-- SIGNALLING_FAULT (R479, R481, R503): a pair reads invalid on three samples in a row. -/
def execSignallingFault (source : W32) (s : State) : Host.Outcome State Fault Refusal :=
  .next (if s.start.phase ≠ .rom then s else s.signallingFault source)

/-- PAIR_WALK (R478, R479): every pair walked; those that read wrong are signalling faults. -/
def execPairWalk (wrong : List W32) (s : State) : Host.Outcome State Fault Refusal :=
  .next (if s.start.phase ≠ .rom then s
    else wrong.foldl (fun t w => if t.start.phase = .rom then t.signallingFault w else t) s)

/-! ## Watchdogs and the clock monitor (R35, R48 to R51) -/

/-- CORE_WATCHDOG_EXPIRY (R48 to R50): the core is fenced. -/
def execCoreWatchdogExpiry (core : Fin 16) (s : State) : Host.Outcome State Fault Refusal :=
  let src := source 9 0 core.val
  .next (if s.start.phase ≠ .rom ∨ (s.core core.val).unit ≠ .inService then s
    else s.raiseEvent 0x0303 src none 0 false 2 [src])

/-- MODULE_WATCHDOG_EXPIRY (R51, R501): a full module reset without firmware. -/
def execModuleWatchdogExpiry (s : State) : Host.Outcome State Fault Refusal :=
  .next (if s.start.phase ≠ .rom ∨ ¬ s.sbx.watchdog then s
    else
      let t := { s with sbx.watchdog := false }
      if t.doneLately moduleScope then t.requestCycle else t.beginModuleReset 2 false)

/-- The module held in reset (R35): neither firmware nor link nor management endpoint answers. -/
def State.heldInReset (s : State) : State :=
  { s with
    start.phase := .held, book.fwState := 0, book.mctpUp := false, pcie.linkUp := false, pcie.ready := false
    rails.ports := s.rails.ports.map (fun p => { p with state := .down }) }

/-- CLOCK_MONITOR_TRIP (R35): the compute clock stops, the module is held in reset, and ALERT_L asks for a power
cycle. -/
def execClockMonitorTrip (s : State) : Host.Outcome State Fault Refusal :=
  .next (if s.start.phase = .off ∨ s.start.phase = .held ∨ s.start.phase = .cycle then s
    else (s.raiseEvent 0x0407 (source 0x12 0 0) none 0 false 6 []).heldInReset)

/-! ## Deadlines (R499, R500) -/

/-- The rung taken when a reset of a level misses its deadline (R499). -/
def nextRung (level : Nat) (src : W32) : Nat :=
  if level ≠ 2 then level + 1
  else if srcKind src = 1 ∨ srcKind src = 2 ∨ srcKind src = 3 then 3
  else if srcKind src = 4 then 4
  else 5

/-- RESET_DEADLINE_MISSED (R499, R503): event 0x0405, and the next rung at once. -/
def execResetDeadlineMissed (level : Fin 7) (scope : W32) (s : State) : Host.Outcome State Fault Refusal :=
  .next (if s.start.phase ≠ .rom ∨ ¬ s.sbx.recoveries.any (fun r => r.level = level.val ∧ r.scope = scope) then s
    else s.raiseEvent 0x0405 scope none (BitVec.ofNat 32 level.val) false (nextRung level.val scope) [])

/-- MODULE_RESET_TIMER_EXPIRY (R500, R507): a full module reset that did not complete in 6 s ends in a power-cycle
request, without firmware. -/
def execModuleResetTimerExpiry (s : State) : Host.Outcome State Fault Refusal :=
  .next (if ¬ s.sbx.resetTimer ∨ s.start.phase = .off ∨ s.start.phase = .held ∨ s.start.phase = .cycle then s
    else { s with sbx.resetTimer := false }.raiseEvent 0x0405 moduleScope none 5 false 6 [])

/-- EVENT_AUTO_ACK (R487): an event recovered 60 s ago is acknowledged. -/
def execEventAutoAck (event : Nat) (s : State) : Host.Outcome State Fault Refusal :=
  .next (s.modEvent event (fun e => if e.state = 1 then { e with state := 2 } else e))

end Sys2Proof.Machine
end

