-- ==== Sys2Proof/Machine/ResetDone.lean ====
section
/-! DEFINITION. The end of unit, partition and compute-domain resets (R28, R37, R41, R45, R135 to R137, R209, R240, R496 to
R498, R504, R505, R562). -/

namespace Sys2Proof.Machine

/-! ## Unit resets (R136, R240) -/

/-- A bank after a unit reset of its engine: its sequence is replayed once, and lost the second time (R136). -/
def Bank.afterReset (b : Bank) : Bank :=
  if b.seq = none then b
  else if b.replayed then { b with lost := true }
  else { b with rebuild := true, replayed := true }

/-- A wagon put back into its unit's queue from its beginning. It keeps its copy of the peer entry (R233, R240) and waits
for the DACKs of the remote writes that it has sent (R193, R235). -/
def Flight.again (f : Flight) : Flight :=
  if f.stage = .started ∨ f.stage = .waiting then
    { f with stage := .queued, causes := [], plane := 0, row := 0, col := 0, issuedAll := false }
  else f

/-- Producers reload the full credits of a unit: its queue holds its own wagons (R28). -/
def State.reload (s : State) (u : UnitRef) : State :=
  let n := (s.unitFlights u).length
  s.modUnit u (fun d => { d with taken := n, freed := 0 })

/-- A unit that runs nothing: parked, its queue reloaded. -/
def State.emptied (s : State) (u : UnitRef) : State := (s.setPace u .parked none).reload u

/-- Every wagon of a unit put back into its queue. -/
def State.requeue (s : State) (u : UnitRef) : State :=
  let f := fun (f : Flight) => if f.unit = u then f.again else f
  { s with marsh.flights := s.marsh.flights.map f }.emptied u

/-- The destination of a lost mover wagon takes free bytes (R237). -/
def State.ruin (s : State) (f : Flight) : State :=
  let w := f.bits
  let n := mvRowBytes w
  let y := s.allot f
  let rows := (List.range (mvPlanes w)).flatMap (fun p => (List.range (mvRows w)).map (fun r => (p, r)))
  rows.foldl (fun t pr =>
    let a := dstRow w f.list pr.1 pr.2
    let bs := t.freeBytes n
    let t := t.take n
    if mvDstLoc w = 1 then (t.yardPut f y cleanYard [(a.toNat, bs)]).2
    else if mvDstLoc w = 0 then
      (linePieces (n + 1) (wrap64 a) bs).foldl (fun t x =>
        match (t.ctx f.ctx).translate true x.1 with
        | some pa => (t.lineStore pa x.2 .clean).2.modCtx f.ctx (fun c => c.markDirty x.1 x.2.length)
        | none => t) t
    else t) s

/-- The wagon that a vector or mover reset cuts short: marked the first time, lost the second (R136, R240). A lost mover
wagon completes once the remote writes that it has sent are answered (R193, R235). -/
def State.cutOne (s : State) (f : Flight) : State :=
  if ¬ f.cutShort then s.modFlight f.ring f.index (fun x => { x.again with cutShort := true })
  else if opMover (wOpcode f.bits) then
    let t := ((s.ruin f).cause f wsTransferLost).modFlight f.ring f.index (fun x =>
      { x with stage := .waiting, issuedAll := true })
    t.tryMove f.ring f.index
  else s.finish f wsLedgerLost noFlags

/-- What a unit reset does to the wagons of the unit when it completes. -/
def State.unitCleared (s : State) (src : W32) : State :=
  let p := srcMid src
  let i := srcIdx src
  let k := srcKind src
  if k = 1 then
    let u : UnitRef := .matrix (Fin.ofNat 8 p) (Fin.ofNat 20 i)
    (s.modEngine p i (fun e => { e with bank0 := e.bank0.afterReset, bank1 := e.bank1.afterReset })).requeue u
  else if k = 2 then
    let u : UnitRef := .vector (Fin.ofNat 8 p)
    let cut := (s.unitFlights u).filter (fun f => f.stage = .started)
    (cut.foldl State.cutOne s).emptied u
  else if k = 3 then
    let u : UnitRef := .mover (Fin.ofNat 8 p) (Fin.ofNat 4 i)
    let cut := (s.unitFlights u).filter (fun f => f.stage = .started ∨ f.stage = .waiting)
    (cut.foldl State.cutOne (s.modMover p i (fun m => { m with reads := [] }))).emptied u
  else s

/-- Resets of a unit within the last 600 s (R496). -/
def State.resetsLately (s : State) (src : W32) : Nat :=
  (s.past.unitResets.filter (fun e => e.source = src ∧ s.within e.sec 600)).length

/-- The end of a unit reset or fence: the unit's state cleared, the fourth reset within 600 s fenced, and the partition
that must leave service reset first (R496 to R498). -/
def State.unitDone (s : State) (r : Recovery) : State :=
  let src := r.scope
  let k := srcKind src
  let fences : Bool := src ∈ r.fence
  let resets : Bool := 1 ≤ k && k ≤ 5 && !fences
  let t := if resets then
      let u := s.unitCleared src
      u.modPast (fun h => { h with unitResets := h.unitResets ++ [{ source := src, sec := u.trg.seconds }] })
    else if k = 1 then s.requeue (.matrix (Fin.ofNat 8 (srcMid src)) (Fin.ofNat 20 (srcIdx src)))
    else s
  let fence := if resets ∧ 4 ≤ t.resetsLately src then addTo src r.fence else r.fence
  let t := fence.foldl State.fence { t with sbx.recoveries := t.sbx.recoveries.erase r }
  match t.mustLeave src with
  | none => t.finishRecovery r
  | some p =>
    match t.sbx.recoveries.find? (fun x => 3 ≤ x.level ∧ x.covers (partScope p)) with
    | some x =>
      let joined : Recovery := { x with events := x.events ++ r.events, reqs := x.reqs ++ r.reqs }
      { t with sbx.recoveries := t.sbx.recoveries.map (fun y => if y = x then joined else y) }
    | none => t.startRecovery (t.rung 3 src) src r.events r.reqs []

/-- UNIT_RESET_DONE (R45, R135, R136, R240, R496 to R498, R504). -/
def execUnitResetDone (source : W32) (s : State) : Host.Outcome State Fault Refusal :=
  .next (if s.start.phase ≠ .rom then s
    else
      match s.sbx.recoveries.find? (fun r => r.level = 2 ∧ r.scope = source) with
      | none => s
      | some r => s.unitDone r)

/-! ## Partitions (R41, R137, R209, R498) -/

/-- The Yard of a partition zeroed, its retired blocks left as they are (R248, R250, R505). -/
def State.zeroYard (s : State) (p : Nat) : State :=
  let hit := fun k => k / 2 ^ 27 = p && !s.yard.retired.contains (k / 65536)
  { s with
    yard.bytes := s.yard.bytes.filter (fun c => !hit c.1)
    yard.damaged := s.yard.damaged.filter (fun w => !hit (8 * w)) }

/-- A partition's units without work: no open sequence, no read outstanding, engines parked. -/
def Partition.cleared (p : Partition) : Partition :=
  { p with
    mes := p.mes.map (fun e => { e with
      bank0 := Bank.closed, bank1 := Bank.closed, pace := .parked, wants := none, feedErr := false, lastCtx := none })
    vec := { p.vec with pace := .parked, wants := none, feedErr := false, lastCtx := none }
    dms := p.dms.map (fun m => { m with reads := [] }) }

/-- The dispatch states of a partition's units reset, their credits full (R28). -/
def State.clearUnits (s : State) (p : Nat) : State :=
  let part := Fin.ofNat 8 p
  let units : List UnitRef := (List.range 20).map (fun e => .matrix part (Fin.ofNat 20 e)) ++ [.vector part]
    ++ (List.range 4).map (fun m => .mover part (Fin.ofNat 4 m))
  units.foldl (fun t u => t.modUnit u (fun _ => Dispatch.reset)) s

/-- Units that failed a partition's self-test, as SOURCE values (R591). -/
def failedUnits (t : SelfTest) (p : Nat) : List W32 :=
  t.engines.map (fun e => source 1 p e.val) ++ (if t.vector then [source 2 p 0] else [])
    ++ t.movers.map (fun m => source 3 p m.val) ++ (if t.yard then [source 7 p 0] else [])

/-- A unit is out of service for good already: fenced or absent. -/
def State.isOut (s : State) (src : W32) : Bool :=
  let p := srcMid src
  let i := srcIdx src
  let u := match srcKind src with
    | 1 => (s.engine p i).unit
    | 2 => (s.part p).vec.unit
    | 3 => (s.mover p i).unit
    | _ => if (s.part p).yardFailed then .fenced else .inService
  u = .fenced || u = .absent

/-- A unit that failed its self-test: fenced and recorded as event 0x030B, level 0 (R591). -/
def State.failUnit (s : State) (src : W32) : State :=
  if s.isOut src then s
  else
    let t := if srcKind src = 7 then
        (s.modPart (srcMid src) (fun q => { q with yardFailed := true })).listFence src
      else s.fence src
    t.raiseEvent 0x030B src none 0 false 0 []

/-- The self-test of a partition over. -/
def State.testOver (s : State) (p : Nat) (test : SelfTest) : State :=
  (failedUnits test p).eraseDups.foldl State.failUnit (s.modPart p (fun q => { q with tested := true }))

/-- The firmware update staged in the Yard is discarded where a partition holds part of it (R562). -/
def State.dropStaging (s : State) (p : Nat) : State :=
  let held := (List.range 8).filter (fun q => (s.part q).unit = .inService ∨ (s.part q).unit = .held)
  match held.idxOf? p with
  | none => s
  | some i =>
    match s.sec.update with
    | none => s
    | some u =>
      if u.committed ∨ u.imageBytes ≤ i * 3145728 then s
      else { s.abortCommit with sec.update := some { u with discarded := true, writing := false } }

/-- A partition after its reset: its Yard zeroed, its units clear, tested. -/
def State.partCleared (s : State) (p : Nat) (test : SelfTest) : State :=
  ((((s.dropStaging p).zeroYard p).modPart p Partition.cleared).clearUnits p).testOver p test

/-- A COUPLE_RESTORE that runs from a store ends ABORTED. -/
def State.abortRestore (s : State) (c : Nat) : State :=
  (s.dropRestore c).modCtx c (fun x => { x with store := x.store.map (fun k => { k with restoring := none }) })

/-- A context whose reset is over is HALTED, unless another reset that halts it goes on. -/
def State.restored (s : State) (c : Nat) : State :=
  if s.sbx.recoveries.any (fun r => 3 ≤ r.level ∧ s.haltsCtx c r) then s else (s.abortRestore c).restoreEnd c

/-- A partition leaves service (R498): fenced, a held partition in its place with its contexts moved there, or its
contexts stranded. -/
def State.losePart (s : State) (p : Nat) : State :=
  let mine := s.grantedTo p
  let before := s.serving
  let t := s.reprofile (fun s => (s.setPart p .fenced).listFence (partScope p))
  match t.serving.find? (fun q => q ∉ before) with
  | some q =>
    let word := fun (w : YardWord) => if w.phys = p then { w with phys := q } else w
    mine.foldl (fun t c => t.modCtx c (fun x => { x with yard := x.yard.map word })) t
  | none => mine.foldl (fun t c => t.modCtx c (fun x => { x with lostPart := true })) t

/-- A partition fenced where its reset says so or it is not serviceable any more. -/
def State.settleLoss (s : State) (fence : List W32) (p : Nat) : State :=
  let u := (s.part p).unit
  if (u = .inService ∨ u = .held) ∧ (partScope p ∈ fence ∨ ¬ (s.part p).serviceable) then s.losePart p else s

/-- Fences of units that a larger reset carries out (R484, R496, R503). -/
def State.lateFences (s : State) (r : Recovery) : State :=
  (r.fence.filter (fun f => srcKind f ≠ 7 ∧ srcKind f ≠ 6)).foldl State.fence s

/-- PARTITION_RESET_DONE (R41, R209, R498, R504). -/
def execPartitionResetDone (part : Fin 8) (test : SelfTest) (s : State) : Host.Outcome State Fault Refusal :=
  .next (if s.start.phase ≠ .rom then s
    else
      match s.sbx.recoveries.find? (fun r => r.level = 3 ∧ r.scope = partScope part.val) with
      | none => s
      | some r =>
        let mine := s.grantedTo part.val
        let t := ((s.partCleared part.val test).lateFences r).noteDone r.scope
        let t := { t with sbx.recoveries := t.sbx.recoveries.erase r }
        let t := (mine.foldl State.restored t).settleLoss r.fence part.val
        t.finishRecovery r)

/-- Every token's VALUE 0, its allotment kept (R209). -/
def State.zeroTokens (s : State) : State :=
  let f := fun (x : Nat × Token) => (x.1, { x.2 with value := 0 })
  { s with tokens := (s.tokens.map f).filter (fun x => x.2 ≠ Token.reset) }

/-- A self-test that nothing failed. -/
def SelfTest.passed : SelfTest := { engines := [], vector := false, movers := [], yard := false }

/-- The partitions that a reset of the compute domain restores. -/
def State.powered (s : State) : List Nat :=
  (List.range 8).filter (fun p => (s.part p).unit = .inService ∨ (s.part p).unit = .held)

/-- Credits withheld under R40 come back. -/
def State.returnCredits (s : State) : State :=
  let f := fun (p : Port) => { p with freed := p.freed.zipWith (· + ·) p.withheld, withheld := [0, 0, 0, 0] }
  { s with rails.ports := s.rails.ports.map f }

/-- COMPUTE_DOMAIN_RESET_DONE (R37, R40, R41, R177, R209, R245, R498, R504); `tests` holds one self-test for each partition. -/
def execComputeDomainResetDone (tests : List SelfTest) (s : State) : Host.Outcome State Fault Refusal :=
  if tests.length ≠ 8 then .fault .illFormed
  else .next (if s.start.phase ≠ .rom then s
    else
      match s.sbx.recoveries.find? (fun r => r.level = 4) with
      | none => s
      | some r =>
        let parts := s.powered
        let t := parts.foldl (fun t p => t.partCleared p (nth SelfTest.passed tests p)) s
        let t := ((t.zeroTokens.returnCredits).lateFences r).noteDone computeScope
        let t := { t with marsh.units := [], yard.scrubbed := [], sbx.recoveries := t.sbx.recoveries.erase r }
        let t := parts.foldl (fun t p => t.settleLoss r.fence p) (t.ctxIds.foldl State.restored t)
        t.finishRecovery r)

end Sys2Proof.Machine
end

