-- ==== Sys2Proof/Machine/PowerTickets.lean ====
section
/-! DEFINITION. Class 0x03: the Timetable, power status, energy, power states and anchor walks (R358, R359, R417, R423,
R424, R438, R441, R444, R472). -/

namespace Sys2Proof.Machine

/-- TIMETABLE_SET (R16, R358, R441, R444): held until the next tick, which replies; DUTY is reserved in automatic mode. -/
def execTimetableSet (ch : Chan) (s : State) : Host.Outcome State Fault Refusal :=
  .next (s.onRequest ch (opIs 0x0300) { lenOk := lenIs 16, reserved := [(9, 1), (12, 4)] } (fun r t =>
    let slew := r.get 4 4
    match (if r.get 8 1 = 0 then firstSet r.payload [(10, 2)] else none) with
    | some i => t.reply r stMalformed i []
    | none =>
    if 2600000 < r.get 0 4 then t.reply r stRange 0 []
    else if slew < 10000 ∨ 50000000 < slew then t.reply r stRange 4 []
    else if 1 < r.get 8 1 then t.reply r stRange 8 []
    else { t with power.pendingSet := t.power.pendingSet ++ [r] }))

/-! ## Status (R417) -/

/-- Energy above empty at a charge fraction, in joules (R397). -/
def Hay.energyAt (h : Hay) (x : Rat) : Rat := h.cap * (308 / 10 * x + 112 / 10 * x * x)

/-- HAY_CAPACITY in joules. -/
def Hay.capacityJ (h : Hay) : Rat := h.cap * 42

/-- The ramp value in milliwatts, rounded down (R443). -/
def Power.rampMw (p : Power) : Nat := p.ramp / 1000000

/-- The four estimator fields of POWER_STATUS: 0 while the reservoir is not in service (R417). -/
def State.hayFields (s : State) : List Byte :=
  if s.hayIn then
    let h := s.hay
    leBytes 4 (h.energyAt h.sRep).floor.toNat ++ leBytes 4 (h.u * 42).floor.toNat
      ++ leBytes 4 h.capacityJ.floor.toNat ++ leBytes 4 (h.energyAt h.window.1).floor.toNat
  else leBytes 16 0

/-- POWER_STATUS (R358, R408, R417). -/
def execPowerStatus (ch : Chan) (s : State) : Host.Outcome State Fault Refusal :=
  .next (s.onRequest ch (opIs 0x0301) { holdup := true, lenOk := lenIs 0 } (fun r t =>
    let p := t.power
    t.ok r (leBytes 4 p.meanInput ++ leBytes 4 p.setpoint ++ leBytes 4 p.rampMw ++ leBytes 4 p.slew
      ++ leBytes 1 p.state.code ++ leBytes 1 (b2n p.manual) ++ leBytes 1 (unitCode t.hay.entry) ++ leBytes 1 0
      ++ t.hayFields)))

/-- ENERGY_READ (R358, R472). -/
def execEnergyRead (ch : Chan) (s : State) : Host.Outcome State Fault Refusal :=
  .next (s.onRequest ch (opIs 0x0302) { holdup := true, lenOk := lenIs 8, reserved := [(1, 1), (6, 2)] } (fun r t =>
    let kind := r.get 0 1
    let first := r.get 2 2
    let n := r.get 4 2
    let limit := if kind = 0 then 11 else 4096
    if 1 < kind then t.reply r stRange 0 []
    else if n = 0 ∨ 56 < n then t.reply r stRange 4 []
    else if limit < first + n then t.reply r stRange 2 []
    else
      let counters := (List.range n).map (fun i =>
        if kind = 0 then nth 0 t.power.energy (first + i) else Table.get 0 t.power.energyId (first + i))
      t.ok r (leBytes 2 n ++ leBytes 6 0 ++ (counters.map (leBytes 8)).flatten)))

/-! ## Power states (R437 to R439) -/

/-- The step that the ceilings allow (R457). -/
def Power.due (p : Power) : Nat := max 16 (p.ceilings.foldl min 64)

/-- The step that is due becomes the target; during a stretch the change is deferred (R459, R465). -/
def State.retarget (s : State) : State :=
  let n := s.power.due
  { s with power := { s.power with
      target := if n = s.power.step then none else some n
      deferred := s.power.stretch.isSome && n ≠ s.power.step } }

/-- The power-state ceiling moved (R457); a lowering is recorded (R526). -/
def State.setPowerCeiling (s : State) (n : Nat) : State :=
  let old := nth 64 s.power.ceilings 0
  let t := { s with power.ceilings := setNth s.power.ceilings 0 (fun _ => n) }.retarget
  if n < old then t.note 0x8008 0 .occurrence else t

/-- Entry to Idle: nothing more is dispatched, and the power-state ceiling is 16. -/
def State.goIdle (s : State) : State := { s.setPowerCeiling 16 with power.state := .idle }

/-- Entry to Standby (R425, R430, R438, R523, R562). -/
def State.goStandby (s : State) (back : ReadBacks) : State :=
  let t := ((s.setPowerCeiling 64).endWalk 5).quietPorts
  let f := fun (u : Update) => if u.committed then u else { u with discarded := true }
  let t := { t with
    power.state := .standby, hay := t.hay.stop, cap.profileBefore := t.cap.profile
    sec.update := t.sec.update.map f }
  (t.endInjections.shutEst true back).flush

/-- A port that retrains: fenced, absent and pending ones are left. -/
def Port.retrain (p : Port) : Port := if p.unit = .inService then p.restart .training else p

/-- Run entered from Standby (R438): the compute domain as after a compute-domain reset, its partitions tested and what
fails fenced, the rail ports retraining, and the converter enabled again. -/
def State.leaveStandby (s : State) (tests : List SelfTest) : State :=
  let parts := s.powered
  let t := parts.foldl (fun t p => t.partCleared p (nth SelfTest.passed tests p)) s.zeroTokens
  let t := parts.foldl (fun t p => t.settleLoss [] p) t
  let on : Bool := t.hayIn && !t.hay.stopHot
  { t with
    power.state := .run, marsh := { t.marsh with units := [], flights := [] }, hay.converter := on, hay.closed := on
    rails.ports := t.rails.ports.map Port.retrain }

/-- POWER_STATE_SET (R438). -/
def execPowerStateSet (ch : Chan) (tests : List SelfTest) (readBacks : ReadBacks) (s : State) : Host.Outcome State Fault Refusal :=
  .next (s.onRequest ch (opIs 0x0303) { lenOk := lenIs 4, reserved := [(1, 3)] } (fun r t =>
    let to_ := r.get 0 1
    let awake : Bool := t.power.state = .run || t.power.state = .trimmed
    if to_ = 0 ∧ awake then t.ok r []
    else if to_ = 0 ∧ t.power.state = .idle then { t.setPowerCeiling 64 with power.state := .run }.ok r []
    else if to_ = 0 ∧ t.power.state = .standby then (t.leaveStandby tests).ok r []
    else if to_ = 2 ∧ awake then t.goIdle.ok r []
    else if to_ = 4 ∧ (awake ∨ t.power.state = .idle) then
      if t.sec.update.any (fun u => u.writing) then t.reply r stBusy 0x0803 [] else
      if t.allQuiet then (t.goStandby readBacks).ok r [] else t.reply r stState 1 []
    else t.reply r stState t.power.state.code []))

/-- HAYLOFT_ANCHOR_WALK (R359, R423, R424): a walk is scheduled. -/
def execHayloftAnchorWalk (ch : Chan) (s : State) : Host.Outcome State Fault Refusal :=
  .next (s.onRequest ch (opIs 0x0304) { lenOk := lenIs 8, reserved := [(1, 3)] } (fun r t =>
    if 1 < r.get 0 1 then t.reply r stRange 0 []
    else if 86400 < r.get 4 4 then t.reply r stRange 4 []
    else if t.power.state = .standby then t.reply r stState t.power.state.code []
    else if ¬ t.hayIn then t.reply r stAbsent 0 []
    else if t.hay.walk.isSome then t.reply r stBusy 0x0304 []
    else
      let w : Walk := { id := t.hay.nextWalk, empty := r.get 0 1 = 1, running := false, limited := false }
      { t with hay.walk := some w, hay.nextWalk := t.hay.nextWalk + 1 }.ok r (leBytes 4 w.id.toNat)))

end Sys2Proof.Machine
end

