-- ==== Sys2Proof/Machine/ControlLoop.lean ====
section
/-! DEFINITION. The Timetable's ramp (R443 to R445), the control engine's arithmetic and loops (R447 to R456, R470, R471)
and the overrun fallback (R454, R455). -/

namespace Sys2Proof.Machine

/-! ## Q2.14 (R447, R449) -/

/-- A Q2.14 value, and whether a product or sum that made it saturated. -/
structure Fix where
  v : Int
  sat : Bool
  deriving DecidableEq, Repr

/-- n / d rounded to the nearest integer, half to even. -/
def roundEven (n : Int) (d : Nat) : Int :=
  let k := n / (d : Int)
  let r := n % (d : Int)
  if 2 * r < d then k else if 2 * r > d then k + 1 else if k % 2 = 0 then k else k + 1

/-- An integer saturated to the Q2.14 range. -/
def fixOf (v : Int) : Fix :=
  if v < -32768 then { v := -32768, sat := true } else if 32767 < v then { v := 32767, sat := true } else { v := v, sat := false }

/-- q(n / d): a measurement in Q2.14. -/
def fixQ (n : Int) (d : Nat) : Fix := fixOf (roundEven (n * 16384) d)

/-- A stored value, saturated or not when it was made. -/
def fixBits (b : BitVec 16) : Fix := { v := b.toInt, sat := false }

/-- The stored form of a value. -/
def Fix.bits (a : Fix) : BitVec 16 := BitVec.ofInt 16 a.v

/-- A value taken afresh: how it was made is of no account. -/
def Fix.plain (a : Fix) : Fix := { a with sat := false }

/-- A saturating sum. -/
def Fix.add (a b : Fix) : Fix :=
  let t := fixOf (a.v + b.v)
  { t with sat := t.sat || a.sat || b.sat }

/-- A saturating difference. -/
def Fix.sub (a b : Fix) : Fix :=
  let t := fixOf (a.v - b.v)
  { t with sat := t.sat || a.sat || b.sat }

/-- A product, rounded half to even and saturating. -/
def Fix.mul (a b : Fix) : Fix :=
  let t := fixOf (roundEven (a.v * b.v) 16384)
  { t with sat := t.sat || a.sat || b.sat }

/-- A quotient by a positive value, rounded half to even and saturating (R453). -/
def Fix.div (a b : Fix) : Fix :=
  let t := fixOf (roundEven (a.v * 16384) b.v.toNat)
  { t with sat := t.sat || a.sat || b.sat }

/-- Gains of interface version 3.2 (R448). -/
def gain (code : Nat) : Fix := { v := code, sat := false }
def gA11 : Fix := gain 0x399A
def gA21 : Fix := gain 0x0333
def gA22 : Fix := gain 0x3333
def gB1 : Fix := gain 0x0666
def gK1 : Fix := gain 0x0CCD
def gK2 : Fix := gain 0
def gK3 : Fix := gain 0
def gK4 : Fix := gain 0x7000
def gL11 : Fix := gain 0x2666
def gL12 : Fix := gain 0
def gL21 : Fix := gain 0x0333
def gL22 : Fix := gain 0x2000
def gG : Fix := gain 0x0148

/-! ## The ramp (R443, R444, R471) -/

/-- A value moved toward a target by at most a step. -/
def toward (x target step : Int) : Int := if x < target then min target (x + step) else max target (x - step)

/-- Nanowatts per 50 µs tick at the slew. -/
def Power.tickNw (p : Power) : Nat := p.slew * 50

/-- A walk is running. -/
def Hay.walking (h : Hay) : Bool := h.walk.any (fun w => w.running)

/-- The offset that a walk asks for (R423): plus or minus 500 W, or none. -/
def Hay.walkTarget (h : Hay) : Int :=
  match h.walk with
  | some w => if w.running then (if w.empty then -500000000000 else 500000000000) else 0
  | none => 0

/-- Compute draw in mW (R436): input draw plus converter power. -/
def Power.drawMw (p : Power) : Int := (p.inputMw : Int) + p.convMw

/-- A full walk has met the limit of R399: input draw follows compute draw until the anchor (R423, R471). -/
def Hay.following (h : Hay) : Bool := h.walk.any (fun w => w.running && w.limited)

/-- The reference r in nanowatts (R447, R471): the ramp value with the outer loop's correction, or with a walk's
offset, clamped to 0 W to 2,600 W; where input draw follows compute draw, no less than that. -/
def State.refNw (s : State) : Int :=
  let ramp : Int := s.power.ramp
  let walked := ramp + s.hay.walkNw
  let r := if s.hay.following then max walked (s.power.drawMw * 1000000) else walked
  if s.hay.walking ∨ s.hay.walkNw ≠ 0 then max 0 (min 2600000000000 r) else ramp + s.power.delta

/-- The ramp value and the offset of a walk moved by one tick. -/
def State.moveRamp (s : State) : State :=
  let step : Int := s.power.tickNw
  let ramp := toward s.power.ramp ((s.power.setpoint * 1000000 : Nat) : Int) step
  { s with power.ramp := ramp.toNat, hay.walkNw := toward s.hay.walkNw s.hay.walkTarget step }

/-- One TIMETABLE_SET put in force and answered with the ramp value of this tick (R358, R444, R445, R453). -/
def State.applySet (s : State) (r : Request) : State :=
  let manual := r.get 8 1 = 1
  let p := { s.power with
    setpoint := r.get 0 4, slew := r.get 4 4, manual := manual, duty := BitVec.ofNat 16 (r.get 10 2), small := false
    transfer := (s.power.manual && !manual) || (s.power.transfer && !manual) }
  { s with power := p }.ok r (leBytes 4 s.power.rampMw ++ leBytes 4 0)

/-- Every TIMETABLE_SET that waits for this tick, in order of receipt (R441). -/
def State.applySets (s : State) : State :=
  s.power.pendingSet.foldl State.applySet { s with power.pendingSet := [] }

/-! ## The command limits (R398 to R400, R404, R451, R456) -/

/-- Converter power that the cell temperature allows, in mW (R399). -/
def Hay.tempMw (h : Hay) : Nat :=
  if 55000 ≤ h.tempMc then (2500000 * (65000 - h.tempMc) / 10000).toNat else 2500000

/-- Charging is limited to 0.9 A (R399), or has been since a full walk met that limit (R423). -/
def Hay.trickle (h : Hay) : Bool := h.slowCharge || h.following

/-- Stack power allowed in a direction, in mW: 2.5 kW, 90 A, the temperature, and the current limits of charging, of
which the least prevails (R398, R399, R404). -/
def Hay.stackMw (h : Hay) (discharging : Bool) (stackMv : Int) : Nat :=
  let charge := min (if h.preCharge then 2000 else 90000) (if h.trickle then 900 else 90000)
  min h.tempMw ((if discharging then 90000 else charge) * stackMv.toNat / 1000)

/-- A direction in which the module operates as R11 states: by flat-follow mode, or by a stop of the converter or of
that direction (R399, R400, R404, R456). -/
def State.barred (s : State) (discharging : Bool) : Bool :=
  let h := s.hay
  s.flat || !h.converter || h.stopHot || (if discharging then h.stopLow || h.preCharge else h.stopHigh || h.stopCold)

/-- A direction is stopped: barred, or at the edge of the window outside walks (R451). -/
def State.stopped (s : State) (discharging : Bool) : Bool :=
  let h := s.hay
  let edge : Bool := if discharging then h.sRep ≤ h.window.1 - 5 / 1000 else h.window.2 ≤ h.sRep
  s.barred discharging || (!h.walking && edge)

/-- u_lo and u_hi. -/
def State.limits (s : State) (m : TickMeas) : Int × Int :=
  let side := fun (d : Bool) =>
    if s.stopped d then (0 : Int)
    else min 32767 (Config.busCommand d (s.hay.stackMw d m.stackMv) m.busMv m.stackMv : Int)
  (-(side false), side true)

/-! ## The inner loop (R449, R453) -/

/-- Sticky saturation flags, in the order xh1, xh2, xh3, xh4, u, r, p (R450). -/
def satBits (l : List Bool) : BitVec 7 := BitVec.ofNat 7 (l.zipIdx.foldl (fun n x => n + b2n x.1 * 2 ^ x.2) 0)

/-- One tick of the engine that is on time. `live`: its command is applied; else 0 is (R455). -/
def State.innerStep (s : State) (m : TickMeas) (live : Bool) : State :=
  let p := s.power
  let y1 := (fixQ m.convMa 62500).plain
  let y2 := (fixQ (m.busMv - 48000) 12000).plain
  let x3 := fixQ (m.stackMv - 42000) 11200
  let pq := fixQ (m.inputMw : Int) 3000000
  let r := fixQ s.refNw 3000000000000
  let xh1 := fixBits p.xh1
  let xh2 := fixBits p.xh2
  let part := ((gK1.mul xh1).add (gK2.mul xh2)).add (gK3.mul x3.plain)
  let preset := ((fixOf 0).sub ((fixBits p.uc).add part)).div gK4
  let xh4 := if p.transfer ∧ ¬ p.manual then preset else fixBits p.xh4
  let u := if p.manual then fixBits p.duty else (fixOf 0).sub (part.add (gK4.mul xh4.plain))
  let lim := s.limits m
  let uc := if live then max lim.1 (min lim.2 u.v) else 0
  let ucq : Fix := { v := uc, sat := false }
  let e1 := y1.sub xh1
  let e2 := y2.sub xh2
  let n1 := (((gA11.mul xh1).add (gB1.mul ucq)).add (gL11.mul e1)).add (gL12.mul e2)
  let n2 := (((gA21.mul xh1).add (gA22.mul xh2)).add (gL21.mul e1)).add (gL22.mul e2)
  let n4 := if ¬ p.manual ∧ uc = u.v then xh4.add (gG.mul (r.plain.sub pq.plain)) else xh4
  let flags := satBits [n1.sat, n2.sat, x3.sat, n4.sat, u.sat, r.sat, pq.sat]
  { s with power := { p with
      xh1 := n1.bits, xh2 := n2.bits, xh3 := x3.bits, xh4 := n4.bits, uc := ucq.bits
      transfer := p.transfer && p.manual, satFlags := p.satFlags ||| flags, overrunRow := 0 } }

/-- The loops run: not in Hold-up or Standby (R437), nor after a third overrun until the engine is restarted (R455). -/
def State.loopOn (s : State) : Bool :=
  s.power.state ≠ .holdUp && s.power.state ≠ .standby && (!s.power.fallback || s.power.trial)

/-- The Timetable loop is not suspended (R437). -/
def State.regulating (s : State) : Bool := s.power.state ≠ .holdUp && s.power.state ≠ .standby

/-- The engine's part of a tick (R449, R454): an overrun keeps command and estimates. -/
def State.engineTick (s : State) (m : TickMeas) : State :=
  if ¬ s.loopOn then s
  else if m.late then
    { s with power.overruns := s.power.overruns + 1, power.overrunRow := s.power.overrunRow + 1 }
  else s.innerStep m (!s.power.fallback)

/-- 50 µs pass (log entry 2). -/
def State.passTick (s : State) : State :=
  let us := s.start.us + 50
  { s with start.us := us, trg.seconds := s.trg.seconds + (us / 1000000 - s.start.us / 1000000) }

/-- INNER_LOOP_TICK (R423, R436, R443 to R454, R456, R471). -/
def execInnerLoopTick (m : TickMeas) (s : State) : Host.Outcome State Fault Refusal :=
  .next (
    if s.start.phase = .off ∨ s.start.phase = .held then s
    else if s.start.phase = .resetting ∨ s.book.fwState < 2 then s.passTick
    else
      let t := (s.passTick.applySets).moveRamp
      let t := { t with power := { t.power with
        inputMw := m.inputMw, convMw := m.convMw, ticks := t.power.ticks + 1
        recent := ((m.inputMw, (m.inputMw : Int) + m.convMw) :: t.power.recent).take 20
        sumRamp := t.power.sumRamp + t.power.ramp
        sumInput := t.power.sumInput + m.inputMw, sumDraw := t.power.sumDraw + ((m.inputMw : Int) + m.convMw) } }
      t.engineTick m)

/-! ## The outer loop (R445, R452) -/

/-- delta in nanowatts, before its clamp. -/
def Hay.deltaNw (h : Hay) : Int :=
  let w := h.window
  (((w.1 + w.2) / 2 - h.sRep) * h.capacityJ / 60 * 1000000000).floor

/-- The mean of a list of integers, rounded down. -/
def meanInt (l : List Int) : Int := l.foldl (· + ·) 0 / (max 1 l.length : Nat)

/-- OUTER_LOOP_TICK (R436, R445, R452): the means of the 10 ms, the small configuration's target, and delta. -/
def execOuterLoopTick (s : State) : Host.Outcome State Fault Refusal :=
  .next (
    if s.start.phase ≠ .rom ∨ s.book.fwState < 2 then s
    else
      let p := s.power
      let n := max 1 p.ticks
      let draws := (p.sumDraw / (n : Int) :: p.draws).take 1000
      let clamp : Int := (p.ramp * 8 / 1000 : Nat)
      let still : Bool := p.manual || s.flat || s.hay.walking || !s.loopOn
      { s with power := { p with
          meanInput := p.sumInput / n, draws := draws, sumInput := 0, sumDraw := 0, sumRamp := 0, ticks := 0
          inputs := ((p.sumInput / n, p.sumRamp / n) :: p.inputs).take 100
          setpoint := if p.small ∧ s.regulating then (max 0 (min 2600000 (meanInt draws))).toNat else p.setpoint
          delta := if still then 0 else max (-clamp) (min clamp s.hay.deltaNw) } })

/-! ## Overrun (R455) -/

/-- OVERRUN_FALLBACK (R455): zero current, flat-follow mode, and event 0x0502. -/
def execOverrunFallback (s : State) : Host.Outcome State Fault Refusal :=
  .next (
    if s.power.overrunRow < 3 ∨ s.power.fallback then s
    else ({ s with power.overrunRow := 0 }.fallBack).report (source 0xE 0 0) 0x0502 none 0)

/-- ENGINE_TRIAL_DONE (R455): 2,000 ticks on time lift the fence, and the loop resumes from a command of 0. -/
def execEngineTrialDone (onTime : Bool) (s : State) : Host.Outcome State Fault Refusal :=
  .next (
    if ¬ (s.power.fallback ∧ s.power.trial) then s
    else if onTime then
      { s with power := { s.power with fallback := false, trial := false, transfer := !s.power.manual, uc := 0 } }
    else { s with power.trial := false })

end Sys2Proof.Machine
end

