-- ==== Sys2Proof/Machine/SecurityTickets.lean ====
section
/-! DEFINITION. Classes 0x06 and 0x07: challenges, measurements, quotes, keys, the lifecycle, debug levels and fault
injection (R317, R363 to R365, R479, R547 to R560, R565 to R572). -/

namespace Sys2Proof.Machine

/-! ## Class 0x06 -/

/-- AUTH_CHALLENGE (R363, R559): a nonce; a fifth live one of a channel replaces the oldest. -/
def execAuthChallenge (ch : Chan) (s : State) : Host.Outcome State Fault Refusal :=
  .next (s.onRequest ch (opIs 0x0600) { letter := .r, holdup := true, lenOk := lenIs 0 } (fun r t =>
    let n : Nonce := { chan := ch, value := Config.random t.fresh, issued := t.start.us }
    let mine := t.sec.nonces.filter (fun x => x.chan = ch)
    let kept := match mine with
      | x :: _ => if 4 ≤ mine.length then t.sec.nonces.erase x else t.sec.nonces
      | [] => t.sec.nonces
    ({ t with sec.nonces := kept ++ [n] }.take 1).ok r (leBytes 32 n.value.toNat ++ leBytes 4 60)))

/-- MEASUREMENT_GET (R363, R554). -/
def execMeasurementGet (ch : Chan) (s : State) : Host.Outcome State Fault Refusal :=
  .next (s.onRequest ch (opIs 0x0601) { letter := .r, holdup := true, lenOk := lenIs 4, reserved := [(1, 3)] }
    (fun r t =>
      let i := r.get 0 1
      if 15 < i then t.reply r stRange 0 []
      else t.ok r (leBytes 1 i ++ leBytes 3 0 ++ slice (t.measure i) 0 64)))

/-- Leaf indices of an XMSS key (R550). -/
def leafCount : Nat := 2 ^ 20

/-- The next leaf of the identity or the attestation key reserved and taken (R552): none where the record could not be
written. -/
def State.takeLeaf (s : State) (identity writeOk : Bool) : Option Nat × State :=
  let next := if identity then s.sec.identityNext else s.sec.attestNext
  let top := if identity then s.sec.identityTop else s.sec.attestTop
  let goal := min (top + 256) leafCount
  let t : State := if next ≠ top then s
    else if identity then { s with mram.identityTop := s.mram.identityTop.store goal writeOk }
    else { s with mram.attestTop := s.mram.attestTop.store goal writeOk }
  if next = top ∧ ¬ writeOk then (none, t)
  else
    let top := if next = top then goal else top
    (some next, if identity then { t with sec.identityNext := next + 1, sec.identityTop := top }
      else { t with sec.attestNext := next + 1, sec.attestTop := top })

/-- A key pair that the security root generates: its seeds are random numbers (R549, R559). -/
def newPair (n : Nat) : KeyPair :=
  { skSeed := Config.random n, skPrf := Config.random (n + 1), pubSeed := Config.random (n + 2) }

/-- A quote signed (R552, R553, R556, R557): one that the entry to Hold-up cuts short has used its leaf and gets no reply. -/
def State.quote (s : State) (r : Request) (identity : Bool) (how : QuoteEnd) : State :=
  let t : State := if identity then { s with sec.identityBudget := s.sec.identityBudget - 1 }
    else { s with sec.attestBudget := s.sec.attestBudget - 1 }
  match t.takeLeaf identity (how ≠ .recordFails) with
  | (none, t) => t.reply r stDevice 0 []
  | (some leaf, t) =>
    if how = .abandoned then t else
    let mask := r.get 32 4
    let key := (if identity then t.sec.identityRam else t.sec.attestRam).getD (newPair t.fresh)
    let body := leBytes 4 leaf ++ leBytes 4 mask ++ slice r.payload 0 32
      ++ (((List.range 16).filter (fun i => bit mask i)).map t.measure).flatten
    let msg := asciiPad "SUENE-QUOTE-V1" 16 ++ leBytes 16 t.fuses.serial.toNat ++ leBytes 4 t.book.session.toNat ++ body
    t.ok r (body ++ key.sign msg leaf)

/-- ATTEST_QUOTE (R550, R552, R556, R557, R570, R572). -/
def execAttestQuote (ch : Chan) (how : QuoteEnd) (s : State) : Host.Outcome State Fault Refusal :=
  .next (s.onRequest ch (opIs 0x0602) { letter := .q, lenOk := lenIs 36 } (fun r t =>
    let mask := r.get 32 4
    let identity := bit mask 31
    let next := if identity then t.sec.identityNext else t.sec.attestNext
    let budget := if identity then t.sec.identityBudget else t.sec.attestBudget
    if field mask 23 16 ≠ 0 then t.reply r stMalformed 34 []
    else if field mask 30 24 ≠ 0 then t.reply r stMalformed 35 []
    else if identity ∧ t.sec.idSealed then t.reply r stDenied 0 []
    else if leafCount ≤ next then t.reply r stState 0 []
    else if budget = 0 then t.reply r stBusy 0x0602 []
    else t.quote r identity how))

/-- PUBKEY_GET (R363, R547, R550). -/
def execPubkeyGet (ch : Chan) (s : State) : Host.Outcome State Fault Refusal :=
  .next (s.onRequest ch (opIs 0x0603) { letter := .r, holdup := true, lenOk := lenIs 4, reserved := [(1, 3)] }
    (fun r t =>
      let k := r.get 0 1
      let key := if k = 0 then t.sec.identityRam.map KeyPair.publicKey
        else if k = 1 then t.sec.attestRam.map KeyPair.publicKey
        else if k = 2 then t.ownerKey else some (imgSigner (norRead t.sec.nor 0 128))
      let left := if k = 0 then leafCount - t.sec.identityNext else if k = 1 then leafCount - t.sec.attestNext else 0
      if 3 < k then t.reply r stRange 0 []
      else t.ok r (leBytes 1 k ++ leBytes 3 0 ++ leBytes 4 left ++ slice (key.getD (keyBytes Config.noKey)) 0 68)))

/-! ## The lifecycle (R565, R566, R571) -/

/-- A lifecycle change: fuses written, measurement 1 computed anew, and debug Closed. -/
def State.newLife (s : State) (f : Fuses → Fuses) : State :=
  ({ s with fuses := f s.fuses }.remeasureFuses).setLevel 0 none

/-- PROVISION (R363, R565, R566): both keys, OWNER_HASH, then LIFECYCLE[0]. One that loses power on the way leaves no keys
and writes no reply. -/
def execProvision (ch : Chan) (how : ProvisionEnd) (s : State) : Host.Outcome State Fault Refusal :=
  .next (s.onRequest ch (opIs 0x0604)
    { letter := .p, authOpen := true, authNeed := fun _ _ => true, authKey := fun _ _ => some 1, lenOk := lenIs 72
      reserved := [(68, 4)] }
    (fun r t =>
      let owner := slice r.payload 0 68
      let hash := keyHash owner
      let idk := newPair t.fresh
      let atk := newPair (t.fresh + 3)
      if t.fuses.ownerHash ≠ 0 ∧ t.fuses.ownerHash ≠ hash then t.reply r stDenied 0 []
      else if how = .beforeHash then t.take 6
      else if how = .beforeLife then { t.take 6 with fuses.ownerHash := hash }
      else
        let u := { t.take 6 with
          mram.identityKey := t.mram.identityKey.store (some idk) true
          mram.attestKey := t.mram.attestKey.store (some atk) true
          mram.ownerKey := t.mram.ownerKey.store (some owner) true
          mram.identityTop := t.mram.identityTop.store 0 true, mram.attestTop := t.mram.attestTop.store 0 true
          sec.identityRam := some idk, sec.attestRam := some atk
          sec.identityNext := 0, sec.identityTop := 0, sec.attestNext := 0, sec.attestTop := 0 }
        (u.newLife (fun f => { f with ownerHash := hash, lifecycle := f.lifecycle ||| 1 })).ok r (idk.publicKey ++ atk.publicKey)))

/-- LIFECYCLE_SET (R565, R571). -/
def execLifecycleSet (ch : Chan) (s : State) : Host.Outcome State Fault Refusal :=
  .next (s.onRequest ch (opIs 0x0605)
    { letter := .l, authOpen := true, authNeed := fun _ _ => true, lenOk := lenIs 4, reserved := [(1, 3)] }
    (fun r t =>
      let to_ := r.get 0 1
      if to_ = 2 ∧ t.fuses.life = .provisioned then
        (t.newLife (fun f => { f with lifecycle := f.lifecycle ||| 2 })).ok r []
      else if to_ = 3 then
        if t.allQuiet then (t.newLife (fun f => { f with lifecycle := f.lifecycle ||| 4 })).ok r []
        else t.reply r stState 1 []
      else t.reply r stDenied 0 []))

/-- OWNER_KEY_DESTROY (R565). -/
def execOwnerKeyDestroy (ch : Chan) (s : State) : Host.Outcome State Fault Refusal :=
  .next (s.onRequest ch (opIs 0x0606) { letter := .d, authOpen := true, authNeed := fun _ _ => true, lenOk := lenIs 0 }
    (fun r t =>
      let u := { t.eraseAll with
        mram.identityKey := TwoCopy.fresh none, mram.attestKey := TwoCopy.fresh none, mram.ownerKey := TwoCopy.fresh none
        sec.identityRam := none, sec.attestRam := none }
      (u.newLife (fun f => { f with ownerDestroyed := true })).ok r []))

/-! ## Debug levels (R568, R569, R571) -/

/-- The key with which a DEBUG_UNLOCK must be signed; none where it is denied whatever the key (R568). -/
def State.unlockKey (s : State) (r : Request) : Option Nat :=
  let full : Bool := r.get 0 1 = 2
  match s.fuses.life with
  | .blank => some 1
  | .provisioned => some 0
  | .fielded => if full ∧ s.power.state = .standby then none else some 0
  | .owned => if full then none else some 0
  | .destroyed => some 1

/-- DEBUG_UNLOCK (R568, R569, R571): the level raised; in Fielded, the entry to Intrusive first tears every context
down. -/
def execDebugUnlock (ch : Chan) (s : State) : Host.Outcome State Fault Refusal :=
  .next (s.onRequest ch (opIs 0x0700)
    { authOpen := true, authNeed := fun _ _ => true, authKey := State.unlockKey, lenOk := lenIs 4, reserved := [(1, 3)] }
    (fun r t =>
      let level := r.get 0 1
      if level = 0 ∨ 2 < level then t.reply r stRange 0 []
      else if level ≤ t.sec.level then t.reply r stState t.sec.level []
      else if level = 2 ∧ t.fuses.life = .fielded then
        let u := t.enterSiding
        if u.allQuiet then u.enterIntrusive r else u
      else (t.setLevel level (some (getLE r.block 32 1))).ok r (leBytes 1 level ++ leBytes 3 0)))

/-- DEBUG_LOCK (R568). -/
def execDebugLock (ch : Chan) (s : State) : Host.Outcome State Fault Refusal :=
  .next (s.onRequest ch (opIs 0x0701) { letter := .r, holdup := true, lenOk := lenIs 0 } (fun r t =>
    (t.setLevel 0 none).ok r []))

/-! ## Fault injection (R317, R364, R365, R479, R560) -/

/-- Injection needs a block in Provisioned below Intrusive (R560). -/
def injectAuth (s : State) : Bool := s.fuses.life = .provisioned && Nat.blt s.sec.level 2

/-- RAIL_INJECT (R317, R364, R365). -/
def execRailInject (ch : Chan) (s : State) : Host.Outcome State Fault Refusal :=
  .next (s.onRequest ch (opIs 0x0710)
    { letter := .f, authOpen := true, authNeed := fun t _ => injectAuth t, lenOk := lenIs 8, reserved := [(6, 2)] }
    (fun r t =>
      let n := r.get 0 1
      let p := t.port n
      if 19 < n then t.reply r stRange 0 []
      else if 3 < r.get 1 1 then t.reply r stRange 1 []
      else if r.get 2 2 = 0 then t.reply r stRange 2 []
      else if r.get 4 2 = 0 then t.reply r stRange 4 []
      else if p.unit = .fenced ∨ p.unit = .absent then t.reply r stAbsent 0 []
      else if p.state ≠ .up then t.reply r stState (portCode p.state) []
      else
        let i : Injection := { kind := r.get 1 1, left := r.get 2 2, period := r.get 4 2, phase := 0
                               byLevel := !injectAuth t }
        (t.modPort n (fun p => { p with inject := some i })).ok r []))

/-- SBX_INJECT (R364, R479, R480): a source's pair driven to a report or to an invalid reading. -/
def execSbxInject (ch : Chan) (s : State) : Host.Outcome State Fault Refusal :=
  .next (s.onRequest ch (opIs 0x0711)
    { letter := .f, authOpen := true, authNeed := fun t _ => injectAuth t, lenOk := lenIs 8, reserved := [(5, 3)] }
    (fun r t =>
      let src := BitVec.ofNat 32 (r.get 0 4)
      if ¬ srcValid src then t.reply r stRange 0 []
      else if t.unitAt src = .absent then t.reply r stAbsent 0 []
      else if 1 < r.get 4 1 then t.reply r stRange 4 []
      else { t with sbx.driven := addTo (src, r.get 4 1 = 1) t.sbx.driven }.ok r []))

end Sys2Proof.Machine
end

