-- ==== Sys2Proof/Machine/UpdateTickets.lean ====
section
/-! DEFINITION. Class 0x08: firmware update and activation (R43, R224, R329, R366, R367, R544, R561, R562). -/

namespace Sys2Proof.Machine

/-- The open update: none where the staged image was discarded (R367). -/
def State.openUpdate (s : State) : Option Update := s.sec.update.bind (fun u => if u.discarded then none else some u)

/-- STAGE of FW_UPDATE_STATUS (R366). -/
def State.stage (s : State) : Nat :=
  match s.openUpdate with
  | none => 0
  | some u => if u.committed then 3 else if u.verified then 2 else 1

/-! ## The staging area (R222, R224, R225) -/

/-- Partitions whose staging slices make up the staging area, in order. -/
def State.stageParts (s : State) : List Nat :=
  (List.range 8).filter (fun p => (s.part p).unit = .inService ∨ (s.part p).unit = .held)

/-- The Yard key of byte i of the staging area, its block moved as R225 says; none where the area runs without that
block. -/
def State.stageKey (s : State) (i : Nat) : Option Nat :=
  let p := nth 0 s.stageParts (i / 3145728)
  let o := i % 3145728
  (s.yard.homeOf (p * 2048 + yardBlocks + o / 65536)).map (fun b => b * 65536 + o % 65536)

/-- A list of bytes cut where 64 KiB blocks of an area begin. -/
def blockPieces : Nat → Nat → List Byte → List (Nat × List Byte)
  | 0, _, _ => []
  | fuel + 1, a, bs =>
    match bs with
    | [] => []
    | _ =>
      let n := 65536 - a % 65536
      (a, bs.take n) :: blockPieces fuel (a + n) (bs.drop n)

/-- Bytes written into the staging area; those of a block that it runs without are lost. -/
def State.stageWrite (s : State) (off : Nat) (bs : List Byte) : State :=
  (blockPieces (bs.length / 65536 + 2) off bs).foldl (fun t x =>
    match t.stageKey x.1 with
    | some k => (t.yardStore k x.2).2
    | none => t) s

/-- Bytes read from the staging area; a block that it runs without reads 0 (log entry 131). -/
def State.stageRead (s : State) (n : Nat) : List Byte :=
  ((List.range ((n + 65535) / 65536)).map (fun b =>
    let k := min 65536 (n - b * 65536)
    match s.stageKey (b * 65536) with
    | some a => s.yardLoad a k
    | none => List.replicate k 0)).flatten

/-- RECEIVED: bytes in unbroken order from offset 0 (R366). -/
def Update.received (u : Update) : Nat :=
  match u.got with
  | (0, b) :: _ => b
  | _ => 0

/-! ## The requests -/

/-- FW_UPDATE_BEGIN (R224, R366, R367, R561). -/
def execFwUpdateBegin (ch : Chan) (s : State) : Host.Outcome State Fault Refusal :=
  .next (s.onRequest ch (opIs 0x0800) { letter := .u, lenOk := lenIs 8, reserved := [(4, 4)] } (fun r t =>
    let n := r.get 0 4
    let area := t.stagingBytes
    if t.openUpdate.isSome then t.reply r stBusy 0x0800 []
    else if imageMax < n then t.reply r stRange 0 []
    else if area < n then t.reply r stShort 0 (leBytes 4 (n - area))
    else
      let u : Update := { imageBytes := n, got := [], verified := false, committed := false, writing := false, discarded := false }
      { t with sec.update := some u }.ok r (leBytes 4 area)))

/-- Bytes of an update written at an offset. -/
def State.stageData (s : State) (r : Request) (u : Update) (off : Nat) (bs : List Byte) : State :=
  let t := s.stageWrite off bs
  { t with sec.update := some { u with got := addRange off (off + bs.length) u.got, verified := false } }.ok r []

/-- FW_UPDATE_DATA (R329, R366, R367, R561); `host` is what the read of n bytes at the
buffer's bus address brings. -/
def execFwUpdateData (ch : Chan) (host : HostRead) (s : State) : Host.Outcome State Fault Refusal :=
  .next (s.onRequest ch (opIs 0x0801)
    { letter := .u, hostOpen := true, lenOk := fun b => 9 ≤ b.length ∧ b.length ≤ 480 } (fun r t =>
      let off := r.get 0 4
      let n := if r.hostbuf then r.get 4 4 else r.payload.length - 8
      if r.hostbuf ∧ r.payload.length ≠ 16 then t.reply r stLength 0 []
      else
        match (if r.hostbuf then none else firstSet r.payload [(4, 4)]) with
        | some i => t.reply r stMalformed i []
        | none =>
          match t.openUpdate with
          | none => t.reply r stState 0 []
          | some u =>
            if u.committed then t.reply r stState 3 []
            else if n = 0 ∨ 1048576 < n then t.reply r stRange 4 []
            else if u.imageBytes < off + n then t.reply r stRange 0 []
            else if r.hostbuf then
              match host with
              | .data bs =>
                if t.hostUp then (t.emit (.hostRead (r.get 8 8) n)).stageData r u off (slice bs 0 n)
                else t.reply r stDevice 0 []
              | .error => (if t.hostUp then t.emit (.hostRead (r.get 8 8) n) else t).reply r stDevice 0 []
            else t.stageData r u off (r.payload.drop 8)))

/-- FW_UPDATE_VERIFY (R544, R561). -/
def execFwUpdateVerify (ch : Chan) (s : State) : Host.Outcome State Fault Refusal :=
  .next (s.onRequest ch (opIs 0x0802) { letter := .u, lenOk := lenIs 0 } (fun r t =>
    match t.openUpdate with
    | none => t.reply r stState 0 []
    | some u =>
      let img := t.stageRead u.imageBytes
      if u.committed ∨ u.received < u.imageBytes then t.reply r stState t.stage []
      else if ¬ t.fuses.imageSigned img then t.reply r stAuth 0 []
      else if imgSvn img < t.fuses.svn then t.reply r stDenied 0 []
      else
        { t with sec.update := some { u with verified := true } }.ok r
          (leBytes 4 (imgVersion img) ++ leBytes 4 0 ++ imgMeasure img)))

/-- A NOR whose write has begun and not ended well: the header erased, the rest free (R561, R562). -/
def State.spoilNor (s : State) (n : Nat) : State :=
  { s.take (n - 128) with sec.nor := norWrite [] 128 (s.freeBytes (n - 128)) }

/-- A commit in progress, or one just begun, with the NOR write as it ends (R561, R562): the NOR erased and programmed, the
header last. -/
def State.writeNor (s : State) (r : Request) (u : Update) (how : CommitEnd) : State :=
  match how with
  | .matched =>
    { s with sec.nor := norWrite [] 0 (s.stageRead u.imageBytes), sec.update := some { u with committed := true, writing := false } }.ok
      r []
  | .mismatch => { s.spoilNor u.imageBytes with sec.update := none }.reply r stDevice 0 []
  | .abandoned => { s.spoilNor u.imageBytes with sec.update := none }.reply r stAborted 0 []
  | .goesOn => { s.spoilNor u.imageBytes with sec.update := some { u with writing := true } }

/-- FW_UPDATE_COMMIT (R561, R562): a commit that goes on ends with a later command of the same row. -/
def execFwUpdateCommit (ch : Chan) (how : CommitEnd) (s : State) : Host.Outcome State Fault Refusal :=
  .next (
    match s.commitRunning, s.openUpdate with
    | some r, some u => if r.chan = ch ∧ how ≠ .goesOn then s.writeNor r u how else s
    | _, _ =>
      s.onRequest ch (opIs 0x0803) { letter := .u, lenOk := lenIs 0 } (fun r t =>
        match t.openUpdate with
        | none => t.reply r stState 0 []
        | some u => if ¬ u.verified ∨ u.committed then t.reply r stState t.stage [] else t.writeNor r u how))

/-- FW_UPDATE_ABORT (R562): the update closed, but not during its commit. -/
def execFwUpdateAbort (ch : Chan) (s : State) : Host.Outcome State Fault Refusal :=
  .next (s.onRequest ch (opIs 0x0804) { letter := .u, lenOk := lenIs 0 } (fun r t =>
    match t.sec.update with
    | none => t.reply r stState 0 []
    | some u => if u.writing then t.reply r stBusy 0x0803 [] else { t with sec.update := none }.ok r []))

/-- FW_UPDATE_STATUS (R366, R561). -/
def execFwUpdateStatus (ch : Chan) (s : State) : Host.Outcome State Fault Refusal :=
  .next (s.onRequest ch (opIs 0x0805) { letter := .u, lenOk := lenIs 0 } (fun r t =>
    let got := (t.openUpdate.map Update.received).getD 0
    let nor := if t.norValid then imgVersion t.norImage else 0
    t.ok r (leBytes 1 t.stage ++ leBytes 3 0 ++ leBytes 4 got ++ leBytes 4 nor)))

/-- FW_ACTIVATE (R430, R561): the reply, then a full module reset with CAUSE 3. -/
def execFwActivate (ch : Chan) (readBacks : ReadBacks) (s : State) : Host.Outcome State Fault Refusal :=
  .next (s.onRequest ch (opIs 0x0806) { letter := .u, lenOk := lenIs 0 } (fun r t =>
    if t.stage ≠ 3 then t.reply r stState t.stage []
    else ((((t.ok r []).flushOut .pcie).flushOut .mctp).shutEst true readBacks).beginModuleReset 3 true))

end Sys2Proof.Machine
end

