-- ==== Sys2Proof/Machine/Mctp.lean ====
section
/-! DEFINITION. The MCTP control commands (R341, R584) and Roundhouse, the ROM's PLDM update (R563, R564). What only
DMTF's DSP0236, DSP0240 and DSP0267 say of the messages' form is log entry 26. -/

namespace Sys2Proof.Machine

/-! ## MCTP control (R341) -/

/-- The MCTP endpoint takes a message of an endpoint: it answers, and the endpoint is its peer, or it has none yet. After
a full module reset nothing but Set Endpoint ID is answered before the endpoint ID is set (R594). -/
def State.mctpHears (s : State) (src : Byte) (setting : Bool) : Bool :=
  s.book.mctpUp && (s.start.phase = .rom || s.start.phase = .cycle) &&
    match s.book.peer with
    | some p => p = src
    | none => setting || !s.start.fast

/-- An answer of the MCTP endpoint: a completion code and data. -/
def State.mctpAnswer (s : State) (dst : Byte) (name : String) (code : Nat) (bytes : List Byte) : State :=
  s.emit (.control dst name (leBytes 1 code ++ bytes))

/-- An MCTP control command. -/
def State.onControl (s : State) (src : Byte) (setting : Bool) (act : State → State) : State :=
  if s.mctpHears src setting then act s else s

/-- Set Endpoint ID (R341): operations 0 and 1 set it, to an ID that DSP0236 does not reserve, for the
endpoint at an SMBus address. -/
def execSetEndpointId (src : Byte) (slave : Byte) (op : Byte) (eid : Byte) (s : State) : Host.Outcome State Fault Refusal :=
  .next (s.onControl src true (fun t =>
    if field op.toNat 1 0 ≤ 1 ∧ 8 ≤ eid.toNat ∧ eid ≠ 0xFF then
      { t with book.eid := some eid, book.peer := some src, book.peerSlave := slave &&& 0x7F }.mctpAnswer src "Set Endpoint ID" 0 [0, eid, 0]
    else t.mctpAnswer src "Set Endpoint ID" 2 []))

/-- Get Endpoint ID (R341): the endpoint ID, 0 while there is none; a simple endpoint. -/
def execGetEndpointId (src : Byte) (s : State) : Host.Outcome State Fault Refusal :=
  .next (s.onControl src false (fun t => t.mctpAnswer src "Get Endpoint ID" 0 [t.book.eid.getD 0, 0, 0]))

/-- Message types that the endpoint carries now, control apart: PLDM in Roundhouse, tickets otherwise (R341, R563). -/
def State.messageTypes (s : State) : List Byte := if s.book.fwState = 1 then [0x01] else [0x7F]

/-- Get MCTP Version Support (R341). -/
def execGetMctpVersionSupport (src : Byte) (msgType : Byte) (s : State) : Host.Outcome State Fault Refusal :=
  .next (s.onControl src false (fun t =>
    if msgType = 0xFF ∨ msgType = 0 ∨ msgType ∈ t.messageTypes then
      let v := Config.mctpVersions msgType
      t.mctpAnswer src "Get MCTP Version Support" 0 (leBytes 1 (v.length / 4) ++ v)
    else t.mctpAnswer src "Get MCTP Version Support" 0x80 []))

/-- Get Message Type Support (R341). -/
def execGetMessageTypeSupport (src : Byte) (s : State) : Host.Outcome State Fault Refusal :=
  .next (s.onControl src false (fun t =>
    t.mctpAnswer src "Get Message Type Support" 0 (leBytes 1 t.messageTypes.length ++ t.messageTypes)))

/-- Get Vendor Defined Message Support (R341): one entry in IANA format, command set version 0x0302. -/
def execGetVendorDefinedMsgSupport (src : Byte) (selector : Byte) (s : State) : Host.Outcome State Fault Refusal :=
  .next (s.onControl src false (fun t =>
    if selector = 0 then
      t.mctpAnswer src "Get Vendor Defined Message Support" 0
        ([0xFF, 0x01] ++ (leBytes 4 Config.enterprise.toNat).reverse ++ [0x03, 0x02])
    else t.mctpAnswer src "Get Vendor Defined Message Support" 2 []))

/-! ## PLDM in Roundhouse (R563) -/

/-- A PLDM message of the peer, in Roundhouse; every other one is dropped. -/
def State.onPldm (s : State) (src : Byte) (act : State → State) : State :=
  if s.book.fwState = 1 ∧ s.book.peer = some src ∧ s.mctpHears src false then act s else s

/-- A PLDM message that writes the NOR: in Hold-up the ROM writes no more (R599, R601). -/
def State.onNorWrite (s : State) (src : Byte) (act : State → State) : State :=
  s.onPldm src (fun t => if t.power.state = .holdUp then t else act t)

/-- Completion codes of PLDM: an invalid type, no update in progress, one already, a state that does not allow it. -/
def pldmBadType : Nat := 0x83
def pldmNotUpdating : Nat := 0x80
def pldmAlready : Nat := 0x81
def pldmState : Nat := 0x84

/-- GetTID. -/
def execGetTid (src : Byte) (s : State) : Host.Outcome State Fault Refusal :=
  .next (s.onPldm src (fun t => t.mctpAnswer src "GetTID" 0 [t.sec.rh.tid]))

/-- GetPLDMVersion of a PLDM type: base (0) or firmware update (5). -/
def execGetPldmVersion (src : Byte) (type : Byte) (s : State) : Host.Outcome State Fault Refusal :=
  .next (s.onPldm src (fun t =>
    if type = 0 ∨ type = 5 then
      t.mctpAnswer src "GetPLDMVersion" 0 (leBytes 4 0 ++ [0x05] ++ Config.pldmVersion type)
    else t.mctpAnswer src "GetPLDMVersion" pldmBadType []))

/-- GetPLDMTypes: types 0 and 5, as bits. -/
def execGetPldmTypes (src : Byte) (s : State) : Host.Outcome State Fault Refusal :=
  .next (s.onPldm src (fun t => t.mctpAnswer src "GetPLDMTypes" 0 (leBytes 8 0x21)))

/-- Numbers of the PLDM commands of R563, by type. -/
def pldmCommands (type : Byte) : List Nat :=
  if type = 0 then [0x02, 0x03, 0x04, 0x05]
  else [0x01, 0x02, 0x10, 0x13, 0x14, 0x15, 0x16, 0x17, 0x18, 0x1A, 0x1B, 0x1C, 0x1D]

/-- GetPLDMCommands of a type, as bits. -/
def execGetPldmCommands (src : Byte) (type : Byte) (s : State) : Host.Outcome State Fault Refusal :=
  .next (s.onPldm src (fun t =>
    if type = 0 ∨ type = 5 then
      t.mctpAnswer src "GetPLDMCommands" 0 (leBytes 32 ((pldmCommands type).foldl (fun n c => n + 2 ^ c) 0))
    else t.mctpAnswer src "GetPLDMCommands" pldmBadType []))

/-- QueryDeviceIdentifiers: the IANA enterprise ID, and one vendor-defined descriptor that holds SERIAL. -/
def execQueryDeviceIdentifiers (src : Byte) (s : State) : Host.Outcome State Fault Refusal :=
  .next (s.onPldm src (fun t =>
    let iana := leBytes 2 1 ++ leBytes 2 4 ++ leBytes 4 Config.enterprise.toNat
    let serial := leBytes 2 0xFFFF ++ leBytes 2 24 ++ [0x01, 0x06] ++ asciiPad "SERIAL" 6 ++ leBytes 16 t.fuses.serial.toNat
    t.mctpAnswer src "QueryDeviceIdentifiers" 0
      (leBytes 4 (iana.length + serial.length) ++ leBytes 1 2 ++ iana ++ serial)))

/-- GetFirmwareParameters: one component, identifier 0x0001, with VERSION of the NOR image as its comparison stamp. -/
def execGetFirmwareParameters (src : Byte) (s : State) : Host.Outcome State Fault Refusal :=
  .next (s.onPldm src (fun t =>
    let version := imgVersion (norRead t.sec.nor 0 128)
    t.mctpAnswer src "GetFirmwareParameters" 0
      (leBytes 4 0 ++ leBytes 2 1 ++ leBytes 2 0x000A ++ leBytes 2 0x0001 ++ leBytes 1 0 ++ leBytes 4 version)))

/-- The state with Roundhouse changed. -/
def State.modRh (s : State) (f : Roundhouse → Roundhouse) : State := { s with sec.rh := f s.sec.rh }

/-- RequestUpdate: an update begins. -/
def execRequestUpdate (src : Byte) (s : State) : Host.Outcome State Fault Refusal :=
  .next (s.onPldm src (fun t =>
    if t.sec.rh.state = .idle then
      (t.modRh (fun r => { r with state := .learn })).mctpAnswer src "RequestUpdate" 0 [0, 0, 0]
    else t.mctpAnswer src "RequestUpdate" pldmAlready []))

/-- Answer on a component: 0x0001 is the one there is (R563). -/
def componentBytes (component : W16) : List Byte := if component = 1 then [0, 0] else [1, 6]

/-- PassComponentTable with its one component. -/
def execPassComponentTable (src : Byte) (component : W16) (s : State) : Host.Outcome State Fault Refusal :=
  .next (s.onPldm src (fun t =>
    if t.sec.rh.state = .learn then
      (t.modRh (fun r => { r with state := .ready })).mctpAnswer src "PassComponentTable" 0 (componentBytes component)
    else t.mctpAnswer src "PassComponentTable" pldmState []))

/-- The next RequestFirmwareData: up to 512 bytes from the first not taken; TransferComplete once all are in. -/
def State.askData (s : State) (dst : Byte) : State :=
  let r := s.sec.rh
  if r.taken < r.size then
    s.emit (.control dst "RequestFirmwareData" (leBytes 4 r.taken ++ leBytes 4 (min 512 (r.size - r.taken))))
  else s.emit (.control dst "TransferComplete" [0])

/-- UpdateComponent: the NOR erased, and the image asked for. -/
def execUpdateComponent (src : Byte) (component : W16) (size : W32) (s : State) : Host.Outcome State Fault Refusal :=
  .next (s.onNorWrite src (fun t =>
    if t.sec.rh.state ≠ .ready then t.mctpAnswer src "UpdateComponent" pldmState []
    else if component ≠ 1 ∨ size.toNat < 4096 ∨ imageMax < size.toNat then t.mctpAnswer src "UpdateComponent" 0 [1, 6]
    else
      let u := t.modRh (fun r =>
        { r with state := .download, size := size.toNat, header := [], taken := 0, verified := false })
      ({ u with sec.nor := [] }.mctpAnswer src "UpdateComponent" 0 [0, 0]).askData src))

/-- RequestFirmwareData answered: the bytes go to the NOR, those of the header to control SRAM (R564). -/
def execRequestFirmwareData (src : Byte) (data : List Byte) (s : State) : Host.Outcome State Fault Refusal :=
  .next (s.onNorWrite src (fun t =>
    let r := t.sec.rh
    if r.state ≠ .download ∨ r.size ≤ r.taken ∨ data.length ≠ min 512 (r.size - r.taken) then t
    else
      let head := data.take (128 - r.taken)
      let nor := norWrite t.sec.nor (r.taken + head.length) (data.drop head.length)
      ({ t with sec.nor := nor }.modRh (fun r =>
        { r with header := r.header ++ head, taken := r.taken + data.length })).askData src))

/-- START_FAIL set, the firmware start count kept (R333, R545, R546). -/
def State.setStartFail (s : State) (n : Nat) : State :=
  { s with mram.start := s.mram.start.store ((s.mram.start.read.map (fun x => x.1)).getD 0, n) true }

/-- TransferComplete (R564): the image is checked; a valid one gets its header, and START_FAIL becomes 0. -/
def execTransferComplete (src : Byte) (s : State) : Host.Outcome State Fault Refusal :=
  .next (s.onNorWrite src (fun t =>
    let r := t.sec.rh
    if r.state ≠ .download ∨ r.taken < r.size then t
    else
      let u := { t with sec.nor := norWrite t.sec.nor 0 r.header }
      if u.norValid then
        ((u.modRh (fun r => { r with state := .apply, verified := true })).setStartFail 0).emit
          (.control src "VerifyComplete" [0])
      else (t.modRh (fun r => { r with state := .verify })).emit (.control src "VerifyComplete" [1])))

/-- ApplyComplete: a verified image is in place. -/
def execApplyComplete (src : Byte) (s : State) : Host.Outcome State Fault Refusal :=
  .next (s.onPldm src (fun t =>
    if t.sec.rh.state ≠ .apply then t
    else (t.modRh (fun r => { r with state := .ready })).emit (.control src "ApplyComplete" [0])))

/-- ActivateFirmware (R564): a full module reset, CAUSE 3. -/
def execActivateFirmware (src : Byte) (s : State) : Host.Outcome State Fault Refusal :=
  .next (s.onPldm src (fun t =>
    if t.sec.rh.state = .ready ∧ t.sec.rh.verified then
      ((t.modRh (fun _ => { Roundhouse.reset with tid := t.sec.rh.tid, state := .activate })).mctpAnswer src
        "ActivateFirmware" 0 [0, 0]).beginModuleReset 3 false
    else t.mctpAnswer src "ActivateFirmware" pldmState []))

/-- Numbers of the PLDM states. -/
def pldmCode : PldmState → Nat
  | .idle => 0 | .learn => 1 | .ready => 2 | .download => 3 | .verify => 4 | .apply => 5 | .activate => 6

/-- GetStatus: the current state. -/
def execGetStatus (src : Byte) (s : State) : Host.Outcome State Fault Refusal :=
  .next (s.onPldm src (fun t => t.mctpAnswer src "GetStatus" 0 (leBytes 1 (pldmCode t.sec.rh.state))))

/-- CancelUpdateComponent: back to ready; the image stays not valid unless its header was programmed. -/
def execCancelUpdateComponent (src : Byte) (s : State) : Host.Outcome State Fault Refusal :=
  .next (s.onPldm src (fun t =>
    let st := t.sec.rh.state
    if st = .download ∨ st = .verify ∨ st = .apply then
      (t.modRh (fun r => { r with state := .ready, verified := false })).mctpAnswer src "CancelUpdateComponent" 0 []
    else t.mctpAnswer src "CancelUpdateComponent" (if st = .idle then pldmNotUpdating else pldmState) []))

/-- CancelUpdate: no update any more. -/
def execCancelUpdate (src : Byte) (s : State) : Host.Outcome State Fault Refusal :=
  .next (s.onPldm src (fun t =>
    if t.sec.rh.state = .idle then t.mctpAnswer src "CancelUpdate" pldmNotUpdating []
    else (t.modRh (fun r => { Roundhouse.reset with tid := r.tid })).mctpAnswer src "CancelUpdate" 0 (leBytes 9 0)))

end Sys2Proof.Machine
end

