-- ==== Sys2Proof/Machine/Mailbox.lean ====
section
/-! DEFINITION. The mailbox registers and the flow of tickets on both channels (R331 to R343, R347), MSI-X vectors (R386)
and the ring interrupt bitmap (R382, R383). -/

namespace Sys2Proof.Machine

/-! ## The PCIe channel -/

/-- Requests received up to a TAIL while tickets are accepted (R333, R335). -/
def State.receiveTail (s : State) (tail : W32) : State := if s.book.fwState = 3 then s.receiveUpTo tail 33 else s

/-- MBX_IN_DOORBELL (R332, R335, R336): more than 32 ahead of IN_SEQ is an overrun. -/
def execMbxInDoorbell (tail : W32) (s : State) : Host.Outcome State Fault Refusal :=
  .next (s.onBar (fun t =>
    let ahead := sub32 tail t.book.pcie.inSeq
    if t.book.fwState ≠ 3 ∨ ahead = 0 then t
    else if 32 < ahead then t.reject (t.book.pcie.inSeq.toNat % 32) 4
    else t.receiveTail tail))

/-- MAILBOX_REQUEST_RECEIVE (R335, R339): receipt that was held back goes on. -/
def execMailboxRequestReceive (s : State) : Host.Outcome State Fault Refusal :=
  .next (match s.book.pcie.tail with
    | some tail => s.receiveTail tail
    | none => s)

/-- MBX_OUT_ACK (R338). -/
def execMbxOutAck (ack : W32) (s : State) : Host.Outcome State Fault Refusal :=
  .next (s.onBar (fun t => t.modChan .pcie (fun c => c.takeAck ack)))

/-- MBX_OUT_DOORBELL (R15, R332): a 1 clears PENDING. -/
def execMbxOutDoorbell (value : W32) (s : State) : Host.Outcome State Fault Refusal :=
  .next (s.onBar (fun t => { t with book.pending := t.book.pending && !bit value.toNat 0 }))

/-- OUTBOUND_TICKET_WRITE (R337, R339, R340, R342). -/
def execOutboundTicketWrite (ch : Chan) (s : State) : Host.Outcome State Fault Refusal := .next (s.writeTicket ch)

/-! ## The MCTP channel (R342, R343) -/

/-- MCTP_RESEND_TIMEOUT (R343). -/
def execMctpResendTimeout (s : State) : Host.Outcome State Fault Refusal :=
  .next (if s.chanUp .mctp then s.resendTickets .mctp else s)

/-- The held tickets of the reply to the request that a ticket carried: by the ticket's SEQ (R342). -/
def Channel.repliesTo (c : Channel) (t : Ticket) : List SentTicket :=
  c.sent.filter (fun x => x.ticket.answers.any (fun a => sub32 a.1 t.seq < a.2))

/-- A request of one ticket, as a SESSION_QUERY on MCTP is. -/
def Ticket.alone (t : Ticket) (ch : Chan) : Request :=
  { chan := ch, opcode := t.opcode, flags := t.flags, client := t.client, tag := t.tag, ack := t.ack, payload := t.payload
    broken := t.headerBad || t.more, seq := t.seq }

/-- A ticket of the MCTP channel whose CRC and LENGTH are good: received in sequence, a duplicate, or dropped. -/
def State.mctpTicket (s : State) (t : Ticket) : State :=
  let c := s.book.mctp
  if t.opcode = 0x0100 then
    let q := { t.alone .mctp with arrival := s.book.arrivals }
    { s.modChan .mctp (fun c => { c with received := c.received ++ [q] }) with book.arrivals := s.book.arrivals + 1 }
  else if t.seq = c.inSeq then (if c.hasPlace then s.receiveTicket .mctp t else s)
  else if sub32 c.inSeq t.seq < 2 ^ 31 then
    (c.repliesTo t).foldl (fun u x => u.putTicket .mctp { x with replayed := true }) s
  else s

/-- A vendor-defined message taken whole: a framing error is dropped (R342). -/
def State.takeMessage (s : State) (src : Byte) (message : List Byte) : State :=
  let bs := message.drop 5
  let t := ticketOf bs
  if s.book.fwState ≠ 3 ∨ s.book.peer ≠ some src ∨ ¬ s.mctpHears src false ∨ message.length < 37 ∨
      message.take 5 ≠ ticketMessage [] then s
  else if 480 < t.length ∨ ticketCrc bs ≠ t.crc then s
  else s.mctpTicket t

/-- VENDOR_DEFINED_MESSAGE (R327, R328, R333, R341, R342, R347): the block writes that carry its packets. -/
def execVendorDefinedMessage (packets : List (List Byte)) (s : State) : Host.Outcome State Fault Refusal :=
  .next (match s.book.eid.bind (fun own => assemble own none packets) with
    | some (src, message) => s.takeMessage src message
    | none => s)

/-! ## MSI-X (R386) -/

/-- MSIX_HOLDOFF_EXPIRY (R337, R386): the interval of a vector is over. -/
def execMsixHoldoffExpiry (vector : Fin 2048) (s : State) : Host.Outcome State Fault Refusal :=
  .next (
    let v := vector.val
    if v ∉ s.pcie.holdoff then s
    else
      let t : State := { s with pcie.holdoff := dropFrom v s.pcie.holdoff, pcie.due := dropFrom v s.pcie.due }
      if v ∈ s.pcie.due then t.msixNow v else t)

/-- A vector whose PBA bit is set is raised again (R386). -/
def State.raiseHeld (s : State) (v : Nat) : State :=
  if v ∈ s.pcie.pba then { s with pcie.pba := dropFrom v s.pcie.pba }.raiseVector v else s

/-- A vector unmasked. -/
def State.unmask (s : State) (v : Nat) : State :=
  { s with pcie.msix := Table.mod MsixEntry.reset v (fun e => { e with masked := false }) s.pcie.msix }.raiseHeld v

/-- MSIX_VECTOR_UNMASK (R386). -/
def execMsixVectorUnmask (vector : Fin 2048) (s : State) : Host.Outcome State Fault Refusal :=
  .next (s.onBar (fun t => t.unmask vector.val))

/-- RNG_IRQ_PENDk (R15, R382, R383): ones clear. -/
def execRngIrqPend (k : Fin 64) (mask : W64) (s : State) : Host.Outcome State Fault Refusal :=
  .next (s.onBar (fun t =>
    { t with pcie.irqPend := t.pcie.irqPend.filter (fun n => ¬ (n / 64 = k.val ∧ bit mask.toNat (n % 64))) }))

end Sys2Proof.Machine
end

