-- ==== Sys2Proof/Machine/PcieCmds.lean ====
section
/-! DEFINITION. The endpoint: configuration writes (R372 to R375, R377, R378), register writes without behaviour of their
own and what registers read (R15, R331, R332, R379 to R382), and conventional resets (R376, R596, R597). -/

namespace Sys2Proof.Machine

/-! ## Configuration space -/

/-- Vectors held in the PBA are raised again, where sending may have become possible (log entry 5). -/
def State.sendHeld (s : State) : State := s.pcie.pba.foldl State.raiseHeld s

/-- Writable bits of the BAR registers, by their sizes (R378). -/
def barMask : List W32 := [0xFFFC0000, 0xFFFFFFFF, 0xFE000000, 0xFFFFFFFF, 0, 0xFFFFFFC0]

/-- Type bits of the BAR registers (R378): 64-bit, BAR4 prefetchable. -/
def barTypes : List W32 := [4, 0, 4, 0, 0xC, 0]

/-- The header of an extended capability: its number, its version and the offset of the next one. -/
def extCap (id version next : Nat) : List Byte := leBytes 4 (id + version * 2 ^ 16 + next * 2 ^ 20)

/-- The Type 0 header (R372, R378): what it fixes and the BAR registers. -/
def State.configHeader (s : State) : List (Nat × List Byte) :=
  [(0x00, leBytes 2 0x1D7B ++ leBytes 2 0x0960), (0x06, leBytes 2 0x0010), (0x08, leBytes 1 0xB0 ++ leBytes 3 0x120000),
   (0x0E, leBytes 1 0), (0x10, s.pcie.bars.flatMap (fun b => leBytes 4 b.toNat)),
   (0x2C, leBytes 2 0x1D7B ++ leBytes 2 0x0001), (0x30, leBytes 4 0), (0x34, leBytes 1 0x40), (0x3D, leBytes 1 0)]

/-- PCI Power Management, MSI-X and PCI Express (R373, R374): the fields that the manual settles and those that the
module keeps. -/
def State.configCaps (s : State) : List (Nat × List Byte) :=
  let p := s.pcie
  [(0x40, [0x01, 0x50] ++ leBytes 2 3 ++ leBytes 4 (8 + 3 * b2n p.d3hot)),
   (0x50, [0x11, 0x70] ++ leBytes 2 (2047 + 2 ^ 15 * b2n p.msixEnabled) ++ leBytes 4 0x20000 ++ leBytes 4 0x28000),
   (0x70, [0x10, 0x00] ++ leBytes 2 2 ++ leBytes 4 0x8022), (0x7C, leBytes 4 0x85),
   (0x82, leBytes 2 (p.speed + 16 * p.width)), (0x94, leBytes 4 0x3001F), (0x98, leBytes 1 p.timeoutRange),
   (0x9C, leBytes 4 0x3E)]

/-- The extended capabilities (R373): Advanced Error Reporting, Device Serial Number, Secondary PCI Express, Data Link
Feature, Physical Layer 16.0 and 32.0 GT/s, Lane Margining. -/
def State.configExtended (s : State) : List (Nat × List Byte) :=
  [(0x100, extCap 0x0001 2 0x150), (0x150, extCap 0x0003 1 0x160 ++ leBytes 8 s.fuses.serial.toNat),
   (0x160, extCap 0x0019 1 0x190), (0x190, extCap 0x0025 1 0x1A0 ++ leBytes 4 0x80000001),
   (0x1A0, extCap 0x0026 1 0x1D0), (0x1D0, extCap 0x002A 1 0x200), (0x200, extCap 0x0027 1 0)]

/-- The parts of the configuration space that a plain write of a byte does not change (log entry 135). -/
def State.configKept (s : State) : List (Nat × List Byte) := s.configHeader ++ s.configCaps ++ s.configExtended

/-- The kept byte at an offset, if any. -/
def State.configAt (s : State) (a : Nat) : Option Byte :=
  s.configKept.findSome? (fun x => if x.1 ≤ a then x.2[a - x.1]? else none)

/-- What a byte of the configuration space reads (R372 to R374, R378): Bus Master Enable and Relaxed Ordering Enable stand
among bits that software writes. -/
def State.configByte (s : State) (a : Nat) : Byte :=
  let own := s.pcie.config.get a
  (s.configAt a).getD
    (if a = 0x04 then (own &&& 0xFB) ||| BitVec.ofNat 8 (4 * b2n s.pcie.busMaster)
     else if a = 0x78 then (own &&& 0xEF) ||| BitVec.ofNat 8 (16 * b2n s.pcie.relaxed)
     else own)

/-- CONFIG_WRITE (R372, R373, R375, R377, R378, R596). -/
def execConfigWrite (reg : ConfigReg) (s : State) : Host.Outcome State Fault Refusal :=
  .next (if ¬ s.pcie.ready then s
    else
      match reg with
      | .busMaster on => { s with pcie.busMaster := on }.sendHeld
      | .dState d3hot => { s with pcie.d3hot := d3hot }.sendHeld
      | .relaxedOrdering on => { s with pcie.relaxed := on }
      | .timeoutRange v => { s with pcie.timeoutRange := v.toNat }
      | .bar i v => { s with pcie.bars := setNth s.pcie.bars i.val (fun _ => (v &&& nth 0 barMask i.val) ||| nth 0 barTypes i.val) }
      | .msixEnable on => { s with pcie.msixEnabled := on }.sendHeld
      | .other off v => if (s.configAt off.val).isSome then s else { s with pcie.config := s.pcie.config.put off.val v })

/-! ## Registers (R331, R332, R379 to R382) -/

/-- The bytes of an MSI-X table entry (R373): address, data, and the mask in its vector control. -/
def MsixEntry.bytes (e : MsixEntry) : List Byte :=
  leBytes 8 e.addr.toNat ++ leBytes 4 e.data.toNat ++ leBytes 4 (b2n e.masked)

/-- A list of bytes with others laid over it from an offset. -/
def overlay (bs : List Byte) (off : Nat) (new : List Byte) : List Byte :=
  bs.zipIdx.map (fun x => if off ≤ x.2 ∧ x.2 < off + new.length then nth 0 new (x.2 - off) else x.1)

/-- Bytes written into one entry of the MSI-X table; unmasking it sends a held message (R386). -/
def State.msixWrite (s : State) (v off : Nat) (bs : List Byte) : State :=
  let e := s.msixEntry v
  let b := overlay e.bytes off bs
  let f : MsixEntry :=
    { addr := BitVec.ofNat 64 (getLE b 0 8), data := BitVec.ofNat 32 (getLE b 8 4), masked := bit (getLE b 12 4) 0
      programmed := e.programmed || Nat.blt off 12 }
  let t := { s with pcie.msix := Table.put MsixEntry.reset v f s.pcie.msix }
  if f.masked then t else t.raiseHeld v

/-- The pieces of a range of addresses that lie within one 16-byte entry each. -/
def entryPieces : Nat → Nat → List Byte → List (Nat × List Byte)
  | 0, _, _ => []
  | fuel + 1, a, bs =>
    match bs with
    | [] => []
    | _ => (a, bs.take (16 - a % 16)) :: entryPieces fuel (a + (16 - a % 16)) (bs.drop (16 - a % 16))

/-- REGISTER_WRITE_OTHER (R15, R331, R373, R379, R380): the inbound window and the MSI-X table store; every other write that
has no command of its own is ignored. -/
def execRegisterWriteOther (bar : Bar) (offset : Nat) (data : List Byte) (s : State) : Host.Outcome State Fault Refusal :=
  .next (s.onBar (fun t =>
    match bar with
    | .bar2 => t
    | .bar0 =>
      if offset < 0x4000 then { t with book.inWin := t.book.inWin.write offset (data.take (0x4000 - offset)) }
      else if 0x20000 ≤ offset ∧ offset < 0x28000 then
        (entryPieces (data.length + 1) (offset - 0x20000) (data.take (0x28000 - offset))).foldl
          (fun t x => t.msixWrite (x.1 / 16) (x.1 % 16) x.2) t
      else t))

/-- MBX_STATUS (R332). -/
def Book.status (b : Book) : Nat := b.fwState + b.err * 2 ^ 8 + b.errSlot * 2 ^ 11

/-- RNG_IRQ_PENDk (R382). -/
def Pcie.pend (p : Pcie) (k : Nat) : Nat := (List.range 64).foldl (fun n i => n + b2n (p.irqPend.contains (64 * k + i)) * 2 ^ i) 0

/-- What a byte of BAR0 reads (R331, R332, R373, R379 to R382, R387). -/
def State.bar0 (s : State) (a : Nat) : Byte :=
  let reg := fun (base n : Nat) => nth (0 : Byte) (leBytes 8 n) (a - base)
  if a < 0x4000 then s.book.inWin.get a
  else if a < 0x8000 then s.book.outWin.get (a - 0x4000)
  else if a < 0x8004 then 0
  else if a < 0x8008 then reg 0x8004 s.book.pcie.inSeq.toNat
  else if a < 0x800C then reg 0x8008 s.book.pcie.outSeq.toNat
  else if a < 0x8010 then reg 0x800C s.book.pcie.outAck.toNat
  else if a < 0x8014 then reg 0x8010 (b2n s.book.pending)
  else if a < 0x8018 then reg 0x8014 s.book.session.toNat
  else if a < 0x801C then reg 0x8018 s.book.status
  else if a < 0x10000 then 0
  else if a < 0x10004 then reg 0x10000 0x0302B000
  else if a < 0x10008 then 0
  else if a < 0x10010 then reg 0x10008 (s.fuses.serial.toNat % 2 ^ 64)
  else if a < 0x11000 then 0
  else if a < 0x11400 then nth 0 s.capBytes (a - 0x11000)
  else if a < 0x12000 then 0
  else if a < 0x12200 then nth (0 : Byte) (leBytes 8 (s.pcie.pend ((a - 0x12000) / 8))) (a % 8)
  else if a < 0x20000 then 0
  else if a < 0x28000 then nth 0 (s.msixEntry ((a - 0x20000) / 16)).bytes (a % 16)
  else if a < 0x28100 then
    BitVec.ofNat 8 ((List.range 8).foldl (fun n i => n + b2n (s.pcie.pba.contains ((a - 0x28000) * 8 + i)) * 2 ^ i) 0)
  else 0

/-- RNG_STATUS (R162): zero when UNBOUND. -/
def State.rngStatus (s : State) (n : Nat) : Nat :=
  let r := s.ring n
  if r.state = .unbound then 0
  else r.head.toNat + causeCode r.cause * 2 ^ 40 + ringCode r.state * 2 ^ 46 + (s.ctx r.ctx).gen.toNat * 2 ^ 48

/-- TOK_VALUE (R195). -/
def State.tokValue (s : State) (t : Nat) : Nat :=
  let x := s.token t
  x.value.toNat + (x.owner.elim 0 (fun c => (s.ctx c).gen.toNat)) * 2 ^ 48

/-- What a byte of BAR2 reads (R162, R195, R379): RNG_DOORBELL and TOK_SIGNAL read 0. -/
def State.bar2 (s : State) (a : Nat) : Byte :=
  if a < 0x1000000 then
    let o := a % 0x1000
    if 8 ≤ o ∧ o < 16 then nth (0 : Byte) (leBytes 8 (s.rngStatus (a / 0x1000))) (o - 8)
    else if 16 ≤ o ∧ o < 20 then nth (0 : Byte) (leBytes 4 (s.ring (a / 0x1000)).tail.toNat) (o - 16)
    else 0
  else if a < 0x1100000 ∧ a % 16 < 8 then nth (0 : Byte) (leBytes 8 (s.tokValue ((a - 0x1000000) / 16))) (a % 16)
  else 0

/-! ## Conventional resets (R376, R596, R597) -/

/-- The configuration space, the BARs, the MSI-X table and the PBA at their reset values. -/
def Pcie.conventional (p : Pcie) : Pcie :=
  { Pcie.reset with linkUp := p.linkUp, ready := p.ready, speed := p.speed, width := p.width, holdoff := p.holdoff
                    due := p.due, irqPend := p.irqPend }

/-- The link trains and configuration requests complete, once PERST_L is high and the module powered (R374, R596): Link
Status holds the speed and the width that training settled on. -/
def State.trainLink (s : State) (link : LinkResult) : State :=
  if s.start.perst && s.start.control then
    { s with pcie.linkUp := true, pcie.ready := true, pcie.speed := link.speed.val + 1, pcie.width := 2 ^ link.width.val }
  else { s with pcie.linkUp := false, pcie.ready := false }

/-- PCIE_CONVENTIONAL_RESET (R376, R597): after a hot reset or a loss of the link it trains again. -/
def execPcieConventionalReset (how : PcieReset) (link : LinkResult) (s : State) : Host.Outcome State Fault Refusal :=
  .next (
    let t := { s with pcie := s.pcie.conventional }
    match how with
    | .perst => { t with start.perst := false, pcie.linkUp := false, pcie.ready := false }
    | .hot => if s.pcie.linkUp then t.trainLink link else t
    | .linkLoss => if s.pcie.linkUp then t.trainLink link else t)

/-- PERST_L_RISE (R596). -/
def execPerstLRise (link : LinkResult) (s : State) : Host.Outcome State Fault Refusal :=
  .next ({ s with start.perst := true }.trainLink link)

end Sys2Proof.Machine
end

