-- ==== Sys2Proof/Machine/PowerCmds.lean ====
section
/-! DEFINITION. Departure slots (R138 to R142), ceilings and the compute step (R457 to R459), trimming (R460, R461), limits,
droop and thermal protection (R463 to R469) and the energy counters (R472, R473). -/

namespace Sys2Proof.Machine

/-! ## Departure spacing -/

/-- COASTING_TIMEOUT (R138): 256 cycles of coasting ask for a release slot. -/
def execCoastingTimeout (unit : UnitRef) (cycle : Nat) (s : State) : Host.Outcome State Fault Refusal :=
  .next (if s.pace unit = .coasting then s.wantSlot unit .release cycle else s)

/-- What an engine that a departure slot reaches does: it runs, or coasts where no wagon of its queue is left to issue a
cycle (R138). -/
def State.departed (s : State) (u : UnitRef) : Pace := if s.unitFlights u = [] then .coasting else .running

/-- Every matrix and vector engine. -/
def allEngines : List UnitRef :=
  (List.range 8).flatMap (fun p =>
    (List.range 20).map (fun e => UnitRef.matrix (Fin.ofNat 8 p) (Fin.ofNat 20 e)) ++ [UnitRef.vector (Fin.ofNat 8 p)])

/-- A request put among others in order of request. -/
def insertWant (x : Nat × UnitRef) : List (Nat × UnitRef) → List (Nat × UnitRef)
  | [] => [x]
  | y :: t => if x.1 ≤ y.1 then x :: y :: t else y :: insertWant x t

/-- The requests for slots of a kind, in order of request (R141). -/
def State.wanting (s : State) (k : SlotKind) : List UnitRef :=
  let l := allEngines.filterMap (fun u => (s.wants u).bind (fun w => if w.1 = k then some (w.2, u) else none))
  (l.foldl (fun acc x => insertWant x acc) []).map (fun x => x.2)

/-- The units that one slot moves: G of them, departures before releases (R140, R141). -/
def State.slotUnits (s : State) : SlotKind × List UnitRef :=
  let k := if s.wanting .departure = [] then SlotKind.release else SlotKind.departure
  (k, (s.wanting k).take (64 / max 1 s.power.step))

/-- DEPARTURE_SLOT_GRANT (R138, R140 to R142): at a fabric cycle at least 77 after the last slot, outside a stretch. -/
def execDepartureSlotGrant (cycle : Nat) (s : State) : Host.Outcome State Fault Refusal :=
  .next (
    if s.frozen ∨ s.power.stretch.isSome ∨ s.power.lastSlot.any (fun c => cycle < c + 77) then s
    else
      let x := s.slotUnits
      match x.2.getLast? with
      | none => s
      | some last =>
        let t := x.2.foldl (fun t u => t.setPace u (if x.1 = .departure then t.departed u else .parked) none) s
        { t with power.lastSlot := some cycle, power.lastSlotPart := unitPart last })

/-! ## Ceilings (R457, R458, R461, R467) -/

/-- A ceiling's row in the table of R457. -/
def ceilingRow : Ceiling → Nat
  | .powerState => 0 | .coreCurrent => 1 | .inputFloor => 2 | .inputMax => 3 | .sustained => 4 | .thermal => 5

/-- A ceiling. -/
def Power.ceiling (p : Power) (row : Nat) : Nat := nth 64 p.ceilings row

/-- A ceiling moved, between 16 and 64; a lowering is recorded (R526). -/
def State.moveCeiling (s : State) (row : Nat) (by_ : Int) : State :=
  let old := s.power.ceiling row
  let new := (max 16 (min 64 ((old : Int) + by_))).toNat
  let t := { s with power.ceilings := setNth s.power.ceilings row (fun _ => new) }
  if new < old then t.note 0x8008 (BitVec.ofNat 32 row) .occurrence else t

/-- s_rep ≤ b, or no discharge: where compute gives way to the Timetable (R400, R456, R457, R460). -/
def State.atFloor (s : State) (margin : Rat) : Bool := s.barred true || s.hay.sRep ≤ s.hay.window.1 + margin

/-- Compute draw exceeds the reference r. -/
def State.over (s : State) : Bool := s.refNw < s.power.drawMw * 1000000

/-- Mean input and mean compute draw over the last millisecond, in mW (R457, R458). -/
def Power.input1 (p : Power) : Int := meanInt (p.recent.map (fun x => (x.1 : Int)))
def Power.draw1 (p : Power) : Int := meanInt (p.recent.map (fun x => x.2))

/-- Mean compute draw over the last 10 ms and the last second, in mW (R457, R460). -/
def Power.draw10 (p : Power) : Int := meanInt (p.draws.take 1)
def Power.draw1000 (p : Power) : Int := meanInt (p.draws.take 100)

/-- What a ceiling's row does at the end of a period: steps down, or one step up (R457). -/
def State.ceilingMove (s : State) (c : Ceiling) (m : CeilMeas) : Int :=
  let p := s.power
  let full : Bool := p.bucket = 1200000000
  let draw10 := p.draw10
  match c with
  | .powerState => if p.state = .idle then -64 else 64
  | .coreCurrent =>
    (if 3400000 < m.core2Ma then -4 else 0) + (if 3000000 < m.core20Ma then -1 else 0)
      + (if m.core2Ma ≤ 3400000 ∧ m.core20Ma < 2850000 then 1 else 0)
  | .inputFloor =>
    if s.over ∧ s.atFloor 0 then -1
    else if s.barred true then (if draw10 * 100 * 1000000 ≤ (p.ramp * 97 : Nat) then 1 else 0)
    else if s.hay.window.1 + 1 / 100 ≤ s.hay.sRep then 1 else 0
  | .inputMax => if 2600000 < p.input1 then -1 else if p.input1 < 2500000 then 1 else 0
  | .sustained =>
    if (full ∧ 2400000 < p.drawMw) ∨ 3000000 < draw10 then -1
    else if ¬ full ∧ draw10 < 2400000 then 1 else 0
  | .thermal => if 105000 ≤ m.hottestMc then -1 else if m.hottestMc < 100000 then 1 else 0

/-- The excess that neither step nor trimming can take away (R461): an event at most once in 10 s. -/
def State.noteExcess (s : State) : State :=
  let p := s.power
  if p.trimStopped ∧ p.step = 16 ∧ s.over ∧ s.atFloor (-5 / 1000) ∧ ¬ p.lastExcess.any (fun t => s.within t 10) then
    { s with power.lastExcess := some s.trg.seconds }.report (source 0xE 0 0) 0x0501 none 0
  else s

/-- A companion-die sensor at 105 °C or above (R467). -/
def State.noteCompanion (s : State) (m : CeilMeas) : State :=
  let src := source 0xC (m.companionDie.val + 1) m.companionSensor.val
  if 105000 ≤ m.companionMc ∧ src ∉ s.sbx.sensorsOut then s.report src 0x0501 none 0 else s

/-- CEILING_PERIOD (R457, R461, R462, R467). -/
def execCeilingPeriod (ceiling : Ceiling) (m : CeilMeas) (s : State) : Host.Outcome State Fault Refusal :=
  .next (
    if s.start.phase ≠ .rom ∨ s.book.fwState < 2 then s
    else
      let t := (s.moveCeiling (ceilingRow ceiling) (s.ceilingMove ceiling m)).retarget
      match ceiling with
      | .inputFloor => t.noteExcess
      | .thermal => t.noteCompanion m
      | _ => t)

/-- SUSTAINED_BUCKET_UPDATE (R458): microjoules, from the mean compute draw of the last millisecond in mW. -/
def execSustainedBucketUpdate (s : State) : Host.Outcome State Fault Refusal :=
  .next { s with power.bucket := (max 0 (min 1200000000 ((s.power.bucket : Int) + (s.power.draw1 - 2400000)))).toNat }

/-- The core voltage of a step (R459, R539). -/
def Fuses.volts (f : Fuses) (n : Nat) : Nat := nth 550 f.coreMv (n - 16)

/-- COMPUTE_STEP_CHANGE (R32, R459, R465): voltage and frequency reach the target; a stretch takes precedence. -/
def execComputeStepChange (s : State) : Host.Outcome State Fault Refusal :=
  .next (match s.power.target with
    | none => s
    | some n =>
      if s.power.stretch.isSome then { s with power.deferred := true }
      else
        { s with
          power.step := n
          power.lowStep := min s.power.lowStep n
          power.target := none
          power.coreMv := s.fuses.volts n
          power.deferred := false })

/-! ## Trimming (R460) -/

/-- One rung down: stopped where it would need a partition to which a context is granted. -/
def State.trimDown (s : State) : State :=
  let n := rungBelow s.cap.profile
  let free := s.serving.filter (fun p => ¬ s.isGranted p)
  if n = 0 ∨ free.length < s.cap.profile - n then { s with power.trimStopped := true }
  else
    let t := s.reprofile (fun s => { s with cap.trimmed := true, cap.trimCap := n })
    { t with power.state := .trimmed, power.trimStopped := false }

/-- One rung back. -/
def State.trimUp (s : State) : State :=
  { s.reprofile (fun s => { s with cap.trimCap := rungAbove s.cap.trimCap }) with power.trimStopped := false }

/-- TRIM_RUNG (R7 to R9, R460): the profile falls by the compute draw of now, and returns by its mean over 1 s. -/
def execTrimRung (s : State) : Host.Outcome State Fault Refusal :=
  .next (
    let awake : Bool := s.power.state = .run || s.power.state = .trimmed
    if s.start.phase ≠ .rom ∨ ¬ awake then s
    else if s.power.ceiling 2 = 16 ∧ s.over ∧ s.atFloor 0 then s.trimDown
    else if s.cap.trimmed ∧ s.power.draw1000 * 100 * 1000000 ≤ s.refNw * 80 ∧
        (s.barred true ∨ s.hay.window.1 + 5 / 100 ≤ s.hay.sRep) then s.trimUp
    else { s with power.trimStopped := false })

/-! ## Limits of the other rails (R463) -/

/-- The index of a rail's regulator (R481). -/
def supplyIdx : Supply → Nat
  | .fab => 1 | .ctl => 2 | .mem => 3 | .link => 4

/-- RAIL_CURRENT_LIMIT (R463): event 0x0505; under VDD_FAB's limit movers issue on alternate fabric cycles. -/
def execRailCurrentLimit (rail : Supply) (s : State) : Host.Outcome State Fault Refusal :=
  let t := s.report (source 0xA 0 (supplyIdx rail)) 0x0505 none 0
  .next (if rail = .fab then { t with power.fabLimited := true } else t)

/-- VDD_FAB_LIMIT_RELEASE (R463). -/
def execVddFabLimitRelease (s : State) : Host.Outcome State Fault Refusal := .next { s with power.fabLimited := false }

/-! ## Droop (R464, R465) -/

/-- DROOP_STRETCH (R142, R464): the clock runs at half its rate; the first detector's partition is kept. -/
def execDroopStretch (part : Fin 8) (s : State) : Host.Outcome State Fault Refusal :=
  .next (if s.power.stretch.isSome then s else { s with power.stretch := some part.val })

/-- DROOP_RELEASE (R142, R464, R465, R526): after `cycles` stretched compute cycles, at a fabric cycle; the next slot
comes at least 77 fabric cycles later, and a deferred change may go on. -/
def execDroopRelease (cycles : Nat) (fabric : Nat) (s : State) : Host.Outcome State Fault Refusal :=
  .next (match s.power.stretch with
    | none => s
    | some p =>
      if cycles < 32 then s
      else
        { s with power := { s.power with stretch := none, deferred := false, lastSlot := some fabric } }.note 0x8002
          (BitVec.ofNat 32 p) (.value cycles))

/-! ## Thermal trip (R468, R469, R609) -/

/-- THERMAL_TRIP (R468): the compute clock stops, and everything is held as it is. -/
def execThermalTrip (sensor : Fin 64) (s : State) : Host.Outcome State Fault Refusal :=
  .next (if s.power.tripped ∨ source 0xC 0 sensor.val ∈ s.sbx.sensorsOut then s
    else { s with power.tripped := true }.report (source 0xC 0 sensor.val) 0x0505 none 0)

/-- THERMAL_TRIP_RELEASE (R468, R469): the clock restarts at step 16, and the frozen work goes on. -/
def execThermalTripRelease (s : State) : Host.Outcome State Fault Refusal :=
  .next (
    if ¬ s.power.tripped then s
    else
      let p := { s.power with
        tripped := false, step := 16, lowStep := 16, target := none, deferred := false, coreMv := s.fuses.volts 16
        ceilings := setNth s.power.ceilings 5 (fun _ => 16) }
      let t := { s with power := p }
      if t.frozen then t else t.thawAll)

/-! ## Energy (R144, R472, R473) -/

/-- The energy id that a share of a partition's millisecond is charged to. -/
def State.energyOf (s : State) (c : Nat) : Option Nat :=
  let st := (s.ctx c).state
  if st = .free ∨ st = .quarantine then none else some (s.ctx c).energyId

/-- The context whose wagon an engine last ran. -/
def State.lastRun (s : State) : UnitRef → Option Nat
  | .matrix p e => (s.engine p.val e.val).lastCtx
  | .vector p => (s.part p.val).vec.lastCtx
  | _ => none

/-- The cycles of the coasting engines, each charged to the context whose wagon the engine last ran (R144). -/
def State.coastShares (s : State) (coasting : List (UnitRef × Nat)) : List (Fin 8 × Nat × Nat) :=
  coasting.filterMap (fun x => (s.lastRun x.1).map (fun c => (Fin.ofNat 8 (unitPart x.1), c, x.2)))

/-- ENERGY_SAMPLE (R144, R472, R473): the millijoules of each partition, the engine cycles and mover bytes that contexts
were charged in it for wagons that ran (`ran`: partition, context, amount), the cycles that engines coasted, and the
millijoules of the bus: input, delivered, taken. -/
def execEnergySample (partMj : List Nat) (ran : List (Fin 8 × Nat × Nat)) (coasting : List (UnitRef × Nat))
    (busMj : Nat × Nat × Nat) (s : State) : Host.Outcome State Fault Refusal :=
  if partMj.length ≠ 8 then .fault .illFormed
  else .next (
    let add := partMj ++ [busMj.1, busMj.2.1, busMj.2.2]
    let shares := ran ++ s.coastShares coasting
    let total := fun (p : Fin 8) => ((shares.filter (fun x => x.1 = p)).map (fun x => x.2.2)).foldl (· + ·) 0
    let ids := shares.foldl (fun l x =>
      match s.energyOf x.2.1 with
      | some id => Table.mod 0 id (fun n => n + nth 0 partMj x.1.val * x.2.2 / max 1 (total x.1)) l
      | none => l) s.power.energyId
    { s with power.energy := s.power.energy.zipWith (· + ·) add, power.energyId := ids })

end Sys2Proof.Machine
end

