-- ==== Sys2Proof/Machine/HayCmds.lean ====
section
/-! DEFINITION. The cartridge and its estimator (R397 to R435): insertion and loss, limits and stops, counting, anchors,
learning, walks and the record. -/

namespace Sys2Proof.Machine

/-- One report for each limit or stop that sets in. -/
def State.hayNotes (s : State) (onset : List Bool) : State := onset.foldl (fun t b => if b then t.hayNote else t) s

/-! ## Insertion (R404) -/

/-- The checks of R404 begin, from insertion, power-good or reset release. -/
def Hay.check (h : Hay) : Hay :=
  { h.halt with phase := .checking, preCharge := false, goodSamples := 0, badSamples := 0, cartId := none }

/-- CARTRIDGE_INSERT (R404): the thermistor contacts make; without power the checks wait for power-good. -/
def execCartridgeInsert (s : State) : Host.Outcome State Fault Refusal :=
  .next (
    if s.hay.entry ≠ .absent then s
    else if s.start.phase = .rom then ({ s with hay := s.hay.check }).setEntry .pending
    else s.setEntry .pending)

/-- The identity record, where one of at most three reads has a correct CRC (R403, R404, R406). -/
def cartRecord (reads : List (List Byte)) : Option (List Byte) :=
  (reads.take 3).find? (fun b => b.length = 32 ∧ (crc32c (b.take 28)).toNat = getLE b 28 4)

/-- CART_ID of an identity record (R403). -/
def cartIdOf (record : List Byte) : W64 := BitVec.ofNat 64 (getLE record 0 8)

/-- "QSH-20", padded with zero bytes (R403). -/
def cartPart : List Byte := [0x51, 0x53, 0x48, 0x2D, 0x32, 0x30, 0, 0]

/-- PART, FORMAT and CELLS name a QSH-20 (R403, R404). -/
def knownPart (record : List Byte) : Bool :=
  slice record 8 8 = cartPart && getLE record 16 1 = 1 && getLE record 17 1 = 14

/-- The checks that fence a cartridge at insertion (R404). -/
def badCart (m : CartMeas) : Bool :=
  !(cartRecord m.reads).any knownPart || m.cellsMv.any (fun v => v ≤ 2000 ∨ 3850 ≤ v) || decide (65000 ≤ m.tempMc)

/-- OFFSET in nanoamperes: the mean of the codes of the zero measurement, each 20 µA (R409, R411). -/
def zeroNa (zero : List (BitVec 24)) : Rat :=
  let sum : Int := (zero.map (fun b => b.toInt)).foldl (· + ·) 0
  (sum * 20000 : Int) / ((max 1 zero.length : Nat) : Rat)

/-- The lowest and the highest cell, in mV. -/
def lowCell (cells : List Nat) : Nat := cells.foldl min 1000000
def highCell (cells : List Nat) : Nat := cells.foldl max 0

/-- The estimator set at acceptance (R411, R416, R434): the stored values where the record names this cartridge. -/
def Hay.accept (h : Hay) (m : CartMeas) (id : W64) (old : Option EstRecord) : Hay :=
  let kept := old.filter (fun r => r.cartId = id)
  let cap : Rat := match kept with
    | some r => (r.capacity.toNat : Rat) / 1000
    | none => Hay.endOfLife
  let learned := kept.any (fun r => r.learned)
  let part : Rat := if learned then 3 / 100 else 10 / 100
  let u := part * cap
  let rec_ := { kept.getD { EstRecord.blank with cartId := id } with offset := BitVec.ofInt 32 (zeroNa m.zero).floor }
  let low := lowCell m.cellsMv
  { h with
    phase := .serving, cartId := some id, tempMc := m.tempMc, offset := zeroNa m.zero / 1000000000, cap := cap
    q := clampRat 0 cap (cap * ((m.stackMv : Rat) - 30800) / 22400), c := 0, u := u, over5 := 5 / 100 * cap < u
    run := none, fast := false, quiet := 0, record := rec_, spent := 0, closed := true, converter := true
    preCharge := low < 2200, slowCharge := false, stopHigh := 3800 ≤ highCell m.cellsMv, stopLow := low ≤ 2200
    stopCold := m.tempMc < 0, stopHot := false, bled := [], fullUs := 0, currentUa := 0 }

/-- ZERO_MEASUREMENT_DONE (R403 to R405, R408, R411, R416, R430, R434). -/
def execZeroMeasurementDone (m : CartMeas) (s : State) : Host.Outcome State Fault Refusal :=
  if ¬ cellsOk m.cellsMv then .fault .illFormed
  else .next (
    if s.hay.phase ≠ .checking ∨ s.hay.goodSamples < 10 ∨ s.start.phase ≠ .rom then s
    else
      let id := (cartRecord m.reads).map cartIdOf
      if badCart m then { s with hay.cartId := id }.fenceCart.report haySource 0x0503 none 0
      else
        let t : State := { s with hay := s.hay.accept m (id.getD 0) s.mram.readEst }
        let u := if s.power.state = .standby ∨ s.power.state = .holdUp then { t with hay := t.hay.stop } else t
        (u.setEntry .inService).writeEst false m.readBacks)

/-! ## Loss (R406, R407, R435) -/

/-- Loss of the cartridge: the converter stops, the record of the departing cartridge is written, and the entry becomes
absent. In Hold-up no record is written (R601), and bulk capacitance carries on (R602). -/
def State.loseCart (s : State) (back : ReadBacks) : State :=
  if s.hay.entry = .absent then s
  else
    let t := if s.power.state = .holdUp then { s with start.holdOnCart := false } else s.shutEst false back
    ({ t with hay := { t.hay.halt with phase := .none, goodSamples := 0, badSamples := 0 } }.setEntry .absent).endWalk 3

/-- The converter may run: outside Standby and Roundhouse (R437, R563). -/
def State.mayConvert (s : State) : Bool := s.power.state ≠ .standby && s.start.phase = .rom

/-- A thermistor sample that is plausible (R399, R420, R425). -/
def State.tempSample (s : State) (milliC : Int) : State :=
  let h := s.hay
  if h.phase ≠ .serving then
    { s with hay := { h with tempMc := milliC, badSamples := 0, goodSamples := min 10 (h.goodSamples + 1) } }
  else
    let cold : Bool := milliC < 0 || (h.stopCold && milliC < 2000)
    let hot : Bool := 65000 ≤ milliC || (h.stopHot && 60000 ≤ milliC)
    let warm : Bool := 55000 ≤ milliC && milliC < 65000
    let wasWarm : Bool := 55000 ≤ h.tempMc && h.tempMc < 65000
    let g := { h with tempMc := milliC, badSamples := 0, stopCold := cold, stopHot := hot }
    let g := if hot then g.halt
      else if h.stopHot ∧ s.mayConvert then { g with converter := true, closed := true } else g
    let g := if milliC < 15000 ∨ 45000 < milliC then { g with run := none } else g
    let t := { s with hay := g }.hayNotes [cold && !h.stopCold, warm && !wasWarm, hot && !h.stopHot]
    if h.walking ∧ (cold ∨ hot) then t.endWalk 4 else t

/-- THERMISTOR_SAMPLE (R399, R400, R404, R406, R407): two implausible samples in a row declare the cartridge lost. -/
def execThermistorSample (milliC : Int) (readBacks : ReadBacks) (s : State) : Host.Outcome State Fault Refusal :=
  .next (
    if s.hay.entry = .absent ∨ s.start.phase = .off then s
    else if milliC < -40000 ∨ 150000 < milliC then
      if 1 ≤ s.hay.badSamples then s.loseCart readBacks
      else { s with hay := { s.hay with badSamples := 1, goodSamples := 0 } }
    else s.tempSample milliC)

/-- IDENTITY_PERIODIC_READ (R406): failure on three attempts is a loss; another CART_ID than the one read at insertion is
a loss and an insertion. -/
def execIdentityPeriodicRead (reads : List (List Byte)) (readBacks : ReadBacks) (s : State) :
    Host.Outcome State Fault Refusal :=
  .next (
    if s.hay.entry = .absent ∨ s.start.phase = .off then s
    else match cartRecord reads with
      | none => s.loseCart readBacks
      | some x =>
        if s.hay.cartId.all (fun id => id = cartIdOf x) then s
        else
          let t := s.loseCart readBacks
          { t with hay := t.hay.check }.setEntry .pending)

/-- The converter stopped and the cartridge fenced by R399, with event 0x0503. -/
def State.faultCart (s : State) : State := s.fenceCart.report haySource 0x0503 none 0

/-- CARTRIDGE_HW_TRIP (R398 to R401, R468). -/
def execCartridgeHwTrip (kind : HwTrip) (s : State) : Host.Outcome State Fault Refusal :=
  .next (
    if ¬ s.hayIn then s
    else match kind with
      | .hot =>
        let t := { s with hay := { s.hay.halt with stopHot := true } }.hayNote
        if s.hay.walking then t.endWalk 4 else t
      | .cellOut => s.faultCart
      | .converterFault => s.faultCart
      | .overcurrent => s.faultCart)

/-! ## Counting (R409, R410, R412, R419) -/

/-- The sign of a rational. -/
def signRat (x : Rat) : Rat := if x < 0 then -1 else if 0 < x then 1 else 0

/-- The absolute value of a rational. -/
def absRat (x : Rat) : Rat := if x < 0 then -x else x

/-- A sample counted (R412), with what it discharged (R428). -/
def Hay.count (h : Hay) (dt charge : Rat) : Hay :=
  let dq := charge - h.offset * dt
  let spent := h.spent + max 0 (-dq)
  let whole := spent.floor.toNat
  { h with
    q := h.q + dq, u := min (h.u + 5 / 10000 * h.cap * dt / 3600) h.cap
    c := h.c - signRat h.c * min (absRat h.c) (1 / 100 * h.cap * dt)
    run := h.run.map (fun r => { r with out := r.out - dq }), spent := spent - whole
    record := { h.record with throughput := h.record.throughput + BitVec.ofNat 32 whole } }

/-- The pause of an open run (R420): |I| at most 2 A without a break. -/
def LearnRun.pause (r : LearnRun) (dtUs : Nat) (ua : Int) : LearnRun :=
  { r with pauseUs := if 2000000 < ua.natAbs then 0 else r.pauseUs + dtUs }

/-- The sample rate (R410) and the current of a sample in microamperes, which ends a run above 120 A (R420). -/
def Hay.rate (h : Hay) (ua : Int) : Hay :=
  let big : Bool := 2000000 < ua.natAbs
  let quiet := if big then 0 else h.quiet + 1
  let h := { h with currentUa := ua, fast := big || (h.fast && quiet < 100), quiet := if h.fast && quiet < 100 then quiet else 0 }
  if 120000000 < ua.natAbs then { h with run := none } else h

/-- Every cell is at full and the current small: the condition of a full anchor (R413). -/
def atFull (cells : List Nat) (ua : Int) : Bool := cells.all (fun v => 3790 ≤ v ∧ v ≤ 3810) && ua.natAbs < 1000000

/-- The limits and stops that the cell voltages set and lift (R399, R402, R404, R423). -/
def Hay.cells (h : Hay) (dtUs : Nat) (cells : List Nat) (ua : Int) : Hay :=
  let low := lowCell cells
  let high := highCell cells
  let slow : Bool := 3780 ≤ high && (decide (0 < ua) || h.slowCharge)
  { h with
    slowCharge := slow, stopHigh := 3800 ≤ high || (h.stopHigh && 3790 ≤ high)
    stopLow := low ≤ 2200 || (h.stopLow && low < 2250), preCharge := h.preCharge && low < 2250
    bled := if slow || atFull cells ua then (List.range 14).filter (fun i => 3800 < nth 0 cells i) else []
    fullUs := if atFull cells ua then h.fullUs + dtUs else 0, run := h.run.map (fun r => r.pause dtUs ua)
    walk := h.walk.map (fun w => { w with limited := w.limited || (w.running && !w.empty && slow) }) }

/-- u / cap rising through 5 % is recorded (R419). -/
def State.watchU (s : State) : State :=
  let past : Bool := 5 / 100 * s.hay.cap < s.hay.u
  let t := { s with hay.over5 := past }
  if past ∧ ¬ s.hay.over5 then t.hayNote else t

/-! ## Anchors and learning (R413 to R415, R420 to R422, R425, R430) -/

/-- The estimator at an anchor, at full or at empty (R415). -/
def Hay.anchor (h : Hay) (full : Bool) : Hay :=
  { h with
    c := h.q + h.c - (if full then h.cap else 0), q := if full then h.cap else 0, u := 5 / 1000 * h.cap, over5 := false }

/-- A qualifying run measured (R421, R422): true first where the measurement is taken. -/
def State.learn (s : State) (out : Rat) : Bool × State :=
  let h := s.hay
  if out < 300 ∨ 510 < out then (false, s.hayNote)
  else
    let cap := if h.record.learned then clampRat (95 / 100 * h.cap) (105 / 100 * h.cap) out else out
    let rec_ := { h.record with learned := true, learnCount := h.record.learnCount + 1, lastLearn := s.stamp }
    let t := { s with hay := { h with cap := cap, record := rec_ } }
    (true, if cap < Hay.endOfLife ∧ Hay.endOfLife ≤ h.cap then t.hayNote else t)

/-- An empty anchor (R414, R415, R420, R421, R425, R430): an open run closes, and an empty walk ends. -/
def State.emptyAnchor (s : State) (back : ReadBacks) : State :=
  let x := match s.hay.run with
    | none => (0, s)
    | some r =>
      let y := s.learn r.out
      (if y.1 then 1 else 2, y.2)
  let h := x.2.hay.anchor false
  let t := ({ x.2 with hay := { h with run := none, record := { h.record with lastEmpty := s.stamp } } }).writeEst false back
  if s.hay.walk.any (fun w => w.running ∧ w.empty) then t.endWalk x.1 else t

/-- ESTIMATOR_SAMPLE (R399, R402, R409, R410, R412, R414, R415, R419 to R422). -/
def execEstimatorSample (m : EstMeas) (s : State) : Host.Outcome State Fault Refusal :=
  if ¬ cellsOk m.cellsMv then .fault .illFormed
  else .next (
    if ¬ s.hayIn then s
    else
      let ua := m.code.toInt * 20
      let dt : Rat := (m.dtUs : Rat) / 1000000
      let h := ((s.hay.count dt ((ua : Rat) / 1000000 * dt)).rate ua).cells m.dtUs m.cellsMv ua
      let t := ({ s with hay := h }).hayNotes
        [h.slowCharge && !s.hay.slowCharge, h.stopHigh && !s.hay.stopHigh, h.stopLow && !s.hay.stopLow]
      let t := t.watchU
      let t := if lowCell m.cellsMv ≤ 2200 ∧ ua < 0 ∧ ¬ s.hay.stopLow then t.emptyAnchor m.readBacks else t
      if lowCell m.cellsMv ≤ 2000 ∨ 3850 ≤ highCell m.cellsMv ∨ 150000000 ≤ ua.natAbs then t.faultCart else t)

/-- FULL_ANCHOR (R413, R415, R420, R425, R430): after 30 s at full a run opens, and a full walk ends. -/
def execFullAnchor (readBacks : ReadBacks) (s : State) : Host.Outcome State Fault Refusal :=
  .next (
    if ¬ s.hayIn ∨ s.hay.fullUs < 30000000 then s
    else
      let h := s.hay.anchor true
      let h := { h with
        fullUs := 0, run := some { out := 0, pauseUs := 0 }, record := { h.record with lastFull := s.stamp } }
      let t := { s with hay := h }.writeEst false readBacks
      if s.hay.walk.any (fun w => w.running ∧ ¬ w.empty) then t.endWalk 0 else t)

/-- LEARNING_PAUSE_TIMEOUT (R420): a pause of more than 60 s disqualifies the run. -/
def execLearningPauseTimeout (s : State) : Host.Outcome State Fault Refusal :=
  .next { s with hay.run := s.hay.run.filter (fun r => r.pauseUs ≤ 60000000) }

/-! ## Walks (R423, R425) -/

/-- ANCHOR_WALK_START (R423): START seconds after its request. -/
def execAnchorWalkStart (s : State) : Host.Outcome State Fault Refusal :=
  .next (
    if ¬ s.hayIn then s
    else { s with hay.walk := s.hay.walk.map (fun w => { w with running := true }) })

/-- ANCHOR_WALK_TIMEOUT (R425): 1,800 s without the anchor. -/
def execAnchorWalkTimeout (s : State) : Host.Outcome State Fault Refusal :=
  .next (if s.hay.walking then s.endWalk 6 else s)

/-! ## The record (R430 to R433) -/

/-- RECORD_WRITE_TIMER (R430 to R433). -/
def execRecordWriteTimer (readBacks : ReadBacks) (s : State) : Host.Outcome State Fault Refusal :=
  .next (if s.hayIn then s.writeEst false readBacks else s)

end Sys2Proof.Machine
end

