-- ==== Sys2Proof/Machine/RailTickets.lean ====
section
/-! DEFINITION. Class 0x09: node id, routes and epoch (R296 to R301, R510, R512), peers (R157), coupling (R256 to R265),
collective groups (R305) and the rail status (R319, R368, R369). -/

namespace Sys2Proof.Machine

/-! ## Node, routes, epoch -/

/-- RAIL_NODE_SET (R296, R368). -/
def execRailNodeSet (ch : Chan) (s : State) : Host.Outcome State Fault Refusal :=
  .next (s.onRequest ch (opIs 0x0900) { lenOk := lenIs 4 } (fun r t =>
    if r.get 0 4 = 0xFFFFFFFF then t.reply r stRange 0 []
    else { t with rails.node := BitVec.ofNat 32 (r.get 0 4) }.ok r []))

/-- The entries of a ROUTE_SET: node and mask word. -/
def Request.routes (r : Request) : List (W32 × Nat) :=
  (List.range (r.get 2 2)).map (fun i => (BitVec.ofNat 32 (r.get (4 + 8 * i) 4), r.get (8 + 8 * i) 4))

/-- The first byte with a bit of PORT_MASK [31:20] set. -/
def Request.routeReserved (r : Request) : Option Nat :=
  (List.range (r.get 2 2)).findSome? (fun i =>
    let m := r.get (8 + 8 * i) 4
    if field m 23 20 ≠ 0 then some (10 + 8 * i) else if field m 31 24 ≠ 0 then some (11 + 8 * i) else none)

/-- A port that is absent or fenced. -/
def State.portOut (s : State) (i : Nat) : Bool := (s.port i).unit = .absent || (s.port i).unit = .fenced

/-- ROUTE_SET (R296, R297, R369): nodes left without a route become unreachable. -/
def execRouteSet (ch : Chan) (s : State) : Host.Outcome State Fault Refusal :=
  .next (s.onRequest ch (opIs 0x0901)
    { lenOk := fun b => 4 ≤ b.length ∧ b.length = 4 + 8 * getLE b 2 2 } (fun r t =>
      let first := r.get 0 2
      if 8191 < first then t.reply r stRange 0 []
      else if 59 < r.get 2 2 ∨ 8192 < first + r.get 2 2 then t.reply r stRange 2 []
      else
        match r.routeReserved with
        | some i => t.reply r stMalformed i []
        | none =>
          if r.routes.any (fun e => (List.range 20).any (fun i => bit e.2 i && t.portOut i)) then t.reply r stAbsent 0 []
          else
            let l := r.routes.zipIdx.foldl (fun l e => Table.put noRoute (first + e.2) (e.1.1, BitVec.ofNat 20 e.1.2) l)
              t.rails.routes
            let u := { t with rails.routes := l }
            ((u.loseNodes (fun n => u.unreachable n)).sendWaiting).ok r []))

/-- EPOCH_SET (R16, R298, R315, R368, R512): promotion from siding too. What waits on the rails under the epoch that is
revoked ends as under R301 (log entry 128). -/
def execEpochSet (ch : Chan) (s : State) : Host.Outcome State Fault Refusal :=
  .next (s.onRequest ch (opIs 0x0902) { lenOk := lenIs 4 } (fun r t =>
    let e : W32 := BitVec.ofNat 32 (r.get 0 4)
    let old := t.rails.epoch
    if e = 0 then t.reply r stMalformed 0 []
    else if e ∈ t.rails.revoked then t.reply r stRange 0 []
    else if e = old then t.ok r (leBytes 4 old.toNat)
    else
      let u := if old = 0 then t else t.loseNodes (fun _ => true)
      { u.revoke old with rails.epoch := e, rails.stopped := false }.ok r (leBytes 4 old.toNat)))

/-- SIDING_ENTER (R510): answered once every context is QUARANTINE or FREE. -/
def execSidingEnter (ch : Chan) (s : State) : Host.Outcome State Fault Refusal :=
  .next (s.onRequest ch (opIs 0x0909) { lenOk := lenIs 0 } (fun r t =>
    if t.power.state = .standby then t.reply r stState 4 [] else t.enterSiding.answerSiding))

/-- The counters of a port, in the order of RAIL_STATUS (R368). -/
def Port.counters (p : Port) : List W64 :=
  let down := nth (0 : W64) p.linkDown
  [p.fecCorrected, p.fecUncorrectable, p.slotFail, p.slotFailInj, p.trailerFail, p.trailerFailInj, p.replays,
    down 0, down 1, down 2, down 3, p.resent, p.collDuplicate, down 4]

/-- RAIL_STATUS (R319, R350, R368). -/
def execRailStatus (ch : Chan) (s : State) : Host.Outcome State Fault Refusal :=
  .next (s.onRequest ch (opIs 0x0908) { lenOk := lenIs 4, reserved := [(1, 3)] } (fun r t =>
    let n := r.get 0 1
    if 19 < n then t.reply r stRange 0 []
    else if t.portOut n then t.reply r stAbsent 0 []
    else
      let p := t.port n
      t.ok r (leBytes 1 (portCode p.state) ++ leBytes 3 0 ++ leBytes 4 p.peerNode.toNat
        ++ (p.counters.map (fun c => leBytes 8 c.toNat)).flatten)))

/-! ## Peers (R157, R369) -/

/-- A peer entry that is not in use. -/
def noPeer : Peer :=
  { node := 0, remoteGen := 0, remoteCtx := 0, doorbellIn := false, signalIn := false, writeIn := false, valid := false }

/-- A peer entry from its 16 bytes. -/
def Peer.parse (v : Nat) : Peer :=
  { node := BitVec.ofNat 32 (field v 127 96), remoteGen := BitVec.ofNat 16 (field v 95 80)
    remoteCtx := field v 77 60, doorbellIn := bit v 3, signalIn := bit v 2, writeIn := bit v 1, valid := bit v 0 }

/-- The first byte of a peer entry with a reserved bit set: bits [79:78] and [59:4]. -/
def peerReserved (v : Nat) : Option Nat :=
  (List.range 16).find? (fun i =>
    ((List.range 8).any (fun k => bit v (8 * i + k) && (Nat.ble 4 (8 * i + k) && Nat.ble (8 * i + k) 59 ||
      Nat.ble 78 (8 * i + k) && Nat.ble (8 * i + k) 79))))

/-- The entries of a PEER_SET as numbers of 16 bytes. -/
def Request.entries16 (r : Request) (n : Nat) : List Nat := (List.range n).map (fun i => r.get (16 + 16 * i) 16)

/-- A peer table with entries set from an index, made longer where it was shorter. -/
def putPeers (old : List Peer) (first : Nat) (new : List Peer) : List Peer :=
  let l := old ++ List.replicate (first + new.length - old.length) noPeer
  l.take first ++ new ++ l.drop (first + new.length)

/-- PEER_SET (R157, R368, R369). -/
def execPeerSet (ch : Chan) (s : State) : Host.Outcome State Fault Refusal :=
  .next (s.onRequest ch (opIs 0x0903)
    { ctx := true, reserved := [(10, 6)],
      lenOk := fun b => 16 ≤ b.length ∧ b.length = 16 + 16 * getLE b 8 2 } (fun r t =>
      let first := r.get 6 2
      let n := r.get 8 2
      let c := r.get 0 4
      let es := r.entries16 n
      if 1023 < first then t.reply r stRange 6 []
      else if n = 0 ∨ 29 < n ∨ 1024 < first + n then t.reply r stRange 8 []
      else
        match es.zipIdx.findSome? (fun e => (peerReserved e.1).map (fun k => 16 + 16 * e.2 + k)) with
        | some i => t.reply r stMalformed i []
        | none =>
          let l := putPeers (t.ctx c).peers first (es.map Peer.parse)
          (t.modCtx c (fun x => { x with peers := l })).ok r (leBytes 2 l.length ++ leBytes 2 0)))

/-! ## Coupling (R256 to R265) -/

/-- The regions of a COUPLE_SET. -/
def Request.coupled (r : Request) : List Region :=
  (List.range (r.get 8 1)).map (fun i => { vbase := r.get (16 + 16 * i) 8, len := r.get (24 + 16 * i) 8 })

/-- Every 2 MiB page of a range of virtual addresses is mapped. -/
def Context.pagesMapped (c : Context) (va n : Nat) : Bool :=
  (List.range ((n + mib2 - 1) / mib2)).all (fun i => (c.page (va + i * mib2)).isSome)

/-- Two regions have an address in common. -/
def Region.meets (a b : Region) : Bool := Nat.blt a.vbase (b.vbase + b.len) && Nat.blt b.vbase (a.vbase + a.len)

/-- The first fault of the regions of a COUPLE_SET (R256, R257), as a payload offset. -/
def regionFault (c : Context) (rs : List Region) : Option Nat :=
  rs.zipIdx.findSome? (fun e =>
    let x := e.1
    if x.vbase % mib2 ≠ 0 then some (16 + 16 * e.2)
    else if x.len = 0 ∨ x.len % mib2 ≠ 0 then some (24 + 16 * e.2)
    else if (rs.take e.2).any (fun y => x.meets y) ∨ ¬ c.pagesMapped x.vbase x.len then some (16 + 16 * e.2)
    else none)

/-- COUPLE_SET (R256, R257, R260, R261, R369). -/
def execCoupleSet (ch : Chan) (s : State) : Host.Outcome State Fault Refusal :=
  .next (s.onRequest ch (opIs 0x0904)
    { ctx := true, reserved := [(9, 7)],
      lenOk := fun b => 16 ≤ b.length ∧ b.length = 16 + 16 * getLE b 8 1 } (fun r t =>
      let c := r.get 0 4
      let x := t.ctx c
      let buddy := r.get 6 2
      if x.state ≠ .halted then t.reply r stState (ctxCode x.state) []
      else if 16 < r.get 8 1 then t.reply r stRange 8 []
      else if (x.peer buddy).isNone ∧ ¬ (r.get 8 1 = 0 ∧ buddy = 0xFFFF) then t.reply r stRange 6 []
      else
        match regionFault x r.coupled with
        | some i => t.reply r stRange i []
        | none =>
          let y : Context := { x with regions := r.coupled, buddy := if buddy = 0xFFFF then none else some buddy }
          (t.modCtx c (fun _ => { y with dCur := y.regionPages, dPrev := y.regionPages, committed := none })).ok r []))

/-- COUPLE_STORE (R258, R369): an older record is kept where it is VALID and for the same node and slot size. -/
def execCoupleStore (ch : Chan) (lines : LineEcc) (s : State) : Host.Outcome State Fault Refusal :=
  .next (s.onRequest ch (opIs 0x0905) { ctx := true, lenOk := lenIs 24, reserved := [(12, 4)] } (fun r t =>
    let c := r.get 0 4
    let x := t.ctx c
    let node : W32 := BitVec.ofNat 32 (r.get 8 4)
    let slot := r.get 16 8
    if x.state ≠ .halted then t.reply r stState (ctxCode x.state) []
    else
      match x.peer (r.get 6 2) with
      | none => t.reply r stRange 6 []
      | some p =>
        if ¬ p.writeIn then t.reply r stRange 6 []
        else if p.node ≠ node then t.reply r stRange 8 []
        else if ¬ x.pagesMapped 0 (storeHeader + 2 * slot) then t.reply r stRange 16 []
        else
          let q := t.storeRecord c lines
          let keep : Bool := q.2.1.valid && q.2.1.node = node && q.2.1.slotBytes.toNat = slot
          if ¬ keep ∧ ¬ x.headerWritable then q.2.2.reply r stRange 16 []
          else
          let u := if keep then q.2.2 else q.2.2.putOwn c 0 (leBytes 64 0)
          let y : Store :=
            { sourceNode := node, sourcePeer := r.get 6 2, slotBytes := slot, opened := none, applied := 0
              restoring := none }
          (u.modCtx c (fun z => { z with store := some y })).ok r []))

/-- Region-table entries of a store record: virtual base and length. -/
def storeRegions (n : Nat) (table : List Byte) : List (Nat × Nat) :=
  (List.range (min n 16)).map (fun i => (getLE table (16 * i) 8, getLE table (16 * i + 8) 8))

/-- The pages of a slot in region-table order: where each goes in the target, and its offset in the slot. -/
def slotPagesOf : Nat → List (Nat × Nat) → List (Nat × Nat)
  | _, [] => []
  | off, (va, len) :: t =>
    (List.range (len / mib2)).map (fun i => (va + i * mib2, off + i * mib2)) ++ slotPagesOf (off + len / mib2 * mib2) t

/-- One page of a restore read from the slot and sent: none where its read is uncorrectable or its target cannot be
reached. -/
def State.restorePage (s : State) (c : Nat) (p : Peer) (lines : LineEcc) (va src : Nat) : Option Nat × State :=
  let r := s.memGet c lines src mib2
  if r.1 then (none, r.2.2)
  else
    match r.2.2.sendTo 0x1 p va 0 r.2.1 c (.restore c) with
    | none => (none, r.2.2)
    | some (tag, u) => (some tag, u)

/-- The pages of a restore, with the tags sent; none once one failed. -/
def State.restorePages (s : State) (c : Nat) (p : Peer) (lines : LineEcc) (base : Nat) :
    List (Nat × Nat) → Option (List Nat) × State
  | [] => (some [], s)
  | (va, off) :: t =>
    match s.restorePage c p lines va (base + off) with
    | (none, u) => (none, u)
    | (some tag, u) =>
      let r := u.restorePages c p lines base t
      (r.1.map (fun l => tag :: l), r.2)

/-- COUPLE_RESTORE (R265, R368); `lines` says what its reads of the store find. -/
def execCoupleRestore (ch : Chan) (lines : LineEcc) (s : State) : Host.Outcome State Fault Refusal :=
  .next (s.onRequest ch (opIs 0x0906) { ctx := true, lenOk := lenIs 8 } (fun r t =>
    let c := r.get 0 4
    match (t.ctx c).store with
    | none => t.reply r stState 0xFFFE []
    | some y =>
      let q := t.storeRecord c lines
      let k := q.2.2.memGet c lines 64 256
      let u := k.2.2
      if y.restoring.isSome then t.reply r stBusy 0x0906 []
      else if q.1 then u.reply r stDevice 0 []
      else if ¬ q.2.1.valid then u.reply r stState 0xFFFF []
      else
        match (t.ctx c).peer (r.get 6 2) with
        | none => u.reply r stRange 6 []
        | some p =>
          if k.1 then u.reply r stDevice 0 []
          else
            let base := storeHeader + slotNo q.2.1.slot * q.2.1.slotBytes.toNat
            let x := u.restorePages c p lines base (slotPagesOf 0 (storeRegions q.2.1.regions k.2.1))
            match x.1 with
            | none => x.2.reply r stDevice 0 []
            | some [] => x.2.ok r (leBytes 8 q.2.1.step.toNat ++ leBytes 8 q.2.1.seed.toNat)
            | some tags =>
              let going : Restore := { req := r, tags := tags, step := q.2.1.step, seed := q.2.1.seed }
              x.2.modStore c (fun z => { z with restoring := some going })))

/-! ## Collective groups (R305) -/

/-- A tree entry of COLL_GROUP_SET: the parent and eight children, 0xFFFF for none. -/
def Request.tree (r : Request) (i : Nat) : List Nat := (List.range 9).map (fun j => r.get (8 + 18 * i + 2 * j) 2)

/-- An entry that may stand in a tree: none, or a peer with WRITE_IN. -/
def Context.treePeer (c : Context) (n : Nat) : Bool := n = 0xFFFF || (c.peer n).any (fun p => p.writeIn)

/-- COLL_GROUP_SET (R305, R310, R368, R369). -/
def execCollGroupSet (ch : Chan) (s : State) : Host.Outcome State Fault Refusal :=
  .next (s.onRequest ch (opIs 0x0907)
    { ctx := true, lenOk := fun b => 8 ≤ b.length ∧ b.length = 8 + 18 * getLE b 7 1 } (fun r t =>
      let c := r.get 0 4
      let x := t.ctx c
      let g := r.get 6 1
      let n := r.get 7 1
      let raw := (List.range n).map r.tree
      if x.state ≠ .halted then t.reply r stState (ctxCode x.state) []
      else if 15 < g then t.reply r stRange 6 []
      else if n = 0 ∨ 16 < n then t.reply r stRange 7 []
      else
        match raw.flatten.findIdx? (fun e => !x.treePeer e) with
        | some i => t.reply r stRange (8 + 2 * i) []
        | none =>
          let trees := raw.map (fun l =>
            let up := nth 0xFFFF l 0
            ({ parent := if up = 0xFFFF then none else some up, children := (l.drop 1).filter (fun e => e ≠ 0xFFFF) } : Tree))
          (t.modCtx c (fun y => { y with
            groups := Table.put [] g trees y.groups, opDone := Table.put none g none y.opDone })).ok r []))

end Sys2Proof.Machine
end

