-- ==== Sys2Proof/Machine/TrainCmds.lean ====
section
/-! DEFINITION. The flush of the Train Register (R518, R523 to R525, R535, R537, R538), its periodic recordings (R450, R526)
and the refill of the quote budgets (R557). -/

namespace Sys2Proof.Machine

/-! ## The flush -/

/-- A flush whose journal batch was closed and whose writes in place were cut off (R523, R525): bank 0 stands as it was, the
batch waits in the journal, and the header in it keeps the operating seconds. -/
def State.flushCut (s : State) : State :=
  if s.trg.stopped ∨ s.trg.bad then s
  else { s with trg.journal := some s.trg.flushed, trg.stored := s.trg.seconds }

/-- A flush of the summary form that fails its second write: the recorder stops (R538). -/
def State.summaryLost (s : State) : State :=
  if s.trg.bad then { s with trg.stopped := true } else s

/-- TRG_FLUSH (R518, R523 to R525, R535, R537, R538): `how` says how the writes of the flush end. -/
def execTrgFlush (how : FlushEnd) (s : State) : Host.Outcome State Fault Refusal :=
  .next (
    if ¬ s.start.control ∨ s.power.state = .holdUp ∨ s.trg.stopped then s
    else match how with
      | .whole => s.flush
      | .cutInJournal => s
      | .cutInPlace => s.flushCut
      | .badLocation offset => s.degrade offset
      | .summaryFails => s.summaryLost)

/-! ## Periodic recordings (R450, R526) -/

/-- A counter recorded: its increase since the last time, where there is one. -/
def State.noteCounter (s : State) (code idx count : Nat) : State :=
  let key := code * 2 ^ 16 + idx
  let old := Table.get 0 s.trg.lastCounters key
  let t := { s with trg.lastCounters := Table.put 0 key count s.trg.lastCounters }
  if old < count then t.note code (BitVec.ofNat 32 idx) (.value ((count - old : Nat) : Int)) else t

/-- Every counter of R526 recorded. -/
def State.noteCounters (s : State) : State :=
  let t := s.noteCounter 0x9001 0 s.power.overruns.toNat
  let t := s.drops.counters.zipIdx.foldl (fun t x => t.noteCounter 0x9002 x.2 x.1.toNat) t
  s.rails.ports.zipIdx.foldl (fun t p =>
    p.1.counters.zipIdx.foldl (fun t x => t.noteCounter 0x9003 (256 * p.2 + x.2) x.1.toNat) t) t

/-- The saturation flags recorded and cleared (R450). -/
def State.noteSaturation (s : State) : State :=
  let t := (List.range 7).foldl (fun t i =>
    if s.power.satFlags.getLsbD i then t.note 0x8009 (BitVec.ofNat 32 i) .occurrence else t) s
  { t with power.satFlags := 0 }

/-- Input draw less ramp value over the last second, in units of 0.01 % of the ramp value (R526, log entry 137). -/
def Power.overRamp (p : Power) : Int :=
  let input := meanInt (p.inputs.map (fun x => (x.1 : Int)))
  let ramp := meanInt (p.inputs.map (fun x => (x.2 : Int)))
  if ramp = 0 then (Config.noRamp input).toInt else (input * 1000000 - ramp) * 10000 / ramp

/-- TRG_PERIODIC_SAMPLE (R450, R526). -/
def execTrgPeriodicSample (key : SampleKey) (s : State) : Host.Outcome State Fault Refusal :=
  .next (
    if s.start.phase ≠ .rom ∨ s.book.fwState < 2 then s
    else match key with
      | .computeStep => { s with power.lowStep := s.power.step }.note 0x8001 0 (.value s.power.lowStep)
      | .junction part degrees => s.note 0x8003 (BitVec.ofNat 32 part.val) (.value degrees)
      | .inputDraw => s.note 0x8004 0 (.value (s.power.meanInput / 1000 : Nat))
      | .computeDraw => s.note 0x8005 0 (.value (s.power.draw10 / 1000))
      | .inputLessRamp =>
        if s.power.state = .run ∨ s.power.state = .trimmed then s.note 0x8006 0 (.value s.power.overRamp) else s
      | .chargeFraction => if s.hayIn then s.note 0x8007 0 (.value (s.hay.sRep * 10000).floor) else s
      | .saturation => s.noteSaturation
      | .counters => s.noteCounters)

/-! ## Quote budgets (R557) -/

/-- QUOTE_BUDGET_REFILL (R557): one unit more for the identity key, up to 2, or for the attestation key, up to 16. -/
def execQuoteBudgetRefill (identity : Bool) (s : State) : Host.Outcome State Fault Refusal :=
  .next (
    if identity then { s with sec.identityBudget := min 2 (s.sec.identityBudget + 1) }
    else { s with sec.attestBudget := min 16 (s.sec.attestBudget + 1) })

end Sys2Proof.Machine
end

