-- ==== Sys2Proof/Machine/StartCmds.lean ====
section
/-! DEFINITION. Start-up (R37, R44, R209, R214, R217, R250, R505, R518, R525, R542 to R546, R551, R554, R584 to R594), loss of
input and Hold-up (R599 to R605), and TRAY_RESET_L (R587). -/

namespace Sys2Proof.Machine

/-! ## Units before their tests (R2, R53, R502, R539) -/

/-- The state of a unit as start-up finds it: disabled or not fitted, fenced by the fence list, or pending. -/
def unitAtStart (fences : List W32) (gone : Bool) (src : W32) : UnitState :=
  if gone then .absent else if src ∈ fences then .fenced else .pending

/-- A partition is disabled (R2): by its fuse, or beyond the partitions that the part has enabled. -/
def Fuses.partGone (f : Fuses) (p : Nat) : Bool :=
  f.partDisable.getLsbD p ||
    decide (profileMax f.part ≤ ((List.range p).filter (fun q => !f.partDisable.getLsbD q)).length)

/-- A partition at reset release. -/
def partAtStart (f : Fuses) (fences : List W32) (p : Nat) : Partition :=
  { Partition.reset with
    unit := unitAtStart fences (f.partGone p) (partScope p)
    mes := (List.range 20).map (fun e => { MatrixEngine.reset with unit := unitAtStart fences false (source 1 p e) })
    vec := { VectorEngine.reset with unit := unitAtStart fences false (source 2 p 0) }
    dms := (List.range 4).map (fun m => { Mover.reset with unit := unitAtStart fences false (source 3 p m) }) }

/-- The control cores at reset release (R51). -/
def coresAtStart (fences : List W32) : List ControlCore :=
  (List.range 16).map (fun i => { ControlCore.reset with unit := unitAtStart fences false (source 9 0 i) })

/-- The memory devices at reset release. -/
def devicesAtStart (f : Fuses) (fences : List W32) : List MemDevice :=
  (List.range 12).map (fun i => { MemDevice.reset with
    unit := unitAtStart fences (f.memDisable.getLsbD i || decide (memFitted f.part ≤ i)) (source 6 0 i) })

/-- The rail ports at reset release. -/
def portsAtStart (f : Fuses) (fences : List W32) : List Port :=
  (List.range 20).map (fun i => { Port.reset with
    unit := unitAtStart fences (f.railDisable.getLsbD i || decide (railFitted f.part ≤ i)) (source 5 0 i) })

/-! ## What survives (R44, R502, R505) -/

/-- The reservoir at power-good or reset release: the checks of R404 begin where a cartridge is in (R401). -/
def Hay.atStart (h : Hay) : Hay :=
  if h.entry = .absent then Hay.reset else { Hay.reset with entry := .pending, phase := .checking }

/-- The recorder at power-good or reset release: what lay in control SRAM is as last flushed. -/
def Trg.atStart (t : Trg) : Trg :=
  { t with live := if t.bad ∨ t.stopped then t.live else t.bank0, lastCounters := [] }

/-- The module at power-good or reset release, before its ROM runs: NOR, MRAM, fuses, Train Register and pins are kept, and
everything else is at its reset value. -/
def State.released (s : State) (link : LinkResult) : State :=
  let fences := s.past.fences
  { State.reset with
    pending := s.pending, fuses := s.fuses, mram := s.mram
    parts := (List.range 8).map (partAtStart s.fuses fences), cores := coresAtStart fences
    mem := { Memory.reset with devices := devicesAtStart s.fuses fences }
    rails := { Rails.reset with ports := portsAtStart s.fuses fences }
    cap := { Cap.reset with profileBefore := s.cap.profileBefore }
    hay := s.hay.atStart, power := { Power.reset with coreMv := s.fuses.volts 64 }, trg := s.trg.atStart
    sbx := { Sbx.reset with resetTimer := s.sbx.resetTimer }
    sec := { Sec.reset with nor := s.sec.nor, idSealed := s.sec.idSealed }
    start := { Start.reset with
      phase := .rom, earlyBreak := s.start.earlyBreak, trayReset := s.start.trayReset, perst := s.start.perst
      alert := s.start.alert, inputGood := true, control := true, cause := s.start.cause, fast := s.start.fast }
    fresh := s.fresh, out := s.out }.trainLink link

/-! ## The ROM (R542 to R545, R554, R563) -/

/-- Every partition was tested and none passed, with the descriptor unpublished (R593). -/
def State.hopeless (s : State) : Bool := !s.cap.published && s.parts.all (fun p => p.unit ≠ .pending)

/-- Roundhouse entered: FW_STATE 1 and, until the next start, Standby. -/
def State.roundhouse (s : State) : State := { s with book.fwState := 1, book.mctpUp := true, sec.rh := Roundhouse.reset }

/-- The start record, its two numbers: firmware start count and START_FAIL. -/
def Mram.startRecord (m : Mram) : Nat × Nat := m.start.read.getD (0, 0)

/-- Measurements 0 to 2 taken by the ROM (R554). -/
def State.romMeasures (s : State) : State :=
  ((s.setMeasure 0 (leBytes 64 Config.romMeasurement.toNat)).remeasureFuses).setMeasure 2 (imgMeasure s.norImage)

/-- The firmware started (R51, R333, R370, R545, R552, R554): FW_STATE 2, a new session, and FIRMWARE_START queued. -/
def State.startFirmware (s : State) : State :=
  let r := s.mram.startRecord
  let img := s.norImage
  let idTop := s.mram.identityTop.read.getD 0
  let atTop := s.mram.attestTop.read.getD 0
  let t := s.romMeasures
  let sec := { t.sec with
    runVersion := imgVersion img, runSvn := imgSvn img, identityNext := idTop, identityTop := idTop, attestNext := atTop
    attestTop := atTop, identityRam := s.mram.identityKey.value, attestRam := s.mram.attestKey.value }
  let session := BitVec.ofNat 32 (r.1 + 1)
  let t := { t with
    sec := sec, mram.start := t.mram.start.store (r.1 + 1, r.2 + 1) true, sbx.watchdog := true
    book.fwState := 2, book.mctpUp := true, book.session := session }
  (t.remeasureDebug).event 0x0180 (leBytes 4 session.toNat ++ leBytes 1 t.start.cause ++ leBytes 3 0)

/-- What the ROM does (R542, R545): nothing with a bad fuse field, Roundhouse after three failed starts or without a
valid image, else the firmware. -/
def State.rom (s : State) : State :=
  if s.fuses.bad then s
  else if 3 ≤ s.mram.startRecord.2 ∨ ¬ s.norValid then s.roundhouse
  else
    let t := s.startFirmware
    if t.hopeless then t.requestCycle else t

/-- An unfinished journal batch at power-up: reapplied and recorded where its CRC is correct, else discarded (R525). -/
def State.reapply (s : State) (whole : Bool) : State :=
  match s.trg.journal with
  | none => s
  | some d =>
    if s.trg.bad ∨ s.trg.stopped ∨ ¬ whole then { s with trg.journal := none }
    else { s with trg.journal := none, trg.bank0 := d, trg.live := d }.note 0x7F03 0 .occurrence

/-- A clear that a loss of power interrupted is completed at power-up (R534). -/
def State.mendClear (s : State) : State :=
  if s.trg.clears.any (fun c => !c.done) then { s with trg := s.trg.finishClear }.note 0x7F04 0 .occurrence else s

/-- POWER_GOOD (R44, R250, R502, R518, R525, R534, R542 to R546, R554, R570, R586, R590). -/
def execPowerGood (journalWhole : Bool) (link : LinkResult) (s : State) : Host.Outcome State Fault Refusal :=
  .next (
    if s.start.phase ≠ .off ∨ ¬ s.start.trayReset then s
    else
      let t := { s.modPast (fun h => { h with fences := [] }) with
        sec.idSealed := false, sbx.resetTimer := false, cap.profileBefore := 0
        start := { s.start with cause := 0, fast := false, alert := false, earlyBreak := false }
        trg.powerCycles := min (s.trg.powerCycles + 1) (2 ^ 24 - 1), trg.seconds := s.trg.stored + 1 }
      ((t.released link).reapply journalWhole).mendClear.rom)

/-- FULL_MODULE_RESET_RELEASE (R44, R209, R505, R545, R594). -/
def execFullModuleResetRelease (link : LinkResult) (s : State) : Host.Outcome State Fault Refusal :=
  .next (
    if s.start.phase ≠ .resetting then s
    else ({ s with start.fast := true }.released link).rom)

/-! ## The ladder of start-up (R590, R591, R593, R594) -/

/-- The units of a partition once its self-test is over: engines mapped, vector engine and movers in service, the
partition held until its rung comes, or fenced (R134, R591). -/
def Partition.placed (p : Partition) : Partition :=
  let up := fun (u : UnitState) => if u = .fenced then .fenced else UnitState.inService
  let q := { p with
    unit := .held, tested := true, mes := assignLogical 0 p.mes, vec := { p.vec with unit := up p.vec.unit }
    dms := p.dms.map (fun d => { d with unit := up d.unit }) }
  if q.serviceable then q else { q with unit := .fenced }

/-- A tested partition takes its place, in the fence list where it failed. -/
def State.placePart (s : State) (p : Nat) : State :=
  let t := s.modPart p Partition.placed
  if (t.part p).unit = .fenced then t.listFence (partScope p) else t

/-- The first partition passed: tickets accepted, START_FAIL 0, the converter of a reservoir in service enabled, and the
fused SVN raised to the image's (R437, R546, R551, R590). -/
def State.openModule (s : State) : State :=
  let t := s.setStartFail 0
  let on : Bool := t.hayIn && !t.hay.stopHot
  let t := { t with book.fwState := 3, power.state := .run, hay.converter := on, hay.closed := on }
  if t.fuses.svn < t.sec.runSvn then { t with fuses.svn := t.sec.runSvn }.remeasureFuses else t

/-- A partition's self-test over: it takes its place and the profile climbs a rung where it can; without any that
passed, a power cycle is requested (R593). -/
def State.climb (s : State) (p : Nat) : State :=
  let first : Bool := !s.cap.published && (s.part p).placed.unit = .held
  let t := if first then s.openModule else s
  let t := t.reprofile (fun s =>
    let u := s.placePart p
    if first then { u with cap.published := true, cap.starting := true } else u)
  let t := { t with start.rung := t.cap.profile, start.testedParts := t.start.testedParts ++ [p] }
  if t.hopeless then t.requestCycle else t.startDone

/-- The partition that may be tested now: any pending one in a fast start, else the lowest (R591, R594). -/
def State.mayTest (s : State) (p : Nat) : Bool :=
  (s.part p).unit = .pending && (s.start.fast || (List.range p).all (fun q => (s.part q).unit ≠ .pending))

/-- Firmware runs the start-up ladder. -/
def State.starting (s : State) : Bool := s.start.phase = .rom && (s.book.fwState = 2 || s.book.fwState = 3)

/-- PARTITION_SELF_TEST_DONE (R6 to R9, R134, R387, R546, R551, R590, R591, R593, R594). -/
def execPartitionSelfTestDone (part : Fin 8) (test : SelfTest) (s : State) : Host.Outcome State Fault Refusal :=
  .next (if ¬ s.starting ∨ ¬ s.mayTest part.val then s else (s.testOver part.val test).climb part.val)

/-! ## Memory, cores and ports (R214, R217, R250, R592 to R594) -/

/-- The state with one memory device changed. -/
def State.modDevice (s : State) (i : Nat) (f : MemDevice → MemDevice) : State :=
  { s with mem.devices := setNth s.mem.devices i f }

/-- A memory device. -/
def State.device (s : State) (i : Nat) : MemDevice := nth MemDevice.reset s.mem.devices i

/-- A unit fenced at start-up and recorded as event 0x030B (R591, R592). -/
def State.failAtStart (s : State) (src : W32) (f : State → State) : State :=
  (s.recap (fun s => (f s).listFence src)).raiseEvent 0x030B src none 0 false 0 []

/-- Attempts at training a device: three, or in a fast start the stored values and one more (R592, R594). -/
def State.trainLimit (s : State) (i : Nat) : Nat := if s.start.fast ∧ (nth (TwoCopy.blank []) s.mram.training i).read.isSome then 2 else 3

/-- MEMORY_TRAINING_DONE (R23, R217, R592, R594). -/
def execMemoryTrainingDone (device : Fin 12) (passed : Bool) (values : List Byte) (s : State) : Host.Outcome State Fault Refusal :=
  let i := device.val
  .next (
    if ¬ s.starting ∨ (s.device i).unit ≠ .pending ∨ (s.device i).trained then s
    else if passed then
      let t := s.modDevice i (fun d => { d with trained := true, attempts := d.attempts + 1 })
      { t with mram.training := setNth t.mram.training i (fun c => c.store values true) }
    else
      let t := s.modDevice i (fun d => { d with attempts := d.attempts + 1 })
      if t.trainLimit i ≤ (t.device i).attempts then
        (t.failAtStart (source 6 0 i) (fun s => s.modDevice i (fun d => { d with unit := .fenced }))).startDone
      else t)

/-- Devices through training, ascending (R214). -/
def State.devicesIn (s : State) : List Nat := (List.range 12).filter (fun i => (s.device i).trained)

/-- A device through the memory test is in service; until then it is pending (R53). -/
def MemDevice.tested (d : MemDevice) : MemDevice := if d.trained then { d with unit := .inService } else d

/-- The memory map built over zeroed memory, the frames in which a line failed retired and counted for the devices of
those lines (R214, R217, R250, R251). -/
def State.buildMap (s : State) (badLines : List Nat) : State :=
  let map := s.devicesIn
  let lines := badLines.filter (fun l => l < 2 ^ 31 * map.length)
  let frames := (lines.map (fun l => l / 2 ^ 15)).eraseDups
  let t := s.recap (fun s => { s with
    mem.map := map, mem.devices := s.mem.devices.map MemDevice.tested, mem.bytes := []
    mem.damaged := [], mem.corrected := [], mem.retired := frames, mem.zeroing := [] })
  let hits := (lines.map (fun l => (l / 2 ^ 15, (t.mem.locate (64 * l)).1))).eraseDups
  let count := fun i => (hits.filter (fun h => h.2 = i)).length
  map.foldl (fun t i => if 256 < count i then t.report (source 6 0 i) 0x030A none 0 else t)
    { t with mem.retiredOf := (List.range 12).map count }

/-- MEMORY_TEST_DONE (R214, R217, R250, R251, R395, R590, R594): the lines and Yard blocks that failed. -/
def execMemoryTestDone (badLines : List Nat) (badBlocks : List Nat) (s : State) : Host.Outcome State Fault Refusal :=
  .next (
    if ¬ s.starting ∨ s.mem.map ≠ [] ∨ s.devicesIn = [] ∨ s.mem.devices.any (fun d => d.unit = .pending ∧ ¬ d.trained) then s
    else
      let t := s.buildMap badLines
      ((badBlocks.filter (fun k => k < 2 ^ 14 ∧ k % 2048 < 1536)).foldl State.retireBlock t).startDone)

/-- A control core or rail port that passed its local self-test: a port enters TRAINING (R284, R593). -/
def State.localPassed (s : State) (src : W32) : State :=
  let i := srcIdx src
  if srcKind src = 9 then
    let f := fun (c : ControlCore) => { c with unit := UnitState.inService }
    s.recap (fun s => { s with cores := setNth s.cores i f })
  else s.recap (fun s => s.modPort i (fun p => { p.restart .training with unit := .inService }))

/-- LOCAL_SELF_TEST_DONE (R590, R593, R594). -/
def execLocalSelfTestDone (source : W32) (passed : Bool) (s : State) : Host.Outcome State Fault Refusal :=
  let i := srcIdx source
  let unit := if srcKind source = 9 then (s.core i).unit else (s.port i).unit
  .next (
    if ¬ s.starting ∨ ¬ srcValid source ∨ (srcKind source ≠ 9 ∧ srcKind source ≠ 5) ∨ unit ≠ .pending then s
    else if passed then (s.localPassed source).startDone
    else ((s.fence source).raiseEvent 0x030B source none 0 false 0 []).startDone)

/-! ## Loss of input (R470, R553, R562, R571, R599 to R601) -/

/-- Entries to Intrusive under way end (R571). -/
def State.abortUnlocks (s : State) : State :=
  (s.running.filter (fun r => r.opcode = 0x0700)).foldl (fun t r => t.reply r stAborted 0 []) s

/-- The compute domain and the memory devices lose power: their work and contents are lost, and mirrors in progress are
abandoned; the class weights, in the control domain, stay (R177, R264, R600, R605). -/
def State.loseCompute (s : State) : State :=
  let t := s.ctxIds.foldl (fun t c => t.modCtx c Context.endMirror) s.zeroTokens
  { t with
    marsh := { t.marsh with units := [], flights := [] }, parts := t.parts.map Partition.cleared, sec.update := none
    mem := { t.mem with bytes := [], damaged := [], saveArea := [], grants := [], zeroing := [] }
    yard := { t.yard with bytes := [], damaged := [] } }

/-- Hold-up entered (R470, R523, R553, R562, R571, R599 to R601): Closed, ports QUIET, the estimator record and the flush
written, walks and updates ended; the converter holds the bus. -/
def State.enterHoldUp (s : State) (back : ReadBacks) : State :=
  let bus : Bool := s.hayIn && !s.hay.stopHot
  let t := { s with
    power := { s.power with state := .holdUp, clockStopped := true }
    hay.converter := bus, hay.closed := bus
    start := { s.start with inputGood := false, inputSwitch := false, holdOnCart := s.hayIn } }
  let t := ((t.setLevel 0 none).abortUnlocks.endWalk 5).quietPorts
  let t := t.loseCompute
  (if t.hayIn then t.putEst false back else t).flush

/-- The sign of a loss on the pins (R599). -/
def State.lossSeen (s : State) : LossKind → State
  | .earlyBreak => { s with start.earlyBreak := true }
  | .undervoltage => { s with start.inputGood := false }
  | .overvoltage => { s with start.inputSwitch := false }

/-- INPUT_LOSS (R599 to R601): Hold-up, from every power state. -/
def execInputLoss (how : LossKind) (readBacks : ReadBacks) (s : State) : Host.Outcome State Fault Refusal :=
  .next (
    let t := s.lossSeen how
    if ¬ s.start.control ∨ s.power.state = .holdUp then t else t.enterHoldUp readBacks)

/-- Every regulator off, the disconnect open, ALERT_L released (R507, R587, R602). -/
def State.powerOff (s : State) : State :=
  let t := { s with
    start := { s.start with phase := .off, control := false, holdOnCart := false, alert := false }
    power.state := .standby, hay := s.hay.stop, sec.level := 0, sbx.watchdog := false, sbx.resetTimer := false
    book.fwState := 0, book.mctpUp := false, pcie.linkUp := false, pcie.ready := false
    rails.ports := s.rails.ports.map (fun p => { p with state := .down }) }
  if s.start.alert then t.emit .alertHigh else t

/-- HOLDUP_END (R602): the discharge stop, the loss of the cartridge or the end of the bulk capacitance. -/
def execHoldupEnd (s : State) : Host.Outcome State Fault Refusal :=
  .next (if s.start.control ∧ s.power.state = .holdUp then s.powerOff else s)

/-- INPUT_RETURN (R604): a full module reset while the control region still has power; a power cycle that is requested
stays so (R507). -/
def execInputReturn (s : State) : Host.Outcome State Fault Refusal :=
  .next (
    if ¬ s.start.control ∨ s.power.state ≠ .holdUp ∨ ¬ s.start.trayReset then s
    else
      let t := { s with
        power.state := .standby
        start := { s.start with earlyBreak := false, inputGood := true, inputSwitch := true, holdOnCart := false } }
      if s.start.phase = .cycle ∨ s.start.phase = .held then t else t.beginModuleReset 1 true)

/-- TRAY_RESET_FALL (R587): as Hold-up until the flush is complete, then off. -/
def execTrayResetFall (readBacks : ReadBacks) (s : State) : Host.Outcome State Fault Refusal :=
  .next (
    let t := { s with start.trayReset := false }
    if ¬ s.start.control then t
    else if s.power.state = .holdUp then t.powerOff
    else (t.enterHoldUp readBacks).powerOff)

/-- TRAY_RESET_RISE (R587): power-good follows where the input is present. -/
def execTrayResetRise (s : State) : Host.Outcome State Fault Refusal := .next { s with start.trayReset := true }

end Sys2Proof.Machine
end

