-- ==== Sys2Proof/Machine/DebugCmds.lean ====
section
/-! DEFINITION. The debug port (R567, R568, R572). -/

namespace Sys2Proof.Machine

/-! ## What each level reaches (R567, R572) -/

/-- The compute domain and module memory have power: not in Standby or Hold-up, where the port reaches the control region
only. -/
def State.portReaches (s : State) : Bool := s.power.state ≠ .standby && s.power.state ≠ .holdUp

/-- An operation of the port at a level and where a condition holds; else it is denied. -/
def State.atLevel (s : State) (level : Nat) (ok : Bool) (act : State → State) : State :=
  if ¬ s.start.control then s
  else if level ≤ s.sec.level ∧ ok then act s
  else s.emit .debugDenied

/-- A range of module memory that the port reaches: in the map, clear of retired frames (R248, R567). -/
def State.memRange (s : State) (addr len : Nat) : Bool :=
  s.portReaches && Nat.ble (addr + len) s.mem.total &&
    !s.mem.retired.any (fun f => f * 2 ^ 21 < addr + len ∧ addr < (f + 1) * 2 ^ 21)

/-- A range of a partition's Yard that the port reaches: clear of retired blocks. -/
def State.yardRange (s : State) (p off len : Nat) : Bool :=
  s.portReaches && Nat.ble (off + len) (1536 * 65536) &&
    !s.yard.retired.any (fun k => k / 2048 = p ∧ k % 2048 * 65536 < off + len ∧ off < (k % 2048 + 1) * 65536)

/-- A range of the NOR, of 64 MiB. -/
def norRange (off len : Nat) : Bool := decide (off + len ≤ 2 ^ 26)

/-- A control core halted or let run through the port; a core out of service is left. -/
def State.haltCore (s : State) (i : Nat) (halt : Bool) : State :=
  let f := fun (c : ControlCore) => if c.unit = .inService then { c with halted := halt } else c
  { s with cores := setNth s.cores i f }

/-- A range of the 16 MiB of control SRAM (R22). -/
def sramRange (off len : Nat) : Bool := decide (off + len ≤ 2 ^ 24)

/-- Bytes of control SRAM read by the port; an uncorrectable word is reported (R22, R47, R484, log entry 107). -/
def State.sramRead (s : State) (off len : Nat) (ecc : Ecc) : State :=
  let held := fun k => (Table.get none s.sec.sram k).getD (Config.sramByte k)
  let byte := fun k => if ecc = .bad then Config.sramByte k else held k
  let t := s.emit (.debugRead ((List.range len).map (fun i => byte (off + i))))
  if ecc = .bad then t.report (source 0x12 0 0) 0x0402 none 0 else t

/-- Bytes of control SRAM written by the port. -/
def State.sramWrite (s : State) (off : Nat) (data : List Byte) : State :=
  { s with sec.sram := data.zipIdx.foldl (fun m x => Table.put none (off + x.2) (some x.1) m) s.sec.sram }

/-- A range of an MRAM bank of 4 MiB, clear of the key area (R23, R567). -/
def mramRange (bank off len : Nat) : Bool :=
  decide (off + len ≤ 2 ^ 22) && !decide (bank = 1 ∧ 0x10000 < off + len ∧ off < 0x20000)

/-- A slot not allotted (R521). -/
def Slot.blank : Slot := { Slot.fresh 0 0 0 0 with width := 0 }

/-- A byte of a table of records of n bytes. -/
def tableByte {α : Type} (l : List α) (f : α → List Byte) (n k : Nat) : Option Byte :=
  (l[k / n]?).map (fun x => nth 0 (f x) (k % n))

/-- A byte of the areas whose layout the manual gives: in bank 0 the slots and the lists (R520), in bank 1 the estimator
record (R429) and the summary slots (R536). -/
def State.laidOut (s : State) (bank off : Nat) : Option Byte :=
  if bank = 0 then
    if 0x20000 ≤ off ∧ off < 0x28000 then tableByte s.trg.bank0.firsts Event.bytes 32 (off - 0x20000)
    else if 0x28000 ≤ off ∧ off < 0x2E000 then tableByte s.trg.bank0.notes Annotation.bytes 96 (off - 0x28000)
    else if 0x40000 ≤ off ∧ off < 0x1C0000 then
      some ((tableByte s.trg.bank0.slots Slot.bytes 384 (off - 0x40000)).getD (nth 0 Slot.blank.bytes ((off - 0x40000) % 384)))
    else none
  else if 0x2000 ≤ off ∧ off < 0x2040 then some (nth 0 s.mram.est0 (off - 0x2000))
  else if 0x2040 ≤ off ∧ off < 0x2080 then some (nth 0 s.mram.est1 (off - 0x2040))
  else if 0x300800 ≤ off ∧ off < 0x310000 then
    some ((tableByte s.trg.sumStored Slot.summaryBytes 64 (off - 0x300800)).getD
      (nth 0 Slot.blank.summaryBytes ((off - 0x300800) % 64)))
  else none

/-- A byte of an MRAM bank (R23): of the other records the manual gives no layout (log entry 107). -/
def State.mramByte (s : State) (bank off : Nat) : Byte :=
  (s.laidOut bank off).getD
    ((Table.get none s.mram.cells (bank * 2 ^ 22 + off)).getD (Config.mramByte (bank * 2 ^ 22 + off)))

/-- A byte of an MRAM bank written by the port. -/
def Mram.setByte (m : Mram) (bank off : Nat) (b : Byte) : Mram :=
  if bank = 1 ∧ 0x2000 ≤ off ∧ off < 0x2040 then { m with est0 := setNth m.est0 (off - 0x2000) (fun _ => b) }
  else if bank = 1 ∧ 0x2040 ≤ off ∧ off < 0x2080 then { m with est1 := setNth m.est1 (off - 0x2040) (fun _ => b) }
  else { m with cells := Table.put none (bank * 2 ^ 22 + off) (some b) m.cells }

/-- Bytes of an MRAM bank read by the port. -/
def State.mramRead (s : State) (bank off len : Nat) : State :=
  s.emit (.debugRead ((List.range len).map (fun i => s.mramByte bank (off + i))))

/-- Bytes of an MRAM bank written by the port. -/
def State.mramWrite (s : State) (bank off : Nat) (data : List Byte) : State :=
  { s with mram := data.zipIdx.foldl (fun m x => m.setByte bank (off + x.2) x.1) s.mram }

/-- A page-table entry (R155): VALID, LEAF, WRITE and ADDR. -/
def tableEntry (leaf write : Bool) (addr : Nat) : Nat := 2 ^ 63 + b2n leaf * 2 ^ 62 + b2n write * 2 ^ 61 + addr

/-- Where firmware places the level-2 table that entry i of a context's level-1 table points to (R155). -/
def State.tableAt (s : State) (c : Context) (i : Nat) : Nat :=
  s.mem.usable + Config.ptTable c.ptRoot i % 2 ^ 20 * 4096

/-- Entry i of a context's level-1 table (R155). -/
def State.level1 (s : State) (c : Context) (i : Nat) : Nat :=
  match c.pages.find? (fun p => p.vbase / 2 ^ 30 = i) with
  | none => 0
  | some p => if p.big then tableEntry true p.write p.addr else tableEntry false false (s.tableAt c i)

/-- Entry j of the level-2 table of entry i of a context's level-1 table (R155). -/
def Context.level2 (c : Context) (i j : Nat) : Nat :=
  match c.pages.find? (fun p => p.vbase = i * 2 ^ 30 + j * 2 ^ 21 ∧ ¬ p.big) with
  | none => 0
  | some p => tableEntry true p.write p.addr

/-- The byte that a context's page tables hold at an address of the firmware-reserved region (R155). -/
def State.tableByte (s : State) (c : Context) (addr : Nat) : Option Byte :=
  let root := c.ptRoot.toNat
  let entry := fun (e k : Nat) => some (BitVec.ofNat 8 (e / 256 ^ (k % 8)))
  if root ≤ addr ∧ addr < root + 32768 then entry (s.level1 c ((addr - root) / 8)) (addr - root)
  else
    match ((c.pages.filter (fun p => !p.big)).map (fun p => p.vbase / 2 ^ 30)).find?
        (fun i => s.tableAt c i ≤ addr ∧ addr < s.tableAt c i + 4096) with
    | some i => let k := addr - s.tableAt c i; entry (c.level2 i (k / 8)) k
    | none => none

/-- Bytes of module memory as the port reads them: in the firmware-reserved region it meets the page tables of contexts
(R155, log entry 7). -/
def State.portBytes (s : State) (addr : Nat) (bs : List Byte) : List Byte :=
  let live := (s.ctxs.map (fun x => x.2)).filter (fun c => c.state ≠ .free ∧ c.state ≠ .quarantine)
  bs.zipIdx.map (fun b =>
    if addr + b.2 < s.mem.usable then b.1
    else (live.findSome? (fun c => s.tableByte c (addr + b.2))).getD b.1)

/-- The reading of a source's pair (R476): 0 quiet, 1 a report pending, 2 invalid. -/
def State.pairCode (s : State) (src : W32) : Nat :=
  if (src, true) ∈ s.sbx.driven then 2
  else if (src, false) ∈ s.sbx.driven ∨ s.sbx.reports.any (fun r => r.source = src) then 1 else 0

/-- What the port reads at Observe, as a number (R567). -/
def State.observed (s : State) : Observed → Nat
  | .milepost src => (Table.get { count := 0 } s.sbx.mileposts src.toNat : Milepost).count.toNat
  | .unit src => unitCode (s.unitAt src)
  | .queued src => ((s.flightsAt src).filter (fun f => f.stage = .queued)).length
  | .pair src => s.pairCode src
  | .portState n => portCode (s.port n.val).state
  | .credits n vl => (nth 0 (s.port n.val).cred vl.val - nth 0 (s.port n.val).sent vl.val).toNat
  | .portCounter n i => (nth 0 (s.port n.val).counters i.val).toNat

/-- DEBUG_PORT_ACCESS (R567, R572): Observe for reading states and for DBG_TRIG, Intrusive for the rest. -/
def execDebugPortAccess (op : DebugOp) (s : State) : Host.Outcome State Fault Refusal :=
  .next (match op with
    | .observe what => s.atLevel 1 true (fun t => t.emit (.debugRead (leBytes 8 (t.observed what))))
    | .trigger high => s.atLevel 1 true (fun t => { t with start.dbgTrig := high })
    | .haltCore core => s.atLevel 2 true (fun t => t.haltCore core.val true)
    | .runCore core => s.atLevel 2 true (fun t => t.haltCore core.val false)
    | .stepCore core => s.atLevel 2 true (fun t => t.haltCore core.val true)
    | .readMemory addr len lines => s.atLevel 2 (s.memRange addr len) (fun t =>
        let r := t.memLoad addr len lines (len + 1)
        r.2.2.emit (.debugRead (t.portBytes addr r.2.1)))
    | .writeMemory addr data lines => s.atLevel 2 (s.memRange addr data.length) (fun t =>
        (t.memStore addr data lines (data.length + 1)).2)
    | .readYard part off len => s.atLevel 2 (s.yardRange part.val off len) (fun t =>
        t.emit (.debugRead (t.yardLoad (yardKey part.val off) len)))
    | .writeYard part off data => s.atLevel 2 (s.yardRange part.val off data.length) (fun t =>
        (t.yardStore (yardKey part.val off) data).2)
    | .readNor off len => s.atLevel 2 (norRange off len) (fun t => t.emit (.debugRead (norRead t.sec.nor off len)))
    | .writeNor off data => s.atLevel 2 (norRange off data.length) (fun t =>
        { t with sec.nor := norWrite t.sec.nor off data })
    | .readSram off len ecc => s.atLevel 2 (sramRange off len) (fun t => t.sramRead off len ecc)
    | .writeSram off data => s.atLevel 2 (sramRange off data.length) (fun t => t.sramWrite off data)
    | .readMram bank off len => s.atLevel 2 (mramRange bank.val off len) (fun t => t.mramRead bank.val off len)
    | .writeMram bank off data => s.atLevel 2 (mramRange bank.val off data.length) (fun t =>
        t.mramWrite bank.val off data))

/-! ## Boundary scan (R567) -/

/-- A boundary-scan instruction that needs Intrusive: below it BYPASS is selected. -/
def State.scan (s : State) (i : Jtag) (act : State → State) : State :=
  if ¬ s.start.control then s
  else if s.sec.level = 2 then act { s with sec.jtag := i }
  else { s with sec.jtag := .bypass }.emit .debugDenied

/-- BYPASS (R567): at every level. -/
def execBypass (s : State) : Host.Outcome State Fault Refusal :=
  .next (if s.start.control then { s with sec.jtag := .bypass } else s)

/-- SAMPLE (R567): the pins taken into the cells. -/
def execSample (pins : List Bool) (s : State) : Host.Outcome State Fault Refusal :=
  .next (s.scan .sample (fun t => { t with sec.cells := pins }))

/-- PRELOAD (R567): the cells loaded. -/
def execPreload (cells : List Bool) (s : State) : Host.Outcome State Fault Refusal :=
  .next (s.scan .preload (fun t => { t with sec.cells := cells }))

/-- EXTEST (R567): the cells driven onto the pins, and the pins taken into the cells. -/
def execExtest (pins : List Bool) (s : State) : Host.Outcome State Fault Refusal :=
  .next (s.scan .extest (fun t => { t.emit (.pins t.sec.cells) with sec.cells := pins }))

end Sys2Proof.Machine
end

