-- ==== Sys2Proof/Machine/FaultTickets.lean ====
section
/-! DEFINITION. RESET_REQUEST (R361, R362, R486, R503). -/

namespace Sys2Proof.Machine

/-- The level that a KIND of RESET_REQUEST fits (R362). -/
def kindLevel (kind : Nat) : Nat :=
  if kind = 0 then 1 else if kind ≤ 5 then 2 else kind - 3

/-- The SOURCE value at which a RESET_REQUEST acts, or the answer that refuses its TARGET (R362). -/
def State.resetTarget (s : State) (kind target : Nat) : Nat × Nat ⊕ W32 :=
  let src := BitVec.ofNat 32 target
  if kind = 0 then
    if 262143 < target then .inl (stRange, 4)
    else
      let st := (s.ctx target).state
      if st ≠ .active ∧ st ≠ .halted then .inl (stState, ctxCode st) else .inr src
  else if kind ≤ 5 then
    if srcKind src ≠ kind ∨ ¬ srcValid src then .inl (stRange, 4)
    else
      let u := if kind = 4 ∧ src ∈ s.past.fences then .fenced else s.unitAt src
      if u = .fenced ∨ u = .absent then .inl (stAbsent, 0) else .inr src
  else if kind = 6 then
    if 7 < target then .inl (stRange, 4)
    else if (s.part target).unit ≠ .inService then .inl (stAbsent, 0)
    else .inr (partScope target)
  else if target ≠ 0 then .inl (stRange, 4)
  else .inr (if kind = 7 then computeScope else moduleScope)

/-- A requested rung begun, or joined where a reset in progress covers it at its level or above. -/
def State.beginRequested (s : State) (level : Nat) (src : W32) (r : Request) (back : ReadBacks) : State :=
  match s.sbx.recoveries.find? (fun x => level ≤ x.level ∧ x.covers src) with
  | some x =>
    let joined : Recovery := { x with reqs := x.reqs ++ [r] }
    { s with sbx.recoveries := s.sbx.recoveries.map (fun y => if y = x then joined else y) }
  | none =>
    let t := if level = 5 then s.shutEst true back else s
    t.startRecovery (s.rung level src) src [] [r] []

/-- RESET_REQUEST (R361, R362): a context abort at once; any other rung is answered when its recovery completes, and a
full module reset before it begins. -/
def execResetRequest (ch : Chan) (readBacks : ReadBacks) (s : State) : Host.Outcome State Fault Refusal :=
  .next (s.onRequest ch (opIs 0x0502) { lenOk := lenIs 8, reserved := [(2, 2)] } (fun r t =>
    let level := r.get 0 1
    let kind := r.get 1 1
    if level = 0 ∨ 5 < level then t.reply r stRange 0 []
    else if 8 < kind ∨ kindLevel kind ≠ level then t.reply r stRange 1 []
    else
      match t.resetTarget kind (r.get 4 4) with
      | .inl x => t.reply r x.1 x.2 []
      | .inr src =>
        if level = 1 then (t.haltAll (r.get 4 4) .signalBox).ok r (leBytes 1 1 ++ leBytes 3 0)
        else t.beginRequested level src r readBacks))

end Sys2Proof.Machine
end

