-- ==== Sys2Proof/Machine/Dispatch.lean ====
section
/-! DEFINITION. Each command and its meaning. -/

namespace Sys2Proof.Machine

/-- The effect of a command on everything but the queue. -/
def exec (i : Instr) (s : State) : Host.Outcome State Fault Refusal :=
  match i with
  | .sessionQuery ch => Sys2Proof.Machine.execSessionQuery ch s
  | .sessionResume ch => Sys2Proof.Machine.execSessionResume ch s
  | .sessionAck ch => Sys2Proof.Machine.execSessionAck ch s
  | .identityGet ch => Sys2Proof.Machine.execIdentityGet ch s
  | .capRead ch => Sys2Proof.Machine.execCapRead ch s
  | .contextCreate ch => Sys2Proof.Machine.execContextCreate ch s
  | .contextDestroy ch => Sys2Proof.Machine.execContextDestroy ch s
  | .contextHalt ch => Sys2Proof.Machine.execContextHalt ch s
  | .contextResume ch => Sys2Proof.Machine.execContextResume ch s
  | .contextRead ch => Sys2Proof.Machine.execContextRead ch s
  | .contextSet ch => Sys2Proof.Machine.execContextSet ch s
  | .classWeights ch => Sys2Proof.Machine.execClassWeights ch s
  | .memReserve ch => Sys2Proof.Machine.execMemReserve ch s
  | .memRelease ch => Sys2Proof.Machine.execMemRelease ch s
  | .tokenAlloc ch => Sys2Proof.Machine.execTokenAlloc ch s
  | .tokenList ch => Sys2Proof.Machine.execTokenList ch s
  | .ringBind ch => Sys2Proof.Machine.execRingBind ch s
  | .ringStop ch => Sys2Proof.Machine.execRingStop ch s
  | .ringUnbind ch => Sys2Proof.Machine.execRingUnbind ch s
  | .apertureBind ch => Sys2Proof.Machine.execApertureBind ch s
  | .dropCounters ch => Sys2Proof.Machine.execDropCounters ch s
  | .timetableSet ch => Sys2Proof.Machine.execTimetableSet ch s
  | .powerStatus ch => Sys2Proof.Machine.execPowerStatus ch s
  | .energyRead ch => Sys2Proof.Machine.execEnergyRead ch s
  | .powerStateSet ch tests readBacks => Sys2Proof.Machine.execPowerStateSet ch tests readBacks s
  | .hayloftAnchorWalk ch => Sys2Proof.Machine.execHayloftAnchorWalk ch s
  | .trgSummary ch => Sys2Proof.Machine.execTrgSummary ch s
  | .trgRead ch ecc => Sys2Proof.Machine.execTrgRead ch ecc s
  | .trgAnnotate ch => Sys2Proof.Machine.execTrgAnnotate ch s
  | .trgClear ch cut => Sys2Proof.Machine.execTrgClear ch cut s
  | .faultList ch => Sys2Proof.Machine.execFaultList ch s
  | .faultAck ch => Sys2Proof.Machine.execFaultAck ch s
  | .resetRequest ch readBacks => Sys2Proof.Machine.execResetRequest ch readBacks s
  | .stallRead ch => Sys2Proof.Machine.execStallRead ch s
  | .authChallenge ch => Sys2Proof.Machine.execAuthChallenge ch s
  | .measurementGet ch => Sys2Proof.Machine.execMeasurementGet ch s
  | .attestQuote ch how => Sys2Proof.Machine.execAttestQuote ch how s
  | .pubkeyGet ch => Sys2Proof.Machine.execPubkeyGet ch s
  | .provision ch how => Sys2Proof.Machine.execProvision ch how s
  | .lifecycleSet ch => Sys2Proof.Machine.execLifecycleSet ch s
  | .ownerKeyDestroy ch => Sys2Proof.Machine.execOwnerKeyDestroy ch s
  | .debugUnlock ch => Sys2Proof.Machine.execDebugUnlock ch s
  | .debugLock ch => Sys2Proof.Machine.execDebugLock ch s
  | .railInject ch => Sys2Proof.Machine.execRailInject ch s
  | .sbxInject ch => Sys2Proof.Machine.execSbxInject ch s
  | .fwUpdateBegin ch => Sys2Proof.Machine.execFwUpdateBegin ch s
  | .fwUpdateData ch host => Sys2Proof.Machine.execFwUpdateData ch host s
  | .fwUpdateVerify ch => Sys2Proof.Machine.execFwUpdateVerify ch s
  | .fwUpdateCommit ch how => Sys2Proof.Machine.execFwUpdateCommit ch how s
  | .fwUpdateAbort ch => Sys2Proof.Machine.execFwUpdateAbort ch s
  | .fwUpdateStatus ch => Sys2Proof.Machine.execFwUpdateStatus ch s
  | .fwActivate ch readBacks => Sys2Proof.Machine.execFwActivate ch readBacks s
  | .railNodeSet ch => Sys2Proof.Machine.execRailNodeSet ch s
  | .routeSet ch => Sys2Proof.Machine.execRouteSet ch s
  | .epochSet ch => Sys2Proof.Machine.execEpochSet ch s
  | .peerSet ch => Sys2Proof.Machine.execPeerSet ch s
  | .coupleSet ch => Sys2Proof.Machine.execCoupleSet ch s
  | .coupleStore ch lines => Sys2Proof.Machine.execCoupleStore ch lines s
  | .coupleRestore ch lines => Sys2Proof.Machine.execCoupleRestore ch lines s
  | .collGroupSet ch => Sys2Proof.Machine.execCollGroupSet ch s
  | .railStatus ch => Sys2Proof.Machine.execRailStatus ch s
  | .sidingEnter ch => Sys2Proof.Machine.execSidingEnter ch s
  | .reservedOpcodeRequest ch => Sys2Proof.Machine.execReservedOpcodeRequest ch s
  | .setEndpointId src slave op eid => Sys2Proof.Machine.execSetEndpointId src slave op eid s
  | .getEndpointId src => Sys2Proof.Machine.execGetEndpointId src s
  | .getMctpVersionSupport src msgType => Sys2Proof.Machine.execGetMctpVersionSupport src msgType s
  | .getMessageTypeSupport src => Sys2Proof.Machine.execGetMessageTypeSupport src s
  | .getVendorDefinedMsgSupport src selector => Sys2Proof.Machine.execGetVendorDefinedMsgSupport src selector s
  | .getTid src => Sys2Proof.Machine.execGetTid src s
  | .getPldmVersion src type => Sys2Proof.Machine.execGetPldmVersion src type s
  | .getPldmTypes src => Sys2Proof.Machine.execGetPldmTypes src s
  | .getPldmCommands src type => Sys2Proof.Machine.execGetPldmCommands src type s
  | .queryDeviceIdentifiers src => Sys2Proof.Machine.execQueryDeviceIdentifiers src s
  | .getFirmwareParameters src => Sys2Proof.Machine.execGetFirmwareParameters src s
  | .requestUpdate src => Sys2Proof.Machine.execRequestUpdate src s
  | .passComponentTable src component => Sys2Proof.Machine.execPassComponentTable src component s
  | .updateComponent src component size => Sys2Proof.Machine.execUpdateComponent src component size s
  | .requestFirmwareData src data => Sys2Proof.Machine.execRequestFirmwareData src data s
  | .transferComplete src => Sys2Proof.Machine.execTransferComplete src s
  | .applyComplete src => Sys2Proof.Machine.execApplyComplete src s
  | .activateFirmware src => Sys2Proof.Machine.execActivateFirmware src s
  | .getStatus src => Sys2Proof.Machine.execGetStatus src s
  | .cancelUpdateComponent src => Sys2Proof.Machine.execCancelUpdateComponent src s
  | .cancelUpdate src => Sys2Proof.Machine.execCancelUpdate src s
  | .mctpResendTimeout => Sys2Proof.Machine.execMctpResendTimeout s
  | .mbxInDoorbell tail => Sys2Proof.Machine.execMbxInDoorbell tail s
  | .mailboxRequestReceive => Sys2Proof.Machine.execMailboxRequestReceive s
  | .mbxOutAck ack => Sys2Proof.Machine.execMbxOutAck ack s
  | .mbxOutDoorbell value => Sys2Proof.Machine.execMbxOutDoorbell value s
  | .outboundTicketWrite ch => Sys2Proof.Machine.execOutboundTicketWrite ch s
  | .msixHoldoffExpiry vector => Sys2Proof.Machine.execMsixHoldoffExpiry vector s
  | .msixVectorUnmask vector => Sys2Proof.Machine.execMsixVectorUnmask vector s
  | .rngIrqPend k mask => Sys2Proof.Machine.execRngIrqPend k mask s
  | .rngDoorbell ring value whole => Sys2Proof.Machine.execRngDoorbell ring value whole s
  | .tokSignal token value whole => Sys2Proof.Machine.execTokSignal token value whole s
  | .apertureRead addr len lines => Sys2Proof.Machine.execApertureRead addr len lines s
  | .apertureWrite addr data lines => Sys2Proof.Machine.execApertureWrite addr data lines s
  | .configWrite reg => Sys2Proof.Machine.execConfigWrite reg s
  | .registerWriteOther bar offset data => Sys2Proof.Machine.execRegisterWriteOther bar offset data s
  | .pcieConventionalReset how link => Sys2Proof.Machine.execPcieConventionalReset how link s
  | .wagonFetch ring how => Sys2Proof.Machine.execWagonFetch ring how s
  | .marshallingDispatch unit => Sys2Proof.Machine.execMarshallingDispatch unit s
  | .wagonStart ring index cycle => Sys2Proof.Machine.execWagonStart ring index cycle s
  | .creditReturn unit => Sys2Proof.Machine.execCreditReturn unit s
  | .nop ring index => Sys2Proof.Machine.execNop ring index s
  | .mma ring index ecc slips rebuild => Sys2Proof.Machine.execMma ring index ecc slips rebuild s
  | .ledgerAdd ring index ecc slips rebuild => Sys2Proof.Machine.execLedgerAdd ring index ecc slips rebuild s
  | .readout ring index ecc faults rebuild again => Sys2Proof.Machine.execReadout ring index ecc faults rebuild again s
  | .vector ring index ecc faults again => Sys2Proof.Machine.execVector ring index ecc faults again s
  | .copy ring index errs => Sys2Proof.Machine.execCopy ring index errs s
  | .gather ring index errs => Sys2Proof.Machine.execGather ring index errs s
  | .scatter ring index errs => Sys2Proof.Machine.execScatter ring index errs s
  | .fill ring index errs => Sys2Proof.Machine.execFill ring index errs s
  | .allreduce ring index errs sums => Sys2Proof.Machine.execAllreduce ring index errs sums s
  | .reduce ring index errs sums => Sys2Proof.Machine.execReduce ring index errs sums s
  | .broadcast ring index errs => Sys2Proof.Machine.execBroadcast ring index errs s
  | .tokenWait ring index => Sys2Proof.Machine.execTokenWait ring index s
  | .tokenSignal ring index => Sys2Proof.Machine.execTokenSignal ring index s
  | .tokenSet ring index => Sys2Proof.Machine.execTokenSet ring index s
  | .stepCommit ring index => Sys2Proof.Machine.execStepCommit ring index s
  | .wagonComplete ring index ecc => Sys2Proof.Machine.execWagonComplete ring index ecc s
  | .memoryReadReply part dm tag reply errs => Sys2Proof.Machine.execMemoryReadReply part dm tag reply errs s
  | .tokenWaitTimeout ring index => Sys2Proof.Machine.execTokenWaitTimeout ring index s
  | .collTimeout ring index => Sys2Proof.Machine.execCollTimeout ring index s
  | .mirrorAckTimeout ctx => Sys2Proof.Machine.execMirrorAckTimeout ctx s
  | .mirrorCloseTimeout ctx => Sys2Proof.Machine.execMirrorCloseTimeout ctx s
  | .teardownComplete ctx => Sys2Proof.Machine.execTeardownComplete ctx s
  | .quarantineExpiry ctx => Sys2Proof.Machine.execQuarantineExpiry ctx s
  | .zeroingDone => Sys2Proof.Machine.execZeroingDone s
  | .patrolScrubRead line ecc => Sys2Proof.Machine.execPatrolScrubRead line ecc s
  | .yardScrubRead part word ecc => Sys2Proof.Machine.execYardScrubRead part word ecc s
  | .frameReceive port frame corrected uncorrectable => Sys2Proof.Machine.execFrameReceive port frame corrected uncorrectable s
  | .frameSend port => Sys2Proof.Machine.execFrameSend port s
  | .replayTimeout port => Sys2Proof.Machine.execReplayTimeout port s
  | .trailerTimeout port => Sys2Proof.Machine.execTrailerTimeout port s
  | .trainingDone port => Sys2Proof.Machine.execTrainingDone port s
  | .trainingRetry port => Sys2Proof.Machine.execTrainingRetry port s
  | .quietEnd port => Sys2Proof.Machine.execQuietEnd port s
  | .resendWaitExpiry port => Sys2Proof.Machine.execResendWaitExpiry port s
  | .write port lines => Sys2Proof.Machine.execWrite port lines s
  | .signal port => Sys2Proof.Machine.execSignal port s
  | .doorbell port => Sys2Proof.Machine.execDoorbell port s
  | .mirrorOpen port lines => Sys2Proof.Machine.execMirrorOpen port lines s
  | .mirrorClose port => Sys2Proof.Machine.execMirrorClose port s
  | .mirrorReply port => Sys2Proof.Machine.execMirrorReply port s
  | .collUp port errs sums => Sys2Proof.Machine.execCollUp port errs sums s
  | .collDown port errs => Sys2Proof.Machine.execCollDown port errs s
  | .collAbort port => Sys2Proof.Machine.execCollAbort port s
  | .dack port lines => Sys2Proof.Machine.execDack port lines s
  | .epochNotice port => Sys2Proof.Machine.execEpochNotice port s
  | .signalBoxReport source code ctx info => Sys2Proof.Machine.execSignalBoxReport source code ctx info s
  | .signallingFault source => Sys2Proof.Machine.execSignallingFault source s
  | .pairWalk wrong => Sys2Proof.Machine.execPairWalk wrong s
  | .milepostStall source => Sys2Proof.Machine.execMilepostStall source s
  | .coreWatchdogExpiry core => Sys2Proof.Machine.execCoreWatchdogExpiry core s
  | .moduleWatchdogExpiry => Sys2Proof.Machine.execModuleWatchdogExpiry s
  | .clockMonitorTrip => Sys2Proof.Machine.execClockMonitorTrip s
  | .resetDeadlineMissed level scope => Sys2Proof.Machine.execResetDeadlineMissed level scope s
  | .moduleResetTimerExpiry => Sys2Proof.Machine.execModuleResetTimerExpiry s
  | .unitResetDone source => Sys2Proof.Machine.execUnitResetDone source s
  | .partitionResetDone part test => Sys2Proof.Machine.execPartitionResetDone part test s
  | .computeDomainResetDone tests => Sys2Proof.Machine.execComputeDomainResetDone tests s
  | .eventAutoAck event => Sys2Proof.Machine.execEventAutoAck event s
  | .coastingTimeout unit cycle => Sys2Proof.Machine.execCoastingTimeout unit cycle s
  | .departureSlotGrant cycle => Sys2Proof.Machine.execDepartureSlotGrant cycle s
  | .innerLoopTick m => Sys2Proof.Machine.execInnerLoopTick m s
  | .outerLoopTick => Sys2Proof.Machine.execOuterLoopTick s
  | .overrunFallback => Sys2Proof.Machine.execOverrunFallback s
  | .engineTrialDone onTime => Sys2Proof.Machine.execEngineTrialDone onTime s
  | .ceilingPeriod ceiling m => Sys2Proof.Machine.execCeilingPeriod ceiling m s
  | .computeStepChange => Sys2Proof.Machine.execComputeStepChange s
  | .sustainedBucketUpdate => Sys2Proof.Machine.execSustainedBucketUpdate s
  | .trimRung => Sys2Proof.Machine.execTrimRung s
  | .droopStretch part => Sys2Proof.Machine.execDroopStretch part s
  | .droopRelease cycles fabric => Sys2Proof.Machine.execDroopRelease cycles fabric s
  | .thermalTrip sensor => Sys2Proof.Machine.execThermalTrip sensor s
  | .thermalTripRelease => Sys2Proof.Machine.execThermalTripRelease s
  | .railCurrentLimit rail => Sys2Proof.Machine.execRailCurrentLimit rail s
  | .energySample partMj ran coasting busMj => Sys2Proof.Machine.execEnergySample partMj ran coasting busMj s
  | .cartridgeInsert => Sys2Proof.Machine.execCartridgeInsert s
  | .zeroMeasurementDone m => Sys2Proof.Machine.execZeroMeasurementDone m s
  | .thermistorSample milliC readBacks => Sys2Proof.Machine.execThermistorSample milliC readBacks s
  | .identityPeriodicRead reads readBacks => Sys2Proof.Machine.execIdentityPeriodicRead reads readBacks s
  | .cartridgeHwTrip kind => Sys2Proof.Machine.execCartridgeHwTrip kind s
  | .estimatorSample m => Sys2Proof.Machine.execEstimatorSample m s
  | .fullAnchor readBacks => Sys2Proof.Machine.execFullAnchor readBacks s
  | .learningPauseTimeout => Sys2Proof.Machine.execLearningPauseTimeout s
  | .anchorWalkStart => Sys2Proof.Machine.execAnchorWalkStart s
  | .anchorWalkTimeout => Sys2Proof.Machine.execAnchorWalkTimeout s
  | .recordWriteTimer readBacks => Sys2Proof.Machine.execRecordWriteTimer readBacks s
  | .trgFlush how => Sys2Proof.Machine.execTrgFlush how s
  | .trgPeriodicSample key => Sys2Proof.Machine.execTrgPeriodicSample key s
  | .quoteBudgetRefill identity => Sys2Proof.Machine.execQuoteBudgetRefill identity s
  | .powerGood journalWhole link => Sys2Proof.Machine.execPowerGood journalWhole link s
  | .partitionSelfTestDone part test => Sys2Proof.Machine.execPartitionSelfTestDone part test s
  | .memoryTrainingDone device passed values => Sys2Proof.Machine.execMemoryTrainingDone device passed values s
  | .memoryTestDone badLines badBlocks => Sys2Proof.Machine.execMemoryTestDone badLines badBlocks s
  | .fullModuleResetRelease link => Sys2Proof.Machine.execFullModuleResetRelease link s
  | .inputLoss how readBacks => Sys2Proof.Machine.execInputLoss how readBacks s
  | .holdupEnd => Sys2Proof.Machine.execHoldupEnd s
  | .inputReturn => Sys2Proof.Machine.execInputReturn s
  | .trayResetFall readBacks => Sys2Proof.Machine.execTrayResetFall readBacks s
  | .trayResetRise => Sys2Proof.Machine.execTrayResetRise s
  | .debugPortAccess op => Sys2Proof.Machine.execDebugPortAccess op s
  | .bypass => Sys2Proof.Machine.execBypass s
  | .sample pins => Sys2Proof.Machine.execSample pins s
  | .preload cells => Sys2Proof.Machine.execPreload cells s
  | .extest pins => Sys2Proof.Machine.execExtest pins s
  | .pcieCompletionTimeout part dm tag errs => Sys2Proof.Machine.execPcieCompletionTimeout part dm tag errs s
  | .vendorDefinedMessage packets => Sys2Proof.Machine.execVendorDefinedMessage packets s
  | .perstLRise link => Sys2Proof.Machine.execPerstLRise link s
  | .localSelfTestDone source passed => Sys2Proof.Machine.execLocalSelfTestDone source passed s
  | .vddFabLimitRelease => Sys2Proof.Machine.execVddFabLimitRelease s

end Sys2Proof.Machine
end

