-- ==== Sys2Proof/Laws/State.lean ====
section
/-! SUPPORT. One lemma per field and update: what an update of the state leaves and what it writes. -/

namespace Sys2Proof.Machine

/-! ### State.modCtx -/

@[simp] theorem State.modCtx_pending (s : State) (c : Nat) (f : Context → Context) : (s.modCtx c f).pending = s.pending := rfl
@[simp] theorem State.modCtx_fuses (s : State) (c : Nat) (f : Context → Context) : (s.modCtx c f).fuses = s.fuses := rfl
@[simp] theorem State.modCtx_mram (s : State) (c : Nat) (f : Context → Context) : (s.modCtx c f).mram = s.mram := rfl
@[simp] theorem State.modCtx_parts (s : State) (c : Nat) (f : Context → Context) : (s.modCtx c f).parts = s.parts := rfl
@[simp] theorem State.modCtx_cores (s : State) (c : Nat) (f : Context → Context) : (s.modCtx c f).cores = s.cores := rfl
@[simp] theorem State.modCtx_cap (s : State) (c : Nat) (f : Context → Context) : (s.modCtx c f).cap = s.cap := rfl
@[simp] theorem State.modCtx_ctxs (s : State) (c : Nat) (f : Context → Context) : (s.modCtx c f).ctxs = Table.mod Context.reset c f s.ctxs := rfl
@[simp] theorem State.modCtx_rings (s : State) (c : Nat) (f : Context → Context) : (s.modCtx c f).rings = s.rings := rfl
@[simp] theorem State.modCtx_tokens (s : State) (c : Nat) (f : Context → Context) : (s.modCtx c f).tokens = s.tokens := rfl
@[simp] theorem State.modCtx_marsh (s : State) (c : Nat) (f : Context → Context) : (s.modCtx c f).marsh = s.marsh := rfl
@[simp] theorem State.modCtx_drops (s : State) (c : Nat) (f : Context → Context) : (s.modCtx c f).drops = s.drops := rfl
@[simp] theorem State.modCtx_mem (s : State) (c : Nat) (f : Context → Context) : (s.modCtx c f).mem = s.mem := rfl
@[simp] theorem State.modCtx_yard (s : State) (c : Nat) (f : Context → Context) : (s.modCtx c f).yard = s.yard := rfl
@[simp] theorem State.modCtx_windows (s : State) (c : Nat) (f : Context → Context) : (s.modCtx c f).windows = s.windows := rfl
@[simp] theorem State.modCtx_rails (s : State) (c : Nat) (f : Context → Context) : (s.modCtx c f).rails = s.rails := rfl
@[simp] theorem State.modCtx_book (s : State) (c : Nat) (f : Context → Context) : (s.modCtx c f).book = s.book := rfl
@[simp] theorem State.modCtx_pcie (s : State) (c : Nat) (f : Context → Context) : (s.modCtx c f).pcie = s.pcie := rfl
@[simp] theorem State.modCtx_hay (s : State) (c : Nat) (f : Context → Context) : (s.modCtx c f).hay = s.hay := rfl
@[simp] theorem State.modCtx_power (s : State) (c : Nat) (f : Context → Context) : (s.modCtx c f).power = s.power := rfl
@[simp] theorem State.modCtx_sbx (s : State) (c : Nat) (f : Context → Context) : (s.modCtx c f).sbx = s.sbx := rfl
@[simp] theorem State.modCtx_trg (s : State) (c : Nat) (f : Context → Context) : (s.modCtx c f).trg = s.trg := rfl
@[simp] theorem State.modCtx_sec (s : State) (c : Nat) (f : Context → Context) : (s.modCtx c f).sec = s.sec := rfl
@[simp] theorem State.modCtx_start (s : State) (c : Nat) (f : Context → Context) : (s.modCtx c f).start = s.start := rfl
@[simp] theorem State.modCtx_fresh (s : State) (c : Nat) (f : Context → Context) : (s.modCtx c f).fresh = s.fresh := rfl
@[simp] theorem State.modCtx_out (s : State) (c : Nat) (f : Context → Context) : (s.modCtx c f).out = s.out := rfl

/-! ### State.modRing -/

@[simp] theorem State.modRing_pending (s : State) (r : Nat) (f : Ring → Ring) : (s.modRing r f).pending = s.pending := rfl
@[simp] theorem State.modRing_fuses (s : State) (r : Nat) (f : Ring → Ring) : (s.modRing r f).fuses = s.fuses := rfl
@[simp] theorem State.modRing_mram (s : State) (r : Nat) (f : Ring → Ring) : (s.modRing r f).mram = s.mram := rfl
@[simp] theorem State.modRing_parts (s : State) (r : Nat) (f : Ring → Ring) : (s.modRing r f).parts = s.parts := rfl
@[simp] theorem State.modRing_cores (s : State) (r : Nat) (f : Ring → Ring) : (s.modRing r f).cores = s.cores := rfl
@[simp] theorem State.modRing_cap (s : State) (r : Nat) (f : Ring → Ring) : (s.modRing r f).cap = s.cap := rfl
@[simp] theorem State.modRing_ctxs (s : State) (r : Nat) (f : Ring → Ring) : (s.modRing r f).ctxs = s.ctxs := rfl
@[simp] theorem State.modRing_rings (s : State) (r : Nat) (f : Ring → Ring) : (s.modRing r f).rings = Table.mod Ring.reset r f s.rings := rfl
@[simp] theorem State.modRing_tokens (s : State) (r : Nat) (f : Ring → Ring) : (s.modRing r f).tokens = s.tokens := rfl
@[simp] theorem State.modRing_marsh (s : State) (r : Nat) (f : Ring → Ring) : (s.modRing r f).marsh = s.marsh := rfl
@[simp] theorem State.modRing_drops (s : State) (r : Nat) (f : Ring → Ring) : (s.modRing r f).drops = s.drops := rfl
@[simp] theorem State.modRing_mem (s : State) (r : Nat) (f : Ring → Ring) : (s.modRing r f).mem = s.mem := rfl
@[simp] theorem State.modRing_yard (s : State) (r : Nat) (f : Ring → Ring) : (s.modRing r f).yard = s.yard := rfl
@[simp] theorem State.modRing_windows (s : State) (r : Nat) (f : Ring → Ring) : (s.modRing r f).windows = s.windows := rfl
@[simp] theorem State.modRing_rails (s : State) (r : Nat) (f : Ring → Ring) : (s.modRing r f).rails = s.rails := rfl
@[simp] theorem State.modRing_book (s : State) (r : Nat) (f : Ring → Ring) : (s.modRing r f).book = s.book := rfl
@[simp] theorem State.modRing_pcie (s : State) (r : Nat) (f : Ring → Ring) : (s.modRing r f).pcie = s.pcie := rfl
@[simp] theorem State.modRing_hay (s : State) (r : Nat) (f : Ring → Ring) : (s.modRing r f).hay = s.hay := rfl
@[simp] theorem State.modRing_power (s : State) (r : Nat) (f : Ring → Ring) : (s.modRing r f).power = s.power := rfl
@[simp] theorem State.modRing_sbx (s : State) (r : Nat) (f : Ring → Ring) : (s.modRing r f).sbx = s.sbx := rfl
@[simp] theorem State.modRing_trg (s : State) (r : Nat) (f : Ring → Ring) : (s.modRing r f).trg = s.trg := rfl
@[simp] theorem State.modRing_sec (s : State) (r : Nat) (f : Ring → Ring) : (s.modRing r f).sec = s.sec := rfl
@[simp] theorem State.modRing_start (s : State) (r : Nat) (f : Ring → Ring) : (s.modRing r f).start = s.start := rfl
@[simp] theorem State.modRing_fresh (s : State) (r : Nat) (f : Ring → Ring) : (s.modRing r f).fresh = s.fresh := rfl
@[simp] theorem State.modRing_out (s : State) (r : Nat) (f : Ring → Ring) : (s.modRing r f).out = s.out := rfl

/-! ### State.modToken -/

@[simp] theorem State.modToken_pending (s : State) (n : Nat) (f : Token → Token) : (s.modToken n f).pending = s.pending := rfl
@[simp] theorem State.modToken_fuses (s : State) (n : Nat) (f : Token → Token) : (s.modToken n f).fuses = s.fuses := rfl
@[simp] theorem State.modToken_mram (s : State) (n : Nat) (f : Token → Token) : (s.modToken n f).mram = s.mram := rfl
@[simp] theorem State.modToken_parts (s : State) (n : Nat) (f : Token → Token) : (s.modToken n f).parts = s.parts := rfl
@[simp] theorem State.modToken_cores (s : State) (n : Nat) (f : Token → Token) : (s.modToken n f).cores = s.cores := rfl
@[simp] theorem State.modToken_cap (s : State) (n : Nat) (f : Token → Token) : (s.modToken n f).cap = s.cap := rfl
@[simp] theorem State.modToken_ctxs (s : State) (n : Nat) (f : Token → Token) : (s.modToken n f).ctxs = s.ctxs := rfl
@[simp] theorem State.modToken_rings (s : State) (n : Nat) (f : Token → Token) : (s.modToken n f).rings = s.rings := rfl
@[simp] theorem State.modToken_tokens (s : State) (n : Nat) (f : Token → Token) : (s.modToken n f).tokens = Table.mod Token.reset n f s.tokens := rfl
@[simp] theorem State.modToken_marsh (s : State) (n : Nat) (f : Token → Token) : (s.modToken n f).marsh = s.marsh := rfl
@[simp] theorem State.modToken_drops (s : State) (n : Nat) (f : Token → Token) : (s.modToken n f).drops = s.drops := rfl
@[simp] theorem State.modToken_mem (s : State) (n : Nat) (f : Token → Token) : (s.modToken n f).mem = s.mem := rfl
@[simp] theorem State.modToken_yard (s : State) (n : Nat) (f : Token → Token) : (s.modToken n f).yard = s.yard := rfl
@[simp] theorem State.modToken_windows (s : State) (n : Nat) (f : Token → Token) : (s.modToken n f).windows = s.windows := rfl
@[simp] theorem State.modToken_rails (s : State) (n : Nat) (f : Token → Token) : (s.modToken n f).rails = s.rails := rfl
@[simp] theorem State.modToken_book (s : State) (n : Nat) (f : Token → Token) : (s.modToken n f).book = s.book := rfl
@[simp] theorem State.modToken_pcie (s : State) (n : Nat) (f : Token → Token) : (s.modToken n f).pcie = s.pcie := rfl
@[simp] theorem State.modToken_hay (s : State) (n : Nat) (f : Token → Token) : (s.modToken n f).hay = s.hay := rfl
@[simp] theorem State.modToken_power (s : State) (n : Nat) (f : Token → Token) : (s.modToken n f).power = s.power := rfl
@[simp] theorem State.modToken_sbx (s : State) (n : Nat) (f : Token → Token) : (s.modToken n f).sbx = s.sbx := rfl
@[simp] theorem State.modToken_trg (s : State) (n : Nat) (f : Token → Token) : (s.modToken n f).trg = s.trg := rfl
@[simp] theorem State.modToken_sec (s : State) (n : Nat) (f : Token → Token) : (s.modToken n f).sec = s.sec := rfl
@[simp] theorem State.modToken_start (s : State) (n : Nat) (f : Token → Token) : (s.modToken n f).start = s.start := rfl
@[simp] theorem State.modToken_fresh (s : State) (n : Nat) (f : Token → Token) : (s.modToken n f).fresh = s.fresh := rfl
@[simp] theorem State.modToken_out (s : State) (n : Nat) (f : Token → Token) : (s.modToken n f).out = s.out := rfl

/-! ### State.modPart -/

@[simp] theorem State.modPart_pending (s : State) (p : Nat) (f : Partition → Partition) : (s.modPart p f).pending = s.pending := rfl
@[simp] theorem State.modPart_fuses (s : State) (p : Nat) (f : Partition → Partition) : (s.modPart p f).fuses = s.fuses := rfl
@[simp] theorem State.modPart_mram (s : State) (p : Nat) (f : Partition → Partition) : (s.modPart p f).mram = s.mram := rfl
@[simp] theorem State.modPart_parts (s : State) (p : Nat) (f : Partition → Partition) : (s.modPart p f).parts = setNth s.parts p f := rfl
@[simp] theorem State.modPart_cores (s : State) (p : Nat) (f : Partition → Partition) : (s.modPart p f).cores = s.cores := rfl
@[simp] theorem State.modPart_cap (s : State) (p : Nat) (f : Partition → Partition) : (s.modPart p f).cap = s.cap := rfl
@[simp] theorem State.modPart_ctxs (s : State) (p : Nat) (f : Partition → Partition) : (s.modPart p f).ctxs = s.ctxs := rfl
@[simp] theorem State.modPart_rings (s : State) (p : Nat) (f : Partition → Partition) : (s.modPart p f).rings = s.rings := rfl
@[simp] theorem State.modPart_tokens (s : State) (p : Nat) (f : Partition → Partition) : (s.modPart p f).tokens = s.tokens := rfl
@[simp] theorem State.modPart_marsh (s : State) (p : Nat) (f : Partition → Partition) : (s.modPart p f).marsh = s.marsh := rfl
@[simp] theorem State.modPart_drops (s : State) (p : Nat) (f : Partition → Partition) : (s.modPart p f).drops = s.drops := rfl
@[simp] theorem State.modPart_mem (s : State) (p : Nat) (f : Partition → Partition) : (s.modPart p f).mem = s.mem := rfl
@[simp] theorem State.modPart_yard (s : State) (p : Nat) (f : Partition → Partition) : (s.modPart p f).yard = s.yard := rfl
@[simp] theorem State.modPart_windows (s : State) (p : Nat) (f : Partition → Partition) : (s.modPart p f).windows = s.windows := rfl
@[simp] theorem State.modPart_rails (s : State) (p : Nat) (f : Partition → Partition) : (s.modPart p f).rails = s.rails := rfl
@[simp] theorem State.modPart_book (s : State) (p : Nat) (f : Partition → Partition) : (s.modPart p f).book = s.book := rfl
@[simp] theorem State.modPart_pcie (s : State) (p : Nat) (f : Partition → Partition) : (s.modPart p f).pcie = s.pcie := rfl
@[simp] theorem State.modPart_hay (s : State) (p : Nat) (f : Partition → Partition) : (s.modPart p f).hay = s.hay := rfl
@[simp] theorem State.modPart_power (s : State) (p : Nat) (f : Partition → Partition) : (s.modPart p f).power = s.power := rfl
@[simp] theorem State.modPart_sbx (s : State) (p : Nat) (f : Partition → Partition) : (s.modPart p f).sbx = s.sbx := rfl
@[simp] theorem State.modPart_trg (s : State) (p : Nat) (f : Partition → Partition) : (s.modPart p f).trg = s.trg := rfl
@[simp] theorem State.modPart_sec (s : State) (p : Nat) (f : Partition → Partition) : (s.modPart p f).sec = s.sec := rfl
@[simp] theorem State.modPart_start (s : State) (p : Nat) (f : Partition → Partition) : (s.modPart p f).start = s.start := rfl
@[simp] theorem State.modPart_fresh (s : State) (p : Nat) (f : Partition → Partition) : (s.modPart p f).fresh = s.fresh := rfl
@[simp] theorem State.modPart_out (s : State) (p : Nat) (f : Partition → Partition) : (s.modPart p f).out = s.out := rfl

/-! ### State.modPort -/

@[simp] theorem State.modPort_pending (s : State) (n : Nat) (f : Port → Port) : (s.modPort n f).pending = s.pending := rfl
@[simp] theorem State.modPort_fuses (s : State) (n : Nat) (f : Port → Port) : (s.modPort n f).fuses = s.fuses := rfl
@[simp] theorem State.modPort_mram (s : State) (n : Nat) (f : Port → Port) : (s.modPort n f).mram = s.mram := rfl
@[simp] theorem State.modPort_parts (s : State) (n : Nat) (f : Port → Port) : (s.modPort n f).parts = s.parts := rfl
@[simp] theorem State.modPort_cores (s : State) (n : Nat) (f : Port → Port) : (s.modPort n f).cores = s.cores := rfl
@[simp] theorem State.modPort_cap (s : State) (n : Nat) (f : Port → Port) : (s.modPort n f).cap = s.cap := rfl
@[simp] theorem State.modPort_ctxs (s : State) (n : Nat) (f : Port → Port) : (s.modPort n f).ctxs = s.ctxs := rfl
@[simp] theorem State.modPort_rings (s : State) (n : Nat) (f : Port → Port) : (s.modPort n f).rings = s.rings := rfl
@[simp] theorem State.modPort_tokens (s : State) (n : Nat) (f : Port → Port) : (s.modPort n f).tokens = s.tokens := rfl
@[simp] theorem State.modPort_marsh (s : State) (n : Nat) (f : Port → Port) : (s.modPort n f).marsh = s.marsh := rfl
@[simp] theorem State.modPort_drops (s : State) (n : Nat) (f : Port → Port) : (s.modPort n f).drops = s.drops := rfl
@[simp] theorem State.modPort_mem (s : State) (n : Nat) (f : Port → Port) : (s.modPort n f).mem = s.mem := rfl
@[simp] theorem State.modPort_yard (s : State) (n : Nat) (f : Port → Port) : (s.modPort n f).yard = s.yard := rfl
@[simp] theorem State.modPort_windows (s : State) (n : Nat) (f : Port → Port) : (s.modPort n f).windows = s.windows := rfl
@[simp] theorem State.modPort_rails (s : State) (n : Nat) (f : Port → Port) : (s.modPort n f).rails = { s.rails with ports := setNth s.rails.ports n f } := rfl
@[simp] theorem State.modPort_book (s : State) (n : Nat) (f : Port → Port) : (s.modPort n f).book = s.book := rfl
@[simp] theorem State.modPort_pcie (s : State) (n : Nat) (f : Port → Port) : (s.modPort n f).pcie = s.pcie := rfl
@[simp] theorem State.modPort_hay (s : State) (n : Nat) (f : Port → Port) : (s.modPort n f).hay = s.hay := rfl
@[simp] theorem State.modPort_power (s : State) (n : Nat) (f : Port → Port) : (s.modPort n f).power = s.power := rfl
@[simp] theorem State.modPort_sbx (s : State) (n : Nat) (f : Port → Port) : (s.modPort n f).sbx = s.sbx := rfl
@[simp] theorem State.modPort_trg (s : State) (n : Nat) (f : Port → Port) : (s.modPort n f).trg = s.trg := rfl
@[simp] theorem State.modPort_sec (s : State) (n : Nat) (f : Port → Port) : (s.modPort n f).sec = s.sec := rfl
@[simp] theorem State.modPort_start (s : State) (n : Nat) (f : Port → Port) : (s.modPort n f).start = s.start := rfl
@[simp] theorem State.modPort_fresh (s : State) (n : Nat) (f : Port → Port) : (s.modPort n f).fresh = s.fresh := rfl
@[simp] theorem State.modPort_out (s : State) (n : Nat) (f : Port → Port) : (s.modPort n f).out = s.out := rfl

/-! ### State.modChan -/

@[simp] theorem State.modChan_pending (s : State) (ch : Chan) (f : Channel → Channel) : (s.modChan ch f).pending = s.pending := by cases ch <;> rfl
@[simp] theorem State.modChan_fuses (s : State) (ch : Chan) (f : Channel → Channel) : (s.modChan ch f).fuses = s.fuses := by cases ch <;> rfl
@[simp] theorem State.modChan_mram (s : State) (ch : Chan) (f : Channel → Channel) : (s.modChan ch f).mram = s.mram := by cases ch <;> rfl
@[simp] theorem State.modChan_parts (s : State) (ch : Chan) (f : Channel → Channel) : (s.modChan ch f).parts = s.parts := by cases ch <;> rfl
@[simp] theorem State.modChan_cores (s : State) (ch : Chan) (f : Channel → Channel) : (s.modChan ch f).cores = s.cores := by cases ch <;> rfl
@[simp] theorem State.modChan_cap (s : State) (ch : Chan) (f : Channel → Channel) : (s.modChan ch f).cap = s.cap := by cases ch <;> rfl
@[simp] theorem State.modChan_ctxs (s : State) (ch : Chan) (f : Channel → Channel) : (s.modChan ch f).ctxs = s.ctxs := by cases ch <;> rfl
@[simp] theorem State.modChan_rings (s : State) (ch : Chan) (f : Channel → Channel) : (s.modChan ch f).rings = s.rings := by cases ch <;> rfl
@[simp] theorem State.modChan_tokens (s : State) (ch : Chan) (f : Channel → Channel) : (s.modChan ch f).tokens = s.tokens := by cases ch <;> rfl
@[simp] theorem State.modChan_marsh (s : State) (ch : Chan) (f : Channel → Channel) : (s.modChan ch f).marsh = s.marsh := by cases ch <;> rfl
@[simp] theorem State.modChan_drops (s : State) (ch : Chan) (f : Channel → Channel) : (s.modChan ch f).drops = s.drops := by cases ch <;> rfl
@[simp] theorem State.modChan_mem (s : State) (ch : Chan) (f : Channel → Channel) : (s.modChan ch f).mem = s.mem := by cases ch <;> rfl
@[simp] theorem State.modChan_yard (s : State) (ch : Chan) (f : Channel → Channel) : (s.modChan ch f).yard = s.yard := by cases ch <;> rfl
@[simp] theorem State.modChan_windows (s : State) (ch : Chan) (f : Channel → Channel) : (s.modChan ch f).windows = s.windows := by cases ch <;> rfl
@[simp] theorem State.modChan_rails (s : State) (ch : Chan) (f : Channel → Channel) : (s.modChan ch f).rails = s.rails := by cases ch <;> rfl
@[simp] theorem State.modChan_pcie (s : State) (ch : Chan) (f : Channel → Channel) : (s.modChan ch f).pcie = s.pcie := by cases ch <;> rfl
@[simp] theorem State.modChan_hay (s : State) (ch : Chan) (f : Channel → Channel) : (s.modChan ch f).hay = s.hay := by cases ch <;> rfl
@[simp] theorem State.modChan_power (s : State) (ch : Chan) (f : Channel → Channel) : (s.modChan ch f).power = s.power := by cases ch <;> rfl
@[simp] theorem State.modChan_sbx (s : State) (ch : Chan) (f : Channel → Channel) : (s.modChan ch f).sbx = s.sbx := by cases ch <;> rfl
@[simp] theorem State.modChan_trg (s : State) (ch : Chan) (f : Channel → Channel) : (s.modChan ch f).trg = s.trg := by cases ch <;> rfl
@[simp] theorem State.modChan_sec (s : State) (ch : Chan) (f : Channel → Channel) : (s.modChan ch f).sec = s.sec := by cases ch <;> rfl
@[simp] theorem State.modChan_start (s : State) (ch : Chan) (f : Channel → Channel) : (s.modChan ch f).start = s.start := by cases ch <;> rfl
@[simp] theorem State.modChan_fresh (s : State) (ch : Chan) (f : Channel → Channel) : (s.modChan ch f).fresh = s.fresh := by cases ch <;> rfl
@[simp] theorem State.modChan_out (s : State) (ch : Chan) (f : Channel → Channel) : (s.modChan ch f).out = s.out := by cases ch <;> rfl

/-! ### State.drop -/

@[simp] theorem State.drop_pending (s : State) (f : Drops → Drops) : (s.drop f).pending = s.pending := rfl
@[simp] theorem State.drop_fuses (s : State) (f : Drops → Drops) : (s.drop f).fuses = s.fuses := rfl
@[simp] theorem State.drop_mram (s : State) (f : Drops → Drops) : (s.drop f).mram = s.mram := rfl
@[simp] theorem State.drop_parts (s : State) (f : Drops → Drops) : (s.drop f).parts = s.parts := rfl
@[simp] theorem State.drop_cores (s : State) (f : Drops → Drops) : (s.drop f).cores = s.cores := rfl
@[simp] theorem State.drop_cap (s : State) (f : Drops → Drops) : (s.drop f).cap = s.cap := rfl
@[simp] theorem State.drop_ctxs (s : State) (f : Drops → Drops) : (s.drop f).ctxs = s.ctxs := rfl
@[simp] theorem State.drop_rings (s : State) (f : Drops → Drops) : (s.drop f).rings = s.rings := rfl
@[simp] theorem State.drop_tokens (s : State) (f : Drops → Drops) : (s.drop f).tokens = s.tokens := rfl
@[simp] theorem State.drop_marsh (s : State) (f : Drops → Drops) : (s.drop f).marsh = s.marsh := rfl
@[simp] theorem State.drop_drops (s : State) (f : Drops → Drops) : (s.drop f).drops = f s.drops := rfl
@[simp] theorem State.drop_mem (s : State) (f : Drops → Drops) : (s.drop f).mem = s.mem := rfl
@[simp] theorem State.drop_yard (s : State) (f : Drops → Drops) : (s.drop f).yard = s.yard := rfl
@[simp] theorem State.drop_windows (s : State) (f : Drops → Drops) : (s.drop f).windows = s.windows := rfl
@[simp] theorem State.drop_rails (s : State) (f : Drops → Drops) : (s.drop f).rails = s.rails := rfl
@[simp] theorem State.drop_book (s : State) (f : Drops → Drops) : (s.drop f).book = s.book := rfl
@[simp] theorem State.drop_pcie (s : State) (f : Drops → Drops) : (s.drop f).pcie = s.pcie := rfl
@[simp] theorem State.drop_hay (s : State) (f : Drops → Drops) : (s.drop f).hay = s.hay := rfl
@[simp] theorem State.drop_power (s : State) (f : Drops → Drops) : (s.drop f).power = s.power := rfl
@[simp] theorem State.drop_sbx (s : State) (f : Drops → Drops) : (s.drop f).sbx = s.sbx := rfl
@[simp] theorem State.drop_trg (s : State) (f : Drops → Drops) : (s.drop f).trg = s.trg := rfl
@[simp] theorem State.drop_sec (s : State) (f : Drops → Drops) : (s.drop f).sec = s.sec := rfl
@[simp] theorem State.drop_start (s : State) (f : Drops → Drops) : (s.drop f).start = s.start := rfl
@[simp] theorem State.drop_fresh (s : State) (f : Drops → Drops) : (s.drop f).fresh = s.fresh := rfl
@[simp] theorem State.drop_out (s : State) (f : Drops → Drops) : (s.drop f).out = s.out := rfl

/-! ### State.emit -/

@[simp] theorem State.emit_pending (s : State) (o : Out) : (s.emit o).pending = s.pending := rfl
@[simp] theorem State.emit_fuses (s : State) (o : Out) : (s.emit o).fuses = s.fuses := rfl
@[simp] theorem State.emit_mram (s : State) (o : Out) : (s.emit o).mram = s.mram := rfl
@[simp] theorem State.emit_parts (s : State) (o : Out) : (s.emit o).parts = s.parts := rfl
@[simp] theorem State.emit_cores (s : State) (o : Out) : (s.emit o).cores = s.cores := rfl
@[simp] theorem State.emit_cap (s : State) (o : Out) : (s.emit o).cap = s.cap := rfl
@[simp] theorem State.emit_ctxs (s : State) (o : Out) : (s.emit o).ctxs = s.ctxs := rfl
@[simp] theorem State.emit_rings (s : State) (o : Out) : (s.emit o).rings = s.rings := rfl
@[simp] theorem State.emit_tokens (s : State) (o : Out) : (s.emit o).tokens = s.tokens := rfl
@[simp] theorem State.emit_marsh (s : State) (o : Out) : (s.emit o).marsh = s.marsh := rfl
@[simp] theorem State.emit_drops (s : State) (o : Out) : (s.emit o).drops = s.drops := rfl
@[simp] theorem State.emit_mem (s : State) (o : Out) : (s.emit o).mem = s.mem := rfl
@[simp] theorem State.emit_yard (s : State) (o : Out) : (s.emit o).yard = s.yard := rfl
@[simp] theorem State.emit_windows (s : State) (o : Out) : (s.emit o).windows = s.windows := rfl
@[simp] theorem State.emit_rails (s : State) (o : Out) : (s.emit o).rails = s.rails := rfl
@[simp] theorem State.emit_book (s : State) (o : Out) : (s.emit o).book = s.book := rfl
@[simp] theorem State.emit_pcie (s : State) (o : Out) : (s.emit o).pcie = s.pcie := rfl
@[simp] theorem State.emit_hay (s : State) (o : Out) : (s.emit o).hay = s.hay := rfl
@[simp] theorem State.emit_power (s : State) (o : Out) : (s.emit o).power = s.power := rfl
@[simp] theorem State.emit_sbx (s : State) (o : Out) : (s.emit o).sbx = s.sbx := rfl
@[simp] theorem State.emit_trg (s : State) (o : Out) : (s.emit o).trg = s.trg := rfl
@[simp] theorem State.emit_sec (s : State) (o : Out) : (s.emit o).sec = s.sec := rfl
@[simp] theorem State.emit_start (s : State) (o : Out) : (s.emit o).start = s.start := rfl
@[simp] theorem State.emit_fresh (s : State) (o : Out) : (s.emit o).fresh = s.fresh := rfl
@[simp] theorem State.emit_out (s : State) (o : Out) : (s.emit o).out = s.out ++ [o] := rfl

/-! ### State.take -/

@[simp] theorem State.take_pending (s : State) (n : Nat) : (s.take n).pending = s.pending := rfl
@[simp] theorem State.take_fuses (s : State) (n : Nat) : (s.take n).fuses = s.fuses := rfl
@[simp] theorem State.take_mram (s : State) (n : Nat) : (s.take n).mram = s.mram := rfl
@[simp] theorem State.take_parts (s : State) (n : Nat) : (s.take n).parts = s.parts := rfl
@[simp] theorem State.take_cores (s : State) (n : Nat) : (s.take n).cores = s.cores := rfl
@[simp] theorem State.take_cap (s : State) (n : Nat) : (s.take n).cap = s.cap := rfl
@[simp] theorem State.take_ctxs (s : State) (n : Nat) : (s.take n).ctxs = s.ctxs := rfl
@[simp] theorem State.take_rings (s : State) (n : Nat) : (s.take n).rings = s.rings := rfl
@[simp] theorem State.take_tokens (s : State) (n : Nat) : (s.take n).tokens = s.tokens := rfl
@[simp] theorem State.take_marsh (s : State) (n : Nat) : (s.take n).marsh = s.marsh := rfl
@[simp] theorem State.take_drops (s : State) (n : Nat) : (s.take n).drops = s.drops := rfl
@[simp] theorem State.take_mem (s : State) (n : Nat) : (s.take n).mem = s.mem := rfl
@[simp] theorem State.take_yard (s : State) (n : Nat) : (s.take n).yard = s.yard := rfl
@[simp] theorem State.take_windows (s : State) (n : Nat) : (s.take n).windows = s.windows := rfl
@[simp] theorem State.take_rails (s : State) (n : Nat) : (s.take n).rails = s.rails := rfl
@[simp] theorem State.take_book (s : State) (n : Nat) : (s.take n).book = s.book := rfl
@[simp] theorem State.take_pcie (s : State) (n : Nat) : (s.take n).pcie = s.pcie := rfl
@[simp] theorem State.take_hay (s : State) (n : Nat) : (s.take n).hay = s.hay := rfl
@[simp] theorem State.take_power (s : State) (n : Nat) : (s.take n).power = s.power := rfl
@[simp] theorem State.take_sbx (s : State) (n : Nat) : (s.take n).sbx = s.sbx := rfl
@[simp] theorem State.take_trg (s : State) (n : Nat) : (s.take n).trg = s.trg := rfl
@[simp] theorem State.take_sec (s : State) (n : Nat) : (s.take n).sec = s.sec := rfl
@[simp] theorem State.take_start (s : State) (n : Nat) : (s.take n).start = s.start := rfl
@[simp] theorem State.take_fresh (s : State) (n : Nat) : (s.take n).fresh = s.fresh + n := rfl
@[simp] theorem State.take_out (s : State) (n : Nat) : (s.take n).out = s.out := rfl

/-! ### State.modUnit -/

@[simp] theorem State.modUnit_pending (s : State) (u : UnitRef) (f : Dispatch → Dispatch) : (s.modUnit u f).pending = s.pending := rfl
@[simp] theorem State.modUnit_fuses (s : State) (u : UnitRef) (f : Dispatch → Dispatch) : (s.modUnit u f).fuses = s.fuses := rfl
@[simp] theorem State.modUnit_mram (s : State) (u : UnitRef) (f : Dispatch → Dispatch) : (s.modUnit u f).mram = s.mram := rfl
@[simp] theorem State.modUnit_parts (s : State) (u : UnitRef) (f : Dispatch → Dispatch) : (s.modUnit u f).parts = s.parts := rfl
@[simp] theorem State.modUnit_cores (s : State) (u : UnitRef) (f : Dispatch → Dispatch) : (s.modUnit u f).cores = s.cores := rfl
@[simp] theorem State.modUnit_cap (s : State) (u : UnitRef) (f : Dispatch → Dispatch) : (s.modUnit u f).cap = s.cap := rfl
@[simp] theorem State.modUnit_ctxs (s : State) (u : UnitRef) (f : Dispatch → Dispatch) : (s.modUnit u f).ctxs = s.ctxs := rfl
@[simp] theorem State.modUnit_rings (s : State) (u : UnitRef) (f : Dispatch → Dispatch) : (s.modUnit u f).rings = s.rings := rfl
@[simp] theorem State.modUnit_tokens (s : State) (u : UnitRef) (f : Dispatch → Dispatch) : (s.modUnit u f).tokens = s.tokens := rfl
@[simp] theorem State.modUnit_drops (s : State) (u : UnitRef) (f : Dispatch → Dispatch) : (s.modUnit u f).drops = s.drops := rfl
@[simp] theorem State.modUnit_mem (s : State) (u : UnitRef) (f : Dispatch → Dispatch) : (s.modUnit u f).mem = s.mem := rfl
@[simp] theorem State.modUnit_yard (s : State) (u : UnitRef) (f : Dispatch → Dispatch) : (s.modUnit u f).yard = s.yard := rfl
@[simp] theorem State.modUnit_windows (s : State) (u : UnitRef) (f : Dispatch → Dispatch) : (s.modUnit u f).windows = s.windows := rfl
@[simp] theorem State.modUnit_rails (s : State) (u : UnitRef) (f : Dispatch → Dispatch) : (s.modUnit u f).rails = s.rails := rfl
@[simp] theorem State.modUnit_book (s : State) (u : UnitRef) (f : Dispatch → Dispatch) : (s.modUnit u f).book = s.book := rfl
@[simp] theorem State.modUnit_pcie (s : State) (u : UnitRef) (f : Dispatch → Dispatch) : (s.modUnit u f).pcie = s.pcie := rfl
@[simp] theorem State.modUnit_hay (s : State) (u : UnitRef) (f : Dispatch → Dispatch) : (s.modUnit u f).hay = s.hay := rfl
@[simp] theorem State.modUnit_power (s : State) (u : UnitRef) (f : Dispatch → Dispatch) : (s.modUnit u f).power = s.power := rfl
@[simp] theorem State.modUnit_sbx (s : State) (u : UnitRef) (f : Dispatch → Dispatch) : (s.modUnit u f).sbx = s.sbx := rfl
@[simp] theorem State.modUnit_trg (s : State) (u : UnitRef) (f : Dispatch → Dispatch) : (s.modUnit u f).trg = s.trg := rfl
@[simp] theorem State.modUnit_sec (s : State) (u : UnitRef) (f : Dispatch → Dispatch) : (s.modUnit u f).sec = s.sec := rfl
@[simp] theorem State.modUnit_start (s : State) (u : UnitRef) (f : Dispatch → Dispatch) : (s.modUnit u f).start = s.start := rfl
@[simp] theorem State.modUnit_fresh (s : State) (u : UnitRef) (f : Dispatch → Dispatch) : (s.modUnit u f).fresh = s.fresh := rfl
@[simp] theorem State.modUnit_out (s : State) (u : UnitRef) (f : Dispatch → Dispatch) : (s.modUnit u f).out = s.out := rfl

/-! ### State.modFlight -/

@[simp] theorem State.modFlight_pending (s : State) (ring : Nat) (index : W32) (f : Flight → Flight) : (s.modFlight ring index f).pending = s.pending := rfl
@[simp] theorem State.modFlight_fuses (s : State) (ring : Nat) (index : W32) (f : Flight → Flight) : (s.modFlight ring index f).fuses = s.fuses := rfl
@[simp] theorem State.modFlight_mram (s : State) (ring : Nat) (index : W32) (f : Flight → Flight) : (s.modFlight ring index f).mram = s.mram := rfl
@[simp] theorem State.modFlight_parts (s : State) (ring : Nat) (index : W32) (f : Flight → Flight) : (s.modFlight ring index f).parts = s.parts := rfl
@[simp] theorem State.modFlight_cores (s : State) (ring : Nat) (index : W32) (f : Flight → Flight) : (s.modFlight ring index f).cores = s.cores := rfl
@[simp] theorem State.modFlight_cap (s : State) (ring : Nat) (index : W32) (f : Flight → Flight) : (s.modFlight ring index f).cap = s.cap := rfl
@[simp] theorem State.modFlight_ctxs (s : State) (ring : Nat) (index : W32) (f : Flight → Flight) : (s.modFlight ring index f).ctxs = s.ctxs := rfl
@[simp] theorem State.modFlight_rings (s : State) (ring : Nat) (index : W32) (f : Flight → Flight) : (s.modFlight ring index f).rings = s.rings := rfl
@[simp] theorem State.modFlight_tokens (s : State) (ring : Nat) (index : W32) (f : Flight → Flight) : (s.modFlight ring index f).tokens = s.tokens := rfl
@[simp] theorem State.modFlight_drops (s : State) (ring : Nat) (index : W32) (f : Flight → Flight) : (s.modFlight ring index f).drops = s.drops := rfl
@[simp] theorem State.modFlight_mem (s : State) (ring : Nat) (index : W32) (f : Flight → Flight) : (s.modFlight ring index f).mem = s.mem := rfl
@[simp] theorem State.modFlight_yard (s : State) (ring : Nat) (index : W32) (f : Flight → Flight) : (s.modFlight ring index f).yard = s.yard := rfl
@[simp] theorem State.modFlight_windows (s : State) (ring : Nat) (index : W32) (f : Flight → Flight) : (s.modFlight ring index f).windows = s.windows := rfl
@[simp] theorem State.modFlight_rails (s : State) (ring : Nat) (index : W32) (f : Flight → Flight) : (s.modFlight ring index f).rails = s.rails := rfl
@[simp] theorem State.modFlight_book (s : State) (ring : Nat) (index : W32) (f : Flight → Flight) : (s.modFlight ring index f).book = s.book := rfl
@[simp] theorem State.modFlight_pcie (s : State) (ring : Nat) (index : W32) (f : Flight → Flight) : (s.modFlight ring index f).pcie = s.pcie := rfl
@[simp] theorem State.modFlight_hay (s : State) (ring : Nat) (index : W32) (f : Flight → Flight) : (s.modFlight ring index f).hay = s.hay := rfl
@[simp] theorem State.modFlight_power (s : State) (ring : Nat) (index : W32) (f : Flight → Flight) : (s.modFlight ring index f).power = s.power := rfl
@[simp] theorem State.modFlight_sbx (s : State) (ring : Nat) (index : W32) (f : Flight → Flight) : (s.modFlight ring index f).sbx = s.sbx := rfl
@[simp] theorem State.modFlight_trg (s : State) (ring : Nat) (index : W32) (f : Flight → Flight) : (s.modFlight ring index f).trg = s.trg := rfl
@[simp] theorem State.modFlight_sec (s : State) (ring : Nat) (index : W32) (f : Flight → Flight) : (s.modFlight ring index f).sec = s.sec := rfl
@[simp] theorem State.modFlight_start (s : State) (ring : Nat) (index : W32) (f : Flight → Flight) : (s.modFlight ring index f).start = s.start := rfl
@[simp] theorem State.modFlight_fresh (s : State) (ring : Nat) (index : W32) (f : Flight → Flight) : (s.modFlight ring index f).fresh = s.fresh := rfl
@[simp] theorem State.modFlight_out (s : State) (ring : Nat) (index : W32) (f : Flight → Flight) : (s.modFlight ring index f).out = s.out := rfl

/-! ### State.modEngine -/

@[simp] theorem State.modEngine_pending (s : State) (p e : Nat) (f : MatrixEngine → MatrixEngine) : (s.modEngine p e f).pending = s.pending := rfl
@[simp] theorem State.modEngine_fuses (s : State) (p e : Nat) (f : MatrixEngine → MatrixEngine) : (s.modEngine p e f).fuses = s.fuses := rfl
@[simp] theorem State.modEngine_mram (s : State) (p e : Nat) (f : MatrixEngine → MatrixEngine) : (s.modEngine p e f).mram = s.mram := rfl
@[simp] theorem State.modEngine_cores (s : State) (p e : Nat) (f : MatrixEngine → MatrixEngine) : (s.modEngine p e f).cores = s.cores := rfl
@[simp] theorem State.modEngine_cap (s : State) (p e : Nat) (f : MatrixEngine → MatrixEngine) : (s.modEngine p e f).cap = s.cap := rfl
@[simp] theorem State.modEngine_ctxs (s : State) (p e : Nat) (f : MatrixEngine → MatrixEngine) : (s.modEngine p e f).ctxs = s.ctxs := rfl
@[simp] theorem State.modEngine_rings (s : State) (p e : Nat) (f : MatrixEngine → MatrixEngine) : (s.modEngine p e f).rings = s.rings := rfl
@[simp] theorem State.modEngine_tokens (s : State) (p e : Nat) (f : MatrixEngine → MatrixEngine) : (s.modEngine p e f).tokens = s.tokens := rfl
@[simp] theorem State.modEngine_marsh (s : State) (p e : Nat) (f : MatrixEngine → MatrixEngine) : (s.modEngine p e f).marsh = s.marsh := rfl
@[simp] theorem State.modEngine_drops (s : State) (p e : Nat) (f : MatrixEngine → MatrixEngine) : (s.modEngine p e f).drops = s.drops := rfl
@[simp] theorem State.modEngine_mem (s : State) (p e : Nat) (f : MatrixEngine → MatrixEngine) : (s.modEngine p e f).mem = s.mem := rfl
@[simp] theorem State.modEngine_yard (s : State) (p e : Nat) (f : MatrixEngine → MatrixEngine) : (s.modEngine p e f).yard = s.yard := rfl
@[simp] theorem State.modEngine_windows (s : State) (p e : Nat) (f : MatrixEngine → MatrixEngine) : (s.modEngine p e f).windows = s.windows := rfl
@[simp] theorem State.modEngine_rails (s : State) (p e : Nat) (f : MatrixEngine → MatrixEngine) : (s.modEngine p e f).rails = s.rails := rfl
@[simp] theorem State.modEngine_book (s : State) (p e : Nat) (f : MatrixEngine → MatrixEngine) : (s.modEngine p e f).book = s.book := rfl
@[simp] theorem State.modEngine_pcie (s : State) (p e : Nat) (f : MatrixEngine → MatrixEngine) : (s.modEngine p e f).pcie = s.pcie := rfl
@[simp] theorem State.modEngine_hay (s : State) (p e : Nat) (f : MatrixEngine → MatrixEngine) : (s.modEngine p e f).hay = s.hay := rfl
@[simp] theorem State.modEngine_power (s : State) (p e : Nat) (f : MatrixEngine → MatrixEngine) : (s.modEngine p e f).power = s.power := rfl
@[simp] theorem State.modEngine_sbx (s : State) (p e : Nat) (f : MatrixEngine → MatrixEngine) : (s.modEngine p e f).sbx = s.sbx := rfl
@[simp] theorem State.modEngine_trg (s : State) (p e : Nat) (f : MatrixEngine → MatrixEngine) : (s.modEngine p e f).trg = s.trg := rfl
@[simp] theorem State.modEngine_sec (s : State) (p e : Nat) (f : MatrixEngine → MatrixEngine) : (s.modEngine p e f).sec = s.sec := rfl
@[simp] theorem State.modEngine_start (s : State) (p e : Nat) (f : MatrixEngine → MatrixEngine) : (s.modEngine p e f).start = s.start := rfl
@[simp] theorem State.modEngine_fresh (s : State) (p e : Nat) (f : MatrixEngine → MatrixEngine) : (s.modEngine p e f).fresh = s.fresh := rfl
@[simp] theorem State.modEngine_out (s : State) (p e : Nat) (f : MatrixEngine → MatrixEngine) : (s.modEngine p e f).out = s.out := rfl

/-! ### State.modVec -/

@[simp] theorem State.modVec_pending (s : State) (p : Nat) (f : VectorEngine → VectorEngine) : (s.modVec p f).pending = s.pending := rfl
@[simp] theorem State.modVec_fuses (s : State) (p : Nat) (f : VectorEngine → VectorEngine) : (s.modVec p f).fuses = s.fuses := rfl
@[simp] theorem State.modVec_mram (s : State) (p : Nat) (f : VectorEngine → VectorEngine) : (s.modVec p f).mram = s.mram := rfl
@[simp] theorem State.modVec_cores (s : State) (p : Nat) (f : VectorEngine → VectorEngine) : (s.modVec p f).cores = s.cores := rfl
@[simp] theorem State.modVec_cap (s : State) (p : Nat) (f : VectorEngine → VectorEngine) : (s.modVec p f).cap = s.cap := rfl
@[simp] theorem State.modVec_ctxs (s : State) (p : Nat) (f : VectorEngine → VectorEngine) : (s.modVec p f).ctxs = s.ctxs := rfl
@[simp] theorem State.modVec_rings (s : State) (p : Nat) (f : VectorEngine → VectorEngine) : (s.modVec p f).rings = s.rings := rfl
@[simp] theorem State.modVec_tokens (s : State) (p : Nat) (f : VectorEngine → VectorEngine) : (s.modVec p f).tokens = s.tokens := rfl
@[simp] theorem State.modVec_marsh (s : State) (p : Nat) (f : VectorEngine → VectorEngine) : (s.modVec p f).marsh = s.marsh := rfl
@[simp] theorem State.modVec_drops (s : State) (p : Nat) (f : VectorEngine → VectorEngine) : (s.modVec p f).drops = s.drops := rfl
@[simp] theorem State.modVec_mem (s : State) (p : Nat) (f : VectorEngine → VectorEngine) : (s.modVec p f).mem = s.mem := rfl
@[simp] theorem State.modVec_yard (s : State) (p : Nat) (f : VectorEngine → VectorEngine) : (s.modVec p f).yard = s.yard := rfl
@[simp] theorem State.modVec_windows (s : State) (p : Nat) (f : VectorEngine → VectorEngine) : (s.modVec p f).windows = s.windows := rfl
@[simp] theorem State.modVec_rails (s : State) (p : Nat) (f : VectorEngine → VectorEngine) : (s.modVec p f).rails = s.rails := rfl
@[simp] theorem State.modVec_book (s : State) (p : Nat) (f : VectorEngine → VectorEngine) : (s.modVec p f).book = s.book := rfl
@[simp] theorem State.modVec_pcie (s : State) (p : Nat) (f : VectorEngine → VectorEngine) : (s.modVec p f).pcie = s.pcie := rfl
@[simp] theorem State.modVec_hay (s : State) (p : Nat) (f : VectorEngine → VectorEngine) : (s.modVec p f).hay = s.hay := rfl
@[simp] theorem State.modVec_power (s : State) (p : Nat) (f : VectorEngine → VectorEngine) : (s.modVec p f).power = s.power := rfl
@[simp] theorem State.modVec_sbx (s : State) (p : Nat) (f : VectorEngine → VectorEngine) : (s.modVec p f).sbx = s.sbx := rfl
@[simp] theorem State.modVec_trg (s : State) (p : Nat) (f : VectorEngine → VectorEngine) : (s.modVec p f).trg = s.trg := rfl
@[simp] theorem State.modVec_sec (s : State) (p : Nat) (f : VectorEngine → VectorEngine) : (s.modVec p f).sec = s.sec := rfl
@[simp] theorem State.modVec_start (s : State) (p : Nat) (f : VectorEngine → VectorEngine) : (s.modVec p f).start = s.start := rfl
@[simp] theorem State.modVec_fresh (s : State) (p : Nat) (f : VectorEngine → VectorEngine) : (s.modVec p f).fresh = s.fresh := rfl
@[simp] theorem State.modVec_out (s : State) (p : Nat) (f : VectorEngine → VectorEngine) : (s.modVec p f).out = s.out := rfl

/-! ### State.modMover -/

@[simp] theorem State.modMover_pending (s : State) (p m : Nat) (f : Mover → Mover) : (s.modMover p m f).pending = s.pending := rfl
@[simp] theorem State.modMover_fuses (s : State) (p m : Nat) (f : Mover → Mover) : (s.modMover p m f).fuses = s.fuses := rfl
@[simp] theorem State.modMover_mram (s : State) (p m : Nat) (f : Mover → Mover) : (s.modMover p m f).mram = s.mram := rfl
@[simp] theorem State.modMover_cores (s : State) (p m : Nat) (f : Mover → Mover) : (s.modMover p m f).cores = s.cores := rfl
@[simp] theorem State.modMover_cap (s : State) (p m : Nat) (f : Mover → Mover) : (s.modMover p m f).cap = s.cap := rfl
@[simp] theorem State.modMover_ctxs (s : State) (p m : Nat) (f : Mover → Mover) : (s.modMover p m f).ctxs = s.ctxs := rfl
@[simp] theorem State.modMover_rings (s : State) (p m : Nat) (f : Mover → Mover) : (s.modMover p m f).rings = s.rings := rfl
@[simp] theorem State.modMover_tokens (s : State) (p m : Nat) (f : Mover → Mover) : (s.modMover p m f).tokens = s.tokens := rfl
@[simp] theorem State.modMover_marsh (s : State) (p m : Nat) (f : Mover → Mover) : (s.modMover p m f).marsh = s.marsh := rfl
@[simp] theorem State.modMover_drops (s : State) (p m : Nat) (f : Mover → Mover) : (s.modMover p m f).drops = s.drops := rfl
@[simp] theorem State.modMover_mem (s : State) (p m : Nat) (f : Mover → Mover) : (s.modMover p m f).mem = s.mem := rfl
@[simp] theorem State.modMover_yard (s : State) (p m : Nat) (f : Mover → Mover) : (s.modMover p m f).yard = s.yard := rfl
@[simp] theorem State.modMover_windows (s : State) (p m : Nat) (f : Mover → Mover) : (s.modMover p m f).windows = s.windows := rfl
@[simp] theorem State.modMover_rails (s : State) (p m : Nat) (f : Mover → Mover) : (s.modMover p m f).rails = s.rails := rfl
@[simp] theorem State.modMover_book (s : State) (p m : Nat) (f : Mover → Mover) : (s.modMover p m f).book = s.book := rfl
@[simp] theorem State.modMover_pcie (s : State) (p m : Nat) (f : Mover → Mover) : (s.modMover p m f).pcie = s.pcie := rfl
@[simp] theorem State.modMover_hay (s : State) (p m : Nat) (f : Mover → Mover) : (s.modMover p m f).hay = s.hay := rfl
@[simp] theorem State.modMover_power (s : State) (p m : Nat) (f : Mover → Mover) : (s.modMover p m f).power = s.power := rfl
@[simp] theorem State.modMover_sbx (s : State) (p m : Nat) (f : Mover → Mover) : (s.modMover p m f).sbx = s.sbx := rfl
@[simp] theorem State.modMover_trg (s : State) (p m : Nat) (f : Mover → Mover) : (s.modMover p m f).trg = s.trg := rfl
@[simp] theorem State.modMover_sec (s : State) (p m : Nat) (f : Mover → Mover) : (s.modMover p m f).sec = s.sec := rfl
@[simp] theorem State.modMover_start (s : State) (p m : Nat) (f : Mover → Mover) : (s.modMover p m f).start = s.start := rfl
@[simp] theorem State.modMover_fresh (s : State) (p m : Nat) (f : Mover → Mover) : (s.modMover p m f).fresh = s.fresh := rfl
@[simp] theorem State.modMover_out (s : State) (p m : Nat) (f : Mover → Mover) : (s.modMover p m f).out = s.out := rfl

/-! ### State.modBank -/

@[simp] theorem State.modBank_pending (s : State) (p e b : Nat) (f : Bank → Bank) : (s.modBank p e b f).pending = s.pending := rfl
@[simp] theorem State.modBank_fuses (s : State) (p e b : Nat) (f : Bank → Bank) : (s.modBank p e b f).fuses = s.fuses := rfl
@[simp] theorem State.modBank_mram (s : State) (p e b : Nat) (f : Bank → Bank) : (s.modBank p e b f).mram = s.mram := rfl
@[simp] theorem State.modBank_cores (s : State) (p e b : Nat) (f : Bank → Bank) : (s.modBank p e b f).cores = s.cores := rfl
@[simp] theorem State.modBank_cap (s : State) (p e b : Nat) (f : Bank → Bank) : (s.modBank p e b f).cap = s.cap := rfl
@[simp] theorem State.modBank_ctxs (s : State) (p e b : Nat) (f : Bank → Bank) : (s.modBank p e b f).ctxs = s.ctxs := rfl
@[simp] theorem State.modBank_rings (s : State) (p e b : Nat) (f : Bank → Bank) : (s.modBank p e b f).rings = s.rings := rfl
@[simp] theorem State.modBank_tokens (s : State) (p e b : Nat) (f : Bank → Bank) : (s.modBank p e b f).tokens = s.tokens := rfl
@[simp] theorem State.modBank_marsh (s : State) (p e b : Nat) (f : Bank → Bank) : (s.modBank p e b f).marsh = s.marsh := rfl
@[simp] theorem State.modBank_drops (s : State) (p e b : Nat) (f : Bank → Bank) : (s.modBank p e b f).drops = s.drops := rfl
@[simp] theorem State.modBank_mem (s : State) (p e b : Nat) (f : Bank → Bank) : (s.modBank p e b f).mem = s.mem := rfl
@[simp] theorem State.modBank_yard (s : State) (p e b : Nat) (f : Bank → Bank) : (s.modBank p e b f).yard = s.yard := rfl
@[simp] theorem State.modBank_windows (s : State) (p e b : Nat) (f : Bank → Bank) : (s.modBank p e b f).windows = s.windows := rfl
@[simp] theorem State.modBank_rails (s : State) (p e b : Nat) (f : Bank → Bank) : (s.modBank p e b f).rails = s.rails := rfl
@[simp] theorem State.modBank_book (s : State) (p e b : Nat) (f : Bank → Bank) : (s.modBank p e b f).book = s.book := rfl
@[simp] theorem State.modBank_pcie (s : State) (p e b : Nat) (f : Bank → Bank) : (s.modBank p e b f).pcie = s.pcie := rfl
@[simp] theorem State.modBank_hay (s : State) (p e b : Nat) (f : Bank → Bank) : (s.modBank p e b f).hay = s.hay := rfl
@[simp] theorem State.modBank_power (s : State) (p e b : Nat) (f : Bank → Bank) : (s.modBank p e b f).power = s.power := rfl
@[simp] theorem State.modBank_sbx (s : State) (p e b : Nat) (f : Bank → Bank) : (s.modBank p e b f).sbx = s.sbx := rfl
@[simp] theorem State.modBank_trg (s : State) (p e b : Nat) (f : Bank → Bank) : (s.modBank p e b f).trg = s.trg := rfl
@[simp] theorem State.modBank_sec (s : State) (p e b : Nat) (f : Bank → Bank) : (s.modBank p e b f).sec = s.sec := rfl
@[simp] theorem State.modBank_start (s : State) (p e b : Nat) (f : Bank → Bank) : (s.modBank p e b f).start = s.start := rfl
@[simp] theorem State.modBank_fresh (s : State) (p e b : Nat) (f : Bank → Bank) : (s.modBank p e b f).fresh = s.fresh := rfl
@[simp] theorem State.modBank_out (s : State) (p e b : Nat) (f : Bank → Bank) : (s.modBank p e b f).out = s.out := rfl

/-! ### State.modDevice -/

@[simp] theorem State.modDevice_pending (s : State) (d : Nat) (f : MemDevice → MemDevice) : (s.modDevice d f).pending = s.pending := rfl
@[simp] theorem State.modDevice_fuses (s : State) (d : Nat) (f : MemDevice → MemDevice) : (s.modDevice d f).fuses = s.fuses := rfl
@[simp] theorem State.modDevice_mram (s : State) (d : Nat) (f : MemDevice → MemDevice) : (s.modDevice d f).mram = s.mram := rfl
@[simp] theorem State.modDevice_parts (s : State) (d : Nat) (f : MemDevice → MemDevice) : (s.modDevice d f).parts = s.parts := rfl
@[simp] theorem State.modDevice_cores (s : State) (d : Nat) (f : MemDevice → MemDevice) : (s.modDevice d f).cores = s.cores := rfl
@[simp] theorem State.modDevice_cap (s : State) (d : Nat) (f : MemDevice → MemDevice) : (s.modDevice d f).cap = s.cap := rfl
@[simp] theorem State.modDevice_ctxs (s : State) (d : Nat) (f : MemDevice → MemDevice) : (s.modDevice d f).ctxs = s.ctxs := rfl
@[simp] theorem State.modDevice_rings (s : State) (d : Nat) (f : MemDevice → MemDevice) : (s.modDevice d f).rings = s.rings := rfl
@[simp] theorem State.modDevice_tokens (s : State) (d : Nat) (f : MemDevice → MemDevice) : (s.modDevice d f).tokens = s.tokens := rfl
@[simp] theorem State.modDevice_marsh (s : State) (d : Nat) (f : MemDevice → MemDevice) : (s.modDevice d f).marsh = s.marsh := rfl
@[simp] theorem State.modDevice_drops (s : State) (d : Nat) (f : MemDevice → MemDevice) : (s.modDevice d f).drops = s.drops := rfl
@[simp] theorem State.modDevice_yard (s : State) (d : Nat) (f : MemDevice → MemDevice) : (s.modDevice d f).yard = s.yard := rfl
@[simp] theorem State.modDevice_windows (s : State) (d : Nat) (f : MemDevice → MemDevice) : (s.modDevice d f).windows = s.windows := rfl
@[simp] theorem State.modDevice_rails (s : State) (d : Nat) (f : MemDevice → MemDevice) : (s.modDevice d f).rails = s.rails := rfl
@[simp] theorem State.modDevice_book (s : State) (d : Nat) (f : MemDevice → MemDevice) : (s.modDevice d f).book = s.book := rfl
@[simp] theorem State.modDevice_pcie (s : State) (d : Nat) (f : MemDevice → MemDevice) : (s.modDevice d f).pcie = s.pcie := rfl
@[simp] theorem State.modDevice_hay (s : State) (d : Nat) (f : MemDevice → MemDevice) : (s.modDevice d f).hay = s.hay := rfl
@[simp] theorem State.modDevice_power (s : State) (d : Nat) (f : MemDevice → MemDevice) : (s.modDevice d f).power = s.power := rfl
@[simp] theorem State.modDevice_sbx (s : State) (d : Nat) (f : MemDevice → MemDevice) : (s.modDevice d f).sbx = s.sbx := rfl
@[simp] theorem State.modDevice_trg (s : State) (d : Nat) (f : MemDevice → MemDevice) : (s.modDevice d f).trg = s.trg := rfl
@[simp] theorem State.modDevice_sec (s : State) (d : Nat) (f : MemDevice → MemDevice) : (s.modDevice d f).sec = s.sec := rfl
@[simp] theorem State.modDevice_start (s : State) (d : Nat) (f : MemDevice → MemDevice) : (s.modDevice d f).start = s.start := rfl
@[simp] theorem State.modDevice_fresh (s : State) (d : Nat) (f : MemDevice → MemDevice) : (s.modDevice d f).fresh = s.fresh := rfl
@[simp] theorem State.modDevice_out (s : State) (d : Nat) (f : MemDevice → MemDevice) : (s.modDevice d f).out = s.out := rfl

/-! ### State.modRh -/

@[simp] theorem State.modRh_pending (s : State) (f : Roundhouse → Roundhouse) : (s.modRh f).pending = s.pending := rfl
@[simp] theorem State.modRh_fuses (s : State) (f : Roundhouse → Roundhouse) : (s.modRh f).fuses = s.fuses := rfl
@[simp] theorem State.modRh_mram (s : State) (f : Roundhouse → Roundhouse) : (s.modRh f).mram = s.mram := rfl
@[simp] theorem State.modRh_parts (s : State) (f : Roundhouse → Roundhouse) : (s.modRh f).parts = s.parts := rfl
@[simp] theorem State.modRh_cores (s : State) (f : Roundhouse → Roundhouse) : (s.modRh f).cores = s.cores := rfl
@[simp] theorem State.modRh_cap (s : State) (f : Roundhouse → Roundhouse) : (s.modRh f).cap = s.cap := rfl
@[simp] theorem State.modRh_ctxs (s : State) (f : Roundhouse → Roundhouse) : (s.modRh f).ctxs = s.ctxs := rfl
@[simp] theorem State.modRh_rings (s : State) (f : Roundhouse → Roundhouse) : (s.modRh f).rings = s.rings := rfl
@[simp] theorem State.modRh_tokens (s : State) (f : Roundhouse → Roundhouse) : (s.modRh f).tokens = s.tokens := rfl
@[simp] theorem State.modRh_marsh (s : State) (f : Roundhouse → Roundhouse) : (s.modRh f).marsh = s.marsh := rfl
@[simp] theorem State.modRh_drops (s : State) (f : Roundhouse → Roundhouse) : (s.modRh f).drops = s.drops := rfl
@[simp] theorem State.modRh_mem (s : State) (f : Roundhouse → Roundhouse) : (s.modRh f).mem = s.mem := rfl
@[simp] theorem State.modRh_yard (s : State) (f : Roundhouse → Roundhouse) : (s.modRh f).yard = s.yard := rfl
@[simp] theorem State.modRh_windows (s : State) (f : Roundhouse → Roundhouse) : (s.modRh f).windows = s.windows := rfl
@[simp] theorem State.modRh_rails (s : State) (f : Roundhouse → Roundhouse) : (s.modRh f).rails = s.rails := rfl
@[simp] theorem State.modRh_book (s : State) (f : Roundhouse → Roundhouse) : (s.modRh f).book = s.book := rfl
@[simp] theorem State.modRh_pcie (s : State) (f : Roundhouse → Roundhouse) : (s.modRh f).pcie = s.pcie := rfl
@[simp] theorem State.modRh_hay (s : State) (f : Roundhouse → Roundhouse) : (s.modRh f).hay = s.hay := rfl
@[simp] theorem State.modRh_power (s : State) (f : Roundhouse → Roundhouse) : (s.modRh f).power = s.power := rfl
@[simp] theorem State.modRh_sbx (s : State) (f : Roundhouse → Roundhouse) : (s.modRh f).sbx = s.sbx := rfl
@[simp] theorem State.modRh_trg (s : State) (f : Roundhouse → Roundhouse) : (s.modRh f).trg = s.trg := rfl
@[simp] theorem State.modRh_start (s : State) (f : Roundhouse → Roundhouse) : (s.modRh f).start = s.start := rfl
@[simp] theorem State.modRh_fresh (s : State) (f : Roundhouse → Roundhouse) : (s.modRh f).fresh = s.fresh := rfl
@[simp] theorem State.modRh_out (s : State) (f : Roundhouse → Roundhouse) : (s.modRh f).out = s.out := rfl

/-! ### State.setMeasure -/

@[simp] theorem State.setMeasure_pending (s : State) (i : Nat) (v : List Byte) : (s.setMeasure i v).pending = s.pending := rfl
@[simp] theorem State.setMeasure_fuses (s : State) (i : Nat) (v : List Byte) : (s.setMeasure i v).fuses = s.fuses := rfl
@[simp] theorem State.setMeasure_mram (s : State) (i : Nat) (v : List Byte) : (s.setMeasure i v).mram = s.mram := rfl
@[simp] theorem State.setMeasure_parts (s : State) (i : Nat) (v : List Byte) : (s.setMeasure i v).parts = s.parts := rfl
@[simp] theorem State.setMeasure_cores (s : State) (i : Nat) (v : List Byte) : (s.setMeasure i v).cores = s.cores := rfl
@[simp] theorem State.setMeasure_cap (s : State) (i : Nat) (v : List Byte) : (s.setMeasure i v).cap = s.cap := rfl
@[simp] theorem State.setMeasure_ctxs (s : State) (i : Nat) (v : List Byte) : (s.setMeasure i v).ctxs = s.ctxs := rfl
@[simp] theorem State.setMeasure_rings (s : State) (i : Nat) (v : List Byte) : (s.setMeasure i v).rings = s.rings := rfl
@[simp] theorem State.setMeasure_tokens (s : State) (i : Nat) (v : List Byte) : (s.setMeasure i v).tokens = s.tokens := rfl
@[simp] theorem State.setMeasure_marsh (s : State) (i : Nat) (v : List Byte) : (s.setMeasure i v).marsh = s.marsh := rfl
@[simp] theorem State.setMeasure_drops (s : State) (i : Nat) (v : List Byte) : (s.setMeasure i v).drops = s.drops := rfl
@[simp] theorem State.setMeasure_mem (s : State) (i : Nat) (v : List Byte) : (s.setMeasure i v).mem = s.mem := rfl
@[simp] theorem State.setMeasure_yard (s : State) (i : Nat) (v : List Byte) : (s.setMeasure i v).yard = s.yard := rfl
@[simp] theorem State.setMeasure_windows (s : State) (i : Nat) (v : List Byte) : (s.setMeasure i v).windows = s.windows := rfl
@[simp] theorem State.setMeasure_rails (s : State) (i : Nat) (v : List Byte) : (s.setMeasure i v).rails = s.rails := rfl
@[simp] theorem State.setMeasure_book (s : State) (i : Nat) (v : List Byte) : (s.setMeasure i v).book = s.book := rfl
@[simp] theorem State.setMeasure_pcie (s : State) (i : Nat) (v : List Byte) : (s.setMeasure i v).pcie = s.pcie := rfl
@[simp] theorem State.setMeasure_hay (s : State) (i : Nat) (v : List Byte) : (s.setMeasure i v).hay = s.hay := rfl
@[simp] theorem State.setMeasure_power (s : State) (i : Nat) (v : List Byte) : (s.setMeasure i v).power = s.power := rfl
@[simp] theorem State.setMeasure_sbx (s : State) (i : Nat) (v : List Byte) : (s.setMeasure i v).sbx = s.sbx := rfl
@[simp] theorem State.setMeasure_trg (s : State) (i : Nat) (v : List Byte) : (s.setMeasure i v).trg = s.trg := rfl
@[simp] theorem State.setMeasure_start (s : State) (i : Nat) (v : List Byte) : (s.setMeasure i v).start = s.start := rfl
@[simp] theorem State.setMeasure_fresh (s : State) (i : Nat) (v : List Byte) : (s.setMeasure i v).fresh = s.fresh := rfl
@[simp] theorem State.setMeasure_out (s : State) (i : Nat) (v : List Byte) : (s.setMeasure i v).out = s.out := rfl

/-! ### State.setAccum -/

@[simp] theorem State.setAccum_pending (s : State) (a : Accum) : (s.setAccum a).pending = s.pending := rfl
@[simp] theorem State.setAccum_fuses (s : State) (a : Accum) : (s.setAccum a).fuses = s.fuses := rfl
@[simp] theorem State.setAccum_mram (s : State) (a : Accum) : (s.setAccum a).mram = s.mram := rfl
@[simp] theorem State.setAccum_parts (s : State) (a : Accum) : (s.setAccum a).parts = s.parts := rfl
@[simp] theorem State.setAccum_cores (s : State) (a : Accum) : (s.setAccum a).cores = s.cores := rfl
@[simp] theorem State.setAccum_cap (s : State) (a : Accum) : (s.setAccum a).cap = s.cap := rfl
@[simp] theorem State.setAccum_ctxs (s : State) (a : Accum) : (s.setAccum a).ctxs = s.ctxs := rfl
@[simp] theorem State.setAccum_rings (s : State) (a : Accum) : (s.setAccum a).rings = s.rings := rfl
@[simp] theorem State.setAccum_tokens (s : State) (a : Accum) : (s.setAccum a).tokens = s.tokens := rfl
@[simp] theorem State.setAccum_marsh (s : State) (a : Accum) : (s.setAccum a).marsh = s.marsh := rfl
@[simp] theorem State.setAccum_drops (s : State) (a : Accum) : (s.setAccum a).drops = s.drops := rfl
@[simp] theorem State.setAccum_mem (s : State) (a : Accum) : (s.setAccum a).mem = s.mem := rfl
@[simp] theorem State.setAccum_yard (s : State) (a : Accum) : (s.setAccum a).yard = s.yard := rfl
@[simp] theorem State.setAccum_windows (s : State) (a : Accum) : (s.setAccum a).windows = s.windows := rfl
@[simp] theorem State.setAccum_book (s : State) (a : Accum) : (s.setAccum a).book = s.book := rfl
@[simp] theorem State.setAccum_pcie (s : State) (a : Accum) : (s.setAccum a).pcie = s.pcie := rfl
@[simp] theorem State.setAccum_hay (s : State) (a : Accum) : (s.setAccum a).hay = s.hay := rfl
@[simp] theorem State.setAccum_power (s : State) (a : Accum) : (s.setAccum a).power = s.power := rfl
@[simp] theorem State.setAccum_sbx (s : State) (a : Accum) : (s.setAccum a).sbx = s.sbx := rfl
@[simp] theorem State.setAccum_trg (s : State) (a : Accum) : (s.setAccum a).trg = s.trg := rfl
@[simp] theorem State.setAccum_sec (s : State) (a : Accum) : (s.setAccum a).sec = s.sec := rfl
@[simp] theorem State.setAccum_start (s : State) (a : Accum) : (s.setAccum a).start = s.start := rfl
@[simp] theorem State.setAccum_fresh (s : State) (a : Accum) : (s.setAccum a).fresh = s.fresh := rfl
@[simp] theorem State.setAccum_out (s : State) (a : Accum) : (s.setAccum a).out = s.out := rfl

/-! ### State.freePlace -/

@[simp] theorem State.freePlace_pending (s : State) (u : UnitRef) : (s.freePlace u).pending = s.pending := rfl
@[simp] theorem State.freePlace_fuses (s : State) (u : UnitRef) : (s.freePlace u).fuses = s.fuses := rfl
@[simp] theorem State.freePlace_mram (s : State) (u : UnitRef) : (s.freePlace u).mram = s.mram := rfl
@[simp] theorem State.freePlace_parts (s : State) (u : UnitRef) : (s.freePlace u).parts = s.parts := rfl
@[simp] theorem State.freePlace_cores (s : State) (u : UnitRef) : (s.freePlace u).cores = s.cores := rfl
@[simp] theorem State.freePlace_cap (s : State) (u : UnitRef) : (s.freePlace u).cap = s.cap := rfl
@[simp] theorem State.freePlace_ctxs (s : State) (u : UnitRef) : (s.freePlace u).ctxs = s.ctxs := rfl
@[simp] theorem State.freePlace_rings (s : State) (u : UnitRef) : (s.freePlace u).rings = s.rings := rfl
@[simp] theorem State.freePlace_tokens (s : State) (u : UnitRef) : (s.freePlace u).tokens = s.tokens := rfl
@[simp] theorem State.freePlace_drops (s : State) (u : UnitRef) : (s.freePlace u).drops = s.drops := rfl
@[simp] theorem State.freePlace_mem (s : State) (u : UnitRef) : (s.freePlace u).mem = s.mem := rfl
@[simp] theorem State.freePlace_yard (s : State) (u : UnitRef) : (s.freePlace u).yard = s.yard := rfl
@[simp] theorem State.freePlace_windows (s : State) (u : UnitRef) : (s.freePlace u).windows = s.windows := rfl
@[simp] theorem State.freePlace_rails (s : State) (u : UnitRef) : (s.freePlace u).rails = s.rails := rfl
@[simp] theorem State.freePlace_book (s : State) (u : UnitRef) : (s.freePlace u).book = s.book := rfl
@[simp] theorem State.freePlace_pcie (s : State) (u : UnitRef) : (s.freePlace u).pcie = s.pcie := rfl
@[simp] theorem State.freePlace_hay (s : State) (u : UnitRef) : (s.freePlace u).hay = s.hay := rfl
@[simp] theorem State.freePlace_power (s : State) (u : UnitRef) : (s.freePlace u).power = s.power := rfl
@[simp] theorem State.freePlace_sbx (s : State) (u : UnitRef) : (s.freePlace u).sbx = s.sbx := rfl
@[simp] theorem State.freePlace_trg (s : State) (u : UnitRef) : (s.freePlace u).trg = s.trg := rfl
@[simp] theorem State.freePlace_sec (s : State) (u : UnitRef) : (s.freePlace u).sec = s.sec := rfl
@[simp] theorem State.freePlace_start (s : State) (u : UnitRef) : (s.freePlace u).start = s.start := rfl
@[simp] theorem State.freePlace_fresh (s : State) (u : UnitRef) : (s.freePlace u).fresh = s.fresh := rfl
@[simp] theorem State.freePlace_out (s : State) (u : UnitRef) : (s.freePlace u).out = s.out := rfl

/-! ### State.decide -/

@[simp] theorem State.decide_pending (s : State) (ring : Nat) (index : W32) (status flags : Byte) : (s.decide ring index status flags).pending = s.pending := rfl
@[simp] theorem State.decide_fuses (s : State) (ring : Nat) (index : W32) (status flags : Byte) : (s.decide ring index status flags).fuses = s.fuses := rfl
@[simp] theorem State.decide_mram (s : State) (ring : Nat) (index : W32) (status flags : Byte) : (s.decide ring index status flags).mram = s.mram := rfl
@[simp] theorem State.decide_parts (s : State) (ring : Nat) (index : W32) (status flags : Byte) : (s.decide ring index status flags).parts = s.parts := rfl
@[simp] theorem State.decide_cores (s : State) (ring : Nat) (index : W32) (status flags : Byte) : (s.decide ring index status flags).cores = s.cores := rfl
@[simp] theorem State.decide_cap (s : State) (ring : Nat) (index : W32) (status flags : Byte) : (s.decide ring index status flags).cap = s.cap := rfl
@[simp] theorem State.decide_ctxs (s : State) (ring : Nat) (index : W32) (status flags : Byte) : (s.decide ring index status flags).ctxs = s.ctxs := rfl
@[simp] theorem State.decide_rings (s : State) (ring : Nat) (index : W32) (status flags : Byte) : (s.decide ring index status flags).rings = s.rings := rfl
@[simp] theorem State.decide_tokens (s : State) (ring : Nat) (index : W32) (status flags : Byte) : (s.decide ring index status flags).tokens = s.tokens := rfl
@[simp] theorem State.decide_drops (s : State) (ring : Nat) (index : W32) (status flags : Byte) : (s.decide ring index status flags).drops = s.drops := rfl
@[simp] theorem State.decide_mem (s : State) (ring : Nat) (index : W32) (status flags : Byte) : (s.decide ring index status flags).mem = s.mem := rfl
@[simp] theorem State.decide_yard (s : State) (ring : Nat) (index : W32) (status flags : Byte) : (s.decide ring index status flags).yard = s.yard := rfl
@[simp] theorem State.decide_windows (s : State) (ring : Nat) (index : W32) (status flags : Byte) : (s.decide ring index status flags).windows = s.windows := rfl
@[simp] theorem State.decide_rails (s : State) (ring : Nat) (index : W32) (status flags : Byte) : (s.decide ring index status flags).rails = s.rails := rfl
@[simp] theorem State.decide_book (s : State) (ring : Nat) (index : W32) (status flags : Byte) : (s.decide ring index status flags).book = s.book := rfl
@[simp] theorem State.decide_pcie (s : State) (ring : Nat) (index : W32) (status flags : Byte) : (s.decide ring index status flags).pcie = s.pcie := rfl
@[simp] theorem State.decide_hay (s : State) (ring : Nat) (index : W32) (status flags : Byte) : (s.decide ring index status flags).hay = s.hay := rfl
@[simp] theorem State.decide_power (s : State) (ring : Nat) (index : W32) (status flags : Byte) : (s.decide ring index status flags).power = s.power := rfl
@[simp] theorem State.decide_sbx (s : State) (ring : Nat) (index : W32) (status flags : Byte) : (s.decide ring index status flags).sbx = s.sbx := rfl
@[simp] theorem State.decide_trg (s : State) (ring : Nat) (index : W32) (status flags : Byte) : (s.decide ring index status flags).trg = s.trg := rfl
@[simp] theorem State.decide_sec (s : State) (ring : Nat) (index : W32) (status flags : Byte) : (s.decide ring index status flags).sec = s.sec := rfl
@[simp] theorem State.decide_start (s : State) (ring : Nat) (index : W32) (status flags : Byte) : (s.decide ring index status flags).start = s.start := rfl
@[simp] theorem State.decide_fresh (s : State) (ring : Nat) (index : W32) (status flags : Byte) : (s.decide ring index status flags).fresh = s.fresh := rfl
@[simp] theorem State.decide_out (s : State) (ring : Nat) (index : W32) (status flags : Byte) : (s.decide ring index status flags).out = s.out := rfl

/-! ### State.markInvalid -/

@[simp] theorem State.markInvalid_pending (s : State) (c : Nat) : (s.markInvalid c).pending = s.pending := rfl
@[simp] theorem State.markInvalid_fuses (s : State) (c : Nat) : (s.markInvalid c).fuses = s.fuses := rfl
@[simp] theorem State.markInvalid_mram (s : State) (c : Nat) : (s.markInvalid c).mram = s.mram := rfl
@[simp] theorem State.markInvalid_parts (s : State) (c : Nat) : (s.markInvalid c).parts = s.parts := rfl
@[simp] theorem State.markInvalid_cores (s : State) (c : Nat) : (s.markInvalid c).cores = s.cores := rfl
@[simp] theorem State.markInvalid_cap (s : State) (c : Nat) : (s.markInvalid c).cap = s.cap := rfl
@[simp] theorem State.markInvalid_rings (s : State) (c : Nat) : (s.markInvalid c).rings = s.rings := rfl
@[simp] theorem State.markInvalid_tokens (s : State) (c : Nat) : (s.markInvalid c).tokens = s.tokens := rfl
@[simp] theorem State.markInvalid_marsh (s : State) (c : Nat) : (s.markInvalid c).marsh = s.marsh := rfl
@[simp] theorem State.markInvalid_drops (s : State) (c : Nat) : (s.markInvalid c).drops = s.drops := rfl
@[simp] theorem State.markInvalid_mem (s : State) (c : Nat) : (s.markInvalid c).mem = s.mem := rfl
@[simp] theorem State.markInvalid_yard (s : State) (c : Nat) : (s.markInvalid c).yard = s.yard := rfl
@[simp] theorem State.markInvalid_windows (s : State) (c : Nat) : (s.markInvalid c).windows = s.windows := rfl
@[simp] theorem State.markInvalid_rails (s : State) (c : Nat) : (s.markInvalid c).rails = s.rails := rfl
@[simp] theorem State.markInvalid_book (s : State) (c : Nat) : (s.markInvalid c).book = s.book := rfl
@[simp] theorem State.markInvalid_pcie (s : State) (c : Nat) : (s.markInvalid c).pcie = s.pcie := rfl
@[simp] theorem State.markInvalid_hay (s : State) (c : Nat) : (s.markInvalid c).hay = s.hay := rfl
@[simp] theorem State.markInvalid_power (s : State) (c : Nat) : (s.markInvalid c).power = s.power := rfl
@[simp] theorem State.markInvalid_sbx (s : State) (c : Nat) : (s.markInvalid c).sbx = s.sbx := rfl
@[simp] theorem State.markInvalid_trg (s : State) (c : Nat) : (s.markInvalid c).trg = s.trg := rfl
@[simp] theorem State.markInvalid_sec (s : State) (c : Nat) : (s.markInvalid c).sec = s.sec := rfl
@[simp] theorem State.markInvalid_start (s : State) (c : Nat) : (s.markInvalid c).start = s.start := rfl
@[simp] theorem State.markInvalid_fresh (s : State) (c : Nat) : (s.markInvalid c).fresh = s.fresh := rfl
@[simp] theorem State.markInvalid_out (s : State) (c : Nat) : (s.markInvalid c).out = s.out := rfl

end Sys2Proof.Machine
end

