-- ==== Sys2Proof/Laws/Table.lean ====
section
/-! SUPPORT. Tables and memories: a read after a write, what a write leaves, and the canonical form. -/

namespace Sys2Proof.Machine

variable {α : Type} [DecidableEq α]

omit [DecidableEq α] in
@[simp] theorem Table.get_nil (d : α) (i : Nat) : Table.get d [] i = d := rfl

/-- A write leaves what every other key reads. -/
theorem Table.get_put_other (d v : α) (t : Table α) {i j : Nat} (h : j ≠ i) :
    Table.get d (Table.put d i v t) j = Table.get d t j := by
  induction t with
  | nil => unfold Table.put; split <;> simp [Table.get, h]
  | cons a t ih =>
    obtain ⟨k, w⟩ := a
    unfold Table.put
    split
    · split
      · rfl
      · simp [Table.get, h]
    · split
      · rename_i hk; subst hk
        split <;> simp [Table.get, h]
      · simp only [Table.get]; split
        · rfl
        · exact ih

/-- A value other than the default reads back, in any table. -/
theorem Table.get_put_ne (d v : α) (t : Table α) (i : Nat) (h : v ≠ d) :
    Table.get d (Table.put d i v t) i = v := by
  induction t with
  | nil => simp [Table.put, Table.get, h]
  | cons a t ih =>
    obtain ⟨k, w⟩ := a
    unfold Table.put
    split
    · simp [Table.get]
    · split
      · simp [Table.get]
      · simp only [Table.get]; split
        · omega
        · exact ih

/-- Below the first key of a table in canonical form, every key reads as the default. -/
theorem Table.get_of_wfFrom (d : α) (b : Nat) (t : Table α) (h : Table.wfFrom d (some b) t = true) {i : Nat}
    (hi : i ≤ b) : Table.get d t i = d := by
  induction t generalizing b with
  | nil => rfl
  | cons a t ih =>
    obtain ⟨k, w⟩ := a
    simp only [Table.wfFrom, Bool.and_eq_true, decide_eq_true_eq] at h
    simp only [Table.get]
    split
    · omega
    · exact ih k h.2 (by omega)

theorem Table.wfFrom_none (d : α) (b : Option Nat) (t : Table α) (h : Table.wfFrom d b t = true) :
    Table.wfFrom d none t = true := by
  cases t with
  | nil => rfl
  | cons a t =>
    obtain ⟨k, w⟩ := a
    simp only [Table.wfFrom, Bool.and_eq_true, decide_eq_true_eq] at h ⊢
    exact ⟨⟨trivial, h.1.2⟩, h.2⟩

theorem Table.wfFrom_lower (d : α) (b c : Nat) (t : Table α) (hbc : b ≤ c) (h : Table.wfFrom d (some c) t = true) :
    Table.wfFrom d (some b) t = true := by
  cases t with
  | nil => rfl
  | cons a t =>
    obtain ⟨k, w⟩ := a
    simp only [Table.wfFrom, Bool.and_eq_true, decide_eq_true_eq] at h ⊢
    exact ⟨⟨by omega, h.1.2⟩, h.2⟩

/-- In a table in canonical form, every write reads back. -/
theorem Table.get_put_same (d v : α) (b : Option Nat) (t : Table α) (i : Nat) (h : Table.wfFrom d b t = true) :
    Table.get d (Table.put d i v t) i = v := by
  by_cases hv : v = d
  · subst hv
    induction t generalizing b with
    | nil => simp [Table.put]
    | cons a t ih =>
      obtain ⟨k, w⟩ := a
      have hw := h
      simp only [Table.wfFrom, Bool.and_eq_true, decide_eq_true_eq] at h
      unfold Table.put
      split
      · simp only [if_true, Table.get]; split
        · omega
        · exact Table.get_of_wfFrom v k t h.2 (by omega)
      · split
        · rename_i hk; subst hk
          simp only [if_true]
          exact Table.get_of_wfFrom v i t h.2 (Nat.le_refl _)
        · simp only [Table.get]; split
          · omega
          · exact ih _ h.2
  · exact Table.get_put_ne d v t i hv

/-- The front of a table with a new first entry. -/
theorem Table.wfFrom_cons (d v : α) (b : Option Nat) (t : Table α) (i : Nat) (hb : ∀ n, b = some n → n < i)
    (hv : v ≠ d) (h : Table.wfFrom d (some i) t = true) : Table.wfFrom d b ((i, v) :: t) = true := by
  cases b with
  | none => simp [Table.wfFrom, hv, h]
  | some n => simp [Table.wfFrom, hv, h, hb n rfl]

/-- A write keeps the canonical form, and a lower bound of the keys that lies below the key written. -/
theorem Table.wfFrom_put (d v : α) (b : Option Nat) (t : Table α) (i : Nat) (h : Table.wfFrom d b t = true)
    (hb : ∀ n, b = some n → n < i) : Table.wfFrom d b (Table.put d i v t) = true := by
  induction t generalizing b with
  | nil =>
    unfold Table.put; split
    · rfl
    · exact Table.wfFrom_cons d v b [] i hb ‹_› rfl
  | cons a t ih =>
    obtain ⟨k, w⟩ := a
    have hw := h
    simp only [Table.wfFrom, Bool.and_eq_true, decide_eq_true_eq] at h
    unfold Table.put
    split
    · split
      · exact hw
      · rename_i hk hv
        exact Table.wfFrom_cons d v b _ i hb hv
          (Table.wfFrom_cons d w (some i) t k (by intro n hn; cases hn; exact hk) h.1.2 h.2)
    · split
      · rename_i hk; subst hk
        split
        · cases b with
          | none => exact Table.wfFrom_none d _ t h.2
          | some n => exact Table.wfFrom_lower d n i t (by have := hb n rfl; omega) h.2
        · exact Table.wfFrom_cons d v b t i hb ‹_› h.2
      · simp only [Table.wfFrom, Bool.and_eq_true, decide_eq_true_eq]
        exact ⟨h.1, ih (some k) h.2 (by intro n hn; cases hn; omega)⟩

theorem Table.wf_put (d v : α) (t : Table α) (i : Nat) (h : Table.wf d t = true) :
    Table.wf d (Table.put d i v t) = true :=
  Table.wfFrom_put d v none t i h (by intro n hn; cases hn)

theorem Table.wf_mod (d : α) (t : Table α) (i : Nat) (f : α → α) (h : Table.wf d t = true) :
    Table.wf d (Table.mod d i f t) = true := Table.wf_put d _ t i h

theorem Table.get_mod_other (d : α) (t : Table α) (f : α → α) {i j : Nat} (h : j ≠ i) :
    Table.get d (Table.mod d i f t) j = Table.get d t j := Table.get_put_other d _ t h

theorem Table.get_mod_same (d : α) (t : Table α) (i : Nat) (f : α → α) (h : Table.wf d t = true) :
    Table.get d (Table.mod d i f t) i = f (Table.get d t i) := Table.get_put_same d _ none t i h

theorem Table.get_mod_ne (d : α) (t : Table α) (i : Nat) (f : α → α) (h : f (Table.get d t i) ≠ d) :
    Table.get d (Table.mod d i f t) i = f (Table.get d t i) := Table.get_put_ne d _ t i h

/-- Dropping entries keeps the canonical form. -/
theorem Table.wfFrom_filter (d : α) (p : Nat × α → Bool) (b : Option Nat) (t : Table α)
    (h : Table.wfFrom d b t = true) : Table.wfFrom d b (t.filter p) = true := by
  induction t generalizing b with
  | nil => rfl
  | cons a t ih =>
    obtain ⟨k, w⟩ := a
    have hw := h
    simp only [Table.wfFrom, Bool.and_eq_true, decide_eq_true_eq] at h
    rw [List.filter_cons]
    split
    · simp only [Table.wfFrom, Bool.and_eq_true, decide_eq_true_eq]
      exact ⟨h.1, ih _ h.2⟩
    · refine ih b ?_
      cases b with
      | none => exact Table.wfFrom_none d _ t h.2
      | some n => exact Table.wfFrom_lower d n k t (by have := h.1.1; simp at this; omega) h.2

theorem Table.wf_filter (d : α) (p : Nat × α → Bool) (t : Table α) (h : Table.wf d t = true) :
    Table.wf d (t.filter p) = true := Table.wfFrom_filter d p none t h

/-! ### Memories -/

theorem Bytes.wf_put (m : Bytes) (a : Nat) (b : Byte) (h : Bytes.wf m = true) : Bytes.wf (m.put a b) = true :=
  Table.wf_put _ _ _ _ h

theorem Bytes.wf_write (m : Bytes) (a : Nat) (bs : List Byte) (h : Bytes.wf m = true) :
    Bytes.wf (m.write a bs) = true := by
  induction bs generalizing m a with
  | nil => exact h
  | cons b t ih => exact ih _ _ (Bytes.wf_put m a b h)

theorem Bytes.wf_clear (m : Bytes) (lo hi : Nat) (h : Bytes.wf m = true) : Bytes.wf (m.clear lo hi) = true :=
  Table.wf_filter _ _ _ h

@[simp] theorem Bytes.wf_nil : Bytes.wf [] = true := rfl

theorem Bytes.get_put_same (m : Bytes) (a : Nat) (b : Byte) (h : Bytes.wf m = true) : (m.put a b).get a = b :=
  Table.get_put_same _ _ none _ _ h

theorem Bytes.get_put_other (m : Bytes) (b : Byte) {a c : Nat} (h : c ≠ a) : (m.put a b).get c = m.get c :=
  Table.get_put_other _ _ _ h

/-- A byte outside the stored range reads as before. -/
theorem Bytes.get_write_outside (m : Bytes) (a c : Nat) (bs : List Byte) (h : c < a ∨ a + bs.length ≤ c) :
    (m.write a bs).get c = m.get c := by
  induction bs generalizing m a with
  | nil => rfl
  | cons b t ih =>
    simp only [List.length_cons] at h
    show (Bytes.write (m.put a b) (a + 1) t).get c = _
    rw [ih (m.put a b) (a + 1) (by omega), Bytes.get_put_other m b (by omega)]

/-- A byte of the stored range reads as stored. -/
theorem Bytes.get_write_inside (m : Bytes) (a i : Nat) (bs : List Byte) (h : Bytes.wf m = true)
    (hi : i < bs.length) : (m.write a bs).get (a + i) = bs[i] := by
  induction bs generalizing m a i with
  | nil => simp at hi
  | cons b t ih =>
    show (Bytes.write (m.put a b) (a + 1) t).get (a + i) = _
    cases i with
    | zero =>
      rw [Bytes.get_write_outside _ _ _ _ (by omega)]
      exact Bytes.get_put_same m a b h
    | succ i =>
      have := ih (m.put a b) (a + 1) i (Bytes.wf_put m a b h) (by simpa using hi)
      rw [show a + (i + 1) = a + 1 + i by omega, this]; rfl

theorem Bytes.read_length (m : Bytes) (a n : Nat) : (m.read a n).length = n := by
  induction n generalizing a with
  | zero => rfl
  | succ n ih => simp [Bytes.read, ih]

/-! ### Lists as arrays -/

@[simp] theorem setNth_length {β : Type} (l : List β) (i : Nat) (f : β → β) : (setNth l i f).length = l.length := by
  induction l generalizing i with
  | nil => rfl
  | cons a t ih => cases i <;> simp [setNth, ih]

theorem nth_setNth_other {β : Type} (d : β) (l : List β) (f : β → β) {i j : Nat} (h : j ≠ i) :
    nth d (setNth l i f) j = nth d l j := by
  induction l generalizing i j with
  | nil => rfl
  | cons a t ih =>
    cases i with
    | zero => cases j with
      | zero => exact absurd rfl h
      | succ j => rfl
    | succ i => cases j with
      | zero => rfl
      | succ j => simpa [setNth, nth] using ih (i := i) (j := j) (by omega)

theorem nth_setNth_same {β : Type} (d : β) (l : List β) (f : β → β) {i : Nat} (h : i < l.length) :
    nth d (setNth l i f) i = f (nth d l i) := by
  induction l generalizing i with
  | nil => simp at h
  | cons a t ih =>
    cases i with
    | zero => rfl
    | succ i => simpa [setNth, nth] using ih (i := i) (by simpa using h)

/-! ### Tables of the state -/

theorem State.ctx_modCtx_other (s : State) (f : Context → Context) {c d : Nat} (h : d ≠ c) :
    (s.modCtx c f).ctx d = s.ctx d := Table.get_mod_other _ _ _ h

theorem State.ctx_modCtx_ne (s : State) (c : Nat) (f : Context → Context) (h : f (s.ctx c) ≠ Context.reset) :
    (s.modCtx c f).ctx c = f (s.ctx c) := Table.get_mod_ne _ _ _ _ h

theorem State.ring_modRing_other (s : State) (f : Ring → Ring) {r q : Nat} (h : q ≠ r) :
    (s.modRing r f).ring q = s.ring q := Table.get_mod_other _ _ _ h

theorem State.ring_modRing_ne (s : State) (r : Nat) (f : Ring → Ring) (h : f (s.ring r) ≠ Ring.reset) :
    (s.modRing r f).ring r = f (s.ring r) := Table.get_mod_ne _ _ _ _ h

theorem State.token_modToken_other (s : State) (f : Token → Token) {n m : Nat} (h : m ≠ n) :
    (s.modToken n f).token m = s.token m := Table.get_mod_other _ _ _ h

theorem State.token_modToken_ne (s : State) (n : Nat) (f : Token → Token) (h : f (s.token n) ≠ Token.reset) :
    (s.modToken n f).token n = f (s.token n) := Table.get_mod_ne _ _ _ _ h

theorem State.part_modPart_other (s : State) (f : Partition → Partition) {p q : Nat} (h : q ≠ p) :
    (s.modPart p f).part q = s.part q := nth_setNth_other _ _ _ h

theorem State.part_modPart_same (s : State) (f : Partition → Partition) {p : Nat} (h : p < s.parts.length) :
    (s.modPart p f).part p = f (s.part p) := nth_setNth_same _ _ _ h

theorem State.port_modPort_other (s : State) (f : Port → Port) {n m : Nat} (h : m ≠ n) :
    (s.modPort n f).port m = s.port m := nth_setNth_other _ _ _ h

theorem State.port_modPort_same (s : State) (f : Port → Port) {n : Nat} (h : n < s.rails.ports.length) :
    (s.modPort n f).port n = f (s.port n) := nth_setNth_same _ _ _ h

@[simp] theorem State.chan_modChan_same (s : State) (ch : Chan) (f : Channel → Channel) :
    (s.modChan ch f).chan ch = f (s.chan ch) := by cases ch <;> rfl

theorem State.chan_modChan_other (s : State) (f : Channel → Channel) {ch dh : Chan} (h : dh ≠ ch) :
    (s.modChan ch f).chan dh = s.chan dh := by cases ch <;> cases dh <;> first | rfl | exact absurd rfl h

end Sys2Proof.Machine
end

