-- ==== Sys2Proof/Safety.lean ====
section
/-! DEFINITION. The terms in which claims speak: a request that is its channel's turn, its answer, the ledger's
range, the canonical form of every memory, fuses that only go up. -/

namespace Sys2Proof.Machine

/-! ## Requests -/

/-- It is the turn of request r on a channel (R333, R335, R344): it is the oldest received, `rest` follows it, it
carries the opcode, it framed whole, firmware takes tickets, and neither a request that is running nor one received
before it on the other channel keeps it waiting. It has no authorisation block and no host buffer. -/
structure Asked (s : State) (ch : Chan) (op : Nat) (r : Request) (rest : List Request) : Prop where
  first : (s.chan ch).received = r :: rest
  chan : r.chan = ch
  opcode : r.opcode = op
  firmware : s.book.fwState = 3
  turn : s.mayStart r = true
  whole : r.broken = false
  noBlock : r.auth = false
  noHost : r.hostbuf = false

/-- A request's payload has n bytes, and its reserved bytes, listed as (offset, count), are zero (R16, R350). -/
def Shaped (r : Request) (n : Nat) (reserved : List (Nat × Nat)) : Prop :=
  r.payload.length = n ∧ firstSet r.payload reserved = none

/-- It is the turn of request r, which carries an authorisation block that names a key under a live nonce and keeps its
reserved bytes zero (R330, R558, R559); its signature may verify or not. -/
structure Signed (s : State) (ch : Chan) (op : Nat) (r : Request) (rest : List Request) (key : Nat) : Prop where
  first : (s.chan ch).received = r :: rest
  chan : r.chan = ch
  opcode : r.opcode = op
  firmware : s.book.fwState = 3
  turn : s.mayStart r = true
  whole : r.broken = false
  noHost : r.hostbuf = false
  block : r.auth = true
  room : authBytes ≤ r.payload.length
  plain : firstSet r.block [(33, 3)] = none
  named : getLE r.block 32 1 = key
  live : ∃ n ∈ s.sec.nonces, n.chan = ch ∧ n.value = r.nonce ∧ s.start.us < n.issued + 60000000

/-- The payload before the authorisation block has n bytes, and its reserved bytes are zero. -/
def ShapedBody (r : Request) (n : Nat) (reserved : List (Nat × Nat)) : Prop :=
  r.body.length = n ∧ firstSet r.body reserved = none

/-- The nonce that r presented is live no more (R559). -/
def State.spent (t : State) (r : Request) : Prop := ∀ n ∈ t.sec.nonces, ¬ (n.chan = r.chan ∧ n.value = r.nonce)

/-- A request names context c under its generation, and the context is ACTIVE or HALTED (R607). -/
def Naming (s : State) (r : Request) (c : Nat) : Prop :=
  r.get 0 4 = c ∧ c < 262144 ∧ ((s.ctx c).state = .active ∨ (s.ctx c).state = .halted) ∧
    r.get 4 2 = (s.ctx c).gen.toNat

/-- The module in normal work: neither on hold-up energy nor in standby (R437). -/
def State.working (s : State) : Prop := s.power.state ≠ .holdUp ∧ s.power.state ≠ .standby

/-- The state in which the rules of a request run: the request has moved from the received to the running ones. -/
def State.started (s : State) (ch : Chan) (r : Request) (rest : List Request) : State :=
  s.modChan ch (fun c => { c with received := rest, running := c.running ++ [r] })

/-- The reply to a request (R322, R350). -/
def Request.answer (r : Request) (code detail : Nat) (payload : List Byte) : OutTicket :=
  { opcode := r.opcode, event := false, client := r.client, tag := r.tag, code := code, detail := detail
    payload := payload, answers := some (r.seq, r.parts) }

/-- The reply to r stands last among the tickets that its channel has still to write, and r runs no more. -/
def Answered (t : State) (r : Request) (code detail : Nat) (payload : List Byte) : Prop :=
  (t.chan r.chan).queue.getLast? = some (r.answer code detail payload)

/-- The reply to r stands among the tickets that its channel has still to write. -/
def Replied (t : State) (r : Request) (code detail : Nat) (payload : List Byte) : Prop :=
  r.answer code detail payload ∈ (t.chan r.chan).queue

/-- An event ticket (R322, R339). -/
def eventTicket (op : Nat) (payload : List Byte) : OutTicket :=
  { opcode := op, event := true, client := 0, tag := 0, code := 0, detail := 0, payload := payload }

/-- The event stands among the tickets to be written on both channels (R321). -/
def State.raised (t : State) (op : Nat) (payload : List Byte) : Prop :=
  eventTicket op payload ∈ t.book.pcie.queue ∧ eventTicket op payload ∈ t.book.mctp.queue

/-! ## Wagons -/

/-- The wagon of a ring at an index stands started at a unit that runs, and the compute clock runs (R138, R609). -/
structure Running (s : State) (ring : Nat) (index : W32) (f : Flight) (op : Nat) : Prop where
  there : s.flight ring index = some f
  clock : s.frozen = false
  started : f.stage = .started
  up : s.unitUp f.unit = true
  opcode : wOpcode f.bits = op
  good : badWagon f.bits = false

/-- The completion of the wagon of a ring at an index is decided, with a status. -/
def Decided (t : State) (ring : Nat) (index : W32) (status : Byte) : Prop :=
  ∃ g, t.flight ring index = some g ∧ g.stage = .decided ∧ g.status = status

/-- The completion of the wagon of a ring at an index is decided, with a status and flags (R69). -/
def DecidedWith (t : State) (ring : Nat) (index : W32) (status : Byte) (flags : Flags) : Prop :=
  ∃ g, t.flight ring index = some g ∧ g.stage = .decided ∧ g.status = status ∧ g.flags = flags.byte

/-- Stores of bytes at offsets, no two of which share a byte. -/
def Apart (puts : List (Nat × List Byte)) : Prop :=
  puts.Pairwise (fun a b => a.1 + a.2.length ≤ b.1 ∨ b.1 + b.2.length ≤ a.1)

/-- The Yard of an allotment holds what was stored, and every other byte of the Yard reads as before. -/
def Stored (s t : State) (y : YardWord) (puts : List (Nat × List Byte)) : Prop :=
  (∀ a ∈ puts, t.yardGet y a.1 a.2.length = a.2) ∧
    ∀ k, (∀ a ∈ puts, k < y.key a.1 ∨ y.key a.1 + a.2.length ≤ k) → t.yard.bytes.get k = s.yard.bytes.get k

/-! ## The Signal Box -/

/-- No event of a code's class is open, no reset is in progress, and the log has a place (R483, R487, R503). -/
def State.calm (s : State) (code : Nat) : Prop :=
  (∀ e ∈ s.events, e.cls = codeClass code → e.state = 2) ∧ s.sbx.recoveries = [] ∧ s.sbx.log.length < 1024

/-- An event of a code, a source, a level and the level taken joined the log under the next id (R482, R483); one that
takes no level is acknowledged at once. -/
def Logged (s t : State) (code : Nat) (src : W32) (level taken : Nat) : Prop :=
  ∃ e, t.sbx.log = s.sbx.log ++ [e] ∧ e.id = s.sbx.nextId ∧ e.code = code ∧ e.source = src ∧ e.level = level ∧
    e.taken = taken ∧ e.state = (if taken = 0 then 2 else 0) ∧ t.sbx.nextId = s.sbx.nextId + 1

/-- The one reset in progress is of a level and a scope, for the event logged next. -/
def Begun (s t : State) (level : Nat) (scope : W32) (fence : List W32) : Prop :=
  t.sbx.recoveries = [{ level := level, scope := scope, events := [s.sbx.nextId], reqs := [], fence := fence }]

/-- A self-test that found nothing wrong. -/
def cleanTest : SelfTest := { engines := [], vector := false, movers := [], yard := false }

/-! ## The reservoir -/

/-- A write of the learned-value record that reads back as written (R431). -/
def written : ReadBacks := { first := none, second := none }

/-- The learned-value record can be written, and its sequence number has room for one more (R428, R431, R601). -/
def State.mayRecord (s : State) : Prop :=
  s.power.state ≠ .holdUp ∧
    ∀ n, estSeq s.mram.est0 = some n ∨ estSeq s.mram.est1 = some n → n + 1 < 2 ^ 64

/-! ## Memory and packets -/

/-- n bytes from a virtual address of a context map to consecutive bytes of module memory from pa on, writable where
`w`, none of them in a line left uncorrectable, and module memory has its canonical form. -/
def MapsTo (s : State) (c : Nat) (w : Bool) (va n pa : Nat) : Prop :=
  (∀ i < n, (s.ctx c).translate w (va + i) = some (pa + i)) ∧
    (∀ l ∈ s.mem.damaged, l * 64 + 64 ≤ pa ∨ pa + n ≤ l * 64) ∧ s.mem.bytes.wf = true

/-- The memory of t holds bytes from an address on, and every other byte reads as in s. -/
def Wrote (s t : State) (pa : Nat) (bs : List Byte) : Prop :=
  ∀ a, t.mem.bytes.get a = if pa ≤ a ∧ a < pa + bs.length then nth 0 bs (a - pa) else s.mem.bytes.get a

/-- The oldest packet of a lane of a port is x, of a kind, for this module and a live context that lets its sender act
(R157, R158, R294, R299). -/
def Arrived (s : State) (port kind vl : Nat) (x : Packet) : Prop :=
  (s.port port).front kind = some (vl, x) ∧ x.dst = s.rails.node ∧ s.packetRefusal x = none

/-- The oldest packet of a lane of a port is x, a reply of a kind for this module (R290, R294). -/
def ReplyArrived (s : State) (port kind vl : Nat) (x : Packet) : Prop :=
  (s.port port).front kind = some (vl, x) ∧ x.dst = s.rails.node ∧ s.computeReset = false ∧ x.isCut = false ∧
    lengthOk x = true

/-- A packet was sent on: it took a port of its route that is UP, or it waits for one to hold a credit (R297). -/
def Sent (s t : State) (o : OutPacket) : Prop :=
  (t.rails.out = s.rails.out ++ [o] ∧ t.rails.waiting = s.rails.waiting ∧ o.port ∈ s.route o.packet.dst) ∨
    (t.rails.out = s.rails.out ∧ t.rails.waiting = s.rails.waiting ++ [o])

/-! ## What a command leaves -/

/-- Nothing but the Booking Office, the recorder and what was sent out differs. -/
def OnlyBook (s t : State) : Prop := t = { s with book := t.book, trg := t.trg, out := t.out }

/-! ## What a run keeps -/

/-- A ledger integer lies in its 160-bit range (R63). -/
def Ledger.inRange (g : Ledger) : Prop := -(2 : Int) ^ 159 ≤ g.l ∧ g.l ≤ (2 : Int) ^ 159 - 1

/-- Every memory keeps its canonical form: module memory, the save area, the Yard, both windows of the Booking
Office, the configuration bytes, the NOR, and what the debug port wrote to control SRAM and MRAM. -/
def State.memoryOk (s : State) : Prop :=
  s.mem.bytes.wf = true ∧ s.mem.saveArea.wf = true ∧ s.yard.bytes.wf = true ∧ s.book.inWin.wf = true ∧
    s.book.outWin.wf = true ∧ s.pcie.config.wf = true ∧ Table.wf (0xFF : Byte) s.sec.nor = true ∧ Table.wf none s.sec.sram = true ∧
    Table.wf none s.mram.cells = true

/-- The descriptor stands still between steps: CHANGE_COUNT is even (R54). -/
def State.capStill (s : State) : Prop := s.cap.changeCount.toNat % 2 = 0

/-- Fuse bits that were written stay written (R539): no bit of the array goes back to 0. -/
def Fuses.grewFrom (f g : Fuses) : Prop :=
  g.lifecycle &&& f.lifecycle = g.lifecycle ∧ (g.ownerDestroyed = true → f.ownerDestroyed = true) ∧
    g.svn ≤ f.svn ∧ f.part = g.part

end Sys2Proof.Machine
end

