-- ==== Sys2Proof/Laws/Requests.lean ====
section
/-! SUPPORT. What the shared path of every request does: the turn, the checks, the reply. -/

namespace Sys2Proof.Machine

/-- A recording changes the recorder alone. -/
theorem State.note_eq (s : State) (code : Nat) (src : W32) (r : Recorded) :
    ∃ g, s.note code src r = { s with trg := g } := by
  unfold State.note
  split
  · exact ⟨s.trg, rfl⟩
  · split
    · split <;> exact ⟨_, rfl⟩
    · split <;> exact ⟨_, rfl⟩

theorem State.noteFirst_eq (s : State) (e : Event) : ∃ g, s.noteFirst e = { s with trg := g } := by
  unfold State.noteFirst
  split
  · exact ⟨s.trg, rfl⟩
  · split
    · exact ⟨s.trg, rfl⟩
    · exact ⟨_, rfl⟩

theorem State.noteRequest_eq (s : State) (r : Request) (code : Nat) :
    ∃ g, s.noteRequest r code = { s with trg := g } := by
  unfold State.noteRequest
  split
  · exact s.note_eq _ _ _
  · exact ⟨s.trg, rfl⟩

/-- A report changes the Signal Box alone. -/
theorem State.report_eq (s : State) (src : W32) (code : Nat) (ctx : Option (Nat × W16)) (info : W32) :
    ∃ g, s.report src code ctx info = { s with sbx := g } := by
  unfold State.report
  split
  · exact ⟨s.sbx, rfl⟩
  · exact ⟨_, rfl⟩

/-- An event changes the Booking Office alone. -/
theorem State.event_eq (s : State) (op : Nat) (payload : List Byte) :
    ∃ b, s.event op payload = { s with book := b } := by
  unfold State.event
  split
  · exact ⟨s.book, rfl⟩
  · exact ⟨_, rfl⟩

/-- What a reply writes: the recorder, and in the request's channel the running requests and the queue. -/
theorem State.reply_eq (s : State) (r : Request) (code detail : Nat) (payload : List Byte) :
    ∃ g, s.reply r code detail payload = ({ s with trg := g }).modChan r.chan (fun c =>
      { c with running := c.running.erase r
               queue := c.queue ++ [r.answer code detail (if code = stOk ∨ code = stShort then payload else [])] }) := by
  obtain ⟨g, h⟩ := s.noteRequest_eq r code
  exact ⟨g, by unfold State.reply; rw [h]; rfl⟩

/-- A reply is the last ticket of its channel's queue. -/
theorem State.reply_answered (s : State) (r : Request) (code detail : Nat) (payload : List Byte) :
    Answered (s.reply r code detail payload) r code detail
      (if code = stOk ∨ code = stShort then payload else []) := by
  obtain ⟨g, h⟩ := s.reply_eq r code detail payload
  simp [Answered, h]

theorem State.ok_answered (s : State) (r : Request) (payload : List Byte) :
    Answered (s.ok r payload) r stOk 0 payload := by
  simpa [State.ok] using s.reply_answered r stOk 0 payload

theorem State.takeReq_asked {s : State} {ch : Chan} {op : Nat} {r : Request} {rest : List Request} {p : Nat → Bool}
    (h : Asked s ch op r rest) (hp : p op = true) : s.takeReq ch p = some (r, s.started ch r rest) := by
  unfold State.takeReq
  simp only [h.first]
  rw [if_pos ⟨h.firmware, by rw [h.opcode]; exact hp, h.turn⟩]
  rfl

theorem State.presentNonce_plain {s : State} {r : Request} (h : r.auth = false) : s.presentNonce r = (false, s) := by
  simp [State.presentNonce, h]

/-- The turn of a request that no check refuses: its own rules run. -/
theorem State.onRequest_asked {s : State} {ch : Chan} {op : Nat} {r : Request} {rest : List Request}
    {p : Nat → Bool} {rule : Rule} {act : Request → State → State} (h : Asked s ch op r rest) (hp : p op = true)
    (hr : (s.started ch r rest).refusal r rule false = none) :
    s.onRequest ch p rule act = act r (s.started ch r rest) := by
  unfold State.onRequest
  rw [State.takeReq_asked h hp]
  simp only [State.presentNonce_plain h.noBlock, hr]

/-- The turn of a request that a check refuses: its reply, and nothing else. -/
theorem State.onRequest_refused {s : State} {ch : Chan} {op : Nat} {r : Request} {rest : List Request}
    {p : Nat → Bool} {rule : Rule} {act : Request → State → State} {code detail : Nat} (h : Asked s ch op r rest)
    (hp : p op = true) (hr : (s.started ch r rest).refusal r rule false = some (code, detail)) :
    s.onRequest ch p rule act = (s.started ch r rest).reply r code detail [] := by
  unfold State.onRequest
  rw [State.takeReq_asked h hp]
  simp only [State.presentNonce_plain h.noBlock, hr]

theorem Shaped.lenOk {r : Request} {n : Nat} {l : List (Nat × Nat)} (h : Shaped r n l) :
    lenIs n r.payload = true := by simp [lenIs, h.1]

/-- When no check refuses a request without an authorisation block. -/
theorem State.refusal_none {s : State} {r : Request} {rule : Rule} (hb : r.broken = false) (ha : r.auth = false)
    (hh : r.hostbuf = false) (hp : s.power.state = .holdUp → rule.holdup = true)
    (hl : s.power.state ≠ .holdUp →
      letterAllows s.fuses.life s.sec.level (s.power.state = .standby) rule.letter = true)
    (hn : rule.authNeed s r = false) (hlen : rule.lenOk r.payload = true)
    (hres : firstSet r.payload rule.reserved = none) (hc : rule.ctx = true → s.ctxRefusal r = none) :
    s.refusal r rule false = none := by
  have hbody : r.body = r.payload := by simp [Request.body, ha]
  unfold State.refusal
  rw [hbody]
  simp only [hb, ha, hh, hn, hlen, hres, Bool.false_eq_true, if_false, false_and, not_true_eq_false]
  by_cases hu : s.power.state = .holdUp
  · simp only [hu, hp hu]
    by_cases hcc : rule.ctx = true <;> simp [hcc, hc]
  · simp only [hu, hl hu]
    by_cases hcc : rule.ctx = true <;> simp [hcc, hc]

@[simp] theorem State.started_power (s : State) (ch : Chan) (r : Request) (rest : List Request) :
    (s.started ch r rest).power = s.power := State.modChan_power ..
@[simp] theorem State.started_fuses (s : State) (ch : Chan) (r : Request) (rest : List Request) :
    (s.started ch r rest).fuses = s.fuses := State.modChan_fuses ..
@[simp] theorem State.started_sec (s : State) (ch : Chan) (r : Request) (rest : List Request) :
    (s.started ch r rest).sec = s.sec := State.modChan_sec ..
@[simp] theorem State.started_ctxs (s : State) (ch : Chan) (r : Request) (rest : List Request) :
    (s.started ch r rest).ctxs = s.ctxs := State.modChan_ctxs ..
@[simp] theorem State.started_ctx (s : State) (ch : Chan) (r : Request) (rest : List Request) (c : Nat) :
    (s.started ch r rest).ctx c = s.ctx c := by simp [State.ctx]
@[simp] theorem State.started_chan (s : State) (ch : Chan) (r : Request) (rest : List Request) :
    (s.started ch r rest).chan ch = { s.chan ch with received := rest, running := (s.chan ch).running ++ [r] } :=
  State.chan_modChan_same ..

/-! ### What differs is the Booking Office, the recorder and what was sent out -/

theorem OnlyBook.refl (s : State) : OnlyBook s s := rfl

theorem OnlyBook.trans {s t u : State} (h : OnlyBook s t) (k : OnlyBook t u) : OnlyBook s u := by
  unfold OnlyBook at *
  rw [k, h]

theorem State.started_only (s : State) (ch : Chan) (r : Request) (rest : List Request) :
    OnlyBook s (s.started ch r rest) := by cases ch <;> rfl

theorem State.modChan_only (s : State) (ch : Chan) (f : Channel → Channel) : OnlyBook s (s.modChan ch f) := by
  cases ch <;> rfl

theorem State.event_only (s : State) (op : Nat) (payload : List Byte) : OnlyBook s (s.event op payload) := by
  obtain ⟨b, h⟩ := s.event_eq op payload
  rw [h]; rfl

theorem State.reply_only (s : State) (r : Request) (code detail : Nat) (payload : List Byte) :
    OnlyBook s (s.reply r code detail payload) := by
  obtain ⟨g, h⟩ := s.reply_eq r code detail payload
  rw [h]
  exact OnlyBook.trans (t := { s with trg := g }) rfl (State.modChan_only ..)

theorem State.ok_only (s : State) (r : Request) (payload : List Byte) : OnlyBook s (s.ok r payload) :=
  s.reply_only r stOk 0 payload

theorem State.putTicket_only (s : State) (ch : Chan) (t : SentTicket) : OnlyBook s (s.putTicket ch t) := by
  unfold State.putTicket
  cases ch
  · rfl
  · dsimp only; split <;> rfl

end Sys2Proof.Machine
end

