-- ==== Sys2Proof/Certificates/Slice0/Obligations.lean ====
section
/-! DEFINITION. The statements about the model, one Prop each, for the provers. -/

open Sys2Proof Sys2Proof.Machine

/-! ## Class 0x01: sessions, identity, the descriptor -/

/-- R347, R351: SESSION_QUERY with an empty payload answers IN_SEQ, OUT_SEQ, OUT_ACK, SESSION and the number of
requests received and not yet replied; on PCIe in the queue. On MCTP it is accepted whatever its SEQ and ACK, no
sequence moves, and its reply, OK or not, goes out with SEQ 0xFFFF_FFFF and is not held. R338, R348: SESSION_RESUME
whose ACK lies from OUT_ACK to OUT_SEQ - 1 makes it OUT_ACK, marks every ticket after it REPLAYED and answers its
first sequence number and their count; R322: SESSION_ACK takes its ACK the same way and has no reply. -/
def Obligations.SessionRequests : Prop :=
  (∀ (s : State) (r : Request) (rest : List Request) (ch : Chan), Asked s ch 0x0100 r rest → Shaped r 0 [] →
    let c := s.chan ch
    let body := leBytes 4 c.inSeq.toNat ++ leBytes 4 c.outSeq.toNat ++ leBytes 4 c.outAck.toNat
      ++ leBytes 4 s.book.session.toNat ++ leBytes 4 (rest.length + c.running.length)
    ∃ t, exec (.sessionQuery ch) s = .next t ∧ OnlyBook s t ∧
      (ch = .pcie → Answered t r stOk 0 body) ∧
      (ch = .mctp → ∀ dst, s.book.peer = some dst →
        t.out = s.out ++ [.mctp dst (s.blockWrites dst (ticketMessage
          (SentTicket.bytes { seq := 0xFFFFFFFF, more := false, replayed := false, ticket := r.answer stOk 0 body }
            c.ackOut)))] ∧ (t.chan .mctp).outSeq = c.outSeq ∧ (t.chan .mctp).sent = c.sent)) ∧
  (∀ (s : State) (r : Request) (rest : List Request) (ch : Chan), (s.chan ch).ackInRange r.ack = true →
    (Asked s ch 0x0101 r rest → Shaped r 0 [] →
      let u := { s.chan ch with outAck := r.ack }.unacked
      ∃ t, exec (.sessionResume ch) s = .next t ∧ OnlyBook s t ∧ (t.chan ch).outAck = r.ack ∧
        (t.chan ch).outSeq = (s.chan ch).outSeq ∧
        (t.chan ch).sent = (s.chan ch).sent.map (fun x => if x ∈ u then { x with replayed := true } else x) ∧
        Answered t r stOk 0 (leBytes 4 (r.ack + 1).toNat ++ leBytes 4 u.length ++ leBytes 4 s.book.session.toNat
          ++ leBytes 4 (rest.length + (s.chan ch).running.length))) ∧
    (Asked s ch 0x0102 r rest →
      ∃ t, exec (.sessionAck ch) s = .next t ∧ OnlyBook s t ∧ t.trg = s.trg ∧ t.out = s.out ∧
        (t.chan ch).outAck = r.ack ∧ (t.chan ch).queue = (s.chan ch).queue)) ∧
  (∀ (s : State) (own src : Byte) (packets : List (List Byte)) (message : List Byte), s.book.fwState = 3 →
    s.book.eid = some own → assemble own none packets = some (src, message) → s.book.peer = some src →
    s.mctpHears src false = true → 37 ≤ message.length → message.take 5 = ticketMessage [] →
    let m := ticketOf (message.drop 5)
    m.length ≤ 480 → ticketCrc (message.drop 5) = m.crc → m.opcode = 0x0100 →
    exec (.vendorDefinedMessage packets) s =
      .next { s with
        book.mctp.received := s.book.mctp.received ++ [{ m.alone .mctp with arrival := s.book.arrivals }]
        book.arrivals := s.book.arrivals + 1 }) ∧
  (∀ (s : State) (r : Request) (rest : List Request) (dst : Byte), s.book.mctp.received = r :: rest →
    r.chan = .mctp → r.opcode = 0x0100 → s.book.fwState = 3 → s.mayStart r = true →
    s.book.peer = some dst →
    ∃ t code detail body, exec (.sessionQuery .mctp) s = .next t ∧
      t.out = s.out ++ [.mctp dst (s.blockWrites dst (ticketMessage
        (SentTicket.bytes { seq := 0xFFFFFFFF, more := false, replayed := false, ticket := r.answer code detail body }
          s.book.mctp.ackOut)))] ∧
      t.book.mctp.sent = s.book.mctp.sent ∧ t.book.mctp.inSeq = s.book.mctp.inSeq ∧
      t.book.mctp.outSeq = s.book.mctp.outSeq ∧ t.book.mctp.outAck = s.book.mctp.outAck)

/-- R351, R352: IDENTITY_GET answers the part, the serial, the interface version 0x0302 and module revision 0x00B0,
the firmware version, the identity key and the lifecycle bits; CAP_READ answers CHANGE_COUNT and the asked bytes of
the descriptor; R371: a request with a reserved opcode is answered UNKNOWN_OPCODE. -/
def Obligations.IdentityAndDescriptorRead : Prop :=
  ∀ (s : State) (r : Request) (rest : List Request) (ch : Chan),
    (Asked s ch 0x0110 r rest → Shaped r 0 [] →
      ∃ t, exec (.identityGet ch) s = .next t ∧ OnlyBook s t ∧
        Answered t r stOk 0 (asciiPad (partName s.fuses.part) 16 ++ leBytes 16 s.fuses.serial.toNat
          ++ leBytes 2 0x00B0 ++ leBytes 2 0x0302 ++ leBytes 4 s.sec.runVersion ++ s.identityKey
          ++ [s.fuses.lifeByte] ++ leBytes 3 0)) ∧
    (Asked s ch 0x0111 r rest → Shaped r 8 [(6, 2)] → let off := r.get 0 4; let n := r.get 4 2
      0 < n → n ≤ 472 → off + n ≤ 1024 →
      ∃ t, exec (.capRead ch) s = .next t ∧ OnlyBook s t ∧
        Answered t r stOk 0 (leBytes 4 s.cap.changeCount.toNat ++ leBytes 4 0 ++ slice s.capBytes off n)) ∧
    (∀ op, Asked s ch op r rest → op ∉ requestOpcodes → s.power.state ≠ .holdUp →
      ∃ t, exec (.reservedOpcodeRequest ch) s = .next t ∧ OnlyBook s t ∧ Answered t r stUnknown 0 [])

/-! ## Class 0x02: contexts, memory, tokens, rings -/

/-- R210 to R212, R353, R354, R612: CONTEXT_CREATE with its fields in range and nothing short is admitted whole. The
lowest FREE id becomes an ACTIVE context under its generation with the fields of the request; its tokens are the
lowest-numbered unallotted ones, at VALUE 0; its pages are mapped from virtual address 0 and the reply names id,
generation, Yard words and tokens, at once where no frame placed awaits zeroing, else once they are zeroed. No other
context, ring or byte of memory changes. (Which PT_ROOT: log entry 7.) -/
def Obligations.ContextCreateAdmits : Prop :=
  ∀ (s : State) (r : Request) (rest : List Request) (ch : Chan) (id : Nat),
    Asked s ch 0x0200 r rest → s.power.state ≠ .holdUp → Shaped r 64 [(14, 2)] →
    let parts := r.get 4 1
    let nt := r.get 8 2
    0 < parts → parts ≤ 8 → firstSet r.payload [(32 + 4 * parts, 32 - 4 * parts)] = none →
    r.get 5 1 ≤ 7 → r.get 6 2 ≤ 4095 → 0 < r.get 10 1 → r.get 10 1 ≤ 8 →
    (r.get 11 1 = 0 ∨ 8 ≤ r.get 11 1) → r.get 12 2 ≤ 4095 →
    r.get 24 4 * 2 ^ 30 + r.get 28 4 * 2 ^ 21 ≤ 2 ^ 42 → (∀ k < parts, r.get (32 + 4 * k) 4 ≠ 0) →
    s.freeCtx = some id → shortMem s.wholeFrames.length s.looseFrames.length (r.get 24 4) (r.get 28 4) = 0 →
    shortYard (yardRequests (r.yard.take parts)) s.extents = 0 → parts ≤ s.serving.length → nt ≤ s.freeTokens →
    let words := yardWordsOf (yardRequests (r.yard.take parts)) s.extents
    let ids := s.pickTokens nt
    let pages := s.place (r.get 24 4) (r.get 28 4) 0 true
    let dirty := s.mem.zeroing.filter (fun f => frameUsed (pages.map Page.frames) f)
    let body := leBytes 4 id ++ leBytes 2 (s.ctx id).gen.toNat ++ leBytes 2 ids.length
      ++ (words.map (fun w => leBytes 4 w.bits)).flatten ++ leBytes (32 - 4 * parts) 0 ++ idBytes (ids.take 3820)
    ∃ t, exec (.contextCreate ch) s = .next t ∧
      OnlyBook { s with ctxs := t.ctxs, tokens := t.tokens, mem.zeroing := t.mem.zeroing
                        mem.grants := t.mem.grants, fresh := s.fresh + 1 } t ∧
      (t.ctx id).state = .active ∧ (t.ctx id).gen = (s.ctx id).gen ∧ (t.ctx id).priority = r.get 5 1 ∧
      (t.ctx id).energyId = r.get 6 2 ∧ (t.ctx id).feedAhead = r.get 10 1 ∧ (t.ctx id).prefetch = r.get 11 1 ∧
      (t.ctx id).commitRing = r.get 12 2 ∧ (t.ctx id).tenant.toNat = r.get 0 4 ∧
      (t.ctx id).srSeed.toNat = r.get 16 8 ∧ (t.ctx id).step = 0 ∧ (t.ctx id).yard = words ∧
      (∀ n, n ≠ id → t.ctx n = s.ctx n) ∧
      (∀ i, t.token i = if i ∈ ids then { value := 0, owner := some id } else s.token i) ∧
      (if dirty = [] then (t.ctx id).pages = pages ∧ t.mem = s.mem ∧ Answered t r stOk 0 body
       else (t.ctx id).pages = [] ∧
        t.mem.grants = s.mem.grants ++ [{ ctx := id, frames := dirty, req := r, payload := body, pages := pages }])

/-- R353: CONTEXT_READ answers the entry in every state. R154, R200, R356: CONTEXT_SET writes the fields that its mask
names, and no other. R203: CONTEXT_DESTROY starts the teardown under a new generation and keeps the request for the
reply. -/
def Obligations.ContextReadSetDestroy : Prop :=
  ∀ (s : State) (r : Request) (rest : List Request) (ch : Chan), s.power.state ≠ .holdUp →
    (Asked s ch 0x0204 r rest → Shaped r 4 [] → r.get 0 4 < 262144 →
      ∃ t, exec (.contextRead ch) s = .next t ∧ OnlyBook s t ∧ Answered t r stOk 0 (s.ctxEntry (r.get 0 4))) ∧
    (∀ c, Asked s ch 0x0205 r rest → Shaped r 32 [(31, 1)] → Naming s r c →
      let m := r.get 6 2
      m < 128 → ((s.ctx c).state = .halted ∨ (field m 3 0 = 0 ∧ bit m 6 = false)) →
      (bit m 3 = true → r.get 24 2 ≤ 4095) → (bit m 5 = true → r.get 26 2 ≤ 4095) →
      (bit m 1 = true → 0 < r.get 28 1 ∧ r.get 28 1 ≤ 8) → (bit m 2 = true → r.get 29 1 = 0 ∨ 8 ≤ r.get 29 1) →
      (bit m 4 = true → r.get 30 1 ≤ 7) →
      ∃ t, exec (.contextSet ch) s = .next t ∧ OnlyBook { s with ctxs := t.ctxs } t ∧ Answered t r stOk 0 [] ∧
        (∀ n, n ≠ c → t.ctx n = s.ctx n) ∧
        t.ctx c = { s.ctx c with
          srSeed := if bit m 0 then BitVec.ofNat 64 (r.get 8 8) else (s.ctx c).srSeed
          feedAhead := if bit m 1 then r.get 28 1 else (s.ctx c).feedAhead
          prefetch := if bit m 2 then r.get 29 1 else (s.ctx c).prefetch
          commitRing := if bit m 3 then r.get 24 2 else (s.ctx c).commitRing
          priority := if bit m 4 then r.get 30 1 else (s.ctx c).priority
          energyId := if bit m 5 then r.get 26 2 else (s.ctx c).energyId
          step := if bit m 6 then BitVec.ofNat 64 (r.get 16 8) else (s.ctx c).step }) ∧
    (∀ c, Asked s ch 0x0201 r rest → Shaped r 8 [(6, 2)] → Naming s r c →
      ∃ t, exec (.contextDestroy ch) s = .next t ∧ (t.ctx c).state = .teardown ∧
        (t.ctx c).gen = nextGen (s.ctx c).gen ∧ (t.ctx c).destroyReq = some r ∧
        (∀ q, s.boundTo q c = true → (t.ring q).state = .halted) ∧ (∀ f ∈ t.marsh.flights, f.ctx ≠ c) ∧
        ((∀ f ∈ s.marsh.flights, f.ctx = c → f.stage = .decided → wOpcode f.bits ≠ 0x43) → t.tokens = s.tokens) ∧
        t.fuses = s.fuses)

/-- R206: CONTEXT_HALT stops the work of the context, raises its generation, marks its step invalid, halts every
ring bound to it and answers the new generation; a running ring that halts has cause CONTEXT, or RECORD_FAIL where
the record of a wagon that it had dispatched cannot be written (R611). R208: CONTEXT_RESUME with every ring bound,
unfenced and its HEAD at most 2^S behind TAIL makes the context ACTIVE and its step valid; each ring named takes its
HEAD and runs, unless it was halted with HOST_STOP.
The model's reading: a context that is HALTED already halts again (log entry 46). -/
def Obligations.ContextHaltAndResume : Prop :=
  ∀ (s : State) (r : Request) (rest : List Request) (ch : Chan) (c : Nat), s.power.state ≠ .holdUp → Naming s r c →
    (Asked s ch 0x0202 r rest → Shaped r 8 [(6, 2)] →
      ∃ t, exec (.contextHalt ch) s = .next t ∧ (t.ctx c).state = .halted ∧ (t.ctx c).stepInvalid = true ∧
        (t.ctx c).gen = nextGen (s.ctx c).gen ∧ (∀ f ∈ t.marsh.flights, f.ctx ≠ c) ∧
        (∀ q, s.boundTo q c = true → (t.ring q).state = .halted ∧ (t.ring q).window = [] ∧
          ((s.ring q).state = .running → (t.ring q).cause = .context ∨
            (t.ring q).cause = .recordFail ∧ (t.ring q).recordLost = true ∧ ∃ f ∈ s.marsh.flights, f.ring = q)) ∧
        Answered t r stOk 0 (leBytes 2 (nextGen (s.ctx c).gen).toNat ++ leBytes 2 0)) ∧
    (Asked s ch 0x0203 r rest →
      let n := r.get 6 2
      0 < n → Shaped r (8 + 8 * n) ((List.range 59).map (fun i => (10 + 8 * i, 2))) → r.payload.length ≤ 480 →
      (s.ctx c).state = .halted → (s.ctx c).lostPart = false →
      (∀ i < n, s.boundTo (r.get (8 + 8 * i) 2) c = true ∧ s.ringFenced (r.get (8 + 8 * i) 2) = false ∧
        sub32 (s.ring (r.get (8 + 8 * i) 2)).tail (BitVec.ofNat 32 (r.get (12 + 8 * i) 4)) ≤
          2 ^ (s.ring (r.get (8 + 8 * i) 2)).logSize) →
      ∃ t, exec (.contextResume ch) s = .next t ∧ OnlyBook { s with ctxs := t.ctxs, rings := t.rings } t ∧
        t.ctx c = { s.ctx c with state := .active, stepInvalid := false } ∧
        (∀ m, m ≠ c → t.ctx m = s.ctx m) ∧ Answered t r stOk 0 [] ∧
        (∀ q, (∀ i < n, r.get (8 + 8 * i) 2 ≠ q) → t.ring q = s.ring q) ∧
        (∀ i < n, (∀ j, i < j → j < n → r.get (8 + 8 * j) 2 ≠ r.get (8 + 8 * i) 2) →
          let q := r.get (8 + 8 * i) 2
          (t.ring q).head = BitVec.ofNat 32 (r.get (12 + 8 * i) 4) ∧ (t.ring q).fetched = (t.ring q).head ∧
          (t.ring q).tail = (s.ring q).tail ∧
          (if (s.ring q).cause = .hostStop then (t.ring q).state = (s.ring q).state ∧ (t.ring q).cause = .hostStop
           else (t.ring q).state = .running ∧ (t.ring q).cause = .none)))

/-- R177: CLASS_WEIGHTS with no weight 0 sets the eight weights. R202, R295, R353: DROP_COUNTERS answers the eight
counters in order. R182, R357: TOKEN_ALLOC gives the context the lowest-numbered unallotted tokens at VALUE 0;
TOKEN_LIST lists those of a context from a number on. -/
def Obligations.WeightsCountersTokens : Prop :=
  ∀ (s : State) (r : Request) (rest : List Request) (ch : Chan), s.power.state ≠ .holdUp →
    (Asked s ch 0x0206 r rest → Shaped r 8 [] → (∀ i < 8, r.get i 1 ≠ 0) →
      ∃ t, exec (.classWeights ch) s = .next t ∧ Answered t r stOk 0 [] ∧
        OnlyBook { s with marsh.weights := (List.range 8).map (fun i => r.get i 1) } t) ∧
    (Asked s ch 0x0220 r rest → Shaped r 0 [] →
      ∃ t, exec (.dropCounters ch) s = .next t ∧ OnlyBook s t ∧
        Answered t r stOk 0 (leBytes 8 s.drops.reply.toNat ++ leBytes 8 s.drops.flit.toNat
          ++ leBytes 8 s.drops.refused.toNat ++ leBytes 8 s.drops.signal.toNat ++ leBytes 8 s.drops.doorbell.toNat
          ++ leBytes 8 s.drops.aperture.toNat ++ leBytes 8 s.drops.epoch.toNat ++ leBytes 8 s.drops.misroute.toNat)) ∧
    (∀ c, Asked s ch 0x020A r rest → Shaped r 8 [] → Naming s r c →
      let n := r.get 6 2
      0 < n → n ≤ s.freeTokens →
      let ids := s.pickTokens n
      ∃ t, exec (.tokenAlloc ch) s = .next t ∧ OnlyBook { s with tokens := t.tokens } t ∧
        (∀ i, t.token i = if i ∈ ids then { value := 0, owner := some c } else s.token i) ∧
        Answered t r stOk 0 (leBytes 2 n ++ leBytes 2 (ids.take 3838).length ++ idBytes (ids.take 3838))) ∧
    (∀ c, Asked s ch 0x020B r rest → Shaped r 12 [(6, 2)] → Naming s r c →
      let l := (s.tokensOf c).filter (fun i => r.get 8 4 ≤ i)
      l.length ≤ 3836 →
      ∃ t, exec (.tokenList ch) s = .next t ∧ OnlyBook s t ∧
        Answered t r stOk 0 (leBytes 4 0xFFFFFFFF ++ leBytes 2 l.length ++ leBytes 2 0 ++ idBytes l))

/-- R204, R210 to R212, R354, R355, R612: MEM_RESERVE of free memory at an aligned free virtual range maps its pages
in rising order, at once where no frame placed awaits zeroing; MEM_RELEASE of whole pages unmaps them and their
frames, but for retired ones, await zeroing. R220: ZEROING_DONE zeroes the frame next in order. No byte of memory
changes but those of that frame. -/
def Obligations.MemoryReserveReleaseZero : Prop :=
  ∀ (s : State),
    (∀ (r : Request) (rest : List Request) (ch : Chan) (c : Nat), s.power.state ≠ .holdUp → Naming s r c →
      (Asked s ch 0x0208 r rest → Shaped r 24 [(7, 1)] →
        let vbase := r.get 8 8
        let g1 := r.get 16 4
        let g2 := r.get 20 4
        r.get 6 1 ≤ 1 → vbase % (if g1 ≠ 0 then 2 ^ 30 else 2 ^ 21) = 0 →
        vbase + (g1 * 2 ^ 30 + g2 * 2 ^ 21) ≤ 2 ^ 42 → s.overlaps c vbase (g1 * 2 ^ 30 + g2 * 2 ^ 21) = false →
        shortMem s.wholeFrames.length s.looseFrames.length g1 g2 = 0 →
        let pages := s.place g1 g2 vbase (r.get 6 1 = 1)
        let dirty := s.mem.zeroing.filter (fun f => frameUsed (pages.map Page.frames) f)
        ∃ t, exec (.memReserve ch) s = .next t ∧ t.mem.bytes = s.mem.bytes ∧ t.rings = s.rings ∧
          (∀ n, n ≠ c → t.ctx n = s.ctx n) ∧
          (if dirty = [] then (t.ctx c).pages = addPages (s.ctx c).pages pages ∧ t.mem = s.mem ∧ Answered t r stOk 0 []
           else (t.ctx c).pages = (s.ctx c).pages ∧
            t.mem.grants = s.mem.grants ++ [{ ctx := c, frames := dirty, req := r, payload := [], pages := pages }])) ∧
      (Asked s ch 0x0209 r rest → Shaped r 24 [(6, 2)] →
        let lo := r.get 8 8
        let hi := lo + r.get 16 8
        let gone := (s.ctx c).pages.filter (fun p => lo ≤ p.vbase && p.vbase + p.size ≤ hi)
        (∀ g ∈ (s.ctx c).regions, g.vbase + g.len ≤ lo ∨ hi ≤ g.vbase) →
        (∀ p ∈ (s.ctx c).pages, p ∈ gone ∨ hi ≤ p.vbase ∨ p.vbase + p.size ≤ lo) →
        (gone.map Page.size).foldl (· + ·) 0 = hi - lo →
        ∃ t, exec (.memRelease ch) s = .next t ∧ t.mem.bytes = s.mem.bytes ∧ t.rings = s.rings ∧
          (∀ n, n ≠ c → t.ctx n = s.ctx n) ∧ (t.ctx c).pages = (s.ctx c).pages.filter (fun p => p ∉ gone) ∧
          t.mem.zeroing = s.mem.zeroing ++ (gone.flatMap (fun p =>
            (List.range (p.size / 2 ^ 21)).map (fun i => p.addr / 2 ^ 21 + i))).filter (fun f => f ∉ s.mem.retired) ∧
          Answered t r stOk 0 [])) ∧
    (∀ f rest, s.mem.grants.flatMap (fun g => g.frames) = [] → s.mem.zeroing = f :: rest →
      ∃ t, exec .zeroingDone s = .next t ∧ t.mem.zeroing = rest ∧
        (∀ a, t.mem.bytes.get a = if a / 2 ^ 21 = f then 0 else s.mem.bytes.get a) ∧
        (∀ l, l ∈ t.mem.damaged ↔ l ∈ s.mem.damaged ∧ l / 32768 ≠ f))

/-- R159, R161, R497: RING_BIND of an unbound, unfenced ring with its fields in range binds it with HEAD and TAIL at
the first index, RUNNING under an ACTIVE context and HALTED with cause CONTEXT under a HALTED one. R161: RING_STOP
halts a running ring with HOST_STOP and answers its HEAD; RING_UNBIND of a ring that is not running leaves it UNBOUND
with no wagon of it dispatched, and marks the step invalid where it had any.
The model's reading: wagons dispatched at RING_UNBIND are aborted (log entry 118). -/
def Obligations.RingBindStopUnbind : Prop :=
  ∀ (s : State) (r : Request) (rest : List Request) (ch : Chan) (c : Nat), s.power.state ≠ .holdUp → Naming s r c →
    let n := r.get 6 2
    (Asked s ch 0x0210 r rest → Shaped r 40 [(14, 2), (20, 4)] →
      let sz := r.get 8 1
      n ≤ 4095 → 6 ≤ sz → sz ≤ 16 → r.get 9 1 ≤ 1 → r.get 10 1 ≤ 2 → r.get 11 1 ≤ 1 →
      ¬ (r.get 9 1 = 1 ∧ r.get 11 1 = 1) → (r.get 11 1 = 1 → r.get 12 2 ≤ 1023) → r.get 24 8 % (64 * 2 ^ sz) = 0 →
      r.get 32 8 % (16 * 2 ^ sz) = 0 → s.ringFenced n = false → (s.ring n).state = .unbound →
      let i := BitVec.ofNat 32 (r.get 16 4)
      ∃ t, exec (.ringBind ch) s = .next t ∧ OnlyBook { s with rings := t.rings } t ∧ Answered t r stOk 0 [] ∧
        (∀ m, m ≠ n → t.ring m = s.ring m) ∧
        t.ring n = { state := if (s.ctx c).state = .active then .running else .halted, ctx := c, logSize := sz
                     base := r.get 24 8, cplBase := r.get 32 8, host := r.get 9 1 = 1, irq := r.get 10 1
                     feeder := if r.get 11 1 = 1 then some (r.get 12 2) else none, head := i, tail := i, fetched := i
                     cause := if (s.ctx c).state = .active then .none else .context, window := [], counts := []
                     recordLost := false }) ∧
    (Asked s ch 0x0211 r rest → Shaped r 8 [] → s.boundTo n c = true → (s.ring n).state = .running →
      ∃ t, exec (.ringStop ch) s = .next t ∧ (t.ring n).state = .halted ∧ (t.ring n).cause = .hostStop ∧
        (t.ring n).window = [] ∧ (t.ring n).head = (s.ring n).head ∧ (t.ring n).tail = (s.ring n).tail ∧
        (∀ m, m ≠ n → t.ring m = s.ring m) ∧ t.ctxs = s.ctxs ∧ t.marsh = s.marsh ∧ t.mem = s.mem ∧
        Answered t r stOk 0 (leBytes 4 (s.ring n).head.toNat)) ∧
    (Asked s ch 0x0212 r rest → Shaped r 8 [] → s.boundTo n c = true → (s.ring n).state = .halted →
      s.rings.wf Ring.reset = true →
      ∃ t, exec (.ringUnbind ch) s = .next t ∧ t.ring n = Ring.reset ∧ (∀ f ∈ t.marsh.flights, f.ring ≠ n) ∧
        Answered t r stOk 0 [] ∧
        ((∀ f ∈ s.marsh.flights, f.ring = n → f.stage = .done) →
          (∀ m, m ≠ n → t.ring m = s.ring m) ∧ t.ctxs = s.ctxs ∧ t.mem = s.mem) ∧
        ((∃ f ∈ s.marsh.flights, f.ring = n ∧ f.stage ≠ .done) → (t.ctx c).stepInvalid = true))

/-- R162 to R166: a whole doorbell write with the generation of the context to a ring that the host feeds moves its
TAIL, where TAIL lies from the accepted TAIL to HEAD + 2^S; one further halts the context with cause OVERRUN; one to
an unbound or peer-fed ring, under another generation or not whole is dropped and counted, and nothing else changes. -/
def Obligations.RingDoorbell : Prop :=
  ∀ (s : State) (n : Fin 4096) (v : W64), s.hostUp = true →
    let q := s.ring n.val
    let tail := BitVec.ofNat 32 (field v.toNat 31 0)
    let fits := sub32 tail q.tail ≤ sub32 (q.head + BitVec.ofNat 32 (2 ^ q.logSize)) q.tail
    (q.state ≠ .unbound → q.feeder = none → (s.ctx q.ctx).gen.toNat = field v.toNat 63 48 →
      ∃ t, exec (.rngDoorbell n v true) s = .next t ∧
        (fits → t = s.modRing n.val (fun r => { r with tail := tail }) ∧ (t.ring n.val).tail = tail) ∧
        (¬ fits → (s.ctx q.ctx).state = .active ∨ (s.ctx q.ctx).state = .halted →
          (t.ctx q.ctx).state = .halted ∧ (t.ctx q.ctx).gen = nextGen (s.ctx q.ctx).gen ∧
          (t.ring n.val).state = .halted ∧ (t.ring n.val).cause = .overrun ∧ (t.ring n.val).tail = q.tail)) ∧
    (∀ whole, whole = false ∨ q.state = .unbound ∨ q.feeder.isSome ∨ (s.ctx q.ctx).gen.toNat ≠ field v.toNat 63 48 →
      exec (.rngDoorbell n v whole) s = .next { s with drops.doorbell := s.drops.doorbell + 1 })

/-- R252, R356: APERTURE_BIND on PCIe binds or unbinds a window to the context under its generation. R232, R252 to
R254: a BAR4 read through a bound window answers the bytes of module memory; a write stores them, from the translated
address on, and no other byte changes; a write through a window that may not write is dropped, counted and
answered as an Unsupported Request. -/
def Obligations.ApertureBindReadWrite : Prop :=
  ∀ (s : State),
    (∀ (r : Request) (rest : List Request) (c : Nat), s.power.state ≠ .holdUp → Naming s r c →
      Asked s .pcie 0x0218 r rest → Shaped r 16 [] → r.get 7 1 ≤ 2 →
      (r.get 7 1 ≠ 0 → r.get 8 8 % 2 ^ 30 = 0 ∧ r.get 8 8 < 2 ^ 42) → s.windows.wf Window.reset = true →
      ∃ t, exec (.apertureBind .pcie) s = .next t ∧ OnlyBook { s with windows := t.windows } t ∧
        Answered t r stOk 0 [] ∧
        ∀ k, Table.get Window.reset t.windows k =
          if k = r.get 6 1 then
            { bound := if r.get 7 1 = 0 then none
                       else some (c, (s.ctx c).gen, r.get 8 8, (r.get 7 1 = 2 : Bool)) }
          else Table.get Window.reset s.windows k) ∧
    (∀ (addr : BitVec 38) (c va pa : Nat), s.hostUp = true → s.power.state ≠ .holdUp →
      (∀ (len : Fin 4097), accessOk addr.toNat len.val = true → s.aperture addr.toNat false = some (c, va) →
        (s.ctx c).translate false va = some pa → (∀ l ∈ s.mem.damaged, l * 64 + 64 ≤ pa ∨ pa + len.val ≤ l * 64) →
        exec (.apertureRead addr len cleanLines) s = .next (s.emit (.readData (s.mem.bytes.read pa len.val)))) ∧
      (∀ (data : List Byte), accessOk addr.toNat data.length = true → s.aperture addr.toNat true = some (c, va) →
        (s.ctx c).translate true va = some pa →
        (∀ l ∈ s.mem.damaged, l * 64 + 64 ≤ pa ∨ pa + data.length ≤ l * 64) → s.mem.bytes.wf = true →
        ∃ t, exec (.apertureWrite addr data cleanLines) s = .next t ∧ t.drops = s.drops ∧ t.rings = s.rings ∧
          ∀ a, t.mem.bytes.get a = if pa ≤ a ∧ a < pa + data.length then nth 0 data (a - pa) else s.mem.bytes.get a) ∧
      (∀ (data : List Byte) (lines : LineEcc), accessOk addr.toNat data.length = true → s.aperture addr.toNat true = none →
        exec (.apertureWrite addr data lines) s =
          .next ({ s with drops.aperture := s.drops.aperture + 1 }.emit .unsupported)))

/-- R203 to R205: when a context in TEARDOWN is torn down its id is QUARANTINE under its generation, holding nothing:
its tokens have no owner, its rings are UNBOUND, its frames, but for retired ones, await zeroing, and no byte of
memory changes unless a DEBUG_UNLOCK was waiting for it (R569); the end of the quarantine makes it FREE under the same
generation. -/
def Obligations.TeardownAndQuarantine : Prop :=
  ∀ (s : State) (c : Fin 262144),
    ((s.ctx c.val).state = .teardown → s.tokens.wf Token.reset = true → s.rings.wf Ring.reset = true →
      ∃ t, exec (.teardownComplete c) s = .next t ∧
        (t.ctx c.val) = { Context.reset with state := .quarantine, gen := (s.ctx c.val).gen } ∧
        (∀ i, (s.token i).owner = some c.val → t.token i = Token.reset) ∧
        (∀ q, s.boundTo q c.val = true → t.ring q = Ring.reset) ∧
        ((∀ x ∈ s.running, x.opcode ≠ 0x0700) → t.mem.bytes = s.mem.bytes) ∧
        (∀ p ∈ (s.ctx c.val).pages, ∀ i, i < p.size / 2 ^ 21 → p.addr / 2 ^ 21 + i ∉ s.mem.retired →
          p.addr / 2 ^ 21 + i ∈ t.mem.zeroing)) ∧
    ((s.ctx c.val).state = .quarantine → s.ctxs.wf Context.reset = true →
      ∃ t, exec (.quarantineExpiry c) s = .next t ∧ t = { s with ctxs := t.ctxs } ∧
        t.ctx c.val = { Context.reset with gen := (s.ctx c.val).gen } ∧ (∀ n, n ≠ c.val → t.ctx n = s.ctx n))

/-- R241 to R247, R251: a scrub read of a memory line that comes out uncorrectable marks the line, retires its frame
and reports 0x0309 with the frame; one that comes out corrected retires the frame from the third time within 24 h
on; the Yard's scrub does the same with its words and blocks. A clean read changes nothing but the place of the
Yard's pass. -/
def Obligations.ScrubsRetire : Prop :=
  ∀ (s : State),
    (∀ (line : Nat), 64 * line < s.mem.total →
      (∃ t, exec (.patrolScrubRead line .bad) s = .next t ∧ line ∈ t.mem.damaged ∧ line / 2 ^ 15 ∈ t.mem.retired ∧
        t.mem.bytes = s.mem.bytes ∧ (s.memSource (64 * line) ∉ s.sbx.deaf →
          ∃ e ∈ t.sbx.reports, e.source = s.memSource (64 * line) ∧ e.code = 0x0309 ∧
            e.info = BitVec.ofNat 32 (line / 2 ^ 15))) ∧
      (line ∉ s.mem.damaged →
        exec (.patrolScrubRead line .clean) s = .next s ∧
        ∃ t, exec (.patrolScrubRead line .corrected) s = .next t ∧ t.mem.damaged = s.mem.damaged ∧
          (2 ≤ (s.mem.corrected.filter (fun e => s.within e.sec 86400 ∧ e.place = line)).length →
            line / 2 ^ 15 ∈ t.mem.retired))) ∧
    (∀ (p : Fin 8) (word : Nat), word < yardWordCount →
      (s.part p.val).unit = .inService ∨ (s.part p.val).unit = .held →
      let w := p.val * 2 ^ 24 + word
      (∃ t, exec (.yardScrubRead p word .bad) s = .next t ∧ w ∈ t.yard.damaged ∧ w / 8192 ∈ t.yard.retired ∧
        t.yard.bytes = s.yard.bytes ∧ (source 7 p.val 0 ∉ s.sbx.deaf →
          ∃ e ∈ t.sbx.reports, e.source = source 7 p.val 0 ∧ e.code = 0x0309 ∧ e.info = yardInfo w)) ∧
      (w ∉ s.yard.damaged →
        exec (.yardScrubRead p word .clean) s = .next (s.scrubbed w) ∧
        ∃ t, exec (.yardScrubRead p word .corrected) s = .next t ∧ t.yard.damaged = s.yard.damaged ∧
          (2 ≤ (s.yard.corrected.filter (fun e => s.within e.sec 86400 ∧ e.place = w)).length →
            w / 8192 ∈ t.yard.retired)))

/-! ## Marshalling and the token unit -/

/-- R169, R173: WAGON_FETCH of a running ring under an ACTIVE context reads the 64 bytes at RING_BASE + 64 (index
mod 2^S), from module memory or the host, into the ring's window, and nothing else changes; a reply with an
error halts the context with cause FETCH_FAIL. R172 to R178, R186: outside Idle, on a free credit,
MARSHALLING_DISPATCH moves the first wagon of the chosen ring from its window into the unit's queue under the
current generation, and takes the credit. R101, R138, R179: WAGON_START starts a queued wagon whose conditions
hold on an engine that is not parked, and has a parked one request a departure slot. R25, R174: CREDIT_RETURN
gives one freed place back. -/
def Obligations.MarshallingFetchesAndDispatches : Prop :=
  (∀ (s : State) (n : Fin 4096), s.frozen = false → s.live n.val = true → (s.ring n.val).fetched ≠ (s.ring n.val).tail →
    s.inPrefetch n.val (s.ring n.val).fetched = true →
    let q := s.ring n.val
    let a := q.base + 64 * (q.fetched.toNat % 2 ^ q.logSize)
    let join := fun (bs : List Byte) => s.modRing n.val (fun r =>
      { r with window := r.window ++ [(r.fetched, BitVec.ofNat 512 (leNat bs))], fetched := r.fetched + 1 })
    (∀ pa, q.host = false → (s.ctx q.ctx).translate false a = some pa →
      (∀ l ∈ s.mem.damaged, l * 64 + 64 ≤ pa ∨ pa + 64 ≤ l * 64) →
      exec (.wagonFetch n (.memory .clean)) s = .next (join (s.mem.bytes.read pa 64))) ∧
    (∀ bs, q.host = true → s.hostUp = true → bs.length = 64 →
      exec (.wagonFetch n (.host (.data bs))) s = .next (join bs)) ∧
    (q.host = true → ∃ t, exec (.wagonFetch n (.host .error)) s = .next t ∧ (t.ring n.val).state = .halted ∧
      (t.ring n.val).cause = .fetchFail ∧ (t.ctx q.ctx).state = .halted ∧ (t.ctx q.ctx).gen = nextGen (s.ctx q.ctx).gen)) ∧
  (∀ (s : State),
    (∀ (u : UnitRef) (ring : Nat) (e : Dispatch) (x : W32) (w : BitVec 512) (tail : List (W32 × BitVec 512)),
      s.frozen = false → s.power.state ≠ .idle → (s.unit u).taken < unitDepth u → s.unitUp u = true →
      (s.unit u).choose s.marsh.weights (fun c => ((s.rings.map (fun x => x.1)).filter (fun r => s.ready u r)).filter
        (fun r => (s.ctx (s.ring r).ctx).priority = c)) = some (ring, e) →
      (s.ring ring).state = .running → (s.ring ring).window = (x, w) :: tail →
      ∃ t old f, exec (.marshallingDispatch u) s = .next t ∧ t.marsh.flights = old ++ [f] ∧ f.ring = ring ∧
        f.index = x ∧ f.bits = w ∧ f.unit = u ∧ f.ctx = (s.ring ring).ctx ∧ f.gen = (s.ctx (s.ring ring).ctx).gen ∧
        (t.ring ring).window = tail ∧ (t.unit u).taken = (s.unit u).taken + 1 ∧
        (∀ st, s.undispatched ring w = some st → f.stage = .decided ∧ f.status = st) ∧
        (s.undispatched ring w = none → f.stage = .queued ∧ t.ctxs = s.ctxs ∧ t.mem = s.mem ∧
          old.map (fun g => { g with fence := none }) = s.marsh.flights.map (fun g => { g with fence := none }))) ∧
    (∀ (ring : Fin 4096) (x : W32) (cycle : Nat) (f : Flight), s.flight ring.val x = some f → s.frozen = false →
      f.stage = .queued → s.unitUp f.unit = true → s.startMet f = true →
      (s.pace f.unit ≠ .parked →
        ∃ t, exec (.wagonStart ring x cycle) s = .next t ∧ (∃ g, t.flight ring.val x = some g ∧ g.stage = .started) ∧
          (∀ p e, f.unit = .matrix p e → t.pace f.unit = .running)) ∧
      (s.pace f.unit = .parked → s.wants f.unit = none →
        ∃ t, exec (.wagonStart ring x cycle) s = .next t ∧ t.marsh = s.marsh ∧ t.power = s.power ∧
          t.wants f.unit = some (.departure, s.slotOrder f.unit cycle))) ∧
    (∀ (u : UnitRef), 0 < (s.unit u).freed →
      exec (.creditReturn u) s =
        .next (s.modUnit u (fun d => { d with freed := d.freed - 1, taken := d.taken - 1 }))))

/-- R98, R176, R183, R184, R190 to R194: with every earlier wagon of its ring complete, NOP completes OK and nothing
else changes; TOKEN_SET sets its token; a local TOKEN_SIGNAL adds its amount, modulo 2^32, and a remote one is sent
to the peer and waits. TOKEN_WAIT completes OK once (VALUE - target) mod 2^32 is below 2^31, waits until then, and
one with a TIMEOUT completes WAIT_TIMEOUT. -/
def Obligations.TokenWagons : Prop :=
  ∀ (s : State) (ring : Fin 4096) (x : W32) (f : Flight), s.flight ring.val x = some f → s.frozen = false →
    (f.stage = .queued ∨ f.stage = .started) → badWagon f.bits = false →
    let k := tkToken f.bits
    let v := tkValue f.bits
    let met := ((s.token k).value - v).toNat < 2 ^ 31
    (wOpcode f.bits = 0x01 → s.fenceMet f = true → exec (.nop ring x) s = .next (s.decide ring.val x wsOk 0)) ∧
    (wOpcode f.bits = 0x40 →
      (met → exec (.tokenWait ring x) s = .next (s.decide ring.val x wsOk 0)) ∧
      (¬ met → exec (.tokenWait ring x) s = .next s) ∧
      (¬ met → tkTimeout f.bits ≠ 0 →
        exec (.tokenWaitTimeout ring x) s = .next (s.decide ring.val x wsWaitTimeout 0))) ∧
    (wOpcode f.bits = 0x42 → s.fenceMet f = true → (s.token k).owner.isSome →
      ∃ t, exec (.tokenSet ring x) s = .next t ∧ t = { s.decide ring.val x wsOk 0 with tokens := t.tokens } ∧
        ∀ i, t.token i = if i = k then { s.token k with value := v } else s.token i) ∧
    (wOpcode f.bits = 0x41 → s.fenceMet f = true →
      (tkRemote f.bits = false → (s.token k).owner.isSome →
        ∃ t, exec (.tokenSignal ring x) s = .next t ∧ t = { s.decide ring.val x wsOk 0 with tokens := t.tokens } ∧
          ∀ i, t.token i = if i = k then { s.token k with value := (s.token k).value + v } else s.token i) ∧
      (∀ p, tkRemote f.bits = true → (s.ctx f.ctx).peer (tkPeer f.bits) = some p → s.rails.node ≠ noNode →
        s.rails.stopped = false → s.route p.node ≠ [] →
        ∃ t g o, exec (.tokenSignal ring x) s = .next t ∧ t.tokens = s.tokens ∧ t.flight ring.val x = some g ∧
          g.stage = .waiting ∧ g.tags = [s.rails.nextTag] ∧ Sent s t o ∧ o.packet.kind = 2 ∧
          o.packet.dst = p.node ∧ o.packet.arg = BitVec.ofNat 64 (k * 2 ^ 32 + v.toNat) ∧
          o.waiter = .wagon ring.val x)) ∧
    (s.fenceMet f = false → (wOpcode f.bits = 0x01 → exec (.nop ring x) s = .next s) ∧
      (wOpcode f.bits = 0x41 → exec (.tokenSignal ring x) s = .next s) ∧
      (wOpcode f.bits = 0x42 → exec (.tokenSet ring x) s = .next s))

/-- R196 to R198, R260, R261: STEP_COMMIT on the commit ring that expects STEP + 1 in a valid step commits it where
nothing is coupled: STEP goes up by one, D_PREV takes D_CUR and D_CUR is cleared; with coupled regions it sends
MIRROR_OPEN to the buddy, for the slot not committed, and waits. Another expectation completes STEP_MISMATCH, a step
that was invalid when the fence was met STEP_INVALID, and the step stays. -/
def Obligations.StepCommits : Prop :=
  ∀ (s : State) (ring : Fin 4096) (x : W32) (f : Flight), s.flight ring.val x = some f → s.frozen = false →
    (f.stage = .queued ∨ f.stage = .started) → badWagon f.bits = false → wOpcode f.bits = 0x43 →
    s.fenceMet f = true → (s.ctx f.ctx).commitRing = ring.val →
    let c := s.ctx f.ctx
    let invalid := f.fence.getD c.stepInvalid
    (tkExpect f.bits ≠ c.step + 1 →
      exec (.stepCommit ring x) s = .next (s.decide ring.val x wsStepMismatch 0)) ∧
    (tkExpect f.bits = c.step + 1 → invalid = true →
      exec (.stepCommit ring x) s = .next (s.decide ring.val x wsStepInvalid 0)) ∧
    (tkExpect f.bits = c.step + 1 → invalid = false → c.state = .active →
      (c.regions = [] → ∃ t, exec (.stepCommit ring x) s = .next t ∧
        t = { s.decide ring.val x wsOk 0 with ctxs := t.ctxs } ∧
        t.ctx f.ctx = { c with step := c.step + 1, dPrev := c.dCur, dCur := [], mirror := none } ∧
        ∀ n, n ≠ f.ctx → t.ctx n = s.ctx n) ∧
      (∀ p, c.regions ≠ [] → c.buddyPeer = some p → s.rails.node ≠ noNode → s.rails.stopped = false →
        s.route p.node ≠ [] →
        ∃ t m o, exec (.stepCommit ring x) s = .next t ∧ (t.ctx f.ctx).mirror = some m ∧ m.ring = ring.val ∧
          m.index = x ∧ m.phase = .opening ∧ m.slot = c.committed.elim false (fun y => !y) ∧
          m.tags = [s.rails.nextTag] ∧ (t.ctx f.ctx).step = c.step ∧ Sent s t o ∧
          o.packet.kind = 4 ∧ o.packet.dst = p.node ∧ o.packet.arg = c.step + 1 ∧ o.packet.pflags = slotNo m.slot ∧
          o.waiter = .mirrorOpen f.ctx))

/-- R25, R147, R167, R168, R170: the completion of a wagon decided OK writes its 16-byte record (status, flags,
generation, index, step) at CPL_BASE + 16 (index mod 2^S), signals SIG_TOKEN, frees its queue place, passes HEAD where
every earlier wagon is complete, and raises the ring's interrupt as its mode says. -/
def Obligations.WagonCompletes : Prop :=
  ∀ (s : State) (ring : Fin 4096) (x : W32) (f : Flight), s.flight ring.val x = some f → s.frozen = false →
    f.stage = .decided → f.status = wsOk → (s.ring ring.val).recordLost = false → (s.ring ring.val).state = .running →
    let q := s.ring ring.val
    let a := q.cplBase + 16 * (x.toNat % 2 ^ q.logSize)
    let step := if wOpcode f.bits = 0x43 then (s.ctx f.ctx).step else (s.ctx f.ctx).step + 1
    let bytes : List Byte := [wsOk, f.flags] ++ leBytes 2 f.gen.toNat ++ leBytes 4 x.toNat ++ leBytes 8 step.toNat
    ((q.host = true ∧ s.hostUp = true) ∨ (q.host = false ∧ ∃ pa, (s.ctx q.ctx).translate true a = some pa ∧
      ∀ l ∈ s.mem.damaged, l * 64 + 64 ≤ pa ∨ pa + 16 ≤ l * 64)) →
    ∃ t, exec (.wagonComplete ring x .clean) s = .next t ∧ t.flight ring.val x = none ∧
      (t.unit f.unit).freed = (s.unit f.unit).freed + 1 ∧ t.ctxs = s.ctxs ∧
      (q.host = true → t.mem = s.mem ∧ .hostWrite a bytes false ∈ t.out) ∧
      (∀ pa, q.host = false → (s.ctx q.ctx).translate true a = some pa → s.mem.bytes.wf = true →
        ∀ b, t.mem.bytes.get b = if pa ≤ b ∧ b < pa + 16 then nth 0 bytes (b - pa) else s.mem.bytes.get b) ∧
      (wSig f.bits = true → s.tokenFault f.ctx f.bits = false →
        (t.token (wSigToken f.bits)).value =
          (s.token (wSigToken f.bits)).value + BitVec.ofNat 32 (wSigAdd f.bits)) ∧
      (∀ others, s.marsh.flights.filter (fun g => g.ring = ring.val) = f :: others →
        (∀ g ∈ others, g.stage ≠ .done ∧ g.index ≠ x) → (t.ring ring.val).head = x + 1) ∧
      ((q.irq = 2 ∨ (q.irq = 1 ∧ wOpcode f.bits = 0x43)) → ring.val ∈ t.pcie.irqPend) ∧
      (q.irq = 0 → t.pcie = s.pcie)

/-! ## The engines -/

/-- R62 to R67, R72, R104 to R108, R121: an MMA in a whole, undamaged Yard adds to each ledger (i, j) of its bank
the products of row i of A and row j of B, in order of k, in TF32 form the three products of each pair; CLEAR starts
from cleared ledgers and opens the sequence for the ring, with its anchor; the wagon joins the replay log and
completes OK. The Yard and module memory stay. R83, R84: where the engine errs nowhere, a ledger whose residue
agreed agrees afterwards. R94: with an uncorrectable operand word the wagon completes DATA_UNCORRECTABLE. -/
def Obligations.MmaAccumulates : Prop :=
  ∀ (s : State) (ring : Fin 4096) (x : W32) (f : Flight) (p : Fin 8) (e : Fin 20), Running s ring.val x f 0x10 →
    f.unit = .matrix p e →
    let w := f.bits
    let y := s.allot f
    let old := s.bank p.val e.val (wBank w)
    (wClear w = true ∨ (old.seq.isSome ∧ old.anchor = mmAnchor w ∧ old.log.length < 64 ∧ old.rebuild = false ∧
      Table.wf Ledger.zero old.cells = true)) →
    y.holds (mmaSpans w) = true →
    let vals := fun f a stride sa sstride i => s.rowVals y f (mmK w) (a + 64 * stride * i) (sa + 64 * sstride * i)
    let codes := fun a stride i => codesOf 0xA (mmK w) (s.yardGet y (a + 64 * stride * i) (4 * mmK w))
    let first := fun c => if wClear w then Ledger.zero else Table.get Ledger.zero old.cells c
    (s.yard.damaged = [] →
      ∃ t, exec (.mma ring x cleanYard [] []) s = .next t ∧ Decided t ring.val x wsOk ∧ t.yard = s.yard ∧
        t.mem = s.mem ∧ t.tokens = s.tokens ∧
        let b := t.bank p.val e.val (wBank w)
        b.seq = (if wClear w then some ring.val else old.seq) ∧ b.anchor = mmAnchor w ∧
          b.log = (if wClear w then [] else old.log) ++ [w] ∧
          ∀ i < mmRows w, ∀ j < mmCols w,
            let l := Table.get Ledger.zero b.cells (64 * i + j)
            ((first (64 * i + j)).agrees = true → l.agrees = true) ∧
            (mmAFmt w ≠ 0xA →
              l = ((vals (mmAFmt w) (mmA w) (mmAStride w) (mmAScale w) (mmAScaleStride w) i).zip
                  (vals (mmBFmt w) (mmB w) (mmBStride w) (mmBScale w) (mmBScaleStride w) j)).foldl
                (fun l (u, v) => l.product (mmAnchor w) u v) (first (64 * i + j))) ∧
            (mmAFmt w = 0xA →
              l = ((codes (mmA w) (mmAStride w) i).zip (codes (mmB w) (mmBStride w) j)).foldl
                (fun l (u, v) => l.product32 (mmAnchor w) (fun _ => Slip.zero) u v) (first (64 * i + j)))) ∧
    ((∃ a ∈ mmaSpans w, ∃ d ∈ yardWords (y.key a.1) a.2, d ∈ s.yard.damaged) →
      ∃ t, exec (.mma ring x cleanYard [] []) s = .next t ∧ Decided t ring.val x wsData)

/-- R110 to R112, R121: a LEDGER_ADD whose segments have anchors of at least its own adds to each ledger (i, j) of
its bank the element 64 (i mod 4) + j of segment i / 4, and completes OK. The Yard and module memory stay. R83, R84: a
ledger whose residue agreed agrees afterwards, where the engine errs nowhere. -/
def Obligations.LedgerAddAccumulates : Prop :=
  ∀ (s : State) (ring : Fin 4096) (x : W32) (f : Flight) (p : Fin 8) (e : Fin 20), Running s ring.val x f 0x11 →
    f.unit = .matrix p e → s.yard.damaged = [] →
    let w := f.bits
    let y := s.allot f
    let old := s.bank p.val e.val (wBank w)
    let seg := fun k => Segment.parse (s.yardGet y (laAddr w + 64 * laStride w * k) segBytes)
    (wClear w = true ∨ (old.seq.isSome ∧ old.anchor = laAnchor w ∧ old.log.length < 64 ∧ old.rebuild = false ∧
      Table.wf Ledger.zero old.cells = true)) →
    y.holds (addSpans w) = true → (∀ k < (laRows w + 3) / 4, laAnchor w ≤ (seg k).anchor) →
    ∃ t, exec (.ledgerAdd ring x cleanYard [] []) s = .next t ∧ Decided t ring.val x wsOk ∧ t.yard = s.yard ∧
      t.mem = s.mem ∧
      let b := t.bank p.val e.val (wBank w)
      b.anchor = laAnchor w ∧ b.log = (if wClear w then [] else old.log) ++ [w] ∧
        ∀ i < laRows w, ∀ j < laCols w,
          let first := if wClear w then Ledger.zero else Table.get Ledger.zero old.cells (64 * i + j)
          let l := Table.get Ledger.zero b.cells (64 * i + j)
          l = first.addElem (laAnchor w) (seg (i / 4)) (nth 0 (seg (i / 4)).elems (64 * (i % 4) + j)) Slip.zero ∧
            (first.agrees = true → l.agrees = true)

/-- R69, R74 to R78, R113 to R119: a READOUT of an open, unlost sequence stores the converted ledgers of its tile in
the Yard and completes OK with the flags of its elements and of the sequence; without KEEP the sequence closes, with
KEEP the bank stays as it was. R84, R85, R88 to R92, R122: where a residue check fails the tile is re-executed from
its log, and that output is stored with RETRIED, the ledgers being rebuilt before the sequence goes on; where the
re-execution mismatches too it completes RESIDUE_ERROR and stores nothing; where no engine has a free bank the
mismatch waits. -/
def Obligations.ReadoutStores : Prop :=
  ∀ (s : State) (ring : Fin 4096) (x : W32) (f : Flight) (p : Fin 8) (e : Fin 20) (x1 x2 : TileFaults),
    Running s ring.val x f 0x12 → f.unit = .matrix p e → s.yard.damaged = [] → s.yard.bytes.wf = true →
    let w := f.bits
    let y := s.allot f
    let old := s.bank p.val e.val (wBank w)
    let bias := if roBias w then
        (codesOf (roBiasFmt w) (roCols w) (s.yardGet y (roBiasAddr w) (rowBytes (roBiasFmt w) (roCols w)))).map
          (decode (roBiasFmt w))
      else []
    let tile := s.tileFlags p.val e.val w old false false
    let o := s.tileOut f old bias x1 tile
    let cmd := Instr.readout ring x cleanYard x1 [] { log := [], ecc := cleanYard, faults := x2 }
    old.seq.isSome → old.lost = false → old.rebuild = false → old.held = false →
    ¬ (roFmt w = 0xC ∧ roSegAnchor w < old.anchor + roScaleExp w) → y.holds (roBiasSpans w ++ roSpans w) = true →
    (o.2.2 = true → Apart o.1 →
      ∃ t, exec cmd s = .next t ∧ DecidedWith t ring.val x wsOk (o.2.1.or tile) ∧ Stored s t y o.1 ∧ t.mem = s.mem ∧
        t.bank p.val e.val (wBank w) = (if roKeep w then old else Bank.closed)) ∧
    (o.2.2 = false → s.reexecutor p.val e.val = none →
      ∃ t, exec cmd s = .next t ∧ t.flight ring.val x = some f ∧ t.yard = s.yard ∧ t.mem = s.mem ∧
        t.bank p.val e.val (wBank w) = { old with held := true }) ∧
    (o.2.2 = false → (s.reexecutor p.val e.val).isSome →
      let b := { old with cells := (s.replay f y old.log []).2.1 }
      let tile2 := s.tileFlags p.val e.val w b false true
      let o2 := s.tileOut f b bias x2 tile2
      (o2.2.2 = true → Apart o2.1 →
        ∃ t, exec cmd s = .next t ∧ DecidedWith t ring.val x wsOk (o2.2.1.or tile2) ∧ Stored s t y o2.1 ∧
          t.mem = s.mem ∧
          t.bank p.val e.val (wBank w) = (if roKeep w then { b with rebuild := true } else Bank.closed)) ∧
      (o2.2.2 = false →
        ∃ t, exec cmd s = .next t ∧ DecidedWith t ring.val x wsResidue tile ∧ t.yard = s.yard ∧ t.mem = s.mem ∧
          t.bank p.val e.val (wBank w) = Bank.closed))

/-- R69, R123 to R130: a VECTOR wagon stores its results in the Yard and completes OK. R606: with an overlap that is
not allowed it completes OK as well, stores as many bytes at the same places, whatever they are (log entry 6), and
changes no other byte. R86, R93: where a residue check fails the wagon is executed again, and that output is stored
with RETRIED; where the re-execution mismatches too it completes RESIDUE_ERROR and stores nothing. -/
def Obligations.VectorStores : Prop :=
  ∀ (s : State) (ring : Fin 4096) (x : W32) (f : Flight) (p : Fin 8) (x1 x2 : LaneFaults), Running s ring.val x f 0x20 →
    f.unit = .vector p → s.yard.damaged = [] → s.yard.bytes.wf = true →
    let w := f.bits
    let y := s.allot f
    let tile := { noFlags with dataErr := (s.part p.val).vec.feedErr }
    let out := fun fl x => s.vxOutput y w (s.ctx f.ctx).srSeed fl x
    let o := out tile x1
    let tile2 := { tile with retried := true }
    let o2 := out tile2 x2
    let cmd := Instr.vector ring x cleanYard x1 x2
    y.holds (vxReads w ++ vxDstSpans w ++ vxOutScaleSpans w) = true →
    (o.2.2 = true → vxForbidden w = false → Apart o.1 →
      ∃ t, exec cmd s = .next t ∧ DecidedWith t ring.val x wsOk (o.2.1.or tile) ∧ Stored s t y o.1 ∧ t.mem = s.mem) ∧
    (o.2.2 = true → vxForbidden w = true →
      ∃ t, exec cmd s = .next t ∧ Decided t ring.val x wsOk ∧ t.mem = s.mem ∧
        ∀ k, (∀ a ∈ o.1, k < y.key a.1 ∨ y.key a.1 + a.2.length ≤ k) → t.yard.bytes.get k = s.yard.bytes.get k) ∧
    (o.2.2 = false → o2.2.2 = true → vxForbidden w = false → Apart o2.1 →
      ∃ t, exec cmd s = .next t ∧ DecidedWith t ring.val x wsOk (o2.2.1.or tile2) ∧ Stored s t y o2.1 ∧ t.mem = s.mem) ∧
    (o.2.2 = false → o2.2.2 = false →
      ∃ t, exec cmd s = .next t ∧ Decided t ring.val x wsResidue ∧ t.yard = s.yard ∧ t.mem = s.mem)

/-- R226 to R237: a COPY, GATHER, SCATTER or FILL of one row from the Yard or a pattern to the Yard, alone in its
mover, with the destination apart from its source, moves the row's bytes and completes OK in one step; no other byte
of the Yard or of module memory changes. A row's addresses are the wagon's, with the strides and the index list of
R231, which is read once: the destination may lie over it. -/
def Obligations.MoversMoveRows : Prop :=
  ∀ (s : State) (ring : Fin 4096) (x : W32) (f : Flight) (p : Fin 8) (m : Fin 4) (op : Nat) (cmd : Instr),
    (op, cmd) ∈ [(0x30, Instr.copy ring x noErrs), (0x31, Instr.gather ring x noErrs),
      (0x32, Instr.scatter ring x noErrs), (0x33, Instr.fill ring x noErrs)] →
    Running s ring.val x f op → f.unit = .mover p m → s.unitFlights f.unit = [f] → s.yard.damaged = [] →
    s.yard.bytes.wf = true → (s.mover p.val m.val).reads = [] → f.causes = [] → f.tags = [] → f.plane = 0 → f.row = 0 →
    f.col = 0 → f.issuedAll = false →
    let w := f.bits
    let y := s.allot f
    let idx := s.indexList y w
    let n := mvRowBytes w
    let src := (srcRow w idx 0 0).toNat
    let dst := (dstRow w idx 0 0).toNat
    s.mvRefusal { f with list := idx } = none →
    y.size < 4096 → mvPlanes w = 1 → mvRows w = 1 → mvDstLoc w = 1 → (op = 0x33 ∨ mvSrcLoc w = 1) →
    (op ≠ 0x33 → src + n ≤ dst ∨ dst + n ≤ src) →
    let bytes := if op = 0x33 then (List.range n).map (fun i => BitVec.ofNat 8 (mvAux w / 256 ^ (i % 4)))
      else s.yardGet y src n
    ∃ t, exec cmd s = .next t ∧ Decided t ring.val x wsOk ∧ Stored s t y [(dst, bytes)] ∧ t.mem = s.mem

/-- R227, R236, R237, R373: a COPY of one row within a line of module memory, alone in its mover, asks for it and
waits; R39, R202, R237: the reply under the current generation brings the bytes to the Yard, and the wagon completes
OK; a reply under another generation is dropped and counted; a read of the host that is never answered completes
HOST_ERROR.
The model's choice: the size of a piece (log entry 20). -/
def Obligations.MemoryReadsAndReplies : Prop :=
  ∀ (s : State) (ring : Fin 4096) (x : W32) (f : Flight) (p : Fin 8) (m : Fin 4),
    s.flight ring.val x = some f → s.frozen = false → f.unit = .mover p m → s.unitFlights f.unit = [f] →
    f.causes = [] → f.tags = [] →
    let w := f.bits
    let y := s.allot f
    (∀ pa, Running s ring.val x f 0x30 → s.mvRefusal f = none → (s.mover p.val m.val).reads = [] → f.plane = 0 →
      f.row = 0 → f.col = 0 → f.issuedAll = false → mvPlanes w = 1 → mvRows w = 1 → mvSrcLoc w = 0 →
      mvDstLoc w = 1 → mvSrc w % 64 + mvRowBytes w ≤ 64 → (s.ctx f.ctx).translate false (mvSrc w) = some pa →
      ∃ t r g, exec (.copy ring x noErrs) s = .next t ∧ (t.mover p.val m.val).reads = [r] ∧ r.host = false ∧
        r.src = pa ∧ r.dst = mvDst w ∧ r.n = mvRowBytes w ∧ r.ctx = f.ctx ∧ r.gen = f.gen ∧
        t.flight ring.val x = some g ∧ g.stage = .waiting ∧ g.issuedAll = true ∧ t.yard = s.yard ∧ t.mem = s.mem) ∧
    (∀ r, (s.mover p.val m.val).reads = [r] → r.held = none → r.ring = ring.val → r.index = x → r.n ≤ 64 →
      (((s.ctx r.ctx).gen ≠ r.gen →
        ∃ t, exec (.memoryReadReply p m r.tag (.data []) noErrs) s = .next t ∧ (t.mover p.val m.val).reads = [] ∧
          t.drops = { s.drops with reply := s.drops.reply + 1 } ∧ t.yard = s.yard ∧ t.mem = s.mem)) ∧
      ((s.ctx r.ctx).gen = r.gen → f.stage = .waiting → f.issuedAll = true → wOpcode f.bits = 0x30 →
        (r.host = false → mvDstLoc w = 1 → s.yard.damaged = [] → s.yard.bytes.wf = true →
          (∀ l ∈ s.mem.damaged, l * 64 + 64 ≤ r.src ∨ r.src + r.n ≤ l * 64) →
          ∃ t, exec (.memoryReadReply p m r.tag (.data []) noErrs) s = .next t ∧ Decided t ring.val x wsOk ∧
            Stored s t y [(r.dst, s.mem.bytes.read r.src r.n)] ∧ t.mem = s.mem) ∧
        (r.host = true →
          ∃ t, exec (.pcieCompletionTimeout p m r.tag noErrs) s = .next t ∧ Decided t ring.val x wsHostError ∧
            (t.mover p.val m.val).reads = [] ∧ t.yard = s.yard ∧ t.mem = s.mem)))

/-- R305 to R315: a collective wagon of one segment in a group whose one tree is this module alone writes its own
segment, or its chunk, to its destination in the Yard and completes OK, and the group's last operation is its own; a
collective that has waited past its TIMEOUT completes COLL_TIMEOUT and frees its accumulators. No other collective
waits here: one that does goes on as places come free (R310). -/
def Obligations.CollectivesComplete : Prop :=
  ∀ (s : State) (ring : Fin 4096) (x : W32) (f : Flight) (h : Fin 2),
    f.unit = .coll h → (∀ g ∈ s.marsh.flights, opColl (wOpcode g.bits) = true → g.stage = .waiting → g = f) →
    let w := f.bits
    let y := s.allot f
    let g := clGroup w
    (∀ (op : Nat) (cmd : Instr),
      (op, cmd) ∈ [(0x38, Instr.allreduce ring x noErrs []), (0x39, Instr.reduce ring x noErrs []),
        (0x3A, Instr.broadcast ring x noErrs)] →
      Running s ring.val x f op → s.yard.damaged = [] → s.yard.bytes.wf = true → s.collRefusal f = none →
      Table.get [] (s.ctx f.ctx).groups g = [{ parent := none, children := [] }] → clSegs w = 1 → clSrcLoc w = 1 →
      clDstLoc w = 1 → f.causes = [] → f.tags = [] → f.plane = 0 → f.issuedAll = false → s.rails.accums = [] →
      let own := s.yardGet y (clSrc w) (clBytes w 0)
      (op ≠ 0x3A → (Segment.parse own).flags.dataErr = false) →
      ∃ t, exec cmd s = .next t ∧ Decided t ring.val x wsOk ∧
        Stored s t y [(clDst w, if op = 0x3A then own else (Segment.parse own).bytes)] ∧ t.mem = s.mem ∧
        t.rails.accums = [] ∧ Table.get none (t.ctx f.ctx).opDone g = some (clOpseq w)) ∧
    (s.flight ring.val x = some f → s.frozen = false → f.stage = .waiting → opColl (wOpcode w) = true →
      clTimeout w ≠ 0 → f.causes = [] →
      ∃ t, exec (.collTimeout ring x) s = .next t ∧ Decided t ring.val x wsCollTimeout ∧ t.yard = s.yard ∧
        t.mem = s.mem ∧ Table.get none (t.ctx f.ctx).opDone g = some (clOpseq w) ∧
        ∀ a ∈ t.rails.accums, ¬ (a.ctx = f.ctx ∧ a.group = g ∧ a.opseq = clOpseq w))

/-! ## The rail links -/

/-- R270 to R273: a port in INIT, UP or QUIET whose flits hold 256 bytes sends a frame of 8,192 bytes, its trailer
in the last 256 with its check right where no injection acts, and its frame counter goes up by one; a port in
DOWN or TRAINING sends nothing. R277, R281: a lane never sends more new flits than it holds credits, and the
replay buffer never holds more than 2,048 flits; every new flit is in the replay buffer, under the next sequence
number.
Nothing rests on the order of the lanes (log entry 23). -/
def Obligations.FramesCarryFlits : Prop :=
  (∀ (s : State) (n : Fin 20),
    ((s.port n.val).state = .down ∨ (s.port n.val).state = .training → exec (.frameSend n) s = .next s) ∧
    ((s.port n.val).state = .init ∨ (s.port n.val).state = .up ∨ (s.port n.val).state = .quiet →
      n.val < s.rails.ports.length → (s.port n.val).unit ≠ .absent →
      (∀ l ∈ s.rails.ports, (∀ f ∈ l.replayBuf, f.bytes.length = 256) ∧ ∀ q ∈ l.txq, ∀ f ∈ q, f.bytes.length = 256) →
      ∃ t bs, exec (.frameSend n) s = .next t ∧ t.out = s.out ++ [.frame n.val bs] ∧ bs.length = 8192 ∧
        (t.port n.val).frame = (s.port n.val).frame + 1 ∧ (t.port n.val).state = (s.port n.val).state ∧
        ((s.port n.val).inject = none →
          crc32c ((slice bs 7936 256).take 252) = BitVec.ofNat 32 (getLE (slice bs 7936 256) 252 4)) ∧
        t.ctxs = s.ctxs ∧ t.mem = s.mem)) ∧
  (∀ (p : Port) (vl n : Nat), vl < 4 → p.sent.length = 4 → p.replayBuf.length ≤ 2048 →
    let x := p.sendNew vl n
    x.1.length ≤ (nth 0 p.cred vl - nth 0 p.sent vl).toNat ∧ x.1.length ≤ n ∧ x.2.replayBuf.length ≤ 2048 ∧
      x.2.replayBuf = p.replayBuf ++ x.1 ∧ x.2.txNext = p.txNext + BitVec.ofNat 32 x.1.length ∧
      ∀ i (h : i < x.1.length), (x.1[i]).seq = p.txNext + BitVec.ofNat 32 i)

/-- R271, R274, R275, R281, R284, R287, R319: a frame whose trailer check fails makes the port discard from NEXT on
and is counted. With the check right, a trailer in state UP brings an INIT port UP with RAIL_UP's node; on an UP
port it releases acknowledged flits and sets the credits; a whole one-flit packet in order joins its lane and NEXT
goes up by one; a QUIET trailer takes the link down. A list of bytes that is no frame is a fault. The fault of what
is no frame is the model's (log entry 111). -/
def Obligations.FrameReceiveActs : Prop :=
  ∀ (s : State) (n : Fin 20) (frame : List Byte) (c u : Nat),
    (frame.length ≠ 8192 → exec (.frameReceive n frame c u) s = .fault .illFormed) ∧
    (frame.length = 8192 → n.val < s.rails.ports.length →
      let p := s.port n.val
      let bs := slice frame 7936 256
      let tr := Trailer.parse bs
      let right := crc32c (bs.take 252) = BitVec.ofNat 32 (getLE bs 252 4)
      p.state = .up ∨ p.state = .init → p.unit ≠ .absent →
      ∃ t, exec (.frameReceive n frame c u) s = .next t ∧
        (¬ right → t.port n.val = { p with
          discarding := true, replayFrom := p.next, fecCorrected := p.fecCorrected + BitVec.ofNat 64 c
          fecUncorrectable := p.fecUncorrectable + BitVec.ofNat 64 u
          trailerFail := p.trailerFail + (if tr.inj then 0 else 1)
          trailerFailInj := p.trailerFailInj + (if tr.inj then 1 else 0) }) ∧
        (right → tr.state = 2 → (t.port n.val).state = .training ∧
          (t.port n.val).linkDown = setNth p.linkDown 1 (fun x => x + 1)) ∧
        (right → tr.state = 1 → p.state = .init → dataSlots frame tr.seqBase = [] → tr.replayReq = false →
          (t.port n.val).state = .up ∧ (t.port n.val).peerNode = tr.node ∧ (t.port n.val).cred = tr.cred ∧
          (t.port n.val).next = 0) ∧
        (right → tr.state = 1 → p.state = .up → tr.replayReq = false →
          (dataSlots frame tr.seqBase = [] → (t.port n.val).cred = tr.cred ∧ (t.port n.val).next = p.next ∧
            (t.port n.val).replayBuf = p.replayBuf.filter (fun f => sub32 f.seq (tr.ack + 1) < 2 ^ 31)) ∧
          (∀ f, dataSlots frame tr.seqBase = [(f, true)] → f.seq = p.next → f.first = true → f.last = true →
            f.vl < p.rxq.length → nth [] p.rxPart f.vl = [] → nth false p.rxCut f.vl = false →
            flitCount (field (getLE f.bytes 0 8) 63 42) = 1 →
            (∀ l ∈ p.rxq, ∀ y ∈ l, kindDefined y.1.kind = true) → kindDefined (Packet.parse f.bytes).kind = true →
            (t.port n.val).next = p.next + 1 ∧ (t.port n.val).discarding = false ∧
              nth [] (t.port n.val).rxq f.vl = nth [] p.rxq f.vl ++ [(Packet.parse f.bytes, 1)])))

/-- R269, R278, R284, R287, R288, R304: a trained port goes from TRAINING to INIT with its sequences at 0, and one
that fails to train stays; 8 microseconds without a valid trailer take an UP link down; the end of QUIET makes the
port DOWN; a flit unacknowledged for 4 microseconds starts a replay from it; 1 ms after a link went down a WRITE
without an answer is sent again whole over another port of the route, or waits for one to hold a credit (R297).
The model's choice: the only port of a route is taken again (log entry 125). -/
def Obligations.LinkStatesAndTimers : Prop :=
  ∀ (s : State) (n : Fin 20), n.val < s.rails.ports.length →
    let p := s.port n.val
    (p.state = .training → p.unit ≠ .absent →
      exec (.trainingDone n) s = .next (s.modPort n.val (fun q => q.restart .init)) ∧
      exec (.trainingRetry n) s = .next (s.modPort n.val (fun q => q.restart .training))) ∧
    (p.state = .up → ∃ t, exec (.trailerTimeout n) s = .next t ∧ (t.port n.val).state = .training ∧
      (t.port n.val).linkDown = setNth p.linkDown 0 (fun x => x + 1) ∧ (t.port n.val).txNext = 0) ∧
    (p.state = .quiet → ∃ t, exec (.quietEnd n) s = .next t ∧ (t.port n.val).state = .down ∧
      (t.port n.val).linkDown = setNth p.linkDown 1 (fun x => x + 1)) ∧
    (∀ f rest, p.state = .up → p.replayBuf = f :: rest → p.lastReplay = none →
      ∃ t, exec (.replayTimeout n) s = .next t ∧ (t.port n.val).replayAt = some f.seq ∧
        (t.port n.val).replays = p.replays + 1 ∧ (t.port n.val).replayBuf = p.replayBuf ∧
        (t.port n.val).state = .up) ∧
    (∀ o, s.rails.resend = [(n.val, [o])] → o.packet.kind = 1 → s.route o.packet.dst ≠ [] →
      ∃ t i, exec (.resendWaitExpiry n) s = .next t ∧ t.rails.resend = [] ∧ (t.port n.val).resent = p.resent + 1 ∧
        ((i ∈ s.route o.packet.dst ∧ ((∃ j ∈ s.route o.packet.dst, j ≠ n.val) → i ≠ n.val) ∧
            t.rails.out = s.rails.out ++ [{ o with port := i }] ∧ t.rails.waiting = s.rails.waiting) ∨
          (t.rails.out = s.rails.out ∧ t.rails.waiting = s.rails.waiting ++ [{ o with port := n.val }])))

/-! ## The packets of the rails -/

/-- R158, R183, R232, R291, R292: a WRITE that may act stores its data at its address; a SIGNAL adds to the token
its context owns; a DOORBELL to a ring that its sender feeds moves TAIL within the range of R163. Each leaves its
lane and is answered APPLIED, and no other byte of memory, token or ring changes. R294, R299, R291: a packet for
another node is dropped and counted as misrouted; one under another epoch is counted and answered EPOCH, one under
another generation, or met by a reset of the compute domain (R40), counted in DROP_FLIT with its flits, one whose
sender may not do this in DROP_REFUSED; none of them acts. -/
def Obligations.PacketsAppliedOrRefused : Prop :=
  (∀ (s : State) (n : Fin 20) (vl : Nat) (x : Packet),
    let t0 := s.popPacket n.val vl
    (∀ pa, Arrived s n.val 1 vl x → x.data.length = x.length → MapsTo s x.ctx true x.arg.toNat x.length pa →
      ∃ t, exec (.write n cleanLines) s = .next t ∧ Wrote s t pa x.data ∧ t.tokens = s.tokens ∧ t.rings = s.rings ∧
        t.drops = s.drops ∧ (∃ u : State, t = u.answer x rsApplied ∧ u.rails = t0.rails)) ∧
    (Arrived s n.val 2 vl x → (s.token (field x.arg.toNat 47 32)).owner = some x.ctx →
      exec (.signal n) s = .next ((t0.modToken (field x.arg.toNat 47 32) (fun y =>
        { y with value := y.value + BitVec.ofNat 32 (field x.arg.toNat 31 0) })).answer x rsApplied)) ∧
    (Arrived s n.val 3 vl x →
      let ring := field x.arg.toNat 43 32
      let tail := BitVec.ofNat 32 (field x.arg.toNat 31 0)
      ∀ i, s.boundTo ring x.ctx = true → (s.ring ring).feeder = some i →
        i ∈ (s.ctx x.ctx).entriesFor x.src 3 → (s.ring ring).tailOk tail = true →
        exec (.doorbell n) s =
          .next ((t0.modRing ring (fun q => { q with tail := tail })).answer x rsApplied))) ∧
  (∀ (s : State) (n : Fin 20) (vl kind : Nat) (x : Packet) (cmd : Instr),
    (kind, cmd) ∈ [(1, Instr.write n cleanLines), (2, .signal n), (3, .doorbell n), (4, .mirrorOpen n cleanLines)] →
    (s.port n.val).front kind = some (vl, x) →
    let t0 := s.popPacket n.val vl
    (x.dst ≠ s.rails.node →
      exec cmd s = .next { t0 with drops.misroute := s.drops.misroute + 1 }) ∧
    (x.dst = s.rails.node → s.computeReset = true ∨ x.isCut = true →
      ∃ t, exec cmd s = .next t ∧ t.drops = { s.drops with flit := s.drops.flit + BitVec.ofNat 64 (flitCount x.length) } ∧
        t.ctxs = s.ctxs ∧ t.tokens = s.tokens ∧ t.rings = s.rings ∧ t.mem = s.mem) ∧
    (x.dst = s.rails.node → s.computeReset = false → x.isCut = false → lengthOk x = true →
      ∃ t, exec cmd s = .next t ∧
        (x.epoch ≠ s.rails.epoch → t.drops = { s.drops with epoch := s.drops.epoch + 1 } ∧ t.ctxs = s.ctxs ∧
          t.tokens = s.tokens ∧ t.rings = s.rings ∧ t.mem = s.mem) ∧
        (x.epoch = s.rails.epoch → s.rails.epoch ≠ 0 → (s.ctx x.ctx).gen ≠ x.gen →
          t.drops = { s.drops with flit := s.drops.flit + BitVec.ofNat 64 (flitCount x.length) } ∧
          t.ctxs = s.ctxs ∧ t.tokens = s.tokens ∧
          t.rings = s.rings ∧ t.mem = s.mem) ∧
        (x.epoch = s.rails.epoch → s.rails.epoch ≠ 0 → (s.ctx x.ctx).gen = x.gen → (s.ctx x.ctx).state = .active →
          (s.ctx x.ctx).entriesFor x.src x.kind = [] →
          t.drops = { s.drops with refused := s.drops.refused + 1 } ∧ t.ctxs = s.ctxs ∧ t.tokens = s.tokens ∧
          t.rings = s.rings ∧ t.mem = s.mem)))

/-- R258, R259, R262, R291, R292: MIRROR_OPEN opens the slot that is not the committed one and counts from 0;
MIRROR_CLOSE of the opened slot with every byte applied writes the store record (step, seed, source, slot, epoch) at
the start of the store and is answered ACCEPT; any other, and one whose record cannot be written (log entry 127), is
answered REJECT and writes nothing. R260, R263: a mirror whose OPEN or pages are not acknowledged in 500 ms, or
whose CLOSE has no reply in 10 ms, fails: its commit is decided COUPLING_FAILED, both bits of every coupled page are
set and no slot is known as committed. While it waits for something else the time-out changes nothing. -/
def Obligations.MirrorPacketsAndTimeouts : Prop :=
  (∀ (s : State) (n : Fin 20) (vl : Nat) (x : Packet) (y : Store),
    (s.ctx x.ctx).store = some y → y.sourceNode = x.src → y.restoring = none →
    let slot := bit x.pflags 0
    (Arrived s n.val 4 vl x →
      ¬ ((s.storeRecord x.ctx cleanLines).2.1.valid = true ∧ (s.storeRecord x.ctx cleanLines).2.1.slot = slot) →
      ∃ t, exec (.mirrorOpen n cleanLines) s = .next t ∧
        t.ctx x.ctx = { s.ctx x.ctx with
          store := some { y with opened := some (x.arg, slot, (s.ctx x.ctx).gen), applied := 0 } } ∧
        t.mem.bytes = s.mem.bytes) ∧
    (Arrived s n.val 5 vl x →
      ((y.opened = some (x.arg, slot, (s.ctx x.ctx).gen) ∧ y.applied = getLE x.data 0 8) →
        ∀ p pa, (s.ctx x.ctx).peers[y.sourcePeer]? = some p → MapsTo s x.ctx true 0 320 pa →
          let table := slice x.data 16 256
          let rec_ : StoreRecord :=
            { step := x.arg, seed := BitVec.ofNat 64 (getLE x.data 8 8), node := y.sourceNode, ctx := p.remoteCtx
              gen := p.remoteGen, slot := slot, valid := true, epoch := s.rails.epoch
              slotBytes := BitVec.ofNat 64 y.slotBytes, regions := regionCount table }
          ∃ t, exec (.mirrorClose n) s = .next t ∧ (∃ u : State, t = u.mirrorReplyTo x.src x.tag x.arg true) ∧
            Wrote s t pa (rec_.bytes ++ table)) ∧
      (¬ (y.opened = some (x.arg, slot, (s.ctx x.ctx).gen) ∧ y.applied = getLE x.data 0 8) ∨
          (s.ctx x.ctx).headerWritable = false →
        exec (.mirrorClose n) s =
          .next ((s.popPacket n.val vl).mirrorReplyTo x.src x.tag x.arg false)))) ∧
  (∀ (s : State) (c : Fin 262144) (m : Mirror) (f : Flight), (s.ctx c.val).mirror = some m →
    (s.ctx c.val).state ≠ .free → s.flight m.ring m.index = some f →
    let fails := fun (cmd : Instr) => ∃ t, exec cmd s = .next t ∧ Decided t m.ring m.index wsCoupling ∧
      t.ctx c.val = { s.ctx c.val with mirror := none, committed := none, dCur := (s.ctx c.val).regionPages
                                       dPrev := (s.ctx c.val).regionPages } ∧ t.mem = s.mem ∧ t.rails = s.rails
    (m.phase ≠ .closing → fails (.mirrorAckTimeout c) ∧ exec (.mirrorCloseTimeout c) s = .next s) ∧
    (m.phase = .closing → fails (.mirrorCloseTimeout c) ∧ exec (.mirrorAckTimeout c) s = .next s))

/-- R198, R261: an ACCEPT of a mirror's CLOSE commits the step and remembers the slot. R193, R293: a DACK entry
APPLIED lets the remote signal that waits for it complete OK, another result PEER_LOST. R282, R609: while the
compute clock is stopped both answers are taken in and kept, and nothing follows yet. -/
def Obligations.AnswersSettleWhatWaits : Prop :=
  ∀ (s : State) (n : Fin 20) (vl : Nat) (x : Packet) (o : OutPacket),
    (ReplyArrived s n.val 6 vl x → s.unsettled x.src x.tag isClose = some o →
      (s.frozen = true → ∃ t, exec (.mirrorReply n) s = .next t ∧ t.ctxs = s.ctxs ∧ t.marsh = s.marsh ∧
        t.rails.held = s.rails.held ++ [(o, .reply (bit x.pflags 0))] ∧ o ∉ t.rails.out) ∧
      ∀ c m f, s.frozen = false → o.waiter = .mirrorClose c → (s.ctx c).mirror = some m → m.phase = .closing →
        x.tag.toNat ∈ m.tags →
        (s.ctx c).state = .active → s.flight m.ring m.index = some f →
        ∃ t, exec (.mirrorReply n) s = .next t ∧
          (bit x.pflags 0 = true → Decided t m.ring m.index wsOk ∧
            t.ctx c = { s.ctx c with step := (s.ctx c).step + 1, dPrev := (s.ctx c).dCur, dCur := []
                                     mirror := none, committed := some m.slot }) ∧
          (bit x.pflags 0 = false → Decided t m.ring m.index wsCoupling ∧ (t.ctx c).step = (s.ctx c).step ∧
            (t.ctx c).committed = none)) ∧
    (ReplyArrived s n.val 0xB vl x → field x.arg.toNat 7 0 = 1 →
      let entry := getLE x.data 0 8
      s.unsettled x.src (BitVec.ofNat 32 (field entry 31 0)) (fun y => !isClose y) = some o →
      (s.frozen = true → ∃ t, exec (.dack n cleanLines) s = .next t ∧ t.ctxs = s.ctxs ∧ t.marsh = s.marsh ∧
        t.rails.held = s.rails.held ++ [(o, .result (field entry 39 32))] ∧ o ∉ t.rails.out) ∧
      ∀ ring index f, s.frozen = false →
        (∀ g ∈ s.marsh.flights, opColl (wOpcode g.bits) = true → g.stage ≠ .waiting) →
        o.waiter = .wagon ring index → s.flight ring index = some f → wOpcode f.bits = 0x41 →
        o.packet.tag.toNat ∈ f.tags →
        ∃ t, exec (.dack n cleanLines) s = .next t ∧
          (field entry 39 32 = 0 → Decided t ring index wsOk) ∧
          (field entry 39 32 ≠ 0 → Decided t ring index wsPeerLost) ∧ t.tokens = s.tokens ∧ t.mem = s.mem)

/-- R306, R309 to R313: before its own wagon runs, a child's contribution is kept in the segment's accumulator and a
parent's result waits there; COLL_ABORT decides the running wagon of the operation REMOTE_ABORT. R301, R510: a
notice that the own epoch was revoked stops the sending of context packets, makes the epoch 0 and starts the
teardown of every ACTIVE context. -/
def Obligations.CollectiveAndEpochPackets : Prop :=
  ∀ (s : State) (n : Fin 20) (vl : Nat) (x : Packet),
    (Arrived s n.val 8 vl x → s.upWaits n.val = false → s.opOver x = false →
      s.running_ x.ctx (clArgGroup x) (clArgSeq x) = none →
      ∀ i, s.neighbour x (fun r => r.children) = some i → (s.accumFor x).sources.contains (some i) = false →
        ∃ t a, exec (.collUp n noErrs []) s = .next t ∧ t.accum x.ctx (clArgGroup x) (clArgSeq x) (clArgSeg x) = some a ∧
          a.sources = (s.accumFor x).sources ++ [some i] ∧ ((s.accumFor x).sum = none → a.sum = some x.data)) ∧
    (Arrived s n.val 9 vl x → s.opOver x = false →
      s.running_ x.ctx (clArgGroup x) (clArgSeq x) = none → (s.accumFor x).written = false →
      (s.accumFor x).sum = none → ∀ i, s.neighbour x (fun r => r.parent.toList) = some i →
        ∃ t a, exec (.collDown n noErrs) s = .next t ∧ t.accum x.ctx (clArgGroup x) (clArgSeq x) (clArgSeg x) = some a ∧
          a.sum = some x.data ∧ a.sentUp = true) ∧
    (Arrived s n.val 0xA vl x → s.frozen = false →
      ∀ f, s.running_ x.ctx (clArgGroup x) (clArgSeq x) = some f → f.causes = [] →
        s.flight f.ring f.index = some f →
        (∀ g ∈ s.marsh.flights, opColl (wOpcode g.bits) = true → g.stage = .waiting → g = f) →
        ∃ t, exec (.collAbort n) s = .next t ∧ Decided t f.ring f.index wsRemoteAbort ∧
          Table.get none (t.ctx x.ctx).opDone (clArgGroup x) = some (clArgSeq x)) ∧
    ((s.port n.val).front 0xC = some (vl, x) → x.dst = s.rails.node → lengthOk x = true → s.rails.epoch ≠ 0 →
      field x.arg.toNat 31 0 = s.rails.epoch.toNat → field x.arg.toNat 63 32 ≠ s.rails.epoch.toNat →
      ∃ t, exec (.epochNotice n) s = .next t ∧ t.rails.epoch = 0 ∧ t.rails.stopped = true ∧
        s.rails.epoch ∈ t.rails.revoked ∧ ∀ c, (s.ctx c).state = .active → (t.ctx c).state = .teardown)

/-! ## Class 0x09: the rails' requests -/

/-- R296, R298, R319, R368, R369, R512: RAIL_NODE_SET gives the module its node id; ROUTE_SET writes the entries it
names; EPOCH_SET to an epoch that is neither 0 nor revoked sets it, revokes the one before and answers it, 0 is
malformed; RAIL_STATUS answers a port's state, far node and fourteen counters. -/
def Obligations.RailSettings : Prop :=
  ∀ (s : State) (r : Request) (rest : List Request) (ch : Chan), s.power.state ≠ .holdUp →
    (Asked s ch 0x0900 r rest → Shaped r 4 [] → r.get 0 4 ≠ 0xFFFFFFFF →
      ∃ t, exec (.railNodeSet ch) s = .next t ∧ Answered t r stOk 0 [] ∧
        OnlyBook { s with rails.node := BitVec.ofNat 32 (r.get 0 4) } t) ∧
    (Asked s ch 0x0901 r rest → let first := r.get 0 2; let n := r.get 2 2
      Shaped r (4 + 8 * n) [] → n ≤ 59 → first + n ≤ 8192 → first ≤ 8191 →
      (∀ i < n, r.get (8 + 8 * i) 4 < 2 ^ 20 ∧
        ∀ k < 20, bit (r.get (8 + 8 * i) 4) k = true → s.portOut k = false) →
      ∃ t, exec (.routeSet ch) s = .next t ∧ Answered t r stOk 0 [] ∧
        (∀ i < n, r.get (4 + 8 * i) 4 ≠ 0xFFFFFFFF → Table.get noRoute t.rails.routes (first + i) =
          (BitVec.ofNat 32 (r.get (4 + 8 * i) 4), BitVec.ofNat 20 (r.get (8 + 8 * i) 4))) ∧
        ∀ j, j < first ∨ first + n ≤ j → Table.get noRoute t.rails.routes j = Table.get noRoute s.rails.routes j) ∧
    (Asked s ch 0x0902 r rest → Shaped r 4 [] → let e : W32 := BitVec.ofNat 32 (r.get 0 4)
      e ≠ 0 → e ∉ s.rails.revoked → e ≠ s.rails.epoch →
      ∃ t, exec (.epochSet ch) s = .next t ∧ Answered t r stOk 0 (leBytes 4 s.rails.epoch.toNat) ∧
        t.rails.epoch = e ∧ t.rails.stopped = false ∧ (s.rails.epoch ≠ 0 → s.rails.epoch ∈ t.rails.revoked) ∧
        t.rails.revoked.length ≤ max 8 s.rails.revoked.length ∧ (s.rails.epoch = 0 → t.ctxs = s.ctxs) ∧
        t.mem = s.mem ∧ t.rings = s.rings ∧ t.tokens = s.tokens) ∧
    (Asked s ch 0x0902 r rest → Shaped r 4 [] → r.get 0 4 = 0 →
      ∃ t, exec (.epochSet ch) s = .next t ∧ OnlyBook s t ∧ Answered t r stMalformed 0 []) ∧
    (Asked s ch 0x0908 r rest → Shaped r 4 [(1, 3)] → let p := s.port (r.get 0 1)
      r.get 0 1 ≤ 19 → p.unit ≠ .absent → p.unit ≠ .fenced →
      ∃ t, exec (.railStatus ch) s = .next t ∧ OnlyBook s t ∧
        Answered t r stOk 0 (leBytes 1 (portCode p.state) ++ leBytes 3 0 ++ leBytes 4 p.peerNode.toNat
          ++ (([p.fecCorrected, p.fecUncorrectable, p.slotFail, p.slotFailInj, p.trailerFail, p.trailerFailInj,
            p.replays, nth 0 p.linkDown 0, nth 0 p.linkDown 1, nth 0 p.linkDown 2, nth 0 p.linkDown 3, p.resent,
            p.collDuplicate, nth 0 p.linkDown 4] : List W64).map (fun v => leBytes 8 v.toNat)).flatten))

/-- R157, R305, R369: PEER_SET writes the peer entries it names and answers the new count; COLL_GROUP_SET on a
HALTED context whose parents and children may write here sets the trees of its group and forgets the group's last
operation. R510: SIDING_ENTER makes the epoch 0, revokes the old one and starts the teardown of every live context;
it is answered at once where every context is FREE or in quarantine. -/
def Obligations.PeersGroupsSiding : Prop :=
  ∀ (s : State) (r : Request) (rest : List Request) (ch : Chan), s.power.state ≠ .holdUp →
    (∀ c, Naming s r c →
      (Asked s ch 0x0903 r rest → let first := r.get 6 2; let n := r.get 8 2
        Shaped r (16 + 16 * n) [(10, 6)] → 0 < n → n ≤ 29 → first ≤ 1023 → first + n ≤ 1024 →
        (∀ i < n, peerReserved (r.get (16 + 16 * i) 16) = none) →
        ∃ t, exec (.peerSet ch) s = .next t ∧ OnlyBook { s with ctxs := t.ctxs } t ∧
          (∀ i < n, (t.ctx c).peers[first + i]? = some (Peer.parse (r.get (16 + 16 * i) 16))) ∧
          (∀ j, j < (s.ctx c).peers.length → j < first ∨ first + n ≤ j →
            (t.ctx c).peers[j]? = (s.ctx c).peers[j]?) ∧
          (t.ctx c).peers.length = max (s.ctx c).peers.length (first + n) ∧
          Answered t r stOk 0 (leBytes 2 (t.ctx c).peers.length ++ leBytes 2 0)) ∧
      (Asked s ch 0x0907 r rest → let g := r.get 6 1; let n := r.get 7 1
        Shaped r (8 + 18 * n) [] → (s.ctx c).state = .halted → g ≤ 15 → 0 < n → n ≤ 16 →
        (∀ i < n, ∀ e ∈ r.tree i, (s.ctx c).treePeer e = true) →
        ∃ t, exec (.collGroupSet ch) s = .next t ∧ OnlyBook { s with ctxs := t.ctxs } t ∧ Answered t r stOk 0 [] ∧
          (Table.get [] (t.ctx c).groups g).length = n ∧
          ∀ i < n, (Table.get [] (t.ctx c).groups g)[i]? = some
            { parent := if nth 0xFFFF (r.tree i) 0 = 0xFFFF then none else some (nth 0xFFFF (r.tree i) 0)
              children := ((r.tree i).drop 1).filter (fun e => e ≠ 0xFFFF) })) ∧
    (Asked s ch 0x0909 r rest → Shaped r 0 [] → s.power.state ≠ .standby →
      ∃ t, exec (.sidingEnter ch) s = .next t ∧ t.rails.epoch = 0 ∧
        (s.rails.epoch ≠ 0 → s.rails.epoch ∈ t.rails.revoked) ∧
        (∀ c, (s.ctx c).state = .active ∨ (s.ctx c).state = .halted ∨ (s.ctx c).state = .restoring →
          (t.ctx c).state = .teardown) ∧
        (s.allQuiet = true → Replied t r stOk 0 []))

/-- R256 to R261, R265, R369: COUPLE_SET on a HALTED context with a buddy in use and whole, mapped, disjoint regions
sets them, marks every page of them and forgets the committed slot; COUPLE_STORE makes a HALTED context the store of
a peer; COUPLE_RESTORE of a valid record answers its step and seed at once where it names no region, and otherwise
sends its pages and waits. -/
def Obligations.CouplingRequests : Prop :=
  ∀ (s : State) (r : Request) (rest : List Request) (ch : Chan) (c : Nat), s.power.state ≠ .holdUp → Naming s r c →
    (Asked s ch 0x0904 r rest → let n := r.get 8 1
      Shaped r (16 + 16 * n) [(9, 7)] → (s.ctx c).state = .halted → n ≤ 16 →
      ((s.ctx c).peer (r.get 6 2)).isSome → r.get 6 2 ≠ 0xFFFF → regionFault (s.ctx c) r.coupled = none →
      ∃ t, exec (.coupleSet ch) s = .next t ∧ OnlyBook { s with ctxs := t.ctxs } t ∧ Answered t r stOk 0 [] ∧
        (t.ctx c).regions = r.coupled ∧ (t.ctx c).buddy = some (r.get 6 2) ∧ (t.ctx c).committed = none ∧
        (t.ctx c).dCur = (t.ctx c).regionPages ∧ (t.ctx c).dPrev = (t.ctx c).regionPages ∧
        (∀ m, m ≠ c → t.ctx m = s.ctx m)) ∧
    (∀ p, Asked s ch 0x0905 r rest → Shaped r 24 [(12, 4)] → (s.ctx c).state = .halted →
      (s.ctx c).peer (r.get 6 2) = some p → p.writeIn = true → p.node = BitVec.ofNat 32 (r.get 8 4) →
      (s.ctx c).pagesMapped 0 (storeHeader + 2 * r.get 16 8) = true → (s.ctx c).headerWritable = true →
      ∃ t, exec (.coupleStore ch cleanLines) s = .next t ∧ Answered t r stOk 0 [] ∧
        (t.ctx c).store = some { sourceNode := BitVec.ofNat 32 (r.get 8 4), sourcePeer := r.get 6 2
                                 slotBytes := r.get 16 8, opened := none, applied := 0, restoring := none } ∧
        t.rings = s.rings ∧ t.tokens = s.tokens ∧ ∀ m, m ≠ c → t.ctx m = s.ctx m) ∧
    (∀ y p, Asked s ch 0x0906 r rest → Shaped r 8 [] → (s.ctx c).store = some y → y.restoring = none →
      s.mem.damaged = [] → (s.ctx c).peer (r.get 6 2) = some p →
      let q := (s.storeRecord c cleanLines).2.1
      let pages := slotPagesOf 0 (storeRegions q.regions (s.memGet c cleanLines 64 256).2.1)
      q.valid = true →
      (pages = [] → ∃ t, exec (.coupleRestore ch cleanLines) s = .next t ∧ OnlyBook s t ∧
        Answered t r stOk 0 (leBytes 8 q.step.toNat ++ leBytes 8 q.seed.toNat)) ∧
      (∀ tags u, pages ≠ [] → (s.started ch r rest).restorePages c p cleanLines
          (storeHeader + slotNo q.slot * q.slotBytes.toNat) pages = (some tags, u) →
        ∃ t, exec (.coupleRestore ch cleanLines) s = .next t ∧ tags.length = pages.length ∧
          (t.ctx c).store = some { y with restoring := some { req := r, tags := tags, step := q.step, seed := q.seed } }))

/-! ## The Booking Office's channels -/

/-- R327, R328, R332, R335, R336, R339, R342: a doorbell one ahead of IN_SEQ, or receipt that goes on, takes a whole
one-part request out of its slot, and a message in sequence, in whatever packets it comes, brings one on MCTP:
IN_SEQ goes up by one and the request joins the received ones. A doorbell more than 32 ahead sets ERR 4, and a slot
with a wrong CRC sets ERR 1, both with the slot of IN_SEQ, and IN_SEQ stays.
The model's reading: which slot an overrun names (log entry 71). -/
def Obligations.RequestsAreReceived : Prop :=
  ∀ (s : State), s.book.fwState = 3 →
    let c := s.book.pcie
    let bs := s.book.inWin.read (512 * (c.inSeq.toNat % 32)) 512
    let k := ticketOf bs
    let got := fun (t : State) => t.book.pcie.inSeq = c.inSeq + 1 ∧ t.book.err = 0 ∧ t.book.pcie.tail = none ∧
      t.book.pcie.received = c.received ++ [{ chan := .pcie, opcode := k.opcode, flags := k.flags, client := k.client
                                              tag := k.tag, ack := k.ack, payload := k.payload, broken := false
                                              seq := k.seq, parts := 1, arrival := s.book.arrivals }]
    (frameError bs c.inSeq = 0 → c.hasPlace = true → c.chain = [] → k.more = false → k.headerBad = false →
      (s.hostUp = true → ∃ t, exec (.mbxInDoorbell (c.inSeq + 1)) s = .next t ∧ got t) ∧
      (c.tail = some (c.inSeq + 1) → ∃ t, exec .mailboxRequestReceive s = .next t ∧ got t)) ∧
    (∀ tail, s.hostUp = true → 32 < sub32 tail c.inSeq →
      ∃ t, exec (.mbxInDoorbell tail) s = .next t ∧ t.book.err = 4 ∧ t.book.errSlot = c.inSeq.toNat % 32 ∧
        t.book.pcie.inSeq = c.inSeq ∧ t.book.pcie.received = c.received) ∧
    (s.hostUp = true → k.length ≤ 480 → ticketCrc bs ≠ k.crc → c.hasPlace = true →
      ∃ t, exec (.mbxInDoorbell (c.inSeq + 1)) s = .next t ∧ t.book.err = 1 ∧
        t.book.errSlot = c.inSeq.toNat % 32 ∧ t.book.pcie.inSeq = c.inSeq ∧ t.book.pcie.received = c.received) ∧
    (∀ own src packets message, s.book.eid = some own → s.book.peer = some src → s.mctpHears src false = true →
      assemble own none packets = some (src, message) → 37 ≤ message.length → message.take 5 = ticketMessage [] →
      let m := ticketOf (message.drop 5)
      m.length ≤ 480 → ticketCrc (message.drop 5) = m.crc → m.opcode ≠ 0x0100 → m.seq = s.book.mctp.inSeq →
      s.book.mctp.hasPlace = true → s.book.mctp.chain = [] → m.more = false → m.headerBad = false →
      ∃ t, exec (.vendorDefinedMessage packets) s = .next t ∧ t.book.mctp.inSeq = s.book.mctp.inSeq + 1 ∧
        t.book.mctp.received = s.book.mctp.received ++
          [{ chan := .mctp, opcode := m.opcode, flags := m.flags, client := m.client, tag := m.tag, ack := m.ack
             payload := m.payload, broken := false, seq := m.seq, parts := 1, arrival := s.book.arrivals }])

/-- R323, R337, R338, R342, R343: the oldest outbound ticket is written under OUT_SEQ, into its slot of the window
with PENDING set, or as a message to the tray controller, and OUT_SEQ goes up by one; MBX_OUT_ACK within OUT_ACK and
OUT_SEQ - 1 becomes OUT_ACK and any other is ignored; a 1 written to MBX_OUT_DOORBELL clears PENDING; the resend
time-out sends every unacknowledged MCTP ticket again, marked REPLAYED. -/
def Obligations.TicketsGoOut : Prop :=
  ∀ (s : State),
    (∀ (ch : Chan) (q : OutTicket) (rest : List OutTicket), s.chanUp ch = true → (s.chan ch).mayWrite = true →
      (s.chan ch).queue = q :: rest → q.payload.length ≤ 480 → (s.chan ch).lost = 0 → s.book.outWin.wf = true →
      let x : SentTicket := { seq := (s.chan ch).outSeq, more := false, replayed := false, ticket := q }
      let bs := x.bytes (s.chan ch).ackOut
      ∃ t, exec (.outboundTicketWrite ch) s = .next t ∧ (t.chan ch).outSeq = (s.chan ch).outSeq + 1 ∧
        (t.chan ch).queue = rest ∧ (t.chan ch).sent.getLast? = some x ∧ (t.chan ch).outAck = (s.chan ch).outAck ∧
        (ch = .pcie → t.book.pending = true ∧
          t.book.outWin.read (512 * ((s.chan ch).outSeq.toNat % 32)) bs.length = bs) ∧
        (∀ dst, ch = .mctp → s.book.peer = some dst →
          t.out = s.out ++ [.mctp dst (s.blockWrites dst (ticketMessage bs))])) ∧
    (∀ ack, s.hostUp = true → exec (.mbxOutAck ack) s = .next { s with
      book.pcie.outAck := if s.book.pcie.ackInRange ack then ack else s.book.pcie.outAck }) ∧
    (∀ v : W32, s.hostUp = true →
      exec (.mbxOutDoorbell v) s = .next { s with book.pending := s.book.pending && !bit v.toNat 0 }) ∧
    (∀ dst, s.chanUp .mctp = true → s.book.peer = some dst →
      ∃ t, exec .mctpResendTimeout s = .next t ∧ t.out = s.out ++ s.book.mctp.unacked.map (fun x =>
          .mctp dst (s.blockWrites dst (ticketMessage ({ x with replayed := true }.bytes s.book.mctp.ackOut)))) ∧
        t.book.mctp.outSeq = s.book.mctp.outSeq)

/-- R183, R195, R202: a whole TOK_SIGNAL write with the generation of the token's owner adds to its VALUE, any other
is dropped and counted. R337, R382, R383, R386: a vector that fell due during its interval is sent when it ends;
unmasking a vector with its PBA bit set sends its message and clears the bit; ones written to RNG_IRQ_PEND clear. -/
def Obligations.SignalsAndVectors : Prop :=
  ∀ (s : State), s.hostUp = true →
    (∀ (k : Fin 65536) (v : W64) (c : Nat), (s.token k.val).owner = some c →
      ((s.ctx c).gen.toNat = field v.toNat 63 48 →
        ∃ t, exec (.tokSignal k v true) s = .next t ∧ t = { s with tokens := t.tokens } ∧
          ∀ i, t.token i = if i = k.val then
            { s.token k.val with value := (s.token k.val).value + BitVec.ofNat 32 (field v.toNat 31 0) }
            else s.token i) ∧
      ((s.ctx c).gen.toNat ≠ field v.toNat 63 48 →
        exec (.tokSignal k v true) s = .next { s with drops.signal := s.drops.signal + 1 })) ∧
    (∀ (v : Fin 2048), let e := s.msixEntry v.val
      (v.val ∈ s.pcie.holdoff → v.val ∉ s.pcie.due →
        ∃ t, exec (.msixHoldoffExpiry v) s = .next t ∧ v.val ∉ t.pcie.holdoff ∧ t.out = s.out) ∧
      (v.val ∈ s.pcie.holdoff → v.val ∈ s.pcie.due → e.masked = false → e.programmed = true →
        s.pcie.msixEnabled = true →
        ∃ t, exec (.msixHoldoffExpiry v) s = .next t ∧ t.out = s.out ++ [.msix v.val e.addr e.data] ∧
          v.val ∈ t.pcie.holdoff ∧ v.val ∉ t.pcie.due) ∧
      (v.val ∈ s.pcie.pba → v.val ∉ s.pcie.holdoff → e.programmed = true → s.pcie.msixEnabled = true →
        ∃ t, exec (.msixVectorUnmask v) s = .next t ∧ t.out = s.out ++ [.msix v.val e.addr e.data] ∧
          v.val ∉ t.pcie.pba ∧ (t.msixEntry v.val).masked = false)) ∧
    (∀ (k : Fin 64) (m : W64), ∃ t, exec (.rngIrqPend k m) s = .next t ∧ t = { s with pcie.irqPend := t.pcie.irqPend } ∧
      ∀ i, i ∈ t.pcie.irqPend ↔ i ∈ s.pcie.irqPend ∧ ¬ (i / 64 = k.val ∧ bit m.toNat (i % 64) = true))

/-- R331, R372 to R378, R596, R597: a configuration write sets the register it names, the BARs only in their
writable bits beside the type bits they keep, leaves the identity bytes, and does nothing before the endpoint
completes configuration requests; a BAR0 write below 0x4000 goes to the inbound window, a BAR2 write that has no
command of its own is ignored; a conventional reset puts the configuration space, the BARs and the MSI-X table at
their reset values and, but for PERST_L, the link trains again; PERST_L low takes the link away until it rises. Link
Status holds what training settled on. The writable bits, the layout and the reset values that the spec leaves to
PCI Express are the model's (log entries 5 and 135). -/
def Obligations.EndpointWritesAndResets : Prop :=
  ∀ (s : State),
    (∀ reg, s.pcie.ready = false → exec (.configWrite reg) s = .next s) ∧
    (s.pcie.ready = true →
      (∀ on, ∃ t, exec (.configWrite (.busMaster on)) s = .next t ∧ t.pcie.busMaster = on ∧ t.mem = s.mem) ∧
      (∀ d, ∃ t, exec (.configWrite (.dState d)) s = .next t ∧ t.pcie.d3hot = d ∧ t.mem = s.mem) ∧
      (∀ on, ∃ t, exec (.configWrite (.msixEnable on)) s = .next t ∧ t.pcie.msixEnabled = on ∧ t.mem = s.mem) ∧
      (∀ on, exec (.configWrite (.relaxedOrdering on)) s = .next { s with pcie.relaxed := on }) ∧
      (∀ i v, exec (.configWrite (.bar i v)) s = .next { s with
        pcie.bars := setNth s.pcie.bars i.val (fun _ => (v &&& nth 0 barMask i.val) ||| nth 0 barTypes i.val) }) ∧
      (∀ off v, s.configAt off.val = none →
        exec (.configWrite (.other off v)) s = .next { s with pcie.config := s.pcie.config.put off.val v }) ∧
      (∀ off v, off.val < 4 ∨ 8 ≤ off.val ∧ off.val < 12 ∨ 0x2C ≤ off.val ∧ off.val < 0x30 →
        exec (.configWrite (.other off v)) s = .next s)) ∧
    ((List.range 4).map s.configByte = leBytes 2 0x1D7B ++ leBytes 2 0x0960 ∧
      (List.range 4).map (fun i => s.configByte (8 + i)) = leBytes 1 0xB0 ++ leBytes 3 0x120000 ∧
      (List.range 4).map (fun i => s.configByte (0x2C + i)) = leBytes 2 0x1D7B ++ leBytes 2 0x0001 ∧
      (List.range 2).map (fun i => s.configByte (0x82 + i)) = leBytes 2 (s.pcie.speed + 16 * s.pcie.width)) ∧
    (s.hostUp = true →
      (∀ off bs, off < 0x4000 → off + bs.length ≤ 0x4000 →
        exec (.registerWriteOther .bar0 off bs) s = .next { s with book.inWin := s.book.inWin.write off bs }) ∧
      (∀ off bs, exec (.registerWriteOther .bar2 off bs) s = .next s)) ∧
    (s.hostUp = false → ∀ bar off bs, exec (.registerWriteOther bar off bs) s = .next (s.emit .unsupported)) ∧
    (∀ how link, ∃ t, exec (.pcieConventionalReset how link) s = .next t ∧ t.pcie.busMaster = false ∧
      t.pcie.msixEnabled = false ∧ t.pcie.msix = [] ∧ t.pcie.pba = [] ∧ t.pcie.config = [] ∧ t.pcie.bars = barTypes ∧
      t.book = s.book ∧ t.ctxs = s.ctxs ∧ t.rings = s.rings ∧
      (how = .perst → t.start.perst = false ∧ t.pcie.linkUp = false ∧ t.pcie.ready = false) ∧
      (how ≠ .perst → s.pcie.linkUp = true → s.start.perst = true → s.start.control = true →
        t.pcie.linkUp = true ∧ t.pcie.ready = true ∧ t.pcie.speed = link.speed.val + 1 ∧
          t.pcie.width = 2 ^ link.width.val) ∧
      (how ≠ .perst → s.pcie.linkUp = false → t.pcie.linkUp = false)) ∧
    (∀ link, ∃ t, exec (.perstLRise link) s = .next t ∧ t.start.perst = true ∧ t.pcie.linkUp = s.start.control ∧
      t.pcie.ready = s.start.control ∧ t.book = s.book ∧
      (s.start.control = true → t.pcie.speed = link.speed.val + 1 ∧ t.pcie.width = 2 ^ link.width.val))

/-! ## MCTP control and Roundhouse -/

/-- R341: what is sent in packets on SMBus arrives as it was sent. Set Endpoint ID of a peer, or of the first one,
sets the endpoint ID and names the peer; the other control commands answer the endpoint ID, the versions, the
message types and the vendor-defined support. (The form of the messages and packets: log entries 26 and 134.) R563:
in Roundhouse the PLDM base and inventory commands of the peer are answered from the module's identity and change
nothing but what is sent out; before an update GetStatus reports idle. -/
def Obligations.MctpAndPldmAnswers : Prop :=
  (∀ (own src slave : Byte) (message : List Byte), message ≠ [] →
    assemble own none ((messagePackets own src message).map (smbWrite smbAddress slave)) = some (src, message)) ∧
  (∀ (s : State) (src : Byte),
    (∀ slave op eid : Byte, s.mctpHears src true = true → op.toNat % 4 ≤ 1 → 8 ≤ eid.toNat → eid ≠ 0xFF →
      exec (.setEndpointId src slave op eid) s = .next
        ({ s with book.eid := some eid, book.peer := some src, book.peerSlave := slave &&& 0x7F }.emit
          (.control src "Set Endpoint ID" [0, 0, eid, 0]))) ∧
    (s.mctpHears src false = true →
      exec (.getEndpointId src) s =
        .next (s.emit (.control src "Get Endpoint ID" [0, s.book.eid.getD 0, 0, 0])) ∧
      exec (.getMctpVersionSupport src 0xFF) s = .next (s.emit (.control src "Get MCTP Version Support"
        ([0] ++ leBytes 1 ((Config.mctpVersions 0xFF).length / 4) ++ Config.mctpVersions 0xFF))) ∧
      exec (.getMessageTypeSupport src) s = .next (s.emit (.control src "Get Message Type Support"
        (if s.book.fwState = 1 then [0, 1, 0x01] else [0, 1, 0x7F]))) ∧
      exec (.getVendorDefinedMsgSupport src 0) s = .next (s.emit (.control src "Get Vendor Defined Message Support"
        ([0, 0xFF, 0x01] ++ (leBytes 4 Config.enterprise.toNat).reverse ++ [0x03, 0x02])))) ∧
    (s.mctpHears src false = false → exec (.getEndpointId src) s = .next s)) ∧
  (∀ (s : State) (src : Byte), s.book.fwState = 1 → s.book.peer = some src → s.mctpHears src false = true →
    exec (.getTid src) s = .next (s.emit (.control src "GetTID" [0, s.sec.rh.tid])) ∧
    exec (.getPldmTypes src) s = .next (s.emit (.control src "GetPLDMTypes" ([0] ++ leBytes 8 0x21))) ∧
    (∀ type : Byte, type = 0 ∨ type = 5 →
      exec (.getPldmVersion src type) s = .next (s.emit (.control src "GetPLDMVersion"
        ([0] ++ (leBytes 4 0 ++ [0x05] ++ Config.pldmVersion type)))) ∧
      exec (.getPldmCommands src type) s = .next (s.emit (.control src "GetPLDMCommands"
        ([0] ++ leBytes 32 ((pldmCommands type).foldl (fun n c => n + 2 ^ c) 0))))) ∧
    (∃ bytes, exec (.queryDeviceIdentifiers src) s =
        .next (s.emit (.control src "QueryDeviceIdentifiers" bytes)) ∧
      slice bytes (bytes.length - 16) 16 = leBytes 16 s.fuses.serial.toNat) ∧
    (exec (.getFirmwareParameters src) s = .next (s.emit (.control src "GetFirmwareParameters"
        ([0] ++ (leBytes 4 0 ++ leBytes 2 1 ++ leBytes 2 0x000A ++ leBytes 2 0x0001 ++ leBytes 1 0
          ++ leBytes 4 (imgVersion (norRead s.sec.nor 0 128))))))) ∧
    exec (.getStatus src) s =
      .next (s.emit (.control src "GetStatus" ([0] ++ leBytes 1 (pldmCode s.sec.rh.state)))))

/-- R563, R564: a PLDM update in Roundhouse goes from idle through learn and ready to download; UpdateComponent of
the one component erases the NOR and asks for the image; each piece asked for is programmed, but for the header,
which is kept; a transfer complete with a valid image programs the header, clears START_FAIL and goes to apply, else
it stays unverified; ApplyComplete returns to ready, and ActivateFirmware of a verified image begins a full module
reset. Cancel commands go back to ready or idle. The message forms, the moment of the erase and the state after a
failed check are the model's (log entries 26, 89, 90). -/
def Obligations.PldmUpdateRuns : Prop :=
  ∀ (s : State) (src : Byte), s.book.fwState = 1 → s.book.peer = some src → s.mctpHears src false = true →
    s.power.state ≠ .holdUp →
    let rh := s.sec.rh
    let goes := fun (cmd : Instr) (st : PldmState) => ∃ t, exec cmd s = .next t ∧ t.sec.rh.state = st ∧
      t.sec.nor = s.sec.nor ∧ t.mram = s.mram
    (rh.state = .idle → goes (.requestUpdate src) .learn) ∧
    (rh.state = .learn → goes (.passComponentTable src 1) .ready) ∧
    (∀ size : W32, rh.state = .ready → 4096 ≤ size.toNat → size.toNat ≤ imageMax →
      ∃ t, exec (.updateComponent src 1 size) s = .next t ∧ t.sec.nor = [] ∧ t.sec.rh.state = .download ∧
        t.sec.rh.size = size.toNat ∧ t.sec.rh.taken = 0 ∧
        .control src "RequestFirmwareData" (leBytes 4 0 ++ leBytes 4 512) ∈ t.out) ∧
    (∀ data : List Byte, rh.state = .download → rh.taken < rh.size → data.length = min 512 (rh.size - rh.taken) →
      128 ≤ rh.taken →
      ∃ t, exec (.requestFirmwareData src data) s = .next t ∧ t.sec.nor = norWrite s.sec.nor rh.taken data ∧
        t.sec.rh.taken = rh.taken + data.length ∧ t.sec.rh.header = rh.header ∧ t.sec.rh.state = .download) ∧
    (rh.state = .download → rh.size ≤ rh.taken →
      let u := { s with sec.nor := norWrite s.sec.nor 0 rh.header }
      ∃ t, exec (.transferComplete src) s = .next t ∧
        (u.norValid = true → t.sec.nor = u.sec.nor ∧ t.sec.rh.state = .apply ∧ t.sec.rh.verified = true) ∧
        (u.norValid = false → t.sec.nor = s.sec.nor ∧ t.sec.rh.state = .verify ∧ t.sec.rh.verified = rh.verified)) ∧
    (rh.state = .apply → goes (.applyComplete src) .ready) ∧
    (rh.state = .ready → rh.verified = true →
      ∃ t, exec (.activateFirmware src) s = .next t ∧ t.start.phase = .resetting ∧ t.start.cause = 3) ∧
    (rh.state = .download → goes (.cancelUpdateComponent src) .ready) ∧
    (rh.state ≠ .idle → goes (.cancelUpdate src) .idle)

/-! ## Class 0x03 and the control engine -/

/-- R358, R441: TIMETABLE_SET in range is held for the next tick. R417: POWER_STATUS answers the means, the
setpoint, the ramp, the slew, the states and the estimator's fields; R472: ENERGY_READ answers the counters it asks
for. R438: POWER_STATE_SET enters Idle under ceiling 16, Run, and, where every context is FREE or in quarantine and
no update is being written, Standby; Run from Standby finds the compute domain as after its reset. R16: DUTY is
reserved in automatic mode. R359, R423: HAYLOFT_ANCHOR_WALK schedules a walk. -/
def Obligations.PowerRequests : Prop :=
  ∀ (s : State) (r : Request) (rest : List Request) (ch : Chan),
    (Asked s ch 0x0300 r rest → Shaped r 16 [(9, 1), (12, 4)] → s.power.state ≠ .holdUp → r.get 0 4 ≤ 2600000 →
      10000 ≤ r.get 4 4 → r.get 4 4 ≤ 50000000 → r.get 8 1 ≤ 1 → (r.get 8 1 = 0 → r.get 10 2 = 0) →
      exec (.timetableSet ch) s =
        .next { s.started ch r rest with power.pendingSet := s.power.pendingSet ++ [r] }) ∧
    (Asked s ch 0x0300 r rest → Shaped r 16 [(9, 1), (12, 4)] → s.power.state ≠ .holdUp → r.get 8 1 = 0 →
      r.get 10 2 ≠ 0 →
      ∃ t, exec (.timetableSet ch) s = .next t ∧ OnlyBook s t ∧
        Answered t r stMalformed (if r.get 10 1 ≠ 0 then 10 else 11) []) ∧
    (Asked s ch 0x0301 r rest → Shaped r 0 [] →
      ∃ t, exec (.powerStatus ch) s = .next t ∧ OnlyBook s t ∧
        Answered t r stOk 0 (leBytes 4 s.power.meanInput ++ leBytes 4 s.power.setpoint
          ++ leBytes 4 (s.power.ramp / 1000000) ++ leBytes 4 s.power.slew ++ leBytes 1 s.power.state.code
          ++ leBytes 1 (if s.power.manual then 1 else 0) ++ leBytes 1 (unitCode s.hay.entry) ++ leBytes 1 0
          ++ (if s.hayIn then s.hayFields else leBytes 16 0))) ∧
    (Asked s ch 0x0302 r rest → Shaped r 8 [(1, 1), (6, 2)] → let first := r.get 2 2; let n := r.get 4 2
      0 < n → n ≤ 56 → (r.get 0 1 = 0 ∧ first + n ≤ 11 ∨ r.get 0 1 = 1 ∧ first + n ≤ 4096) →
      ∃ t, exec (.energyRead ch) s = .next t ∧ OnlyBook s t ∧
        Answered t r stOk 0 (leBytes 2 n ++ leBytes 6 0 ++ ((List.range n).map (fun i =>
          leBytes 8 (if r.get 0 1 = 0 then nth 0 s.power.energy (first + i)
            else Table.get 0 s.power.energyId (first + i)))).flatten)) ∧
    (∀ tests back, Asked s ch 0x0303 r rest → Shaped r 4 [(1, 3)] → s.power.ceilings.length = 6 →
      let goes := fun (st : PowerState) (ceiling : Nat) => ∃ t, exec (.powerStateSet ch tests back) s = .next t ∧
        Answered t r stOk 0 [] ∧ t.power.state = st ∧ nth 64 t.power.ceilings 0 = ceiling ∧ t.ctxs = s.ctxs
      (r.get 0 1 = 2 → s.power.state = .run ∨ s.power.state = .trimmed → goes .idle 16) ∧
      (r.get 0 1 = 0 → s.power.state = .idle → goes .run 64) ∧
      (r.get 0 1 = 0 → s.power.state = .run ∨ s.power.state = .trimmed →
        ∃ t, exec (.powerStateSet ch tests back) s = .next t ∧ OnlyBook s t ∧ Answered t r stOk 0 []) ∧
      (r.get 0 1 = 0 → s.power.state = .standby → ∃ t, exec (.powerStateSet ch tests back) s = .next t ∧
        Answered t r stOk 0 [] ∧ t.power.state = .run ∧ t.marsh.units = [] ∧ t.marsh.flights = [] ∧ t.mem = s.mem ∧
        (∀ i, (t.token i).value = 0) ∧ ∀ c, (t.ctx c).state = (s.ctx c).state) ∧
      (r.get 0 1 = 4 → s.power.state = .run ∨ s.power.state = .trimmed ∨ s.power.state = .idle →
        (s.sec.update.any (fun u => u.writing) = true → ∃ t, exec (.powerStateSet ch tests back) s = .next t ∧
          OnlyBook s t ∧ Answered t r stBusy 0x0803 []) ∧
        (s.sec.update.any (fun u => u.writing) = false → s.allQuiet = true → goes .standby 64) ∧
        (s.sec.update.any (fun u => u.writing) = false → s.allQuiet = false →
          ∃ t, exec (.powerStateSet ch tests back) s = .next t ∧ OnlyBook s t ∧ Answered t r stState 1 []))) ∧
    (Asked s ch 0x0304 r rest → Shaped r 8 [(1, 3)] → s.working → r.get 0 1 ≤ 1 → r.get 4 4 ≤ 86400 →
      s.hayIn = true → s.hay.walk = none →
      ∃ t, exec (.hayloftAnchorWalk ch) s = .next t ∧ OnlyBook { s with hay := t.hay } t ∧
        t.hay.walk = some { id := s.hay.nextWalk, empty := r.get 0 1 = 1, running := false, limited := false } ∧
        Answered t r stOk 0 (leBytes 4 s.hay.nextWalk.toNat))

/-- R138, R140 to R142: a coasting engine asks for a release slot; a slot, 77 fabric cycles or more after the last
and outside a stretch, sets the units it moves running, departures first. R459, R465: a step change reaches its
target with its voltage, and waits for the end of a droop stretch; R464: the stretch ends after 32 compute cycles or
more. R463: VDD_FAB's limit slows the movers until it is released. R468, R469: a thermal trip stops the compute
clock, its release restarts it at step 16. R458: the bucket starts at 0 and takes each millisecond's mean draw less
2,400 W, in its range. -/
def Obligations.PacingAndProtection : Prop :=
  ∀ (s : State),
    (∀ (p : Fin 8) (e : Fin 20) (cycle : Nat), let u := UnitRef.matrix p e
      (s.engine p.val e.val).pace = .coasting → (s.engine p.val e.val).wants = none →
      ∃ t, exec (.coastingTimeout u cycle) s = .next t ∧
        (t.engine p.val e.val).wants = some (.release, s.slotOrder u cycle) ∧ (t.engine p.val e.val).pace = .coasting ∧
        t.power = s.power ∧ t.ctxs = s.ctxs ∧ t.marsh = s.marsh) ∧
    (∀ cycle, s.frozen = false → s.power.stretch = none →
      (∀ c, s.power.lastSlot = some c → c + 77 ≤ cycle) → s.slotUnits.2 ≠ [] →
      ∃ t, exec (.departureSlotGrant cycle) s = .next t ∧ t.power.lastSlot = some cycle ∧
        s.slotUnits.2.length ≤ 64 / max 1 s.power.step ∧
        (s.wanting .departure ≠ [] → ∀ u ∈ s.slotUnits.2,
          t.pace u = (if s.unitFlights u = [] then .coasting else .running) ∧ t.wants u = none) ∧
        (s.wanting .departure = [] → ∀ u ∈ s.slotUnits.2, t.pace u = .parked ∧ t.wants u = none)) ∧
    (∀ cycle c, s.power.lastSlot = some c → cycle < c + 77 → exec (.departureSlotGrant cycle) s = .next s) ∧
    (∀ cycle, s.power.stretch.isSome = true → exec (.departureSlotGrant cycle) s = .next s) ∧
    (∀ n, s.power.target = some n →
      (s.power.stretch = none → ∃ t, exec .computeStepChange s = .next t ∧ t = { s with power := t.power } ∧
        t.power.step = n ∧ t.power.coreMv = s.fuses.volts n ∧ t.power.target = none) ∧
      (∀ p, s.power.stretch = some p →
        exec .computeStepChange s = .next { s with power.deferred := true })) ∧
    (∀ (p : Fin 8), s.power.stretch = none →
      exec (.droopStretch p) s = .next { s with power.stretch := some p.val }) ∧
    (∀ p cycles fabric, s.power.stretch = some p →
      (32 ≤ cycles → ∃ t, exec (.droopRelease cycles fabric) s = .next t ∧
        t = { s with power := t.power, trg := t.trg } ∧ t.power.stretch = none ∧ t.power.deferred = false ∧
        t.power.lastSlot = some fabric ∧ t.power.target = s.power.target) ∧
      (cycles < 32 → exec (.droopRelease cycles fabric) s = .next s)) ∧
    (∃ t, exec (.railCurrentLimit .fab) s = .next t ∧ t.power.fabLimited = true ∧
      t = { s with power := t.power, sbx := t.sbx }) ∧
    (∀ rail, rail ≠ .fab → ∃ t, exec (.railCurrentLimit rail) s = .next t ∧ t = { s with sbx := t.sbx }) ∧
    exec .vddFabLimitRelease s = .next { s with power.fabLimited := false } ∧
    (∀ (n : Fin 64), s.power.tripped = false → source 0xC 0 n.val ∉ s.sbx.sensorsOut →
      ∃ t, exec (.thermalTrip n) s = .next t ∧ t.frozen = true ∧
        t = { s with power.tripped := true, sbx := t.sbx } ∧
        (source 0xC 0 n.val ∉ s.sbx.deaf → ∃ e ∈ t.sbx.reports, e.source = source 0xC 0 n.val ∧ e.code = 0x0505)) ∧
    (s.power.tripped = true → s.power.clockStopped = true →
      ∃ t, exec .thermalTripRelease s = .next t ∧ t = { s with power := t.power } ∧ t.power.tripped = false ∧
        t.power.step = 16 ∧ t.power.coreMv = s.fuses.volts 16 ∧ t.power.clockStopped = true) ∧
    (s.power.tripped = true → s.power.clockStopped = false →
      ∃ t, exec .thermalTripRelease s = .next t ∧ t.power.tripped = false ∧ t.frozen = false ∧ t.power.step = 16) ∧
    State.reset.power.bucket = 0 ∧
    (∃ t, exec .sustainedBucketUpdate s = .next t ∧
      t = { s with power.bucket := t.power.bucket } ∧
      (t.power.bucket : Int) = max 0 (min 1200000000 ((s.power.bucket : Int) + (s.power.draw1 - 2400000))))

/-- R443, R444, R451, R454, R456: a tick moves the ramp toward the setpoint by at most the slew, puts the
TIMETABLE_SETs that wait in force and answers them with the ramp; an overrun keeps command and estimates and is
counted; in flat-follow mode the command is 0. R448, R449: a tick on time forms the estimates from the command
applied, with the table's constants. R436, R452: the outer loop takes the mean of 10 ms and keeps delta within 0.8 %
of the ramp, 0 in manual or flat-follow mode. R455: three overruns in a row bring the fallback, and a trial on time
ends it.
The model's reading: the RAMP answered is the one before the tick (log entry 73). -/
def Obligations.ControlLoopTicks : Prop :=
  ∀ (s : State),
    (∀ m, s.start.phase = .off ∨ s.start.phase = .held → exec (.innerLoopTick m) s = .next s) ∧
    (s.start.phase = .rom → 2 ≤ s.book.fwState →
      (∀ m, s.power.pendingSet = [] →
        let goal := s.power.setpoint * 1000000
        let step := s.power.slew * 50
        ∃ t, exec (.innerLoopTick m) s = .next t ∧ t.start.us = s.start.us + 50 ∧ t.power.setpoint = s.power.setpoint ∧
          t.power.ramp = (if s.power.ramp < goal then min goal (s.power.ramp + step)
            else max goal (s.power.ramp - step)) ∧
          t.power.satFlags &&& s.power.satFlags = s.power.satFlags ∧
          (s.loopOn = true → m.late = true → t.power.overruns = s.power.overruns + 1 ∧
            t.power.overrunRow = s.power.overrunRow + 1 ∧ t.power.uc = s.power.uc ∧ t.power.xh1 = s.power.xh1 ∧
            t.power.xh2 = s.power.xh2 ∧ t.power.xh3 = s.power.xh3 ∧ t.power.xh4 = s.power.xh4) ∧
          (s.loopOn = true → m.late = false →
            let e1 := (fixQ m.convMa 62500).plain.sub (fixBits s.power.xh1)
            let e2 := (fixQ (m.busMv - 48000) 12000).plain.sub (fixBits s.power.xh2)
            let x1 := fixBits s.power.xh1
            let x2 := fixBits s.power.xh2
            t.power.overrunRow = 0 ∧ t.power.overruns = s.power.overruns ∧ (s.flat = true → t.power.uc = 0) ∧
            t.power.xh1 = ((((gain 0x399A).mul x1).add ((gain 0x0666).mul (fixBits t.power.uc))).add
              ((gain 0x2666).mul e1)).bits ∧
            t.power.xh2 = (((((gain 0x0333).mul x1).add ((gain 0x3333).mul x2)).add ((gain 0x0333).mul e1)).add
              ((gain 0x2000).mul e2)).bits ∧
            t.power.xh3 = (fixQ (m.stackMv - 42000) 11200).bits) ∧
          t.book = s.book ∧ t.ctxs = s.ctxs ∧ t.mem = s.mem) ∧
      (∀ m r, s.power.pendingSet = [r] → ∃ t, exec (.innerLoopTick m) s = .next t ∧ t.power.pendingSet = [] ∧
        t.power.setpoint = r.get 0 4 ∧ t.power.slew = r.get 4 4 ∧ t.power.small = false ∧
        (t.power.manual = true ↔ r.get 8 1 = 1) ∧ t.power.duty = BitVec.ofNat 16 (r.get 10 2) ∧
        Answered t r stOk 0 (leBytes 4 (s.power.ramp / 1000000) ++ leBytes 4 0)) ∧
      (∃ t, exec .outerLoopTick s = .next t ∧ t = { s with power := t.power } ∧
        t.power.meanInput = s.power.sumInput / max 1 s.power.ticks ∧ t.power.ticks = 0 ∧
        (s.power.small = false → t.power.setpoint = s.power.setpoint) ∧
        -((s.power.ramp * 8 / 1000 : Nat) : Int) ≤ t.power.delta ∧
        t.power.delta ≤ ((s.power.ramp * 8 / 1000 : Nat) : Int) ∧
        (s.power.manual = true ∨ s.flat = true ∨ s.hay.walking = true → t.power.delta = 0) ∧
        (s.power.state = .standby ∨ s.power.state = .holdUp →
          t.power.delta = 0 ∧ t.power.setpoint = s.power.setpoint))) ∧
    (s.power.fallback = false → 3 ≤ s.power.overrunRow →
      ∃ t, exec .overrunFallback s = .next t ∧ t.power.uc = 0 ∧ t.power.fallback = true ∧ t.flat = true ∧
        (t.power.trial = true ↔ ∀ n, s.power.lastFallback = some n → n + 600 ≤ s.trg.seconds) ∧
        t.power.overrunRow = 0 ∧ (source 0xE 0 0 ∉ s.sbx.deaf →
          ∃ e ∈ t.sbx.reports, e.source = source 0xE 0 0 ∧ e.code = 0x0502)) ∧
    (s.power.overrunRow < 3 → exec .overrunFallback s = .next s) ∧
    (s.power.fallback = true → s.power.trial = true →
      (∃ t, exec (.engineTrialDone true) s = .next t ∧ t = { s with power := t.power } ∧ t.power.fallback = false ∧
        t.power.trial = false ∧ t.power.uc = 0) ∧
      exec (.engineTrialDone false) s = .next { s with power.trial := false })

/-- R457, R459: a ceiling's period moves it as its row says, between 16 and 64, and the lowest ceiling is the step
that is due. R460: at ceiling 16 with compute over the reference and the reservoir at its floor the profile falls a
rung where it needs no granted partition, and trimming stops where it would. R144, R472: an energy sample adds to
the counters and charges the contexts' energy ids, for coasting cycles that of the context whose wagon the engine
last ran. -/
def Obligations.CeilingsTrimmingEnergy : Prop :=
  ∀ (s : State),
    (s.start.phase = .rom → 2 ≤ s.book.fwState → s.power.ceilings.length = 6 → ∀ (c : Ceiling) (m : CeilMeas),
      let old := nth 64 s.power.ceilings (ceilingRow c)
      ∃ t, exec (.ceilingPeriod c m) s = .next t ∧
        (nth 64 t.power.ceilings (ceilingRow c) : Int) = max 16 (min 64 ((old : Int) + s.ceilingMove c m)) ∧
        (∀ i, i ≠ ceilingRow c → nth 64 t.power.ceilings i = nth 64 s.power.ceilings i) ∧
        t.power.target = (if t.power.due = s.power.step then none else some t.power.due) ∧
        t.power.step = s.power.step ∧
        (16 ≤ old → old ≤ 64 →
          (c = .thermal → 105000 ≤ m.hottestMc → nth 64 t.power.ceilings 5 = max 16 (old - 1)) ∧
          (c = .thermal → m.hottestMc < 100000 → nth 64 t.power.ceilings 5 = min 64 (old + 1)) ∧
          (c = .inputMax → 2600000 < s.power.input1 → nth 64 t.power.ceilings 3 = max 16 (old - 1)) ∧
          (c = .inputMax → s.power.input1 < 2500000 → nth 64 t.power.ceilings 3 = min 64 (old + 1)) ∧
          (c = .coreCurrent → m.core2Ma ≤ 3400000 → 3000000 < m.core20Ma →
            nth 64 t.power.ceilings 1 = max 16 (old - 1)) ∧
          (c = .powerState → nth 64 t.power.ceilings 0 = if s.power.state = .idle then 16 else 64))) ∧
    (s.start.phase = .rom → s.power.state = .run ∨ s.power.state = .trimmed →
      s.power.ceiling 2 = 16 → s.refNw < s.power.drawMw * 1000000 → s.atFloor 0 = true →
      let n := rungBelow s.cap.profile
      let free := s.serving.filter (fun p => ¬ s.isGranted p)
      (n ≠ 0 → s.cap.profile - n ≤ free.length → ∃ t, exec .trimRung s = .next t ∧ t.cap.trimmed = true ∧
        t.cap.trimCap = n ∧ t.cap.profile ≤ n ∧ t.power.state = .trimmed ∧ t.power.trimStopped = false ∧
        t.fuses = s.fuses) ∧
      (n = 0 ∨ free.length < s.cap.profile - n →
        exec .trimRung s = .next { s with power.trimStopped := true })) ∧
    (∀ (mj : List Nat) (bus : Nat × Nat × Nat), mj.length = 8 → s.power.energy.length = 11 →
      (∃ t, exec (.energySample mj [] [] bus) s = .next t ∧ t = { s with power.energy := t.power.energy } ∧
        ∀ i < 11, nth 0 t.power.energy i = nth 0 s.power.energy i + nth 0 (mj ++ [bus.1, bus.2.1, bus.2.2]) i) ∧
      (∀ (p : Fin 8) (c n : Nat), 0 < n → s.power.energyId.wf 0 = true →
        (s.ctx c).state ≠ .free → (s.ctx c).state ≠ .quarantine →
        (∃ t, exec (.energySample mj [(p, c, n)] [] bus) s = .next t ∧ t = { s with power := t.power } ∧
          ∀ id, Table.get 0 t.power.energyId id = Table.get 0 s.power.energyId id +
            if id = (s.ctx c).energyId then nth 0 mj p.val else 0) ∧
        (∀ e : Fin 20, (s.engine p.val e.val).lastCtx = some c →
          ∃ t, exec (.energySample mj [] [(.matrix p e, n)] bus) s = .next t ∧ t = { s with power := t.power } ∧
            ∀ id, Table.get 0 t.power.energyId id = Table.get 0 s.power.energyId id +
              if id = (s.ctx c).energyId then nth 0 mj p.val else 0)))

/-! ## The reservoir -/

/-- R404: an inserted cartridge is pending while it is checked; after ten good samples the zero measurement takes it
into service with its identity, its charge and, without a stored record of it, the end-of-life capacity, or fences
it where a check fails. R54: its unit entry changes the descriptor. R406, R407: two implausible samples in a row, or
an identity that cannot be read, are its loss. R399 to R401: a cell temperature of 65 degrees stops the converter, a
fault or a hardware trip other than temperature fences the cartridge. A measurement without fourteen cells is a
fault of the command. The fault of such a measurement is the model's (log entry 111). -/
def Obligations.CartridgeComesAndGoes : Prop :=
  ∀ (s : State),
    (s.hay.entry = .absent →
      (s.start.phase = .rom → ∃ t, exec .cartridgeInsert s = .next t ∧ t.hay.entry = .pending ∧
        t.hay.phase = .checking ∧ t.hay.goodSamples = 0 ∧ t.hay.converter = false ∧ t.hay.closed = false) ∧
      (s.start.phase ≠ .rom → ∃ t, exec .cartridgeInsert s = .next t ∧ t.hay = { s.hay with entry := .pending }) ∧
      (s.cap.published = true → ∀ t, exec .cartridgeInsert s = .next t →
        t.cap.changeCount = s.cap.changeCount + 2)) ∧
    (∀ m : CartMeas, cellsOk m.cellsMv = false → exec (.zeroMeasurementDone m) s = .fault .illFormed) ∧
    (∀ m : CartMeas, cellsOk m.cellsMv = true → s.hay.entry = .pending → s.hay.phase = .checking →
      10 ≤ s.hay.goodSamples → s.start.phase = .rom →
      (badCart m = true → ∃ t, exec (.zeroMeasurementDone m) s = .next t ∧ t.hay.entry = .fenced ∧
        t.hay.phase = .none ∧ t.hay.converter = false ∧ t.mram.est0 = s.mram.est0 ∧ t.mram.est1 = s.mram.est1) ∧
      (badCart m = false → ∃ t, exec (.zeroMeasurementDone m) s = .next t ∧ t.hay.entry = .inService ∧
        t.hay.phase = .serving ∧ t.hay.cartId = (cartRecord m.reads).map cartIdOf ∧ t.hay.tempMc = m.tempMc ∧
        t.hay.c = 0 ∧ t.hay.run = none ∧ (t.hay.converter = true ↔ s.working) ∧
        (s.mayRecord → m.readBacks = written → t.mram.readEst = some t.hay.record) ∧
        (s.mram.readEst = none → t.hay.cap = 428572 / 1000 ∧ t.hay.u = 10 / 100 * (428572 / 1000)))) ∧
    (∀ (milliC : Int) (back : ReadBacks), s.hay.entry ≠ .absent → s.start.phase ≠ .off →
      (milliC < -40000 ∨ 150000 < milliC →
        (1 ≤ s.hay.badSamples → ∃ t, exec (.thermistorSample milliC back) s = .next t ∧ t.hay.entry = .absent ∧
          t.hay.phase = .none ∧ t.hay.converter = false ∧ t.hay.closed = false ∧ t.hay.walk = none) ∧
        (s.hay.badSamples = 0 → ∃ t, exec (.thermistorSample milliC back) s = .next t ∧
          t = { s with hay.badSamples := 1, hay.goodSamples := 0 })) ∧
      (-40000 ≤ milliC → milliC ≤ 150000 →
        (s.hay.phase = .checking → ∃ t, exec (.thermistorSample milliC back) s = .next t ∧
          t = { s with hay := t.hay } ∧ t.hay.goodSamples = min 10 (s.hay.goodSamples + 1) ∧
          t.hay.badSamples = 0 ∧ t.hay.tempMc = milliC) ∧
        (s.hay.phase = .serving → ∃ t, exec (.thermistorSample milliC back) s = .next t ∧ t.hay.tempMc = milliC ∧
          t.hay.badSamples = 0 ∧ (65000 ≤ milliC → t.hay.stopHot = true ∧ t.hay.converter = false ∧
            t.hay.closed = false) ∧
          (milliC < 60000 → t.hay.stopHot = false) ∧ (milliC < 0 → t.hay.stopCold = true) ∧
          (2000 ≤ milliC → t.hay.stopCold = false) ∧ t.hay.q = s.hay.q ∧ t.hay.cap = s.hay.cap))) ∧
    (∀ reads back, s.hay.entry ≠ .absent → s.start.phase ≠ .off →
      (cartRecord reads = none → ∃ t, exec (.identityPeriodicRead reads back) s = .next t ∧ t.hay.entry = .absent ∧
        t.hay.closed = false) ∧
      (∀ x id, cartRecord reads = some x → s.hay.cartId = some id →
        (cartIdOf x = id → exec (.identityPeriodicRead reads back) s = .next s) ∧
        (cartIdOf x ≠ id → ∃ t, exec (.identityPeriodicRead reads back) s = .next t ∧ t.hay.entry = .pending ∧
          t.hay.phase = .checking ∧ t.hay.converter = false))) ∧
    (s.hayIn = true →
      (∃ t, exec (.cartridgeHwTrip .hot) s = .next t ∧ t.hay.stopHot = true ∧ t.hay.converter = false ∧
        t.hay.closed = false ∧ t.hay.entry = .inService) ∧
      (∀ k, k ≠ .hot → ∃ t, exec (.cartridgeHwTrip k) s = .next t ∧ t.hay.entry = .fenced ∧
        t.hay.converter = false ∧ t.hay.phase = .none ∧ (haySource ∉ s.sbx.deaf →
          ∃ e ∈ t.sbx.reports, e.source = haySource ∧ e.code = 0x0503)))

/-- R409, R412: a sample, of 20 uA to a code, adds its charge, less the offset, to q, and u grows with time. R414,
R415: the lowest cell at 2.20 V while discharging is the empty anchor, R413: after 30 s at full a full anchor sets q
to cap and opens a learning run; both set u to 0.5 % of cap. R399, R401: a cell at 2.00 V or below, at 3.85 V or
above, or 150 A fences the cartridge. R420, R423, R425: runs and walks begin and end; R428, R430, R431: the record
written, where it reads back as written, is the valid copy; R433: where it does not, twice, it is recorded. A sample
without fourteen cells is a fault of the command. The fault of such a sample is the model's (log entry 111). -/
def Obligations.EstimatorCounts : Prop :=
  ∀ (s : State),
    (∀ m : EstMeas, cellsOk m.cellsMv = false → exec (.estimatorSample m) s = .fault .illFormed) ∧
    (s.hayIn = true →
      (∀ m : EstMeas, cellsOk m.cellsMv = true → 0 < m.dtUs →
        let dt := (m.dtUs : Rat) / 1000000
        let ua := m.code.toInt * 20
        let charge := (ua : Rat) / 1000000 * dt
        (2000 < lowCell m.cellsMv → highCell m.cellsMv < 3850 → ua.natAbs < 150000000 →
          (2200 < lowCell m.cellsMv ∨ 0 ≤ ua ∨ s.hay.stopLow = true →
            ∃ t, exec (.estimatorSample m) s = .next t ∧ t.hay.q = s.hay.q + (charge - s.hay.offset * dt) ∧
              t.hay.u = min (s.hay.u + 5 / 10000 * s.hay.cap * dt / 3600) s.hay.cap ∧ t.hay.cap = s.hay.cap ∧
              t.hay.currentUa = ua ∧ t.hay.entry = .inService ∧ t.mram = s.mram) ∧
          (lowCell m.cellsMv ≤ 2200 → ua < 0 → s.hay.stopLow = false → s.hay.run = none →
            ∃ t, exec (.estimatorSample m) s = .next t ∧ t.hay.q = 0 ∧ t.hay.u = 5 / 1000 * s.hay.cap ∧
              t.hay.stopLow = true ∧ t.hay.record.lastEmpty = s.stamp ∧
              (s.mayRecord → m.readBacks = written → t.mram.readEst = some t.hay.record))) ∧
        (lowCell m.cellsMv ≤ 2000 ∨ 3850 ≤ highCell m.cellsMv ∨ 150000000 ≤ ua.natAbs →
          ∃ t, exec (.estimatorSample m) s = .next t ∧ t.hay.entry = .fenced ∧ t.hay.converter = false ∧
            t.hay.run = none)) ∧
      (∀ back, s.hay.fullUs < 30000000 → exec (.fullAnchor back) s = .next s) ∧
      (∀ back, 30000000 ≤ s.hay.fullUs → ∃ t, exec (.fullAnchor back) s = .next t ∧ t.hay.q = s.hay.cap ∧
        t.hay.cap = s.hay.cap ∧ t.hay.u = 5 / 1000 * s.hay.cap ∧ t.hay.run = some { out := 0, pauseUs := 0 } ∧
        t.hay.record.lastFull = s.stamp ∧ (s.mayRecord → back = written → t.mram.readEst = some t.hay.record) ∧
        (∀ w, s.hay.walk = some w → t.hay.walk = if w.running = true ∧ w.empty = false then none else some w)) ∧
      (∀ w, s.hay.walk = some w → exec .anchorWalkStart s = .next { s with hay.walk := some { w with running := true } }) ∧
      (∀ back, s.mayRecord → ∃ t, exec (.recordWriteTimer back) s = .next t ∧
        (back.first = none ∨ back.second = none → t.mram.readEst = some t.hay.record ∧
          t = { s with hay := t.hay, mram := t.mram }) ∧
        ((s.mram.writeEst { s.hay.record with capacity := s.hay.capMc, closed := false } back).1 = true →
          haySource ∉ s.sbx.deaf → ∃ e ∈ t.sbx.reports, e.source = haySource ∧ e.code = 0x0501))) ∧
    (∀ r, s.hay.run = some r →
      (60000000 < r.pauseUs → exec .learningPauseTimeout s = .next { s with hay.run := none }) ∧
      (r.pauseUs ≤ 60000000 → exec .learningPauseTimeout s = .next s)) ∧
    (∀ w, s.hay.walk = some w → w.running = true → 2 ≤ s.book.fwState →
      (∀ ch, ((s.chan ch).queue.filter (fun q => q.event)).length < 1024) →
      ∃ t, exec .anchorWalkTimeout s = .next t ∧ t = { s with hay.walk := none, book := t.book } ∧
        t.raised 0x0380 (leBytes 4 w.id.toNat ++ leBytes 1 6 ++ leBytes 3 0))

/-! ## The Train Register, the fault log and the stall reports -/

/-- R360, R530: TRG_SUMMARY answers what the last flush left, TRG_READ a slot of bank 0 with the cursor of the next;
R535, R537: an uncorrectable read of bank 0 moves the recorder to the summary form. R528: TRG_ANNOTATE adds its
entry. R361, R489: FAULT_LIST answers the log from an id on, FAULT_ACK acknowledges an event that waits for it;
R487: an event that waited for 60 s is acknowledged. R495: STALL_READ answers bytes of a partition's save area.
The model's reading: what TRG_SUMMARY counts (log entry 17). -/
def Obligations.RecorderAndLogRequests : Prop :=
  ∀ (s : State) (r : Request) (rest : List Request) (ch : Chan),
    (Asked s ch 0x0400 r rest → Shaped r 0 [] →
      ∃ t, exec (.trgSummary ch) s = .next t ∧ OnlyBook s t ∧
        (s.trg.bad = false → s.trg.stopped = false →
          Answered t r stOk 0 (leBytes 4 s.trg.bank0.generation ++ leBytes 4 s.trg.bank0.overflow
            ++ leBytes 2 s.trg.bank0.slots.length ++ leBytes 2 s.trg.bank0.firsts.length ++ leBytes 4 0
            ++ leBytes 8 s.stamp.toNat)) ∧
        ∃ bytes, Answered t r stOk 0 bytes ∧ bytes.length = 24) ∧
    (Asked s ch 0x0401 r rest → Shaped r 8 [(5, 3)] → let cursor := r.get 0 4
      (s.trg.stopped = false → s.trg.bad = false → r.get 4 1 = 0 → ∀ x, s.trg.bank0.slots[cursor]? = some x →
        (∃ t, exec (.trgRead ch .clean) s = .next t ∧ OnlyBook s t ∧
          Answered t r stOk 0 (leBytes 4 s.trg.bank0.generation ++ leBytes 4
            (if cursor + 1 < s.trg.bank0.slots.length then cursor + 1 else 0xFFFFFFFF) ++ x.bytes)) ∧
        ∃ t, exec (.trgRead ch .bad) s = .next t ∧ OnlyBook s t ∧ t.trg.bad = true ∧ Answered t r stState 1 []) ∧
      (∀ ecc, s.trg.stopped = false → s.trg.bad = true → r.get 4 1 < 2 →
        ∃ t, exec (.trgRead ch ecc) s = .next t ∧ OnlyBook s t ∧ Answered t r stState 1 [])) ∧
    (Asked s ch 0x0402 r rest → Shaped r (16 + r.get 8 1) [(9, 7)] → r.get 8 1 ≤ 64 → s.power.state ≠ .holdUp →
      s.trg.bad = false → s.trg.stopped = false → s.trg.live.notes.length < 256 →
      ∃ t, exec (.trgAnnotate ch) s = .next t ∧ OnlyBook s t ∧ Answered t r stOk 0 (leBytes 8 s.stamp.toNat) ∧
        t.trg.live.notes = s.trg.live.notes ++ [{ stamp := s.stamp, wall := BitVec.ofNat 64 (r.get 0 8)
                                                  client := r.client, text := r.payload.drop 16 }]) ∧
    (Asked s ch 0x0500 r rest → Shaped r 4 [] →
      let all := (s.sbx.log.foldl (fun l e => insertEvent e l) []).filter (fun e => r.get 0 4 ≤ e.id)
      ∃ t, exec (.faultList ch) s = .next t ∧ OnlyBook s t ∧
        (all.length ≤ 14 → Answered t r stOk 0 (leBytes 4 0xFFFFFFFF ++ leBytes 2 all.length ++ leBytes 2 0
          ++ (all.map Event.bytes).flatten)) ∧
        (∀ e, 14 < all.length → all[13]? = some e → Answered t r stOk 0 (leBytes 4 (e.id + 1) ++ leBytes 2 14
          ++ leBytes 2 0 ++ ((all.take 14).map Event.bytes).flatten))) ∧
    (∀ e, Asked s ch 0x0501 r rest → Shaped r 4 [] → s.power.state ≠ .holdUp →
      s.sbx.log.find? (fun x => x.id = r.get 0 4) = some e →
      (e.state = 1 → ∃ t, exec (.faultAck ch) s = .next t ∧ OnlyBook { s with sbx := t.sbx } t ∧
        Answered t r stOk 0 [] ∧
        t.sbx.log = s.sbx.log.map (fun x => if x.id = r.get 0 4 then { x with state := 2 } else x)) ∧
      (e.state ≠ 1 → ∃ t, exec (.faultAck ch) s = .next t ∧ OnlyBook s t ∧ Answered t r stState e.state [])) ∧
    (Asked s ch 0x0501 r rest → Shaped r 4 [] → s.power.state ≠ .holdUp → (∀ x ∈ s.sbx.log, x.id ≠ r.get 0 4) →
      ∃ t, exec (.faultAck ch) s = .next t ∧ OnlyBook s t ∧ Answered t r stRange 0 []) ∧
    (∀ id, ∃ t, exec (.eventAutoAck id) s = .next t ∧ t = { s with sbx := t.sbx } ∧
      t.sbx.log = s.sbx.log.map (fun x => if x.id = id ∧ x.state = 1 then { x with state := 2 } else x)) ∧
    (Asked s ch 0x0503 r rest → Shaped r 8 [(1, 1)] → let p := r.get 0 1; let n := r.get 2 2; let off := r.get 4 4
      p ≤ 7 → 0 < n → n ≤ 472 → off + n ≤ 2 ^ 20 →
      ∃ t, exec (.stallRead ch) s = .next t ∧
        (s.power.state ≠ .holdUp → OnlyBook s t ∧ Answered t r stOk 0 (s.mem.saveArea.read (p * 2 ^ 20 + off) n)) ∧
        (s.power.state = .holdUp → ∃ bytes, bytes.length = n ∧ Answered t r stOk 0 bytes))

/-- R523 to R525: a whole flush leaves the recorder's contents in bank 0 with the operating seconds, one cut off in
the journal leaves bank 0 as it was, one cut off in place leaves its batch in the journal; R535, R537: a bad
location moves the recorder to the summary form under a new generation; R538: the summary's failure stops it. R526:
a periodic value joins the slot of its key. R450: the saturation flags are recorded and cleared. R454: the overruns
counted since the last time are recorded.
The model's choices: what a cut leaves (log entry 99), the times (log entry 2). -/
def Obligations.RecorderWrites : Prop :=
  ∀ (s : State), s.start.control = true → s.power.state ≠ .holdUp → s.trg.stopped = false →
    (s.trg.bad = false →
      (∃ t, exec (.trgFlush .whole) s = .next t ∧ t = { s with trg := t.trg } ∧ t.trg.bank0 = t.trg.live ∧
        t.trg.bank0.generation = s.trg.live.generation ∧ t.trg.bank0.firsts = s.trg.live.firsts ∧
        t.trg.bank0.notes = s.trg.live.notes ∧ t.trg.bank0.slots.length = s.trg.live.slots.length ∧
        t.trg.journal = none ∧ t.trg.stored = s.trg.seconds) ∧
      (∃ t, exec (.trgFlush .cutInPlace) s = .next t ∧ t = { s with trg := t.trg } ∧ t.trg.bank0 = s.trg.bank0 ∧
        t.trg.journal.isSome = true ∧ t.trg.stored = s.trg.seconds) ∧
      (∀ n, ∃ t, exec (.trgFlush (.badLocation n)) s = .next t ∧ t.trg.bad = true ∧
        t.trg.live.generation = (s.trg.live.generation + 1) % 2 ^ 32 ∧ t.trg.bank0 = s.trg.bank0 ∧
        OnlyBook s t) ∧
      (s.start.phase = .rom → 2 ≤ s.book.fwState →
        (let watts : Int := ((s.power.meanInput / 1000 : Nat) : Int)
         s.trg.live.slots.length < 4096 → watts ≤ 0x7FFFFFFF →
          (∀ x ∈ s.trg.live.slots, ¬ (x.code = 0x8004 ∧ x.source = 0)) →
          ∃ t x, exec (.trgPeriodicSample .inputDraw) s = .next t ∧ t = { s with trg := t.trg } ∧
            t.trg.live.slots = s.trg.live.slots ++ [x] ∧ x.code = 0x8004 ∧ x.source = 0 ∧ x.total = 1 ∧
            x.low = watts ∧ x.high = watts ∧ x.firstStamp = s.stamp ∧ x.lastStamp = s.stamp) ∧
        (∃ t, exec (.trgPeriodicSample .saturation) s = .next t ∧ t.power.satFlags = 0 ∧
          t = { s with trg := t.trg, power.satFlags := 0 }) ∧
        (let key := 0x9001 * 2 ^ 16
         let n := s.power.overruns.toNat - Table.get 0 s.trg.lastCounters key
         0 < n → n ≤ 0x7FFFFFFF → Table.wf 0 s.trg.lastCounters = true → s.trg.live.slots.length < 4096 →
          (∀ x ∈ s.trg.live.slots, ¬ (x.code = 0x9001 ∧ x.source = 0)) →
          ∃ t, exec (.trgPeriodicSample .counters) s = .next t ∧ t = { s with trg := t.trg } ∧
            Table.get 0 t.trg.lastCounters key = s.power.overruns.toNat ∧
            ∃ x ∈ t.trg.live.slots, x.code = 0x9001 ∧ x.source = 0 ∧ x.total = 1 ∧ x.low = n ∧ x.high = n))) ∧
    exec (.trgFlush .cutInJournal) s = .next s ∧
    (s.trg.bad = true → exec (.trgFlush .summaryFails) s = .next { s with trg.stopped := true })

/-! ## Classes 0x06, 0x07 and 0x08 -/

/-- R363, R559: AUTH_CHALLENGE issues a nonce, in the place of the channel's oldest where it has four. R554:
MEASUREMENT_GET answers a measurement. R552, R553, R556, R557: ATTEST_QUOTE takes a leaf, raising the reservation
where none is left, and a unit of its key's budget, and answers the body with its signature over label, serial
number, session and body; with none left it is BUSY, and the budgets fill up one by one. R363, R548: PUBKEY_GET
answers a key; R568: DEBUG_LOCK closes debug.
The model's choice: a quote that Hold-up cuts short (log entry 138). -/
def Obligations.SecurityQueries : Prop :=
  ∀ (s : State) (r : Request) (rest : List Request) (ch : Chan),
    (Asked s ch 0x0600 r rest → Shaped r 0 [] →
      let n : Nonce := { chan := ch, value := Config.random s.fresh, issued := s.start.us }
      let mine := s.sec.nonces.filter (fun x => x.chan = ch)
      ∃ t, exec (.authChallenge ch) s = .next t ∧ Answered t r stOk 0 (leBytes 32 n.value.toNat ++ leBytes 4 60) ∧
        t.fresh = s.fresh + 1 ∧ t.sec.nonces.filter (fun x => x.chan ≠ ch) = s.sec.nonces.filter (fun x => x.chan ≠ ch) ∧
        t.sec.nonces.filter (fun x => x.chan = ch) = (if 4 ≤ mine.length then mine.tail else mine) ++ [n]) ∧
    (Asked s ch 0x0601 r rest → Shaped r 4 [(1, 3)] → r.get 0 1 ≤ 15 →
      ∃ t, exec (.measurementGet ch) s = .next t ∧ OnlyBook s t ∧
        Answered t r stOk 0 (leBytes 1 (r.get 0 1) ++ leBytes 3 0 ++
          slice (nth (leBytes 64 0) s.sec.measures (r.get 0 1)) 0 64)) ∧
    (Asked s ch 0x0602 r rest → Shaped r 36 [] → s.power.state ≠ .holdUp →
      s.fuses.life ≠ .blank → s.fuses.life ≠ .destroyed → let mask := r.get 32 4
      field mask 30 16 = 0 →
      let body := fun (leaf : Nat) => leBytes 4 leaf ++ leBytes 4 mask ++ slice r.payload 0 32
        ++ (((List.range 16).filter (fun i => bit mask i)).map (fun i => nth (leBytes 64 0) s.sec.measures i)).flatten
      let signed := fun (key : KeyPair) (leaf : Nat) => body leaf ++ key.sign (asciiPad "SUENE-QUOTE-V1" 16
        ++ leBytes 16 s.fuses.serial.toNat ++ leBytes 4 s.book.session.toNat ++ body leaf) leaf
      (∀ key, bit mask 31 = false → s.sec.attestRam = some key → 0 < s.sec.attestBudget → s.sec.attestNext < 2 ^ 20 →
        (∃ t, exec (.attestQuote ch .signed) s = .next t ∧ t.sec.attestBudget = s.sec.attestBudget - 1 ∧
          t.sec.attestNext = s.sec.attestNext + 1 ∧ Answered t r stOk 0 (signed key s.sec.attestNext) ∧
          (s.sec.attestNext = s.sec.attestTop → t.sec.attestTop = min (s.sec.attestTop + 256) (2 ^ 20) ∧
            t.mram.attestTop.read = some t.sec.attestTop) ∧
          (s.sec.attestNext ≠ s.sec.attestTop → t.mram = s.mram ∧ t.sec.attestTop = s.sec.attestTop)) ∧
        (∃ t, exec (.attestQuote ch .abandoned) s = .next t ∧ t.sec.attestBudget = s.sec.attestBudget - 1 ∧
          t.sec.attestNext = s.sec.attestNext + 1 ∧ (t.chan ch).queue = (s.chan ch).queue ∧
          t.sec.identityNext = s.sec.identityNext) ∧
        (s.sec.attestNext = s.sec.attestTop →
          ∃ t, exec (.attestQuote ch .recordFails) s = .next t ∧ t.sec.attestNext = s.sec.attestNext ∧
            t.sec.attestTop = s.sec.attestTop ∧ Answered t r stDevice 0 [])) ∧
      (∀ key, bit mask 31 = true → s.sec.identityRam = some key → s.sec.idSealed = false → 0 < s.sec.identityBudget →
        s.sec.identityNext < 2 ^ 20 →
        ∃ t, exec (.attestQuote ch .signed) s = .next t ∧ t.sec.identityBudget = s.sec.identityBudget - 1 ∧
          t.sec.identityNext = s.sec.identityNext + 1 ∧ Answered t r stOk 0 (signed key s.sec.identityNext)) ∧
      (bit mask 31 = true → s.sec.idSealed = true →
        ∃ t, exec (.attestQuote ch .signed) s = .next t ∧ OnlyBook s t ∧ Answered t r stDenied 0 []) ∧
      (∀ how, bit mask 31 = false ∧ s.sec.attestBudget = 0 ∧ s.sec.attestNext < 2 ^ 20 ∨
          bit mask 31 = true ∧ s.sec.idSealed = false ∧ s.sec.identityBudget = 0 ∧ s.sec.identityNext < 2 ^ 20 →
        ∃ t, exec (.attestQuote ch how) s = .next t ∧ OnlyBook s t ∧ Answered t r stBusy 0x0602 [])) ∧
    State.reset.sec.attestBudget = 1 ∧ State.reset.sec.identityBudget = 1 ∧
    exec (.quoteBudgetRefill true) s = .next { s with sec.identityBudget := min 2 (s.sec.identityBudget + 1) } ∧
    exec (.quoteBudgetRefill false) s = .next { s with sec.attestBudget := min 16 (s.sec.attestBudget + 1) } ∧
    (∀ key, Asked s ch 0x0603 r rest → Shaped r 4 [(1, 3)] → key.length = 68 →
      (∀ pair, pair.publicKey = key →
        (r.get 0 1 = 0 → s.sec.identityRam = some pair → ∃ t, exec (.pubkeyGet ch) s = .next t ∧ OnlyBook s t ∧
          Answered t r stOk 0 (leBytes 4 0 ++ leBytes 4 (2 ^ 20 - s.sec.identityNext) ++ key)) ∧
        (r.get 0 1 = 1 → s.sec.attestRam = some pair → ∃ t, exec (.pubkeyGet ch) s = .next t ∧ OnlyBook s t ∧
          Answered t r stOk 0 (leBytes 4 1 ++ leBytes 4 (2 ^ 20 - s.sec.attestNext) ++ key))) ∧
      (r.get 0 1 = 2 → s.ownerKey = some key → ∃ t, exec (.pubkeyGet ch) s = .next t ∧ OnlyBook s t ∧
        Answered t r stOk 0 (leBytes 4 2 ++ leBytes 4 0 ++ key)) ∧
      (r.get 0 1 = 3 → imgSigner (norRead s.sec.nor 0 128) = key → ∃ t, exec (.pubkeyGet ch) s = .next t ∧
        OnlyBook s t ∧ Answered t r stOk 0 (leBytes 4 3 ++ leBytes 4 0 ++ key))) ∧
    (Asked s ch 0x0701 r rest → Shaped r 0 [] →
      ∃ t, exec (.debugLock ch) s = .next t ∧ t.sec.level = 0 ∧ Answered t r stOk 0 [] ∧
        (s.sec.level ≠ 0 → t.start.dbgTrig = false ∧ t.sec.jtag = .bypass ∧ (∀ c ∈ t.cores, c.halted = false) ∧
          ∀ p ∈ t.rails.ports, ∀ i, p.inject = some i → i.byLevel = false) ∧
        t.mem = s.mem ∧ t.ctxs = s.ctxs)

/-- R330, R558 to R560: a request that needs an authorisation block acts only where its signature verifies under the
key that the table names, answers AUTH_FAILED elsewhere, and its nonce is consumed either way. R565, R566: PROVISION
writes both keys and OWNER_HASH; R565, R571: the lifecycle goes up a step, OWNER_KEY_DESTROY destroys the keys and
erases memory; R568, R569: DEBUG_UNLOCK raises the level, in Fielded only once every context is torn down and memory
is zeroed; R532, R533: TRG_CLEAR empties the recorder and keeps a record, which stays PENDING where power is lost on
the way. R364, R365: at level Intrusive RAIL_INJECT and SBX_INJECT need no block, and a unit that is absent is
ABSENT.
The model's choice: what a PROVISION or a TRG_CLEAR that power cuts short leaves (log entry 138). -/
def Obligations.SignedRequests : Prop :=
  ∀ (s : State) (r : Request) (rest : List Request) (ch : Chan), s.power.state ≠ .holdUp →
    let acts := fun (cmd : Instr) (effect : State → Prop) => ∃ t, exec cmd s = .next t ∧ t.spent r ∧
      (s.signatureOk r = true → effect t) ∧
      (s.signatureOk r = false → Answered t r stAuth 0 [] ∧ t.fuses = s.fuses ∧ t.mram = s.mram ∧
        t.sec.level = s.sec.level ∧ t.mem = s.mem)
    (Signed s ch 0x0604 r rest 1 → ShapedBody r 72 [(68, 4)] → s.fuses.life = .blank → s.fuses.ownerHash = 0 →
      let hash := BitVec.ofNat 256 (leNat (shake256 32 (slice r.payload 0 68)))
      acts (.provision ch .whole) (fun t => t.fuses.life = .provisioned ∧ t.fuses.ownerHash = hash ∧
        t.mram.ownerKey.value = some (slice r.payload 0 68) ∧ t.sec.level = 0 ∧ t.sec.attestNext = 0 ∧
        t.sec.identityNext = 0 ∧ ∃ idk atk, t.mram.identityKey.value = some idk ∧ t.mram.attestKey.value = some atk ∧
          t.sec.identityRam = some idk ∧ t.sec.attestRam = some atk ∧
          Answered t r stOk 0 (idk.publicKey ++ atk.publicKey)) ∧
      ∀ how, how ≠ ProvisionEnd.whole → ∃ t, exec (.provision ch how) s = .next t ∧
        (s.signatureOk r = true → t.fuses.life = .blank ∧ t.mram = s.mram ∧
          (t.chan ch).queue = (s.chan ch).queue ∧
          t.fuses.ownerHash = if how = .beforeHash then 0 else hash)) ∧
    (Signed s ch 0x0605 r rest 0 → ShapedBody r 4 [(1, 3)] →
      (s.fuses.life = .provisioned → r.get 0 1 = 2 →
        acts (.lifecycleSet ch) (fun t => t.fuses.life = .fielded ∧ t.sec.level = 0 ∧ Answered t r stOk 0 [])) ∧
      (s.fuses.life = .provisioned ∨ s.fuses.life = .fielded → r.get 0 1 = 3 → s.allQuiet = true →
        s.fuses.ownerDestroyed = false →
        acts (.lifecycleSet ch) (fun t => t.fuses.life = .owned ∧ t.sec.level = 0 ∧ Answered t r stOk 0 [])) ∧
      (s.fuses.life = .fielded → r.get 0 1 = 2 →
        acts (.lifecycleSet ch) (fun t => t.fuses = s.fuses ∧ Answered t r stDenied 0 []))) ∧
    (Signed s ch 0x0606 r rest 0 → ShapedBody r 0 [] → s.fuses.life = .owned →
      acts (.ownerKeyDestroy ch) (fun t => t.fuses.life = .destroyed ∧ t.mram.identityKey.value = none ∧
        t.mram.attestKey.value = none ∧ t.mram.ownerKey.value = none ∧ t.sec.identityRam = none ∧
        t.sec.attestRam = none ∧ t.mem.saveArea = [] ∧
        (s.mem.retired = [] → t.mem.bytes = []) ∧ (s.yard.retired = [] → t.yard.bytes = []) ∧
        Answered t r stOk 0 [])) ∧
    (∀ k level, Signed s ch 0x0700 r rest k → ShapedBody r 4 [(1, 3)] → s.unlockKey r = some k → r.get 0 1 = level →
      level = 1 ∨ level = 2 → s.sec.level < level →
      (¬ (level = 2 ∧ s.fuses.life = .fielded) → acts (.debugUnlock ch) (fun t => t.sec.level = level ∧
        t.mem = s.mem ∧ t.ctxs = s.ctxs ∧ Answered t r stOk 0 (leBytes 1 level ++ leBytes 3 0))) ∧
      (level = 2 → s.fuses.life = .fielded → acts (.debugUnlock ch) (fun t => t.rails.epoch = 0 ∧
        (s.allQuiet = true → t.sec.level = 2 ∧ t.sec.idSealed = true ∧ (s.mem.retired = [] → t.mem.bytes = [])) ∧
        ∀ c, (s.ctx c).state = .active ∨ (s.ctx c).state = .halted ∨ (s.ctx c).state = .restoring →
          (t.ctx c).state = .teardown ∧ t.sec.level = s.sec.level))) ∧
    (Signed s ch 0x0403 r rest (if s.fuses.life = .destroyed then 1 else 0) → ShapedBody r 4 [(1, 3)] →
      s.fuses.life ≠ .blank → r.get 0 1 = 0 → s.trg.stopped = false → s.trg.bad = false →
      acts (.trgClear ch false) (fun t => t.trg.live.generation = (s.trg.live.generation + 1) % 2 ^ 32 ∧
        t.trg.bank0.slots = [] ∧ t.trg.live.firsts = [] ∧ t.trg.live.notes = [] ∧ t.trg.journal = none ∧
        t.trg.clearCount = s.trg.clearCount + 1 ∧
        (∃ c, t.trg.clears.getLast? = some c ∧ c.genBefore = s.trg.live.generation ∧
          c.genAfter = t.trg.live.generation ∧ c.client = r.client ∧ c.stamp = s.stamp ∧ c.done = true) ∧
        Answered t r stOk 0 (leBytes 4 t.trg.live.generation)) ∧
      ∃ t, exec (.trgClear ch true) s = .next t ∧ (s.signatureOk r = true → t.trg.live = s.trg.live ∧
        t.trg.bank0 = s.trg.bank0 ∧ (t.chan ch).queue = (s.chan ch).queue ∧
        ∃ c, t.trg.clears.getLast? = some c ∧ c.genBefore = s.trg.live.generation ∧ c.done = false)) ∧
    (s.fuses.life = .provisioned → s.sec.level < 2 → s.power.state ≠ .standby →
      (Signed s ch 0x0710 r rest 0 → ShapedBody r 8 [(6, 2)] → let n := r.get 0 1
        n ≤ 19 → r.get 1 1 ≤ 3 → 0 < r.get 2 2 → 0 < r.get 4 2 → (s.port n).unit = .inService →
        (s.port n).state = .up →
        acts (.railInject ch) (fun t => Answered t r stOk 0 [] ∧ (t.port n).inject = some
          { kind := r.get 1 1, left := r.get 2 2, period := r.get 4 2, phase := 0, byLevel := false })) ∧
      (Signed s ch 0x0711 r rest 0 → ShapedBody r 8 [(5, 3)] → srcValid (BitVec.ofNat 32 (r.get 0 4)) = true →
        r.get 4 1 ≤ 1 → s.unitAt (BitVec.ofNat 32 (r.get 0 4)) ≠ .absent →
        acts (.sbxInject ch) (fun t => Answered t r stOk 0 [] ∧
          (BitVec.ofNat 32 (r.get 0 4), decide (r.get 4 1 = 1)) ∈ t.sbx.driven))) ∧
    (s.sec.level = 2 → s.power.state ≠ .standby →
      (Asked s ch 0x0710 r rest → Shaped r 8 [(6, 2)] → let n := r.get 0 1
        n ≤ 19 → r.get 1 1 ≤ 3 → 0 < r.get 2 2 → 0 < r.get 4 2 → (s.port n).unit ≠ .fenced →
        (s.port n).unit ≠ .absent → (s.port n).state = .up →
        ∃ t, exec (.railInject ch) s = .next t ∧ OnlyBook { s with rails.ports := t.rails.ports } t ∧
          Answered t r stOk 0 [] ∧ (t.port n).inject = some { kind := r.get 1 1, left := r.get 2 2, period := r.get 4 2
                                                              phase := 0, byLevel := true } ∧
          ∀ m, m ≠ n → t.port m = s.port m) ∧
      (Asked s ch 0x0711 r rest → Shaped r 8 [(5, 3)] → srcValid (BitVec.ofNat 32 (r.get 0 4)) = true →
        r.get 4 1 ≤ 1 →
        (s.unitAt (BitVec.ofNat 32 (r.get 0 4)) ≠ .absent → ∃ t, exec (.sbxInject ch) s = .next t ∧
          OnlyBook { s with sbx := t.sbx } t ∧ Answered t r stOk 0 [] ∧
          (BitVec.ofNat 32 (r.get 0 4), decide (r.get 4 1 = 1)) ∈ t.sbx.driven) ∧
        (s.unitAt (BitVec.ofNat 32 (r.get 0 4)) = .absent → ∃ t, exec (.sbxInject ch) s = .next t ∧
          OnlyBook s t ∧ Answered t r stAbsent 0 [])))

/-- R224, R366, R367, R544, R561, R562: FW_UPDATE_BEGIN opens an update that fits the staging area; FW_UPDATE_DATA
stages its bytes, from the ticket or the host buffer, and marks the update unverified; FW_UPDATE_VERIFY answers the
version of a whole, signed image whose SVN is not below the fused one, and AUTH_FAILED or DENIED else;
FW_UPDATE_COMMIT programs the NOR with it, or loses it; FW_UPDATE_ABORT closes the update but not during its commit,
FW_UPDATE_STATUS reports it, and FW_ACTIVATE of a committed one begins a full module reset with cause 3.
The model's choices: what a failed commit leaves, and a commit that goes on (log entries 61 and 138). -/
def Obligations.FirmwareUpdates : Prop :=
  ∀ (s : State) (r : Request) (rest : List Request) (ch : Chan), s.power.state ≠ .holdUp → s.power.state ≠ .standby →
    (Asked s ch 0x0800 r rest → Shaped r 8 [(4, 4)] → let n := r.get 0 4
      s.openUpdate = none → n ≤ 8388608 →
      (n ≤ s.stagingBytes → ∃ t, exec (.fwUpdateBegin ch) s = .next t ∧ OnlyBook { s with sec := t.sec } t ∧
        t.sec.update =
          some { imageBytes := n, got := [], verified := false, committed := false, writing := false, discarded := false } ∧
        Answered t r stOk 0 (leBytes 4 s.stagingBytes)) ∧
      (s.stagingBytes < n → ∃ t, exec (.fwUpdateBegin ch) s = .next t ∧ OnlyBook s t ∧
        Answered t r stShort 0 (leBytes 4 (n - s.stagingBytes)))) ∧
    (∀ u, s.openUpdate = some u →
      (Asked s ch 0x0801 r rest → let off := r.get 0 4; let n := r.payload.length - 8
        9 ≤ r.payload.length → r.payload.length ≤ 480 → firstSet r.payload [(4, 4)] = none → u.committed = false →
        off + n ≤ u.imageBytes → s.yard.bytes.wf = true → s.yard.damaged = [] → ∀ host,
        ∃ t, exec (.fwUpdateData ch host) s = .next t ∧ Answered t r stOk 0 [] ∧ t.mem = s.mem ∧
          t.sec.update = some { u with got := addRange off (off + n) u.got, verified := false } ∧
          ∀ i < n, ∀ k, s.stageKey (off + i) = some k → t.yard.bytes.get k = nth 0 r.payload (8 + i)) ∧
      (∀ bs, (s.chan .pcie).received = r :: rest → r.chan = .pcie → r.opcode = 0x0801 → s.book.fwState = 3 →
        s.mayStart r = true → r.broken = false → r.auth = false → r.hostbuf = true →
        r.payload.length = 16 → let off := r.get 0 4; let n := r.get 4 4
        u.committed = false → 0 < n → n ≤ 1048576 → off + n ≤ u.imageBytes → s.hostUp = true →
        (∃ t, exec (.fwUpdateData .pcie (.data bs)) s = .next t ∧ Answered t r stOk 0 [] ∧
          Out.hostRead (r.get 8 8) n ∈ t.out ∧
          t.sec.update = some { u with got := addRange off (off + n) u.got, verified := false }) ∧
        ∃ t, exec (.fwUpdateData .pcie .error) s = .next t ∧ OnlyBook s t ∧ Answered t r stDevice 0 []) ∧
      (Asked s ch 0x0802 r rest → Shaped r 0 [] → u.committed = false → u.imageBytes ≤ u.received →
        let img := s.stageRead u.imageBytes
        ∃ t, exec (.fwUpdateVerify ch) s = .next t ∧
          (s.fuses.imageSigned img = true → s.fuses.svn ≤ imgSvn img →
            t.sec.update = some { u with verified := true } ∧
            Answered t r stOk 0 (leBytes 4 (imgVersion img) ++ leBytes 4 0 ++ imgMeasure img)) ∧
          (s.fuses.imageSigned img = false → OnlyBook s t ∧ Answered t r stAuth 0 []) ∧
          (s.fuses.imageSigned img = true → imgSvn img < s.fuses.svn → OnlyBook s t ∧ Answered t r stDenied 0 [])) ∧
      (Asked s ch 0x0803 r rest → Shaped r 0 [] → u.verified = true → u.committed = false →
        s.commitRunning = none →
        (∃ t, exec (.fwUpdateCommit ch .matched) s = .next t ∧ Answered t r stOk 0 [] ∧
          t.sec.nor = norWrite [] 0 (s.stageRead u.imageBytes) ∧
          t.sec.update = some { u with committed := true, writing := false } ∧
          t.mram = s.mram ∧ t.mem = s.mem) ∧
        (∃ t, exec (.fwUpdateCommit ch .mismatch) s = .next t ∧ Answered t r stDevice 0 [] ∧ t.sec.update = none ∧
          norRead t.sec.nor 0 128 = List.replicate 128 0xFF) ∧
        (∃ t, exec (.fwUpdateCommit ch .abandoned) s = .next t ∧ Answered t r stAborted 0 [] ∧ t.sec.update = none ∧
          norRead t.sec.nor 0 128 = List.replicate 128 0xFF) ∧
        (∃ t, exec (.fwUpdateCommit ch .goesOn) s = .next t ∧ (t.chan ch).queue = (s.chan ch).queue ∧
          t.sec.update = some { u with writing := true } ∧ norRead t.sec.nor 0 128 = List.replicate 128 0xFF)) ∧
      (∀ q, s.commitRunning = some q →
        ∃ t, exec (.fwUpdateCommit q.chan .matched) s = .next t ∧ Answered t q stOk 0 [] ∧
          t.sec.nor = norWrite [] 0 (s.stageRead u.imageBytes) ∧
          t.sec.update = some { u with committed := true, writing := false }) ∧
      (Asked s ch 0x0806 r rest → Shaped r 0 [] →
        (u.committed = true → ∀ readBacks, ∃ t, exec (.fwActivate ch readBacks) s = .next t ∧ t.start.phase = .resetting ∧
          t.start.cause = 3 ∧ t.book.fwState = 4 ∧ t.frozen = true ∧ t.sec.nor = s.sec.nor ∧ t.pcie.linkUp = false) ∧
        (u.committed = false → ∀ readBacks, ∃ t, exec (.fwActivate ch readBacks) s = .next t ∧ OnlyBook s t ∧
          Answered t r stState (if u.verified then 2 else 1) []))) ∧
    (∀ u, Asked s ch 0x0804 r rest → Shaped r 0 [] → s.sec.update = some u →
      (u.writing = false → ∃ t, exec (.fwUpdateAbort ch) s = .next t ∧ OnlyBook { s with sec.update := none } t ∧
        Answered t r stOk 0 []) ∧
      (u.writing = true → ∃ t, exec (.fwUpdateAbort ch) s = .next t ∧ OnlyBook s t ∧ Answered t r stBusy 0x0803 [])) ∧
    (Asked s ch 0x0805 r rest → Shaped r 0 [] →
      ∃ t, exec (.fwUpdateStatus ch) s = .next t ∧ OnlyBook s t ∧
        Answered t r stOk 0 (leBytes 1 s.stage ++ leBytes 3 0 ++
          leBytes 4 (match s.openUpdate with | some u => u.received | none => 0) ++
          leBytes 4 (if s.norValid then imgVersion s.norImage else 0)))

/-! ## The Signal Box, resets and start-up -/

/-- R477, R481 to R487: the oldest report of a source is read, its event recorded and logged under the next id;
level 0 is acknowledged at once, level 1 halts the context, level 2 begins the unit's reset. R479: a signalling
fault makes the pair disregarded and fences the unit; R48: so does a core's watchdog. R490 to R492: a stalled unit
that had work is reset and a report written; a source that the part lacks reports nothing. R499: a missed deadline
takes the next rung. R361, R362: RESET_REQUEST halts a context at once or begins a reset that answers it. -/
def Obligations.SignalBoxActs : Prop :=
  ∀ (s : State), s.start.phase = .rom →
    (∀ (src : W32) (code : Nat) (ctx : Option (Fin 262144)) (info : W32), s.srcThere src = true → src ∉ s.sbx.deaf →
      (∀ x ∈ s.sbx.reports, x.source ≠ src) → codeReported code = true → s.calm code →
      (codeLevel code = 0 → codeClass code ≠ 0 → code ≠ 0x0505 →
        ∃ t, exec (.signalBoxReport src code ctx info) s = .next t ∧ Logged s t code src 0 0 ∧
          t.sbx.recoveries = []) ∧
      (codeLevel code = 2 → 1 ≤ srcKind src → srcKind src ≤ 3 →
        ∃ t, exec (.signalBoxReport src code ctx info) s = .next t ∧ Logged s t code src 2 2 ∧
          Begun s t 2 src (if codeFences code then [src] else [])) ∧
      (∀ c : Fin 262144, codeLevel code = 1 → ctx = some c → (s.ctx c.val).state = .active →
        ∃ t, exec (.signalBoxReport src code ctx info) s = .next t ∧ (t.ctx c.val).state = .halted ∧
          (t.ctx c.val).gen = nextGen (s.ctx c.val).gen ∧ t.sbx.nextId = s.sbx.nextId + 1)) ∧
    (∀ (src : W32) (x : Report) (code : Nat) (ctx : Option (Fin 262144)) (info : W32), s.srcThere src = true →
      src ∉ s.sbx.deaf → s.sbx.reports.find? (fun y => y.source = src) = some x → codeLevel x.code = 0 →
      codeClass x.code ≠ 0 → x.code ≠ 0x0505 → s.calm x.code →
      ∃ t, exec (.signalBoxReport src code ctx info) s = .next t ∧ Logged s t x.code src 0 0 ∧
        t.sbx.reports = s.sbx.reports.erase x) ∧
    (∀ src, s.srcThere src = true → src ∉ s.sbx.deaf → 1 ≤ srcKind src → srcKind src ≤ 3 → s.calm 0x0601 →
      (∃ t, exec (.signallingFault src) s = .next t ∧ src ∈ t.sbx.deaf ∧ (∀ x ∈ t.sbx.reports, x.source ≠ src) ∧
        Logged s t 0x0601 src 2 2 ∧ Begun s t 2 src [src]) ∧
      exec (.pairWalk [src]) s = exec (.signallingFault src) s) ∧
    exec (.pairWalk []) s = .next s ∧
    (∀ i : Fin 16, (s.core i.val).unit = .inService → s.calm 0x0303 →
      ∃ t, exec (.coreWatchdogExpiry i) s = .next t ∧ Logged s t 0x0303 (source 9 0 i.val) 2 2 ∧
        Begun s t 2 (source 9 0 i.val) [source 9 0 i.val]) ∧
    (∀ (src : W32) (code : Nat) (ctx : Option (Fin 262144)) (info : W32), s.srcThere src = false →
      exec (.signalBoxReport src code ctx info) s = .next s ∧ exec (.signallingFault src) s = .next s ∧
        exec (.milepostStall src) s = .next s) ∧
    (∀ src, s.srcThere src = true → s.hasWork src = true → s.windowOff src = false → srcKind src ≤ 3 →
      s.calm (stallCode src) → s.yard.stallSeq.length = 8 →
      ∃ t, exec (.milepostStall src) s = .next t ∧ Logged s t (stallCode src) src 2 2 ∧ Begun s t 2 src [] ∧
        ∀ p, s.stallPart src = some p → nth 0 t.yard.stallSeq p = nth 0 s.yard.stallSeq p + 1) ∧
    (∀ (x : Recovery), s.sbx.recoveries = [x] → x.level = 2 → srcValid x.scope = true → 1 ≤ srcKind x.scope →
      srcKind x.scope ≤ 3 → (∀ e ∈ s.events, e.cls = 3 → e.state = 2) → s.sbx.log.length < 1024 →
      s.doneLately (partScope (srcMid x.scope)) = false →
      ∃ t, exec (.resetDeadlineMissed 2 x.scope) s = .next t ∧
        t.sbx.recoveries = [{ level := 3, scope := partScope (srcMid x.scope), events := s.sbx.nextId :: x.events
                              reqs := x.reqs, fence := x.fence }]) ∧
    (∀ (r : Request) (rest : List Request) (ch : Chan), Asked s ch 0x0502 r rest → Shaped r 8 [(2, 2)] →
      s.power.state ≠ .holdUp → ∀ readBacks,
      (∀ c, r.get 0 1 = 1 → r.get 1 1 = 0 → r.get 4 4 = c → c < 262144 →
        (s.ctx c).state = .active ∨ (s.ctx c).state = .halted →
        ∃ t, exec (.resetRequest ch readBacks) s = .next t ∧ (t.ctx c).state = .halted ∧
          (t.ctx c).gen = nextGen (s.ctx c).gen ∧ Answered t r stOk 0 (leBytes 4 1)) ∧
      (∀ src, r.get 0 1 = 2 → 1 ≤ r.get 1 1 → r.get 1 1 ≤ 3 → s.resetTarget (r.get 1 1) (r.get 4 4) = .inr src →
        s.sbx.recoveries = [] →
        ∃ t, exec (.resetRequest ch readBacks) s = .next t ∧
          t.sbx.recoveries = [{ level := 2, scope := src, events := [], reqs := [r], fence := [] }]))

/-- R51, R501: the module watchdog begins a full module reset without a flush, or requests a power cycle where one
completed within 600 s; R35: the clock monitor holds the module, its links down and its requests and registers dead,
and asks for a power cycle, R500: so does a full module reset that does not complete. R496, R497, R504: the end of a
unit reset enters its history and settles its events, or fences the unit; R41, R209, R250: after a partition reset
its Yard is zero and the contexts it held are HALTED; R37, R209: after a compute-domain reset every token's VALUE is
0, its owner kept.
The model's readings: no flush before the watchdog's reset (log entry 54), what counts toward R496 (log entry 55). -/
def Obligations.ResetsComplete : Prop :=
  ∀ (s : State),
    (s.start.phase = .rom → s.sbx.watchdog = true →
      (s.doneLately moduleScope = false → ∃ t, exec .moduleWatchdogExpiry s = .next t ∧ t.start.phase = .resetting ∧
        t.start.cause = 2 ∧ t.book.fwState = 0 ∧ t.trg = s.trg ∧ t.sbx.resetTimer = true ∧ t.frozen = true) ∧
      (s.doneLately moduleScope = true → ∃ t, exec .moduleWatchdogExpiry s = .next t ∧ t.start.phase = .cycle ∧
        t.start.alert = true ∧ t.frozen = true)) ∧
    (s.start.phase = .rom ∨ s.start.phase = .resetting → (∀ r ∈ s.sbx.recoveries, r.level < 6) →
      (∃ t, exec .clockMonitorTrip s = .next t ∧ t.start.phase = .held ∧ t.start.alert = true ∧ t.frozen = true ∧
        t.book.fwState = 0 ∧ t.pcie.linkUp = false ∧ (∀ p ∈ t.rails.ports, p.state = .down) ∧
        (∀ ch, exec (.sessionQuery ch) t = .next t) ∧
        ∀ ring value whole, exec (.rngDoorbell ring value whole) t = .next (t.emit .unsupported)) ∧
      (s.sbx.resetTimer = true → ∃ t, exec .moduleResetTimerExpiry s = .next t ∧ t.start.phase = .cycle ∧
        t.start.alert = true ∧ t.sbx.resetTimer = false)) ∧
    (∀ (r : Recovery), s.start.phase = .rom → s.sbx.recoveries = [r] → s.power.state ≠ .holdUp →
      (r.level = 2 → r.fence = [] → 1 ≤ srcKind r.scope → srcKind r.scope ≤ 3 → s.resetsLately r.scope < 3 →
        s.mustLeave r.scope = none →
        ∃ t, exec (.unitResetDone r.scope) s = .next t ∧ t.sbx.recoveries = [] ∧ t.past.fences = s.past.fences ∧
          t.past.unitResets = s.past.unitResets ++ [{ source := r.scope, sec := s.trg.seconds }] ∧
          ∀ e ∈ t.sbx.log, e.id ∈ r.events → e.state = if e.taken ≤ 2 then 2 else 1) ∧
      (∀ i : Fin 16, r.level = 2 → r.scope = source 9 0 i.val → r.fence = [r.scope] → s.cores.length = 16 →
        ∃ t, exec (.unitResetDone r.scope) s = .next t ∧ t.sbx.recoveries = [] ∧ r.scope ∈ t.past.fences ∧
          (t.core i.val).unit = .fenced) ∧
      (∀ p : Fin 8, r.level = 3 → r.scope = partScope p.val → r.fence = [] →
        ∃ t, exec (.partitionResetDone p cleanTest) s = .next t ∧ t.sbx.recoveries = [] ∧
          t.past.rungDone = s.past.rungDone ++ [{ source := r.scope, sec := s.trg.seconds }] ∧
          (∀ off < 2 ^ 27, p.val * 2048 + off / 65536 ∉ s.yard.retired →
            t.yard.bytes.get (p.val * 2 ^ 27 + off) = 0) ∧
          ∀ c ∈ s.grantedTo p.val, (s.ctx c).state = .restoring → (t.ctx c).state = .halted) ∧
      (r.level = 4 → r.fence = [] → s.tokens.wf Token.reset = true →
        ∃ t, exec (.computeDomainResetDone (List.replicate 8 cleanTest)) s = .next t ∧ t.sbx.recoveries = [] ∧
          t.past.rungDone = s.past.rungDone ++ [{ source := computeScope, sec := s.trg.seconds }] ∧
          t.marsh.weights = s.marsh.weights ∧ t.marsh.units = [] ∧ t.yard.scrubbed = [] ∧
          (∀ i, (t.token i).value = 0 ∧ (t.token i).owner = (s.token i).owner) ∧
          ∀ c, (s.ctx c).state = .restoring → (t.ctx c).state = .halted)) ∧
    (∀ tests : List SelfTest, tests.length ≠ 8 → exec (.computeDomainResetDone tests) s = .fault .illFormed)

/-- R44, R250, R502, R518, R542, R545, R554: power-good leaves contexts, rings, tokens, memory and Yard at their
reset values, fuses and NOR as they were, and the fence list empty, and starts the firmware under a new session, or
Roundhouse after three failed starts or without a valid image, or nothing with a bad fuse field; R534: a clear that
power cut short is completed and recorded; R505: the release of a full module reset does the same and keeps the
fence list.
The model's choice: POWER_GOOD comes while the module is off (log entry 98). -/
def Obligations.ModuleStarts : Prop :=
  ∀ (s : State) (cmd : Instr),
      (∃ whole link, cmd = .powerGood whole link ∧ s.start.phase = .off ∧ s.start.trayReset = true) ∨
      (∃ link, cmd = .fullModuleResetRelease link ∧ s.start.phase = .resetting) → s.power.state ≠ .holdUp →
    ∃ t, exec cmd s = .next t ∧ t.ctxs = [] ∧ t.rings = [] ∧ t.tokens = [] ∧ t.mem.bytes = [] ∧ t.yard.bytes = [] ∧
      t.fuses = s.fuses ∧ t.sec.nor = s.sec.nor ∧ t.sec.level = 0 ∧ t.start.control = true ∧
      t.mram.identityKey = s.mram.identityKey ∧ t.pcie.linkUp = s.start.perst ∧ t.pending = s.pending ∧
      (s.start.phase = .off → s.trg.journal = none → s.trg.bad = false → s.trg.stopped = false →
        s.trg.clears.any (fun c => !c.done) = true → (∀ c ∈ t.trg.clears, c.done = true) ∧
          t.trg.live.generation = (s.trg.bank0.generation + 1) % 2 ^ 32 ∧
          ∃ x ∈ t.trg.live.slots, x.code = 0x7F04 ∧ x.source = 0) ∧
      (s.start.phase = .off → t.past.fences = [] ∧ t.sec.idSealed = false ∧ t.start.fast = false ∧
        t.trg.seconds = s.trg.stored + 1 ∧ t.trg.powerCycles = min (s.trg.powerCycles + 1) (2 ^ 24 - 1)) ∧
      (s.start.phase = .resetting → t.past.fences = s.past.fences ∧ t.sec.idSealed = s.sec.idSealed ∧
        t.start.fast = true ∧ t.trg.seconds = s.trg.seconds) ∧
      (s.fuses.bad = true → t.book.fwState = 0 ∧ t.start.phase = .rom) ∧
      (s.fuses.bad = false → 3 ≤ s.mram.startRecord.2 ∨ s.norValid = false →
        t.book.fwState = 1 ∧ t.start.phase = .rom) ∧
      (s.fuses.bad = false → s.mram.startRecord.2 < 3 → s.norValid = true →
        t.book.fwState = 2 ∧ t.book.session = BitVec.ofNat 32 (s.mram.startRecord.1 + 1) ∧
        t.mram.start.read = some (s.mram.startRecord.1 + 1, s.mram.startRecord.2 + 1) ∧ t.sbx.watchdog = true ∧
        (s.start.phase = .off → s.fuses.partDisable ≠ 0xFF → t.start.phase = .rom ∧
          t.raised 0x0180 (leBytes 4 t.book.session.toNat ++ leBytes 4 0)))

/-- R546, R590, R591: the first partition that passes its self-test publishes the descriptor, accepts tickets and
enters Run. R592: the values of a memory device that trains are kept, the third failure fences it; R53, R214, R217,
R250: the memory test builds the map over zeroed memory without the frames in which a line failed, and its devices
are in service. R593: a control core or port that passes is in service, a failing one is fenced and kept in the
fence list.
The model's readings: log entries 93 to 97. -/
def Obligations.StartUpTests : Prop :=
  ∀ (s : State), s.starting = true → s.power.state ≠ .holdUp →
    (∀ p : Fin 8, s.mayTest p.val = true → s.cap.published = false → s.parts.length = 8 →
      (s.part p.val).placed.unit = .held →
      ∃ t, exec (.partitionSelfTestDone p cleanTest) s = .next t ∧ t.cap.published = true ∧ t.book.fwState = 3 ∧
        t.power.state = .run ∧ (t.part p.val).unit ≠ .pending ∧ (t.part p.val).tested = true ∧
        p.val ∈ t.start.testedParts ∧ t.mram.start.read.map (fun x => x.2) = some 0 ∧ s.fuses.svn ≤ t.fuses.svn ∧
        t.start.phase = .rom) ∧
    (∀ (i : Fin 12) (values : List Byte), (s.device i.val).unit = .pending → (s.device i.val).trained = false →
      s.mem.devices.length = 12 →
      (∃ t, exec (.memoryTrainingDone i true values) s = .next t ∧ (t.device i.val).unit = .pending ∧
        (t.device i.val).trained = true ∧ (s.mram.training.length = 12 →
          (nth (TwoCopy.blank []) t.mram.training i.val).read = some values)) ∧
      ((s.device i.val).attempts + 1 < s.trainLimit i.val →
        ∃ t, exec (.memoryTrainingDone i false values) s = .next t ∧ (t.device i.val).unit = .pending ∧
          (t.device i.val).attempts = (s.device i.val).attempts + 1 ∧ t.mram = s.mram) ∧
      (s.trainLimit i.val ≤ (s.device i.val).attempts + 1 →
        ∃ t, exec (.memoryTrainingDone i false values) s = .next t ∧ (t.device i.val).unit = .fenced ∧
          source 6 0 i.val ∈ t.past.fences)) ∧
    (∀ bad : List Nat, s.mem.map = [] → s.devicesIn ≠ [] → (∀ d ∈ s.mem.devices, d.unit = .pending → d.trained = true) →
      ∃ t, exec (.memoryTestDone bad []) s = .next t ∧ t.mem.map = s.devicesIn ∧ t.mem.bytes = [] ∧
        (∀ f, f ∈ t.mem.retired ↔ ∃ l ∈ bad, l < 2 ^ 31 * s.devicesIn.length ∧ l / 2 ^ 15 = f) ∧ t.yard = s.yard ∧
        ∀ i ∈ s.devicesIn, (t.device i).unit = .inService) ∧
    (∀ i : Fin 16, (s.core i.val).unit = .pending → s.cores.length = 16 → let src := source 9 0 i.val
      (∃ t, exec (.localSelfTestDone src true) s = .next t ∧ (t.core i.val).unit = .inService ∧
        t.past.fences = s.past.fences) ∧
      (∃ t, exec (.localSelfTestDone src false) s = .next t ∧ (t.core i.val).unit = .fenced ∧
        src ∈ t.past.fences)) ∧
    (∀ i : Fin 20, (s.port i.val).unit = .pending → s.rails.ports.length = 20 → let src := source 5 0 i.val
      (∃ t, exec (.localSelfTestDone src true) s = .next t ∧ (t.port i.val).unit = .inService ∧
        (t.port i.val).state = .training) ∧
      (∃ t, exec (.localSelfTestDone src false) s = .next t ∧ (t.port i.val).unit = .fenced ∧
        (t.port i.val).state = .down ∧ src ∈ t.past.fences))

/-- R470, R599, R600: the loss of the input brings Hold-up: the compute clock stops, the compute domain, memory and
Yard lose what they hold, debug is Closed, and a cartridge in service holds the bus through the converter. R603: a
request that Hold-up does not answer is refused BAD_STATE with DETAIL 3. R602: its end turns everything off, R604:
the return of the input before that brings a full module reset, R587: TRAY_RESET_L low ends as power off.
The model's choice: that all of it is lost at entry (log entry 103). -/
def Obligations.PowerLossAndReturn : Prop :=
  ∀ (s : State) (readBacks : ReadBacks),
    (∀ how, s.start.control = true → s.power.state ≠ .holdUp →
      ∃ t, exec (.inputLoss how readBacks) s = .next t ∧ t.power.state = .holdUp ∧ t.frozen = true ∧ t.sec.level = 0 ∧
        t.marsh = { s.marsh with units := [], flights := [] } ∧ t.mem.bytes = [] ∧ t.mem.saveArea = [] ∧ t.yard.bytes = [] ∧
        t.start.inputGood = false ∧ t.start.holdOnCart = s.hayIn ∧ t.hay.walk = none ∧
        (t.hay.converter = true ↔ s.hayIn = true ∧ s.hay.stopHot = false) ∧
        (∀ i, (t.token i).value = 0) ∧ t.fuses = s.fuses ∧ (∀ p ∈ t.rails.ports, p.state ≠ .up)) ∧
    (s.start.control = false →
      exec (.inputLoss .earlyBreak readBacks) s = .next { s with start.earlyBreak := true } ∧
      exec (.inputLoss .undervoltage readBacks) s = .next { s with start.inputGood := false } ∧
      exec (.inputLoss .overvoltage readBacks) s = .next { s with start.inputSwitch := false } ∧
      exec (.trayResetFall readBacks) s = .next { s with start.trayReset := false }) ∧
    (s.power.state = .holdUp → s.start.control = true →
      (∃ t, exec .holdupEnd s = .next t ∧ t.start.phase = .off ∧ t.start.control = false ∧
        t.power.state = .standby ∧ t.book.fwState = 0 ∧ t.pcie.linkUp = false ∧ t.hay.closed = false ∧
        t.trg = s.trg ∧ t.mram = s.mram) ∧
      (s.start.trayReset = true → s.start.phase = .rom ∨ s.start.phase = .resetting →
        ∃ t, exec .inputReturn s = .next t ∧ t.start.phase = .resetting ∧ t.start.cause = 1 ∧
          t.power.state = .standby ∧ t.start.inputGood = true ∧ t.start.control = true) ∧
      (∃ t, exec (.trayResetFall readBacks) s = .next t ∧ t.start.trayReset = false ∧ t.start.phase = .off ∧
        t.start.control = false)) ∧
    (s.start.control = true → s.power.state ≠ .holdUp → ∃ t, exec (.trayResetFall readBacks) s = .next t ∧
      t.start.trayReset = false ∧ t.start.phase = .off ∧ t.start.control = false ∧ t.power.state = .standby ∧
      t.mem.bytes = []) ∧
    exec .trayResetRise s = .next { s with start.trayReset := true } ∧
    (∀ (r : Request) (rest : List Request) (ch : Chan) (op : Nat) (cmd : Instr), s.power.state = .holdUp →
      (op, cmd) ∈ [(0x0200, Instr.contextCreate ch), (0x0208, .memReserve ch), (0x0300, .timetableSet ch),
        (0x0303, .powerStateSet ch [] readBacks), (0x0402, .trgAnnotate ch), (0x0501, .faultAck ch),
        (0x0502, .resetRequest ch readBacks),
        (0x0602, .attestQuote ch .signed), (0x0700, .debugUnlock ch), (0x0800, .fwUpdateBegin ch),
        (0x0900, .railNodeSet ch)] → Asked s ch op r rest →
      ∃ t, exec cmd s = .next t ∧ OnlyBook s t ∧ Answered t r stState 3 [])

/-- R567, R568, R572: below an operation's level the debug port denies it; at it, the port reads states, reads and
writes memory, Yard, NOR, control SRAM and MRAM (the estimator record's copies at their places, R429) but not the
key area, halts and runs cores and drives DBG_TRIG, in Standby and Hold-up the control region only; boundary scan
needs Intrusive, BYPASS none. The form of what is read and the bytes that nothing names are the model's (log entries
107, 108). -/
def Obligations.DebugPortObeysLevels : Prop :=
  ∀ (s : State), s.start.control = true →
    (s.sec.level = 0 → ∀ op, exec (.debugPortAccess op) s = .next (s.emit .debugDenied)) ∧
    (1 ≤ s.sec.level →
      (∀ what, exec (.debugPortAccess (.observe what)) s = .next (s.emit (.debugRead (leBytes 8 (s.observed what))))) ∧
      (∀ high, exec (.debugPortAccess (.trigger high)) s = .next { s with start.dbgTrig := high })) ∧
    (s.sec.level = 1 → ∀ i, exec (.debugPortAccess (.haltCore i)) s = .next (s.emit .debugDenied)) ∧
    (s.sec.level = 2 →
      (∀ i : Fin 16, (s.core i.val).unit = .inService →
        (∃ t, exec (.debugPortAccess (.haltCore i)) s = .next t ∧ t = { s with cores := t.cores } ∧
          t.core i.val = { s.core i.val with halted := true } ∧ ∀ j, j ≠ i.val → t.core j = s.core j) ∧
        (∃ t, exec (.debugPortAccess (.runCore i)) s = .next t ∧ t = { s with cores := t.cores } ∧
          t.core i.val = { s.core i.val with halted := false })) ∧
      (∀ off data, off + data.length ≤ 2 ^ 26 →
        exec (.debugPortAccess (.writeNor off data)) s = .next { s with sec.nor := norWrite s.sec.nor off data }) ∧
      (∀ off len, off + len ≤ 2 ^ 26 →
        exec (.debugPortAccess (.readNor off len)) s = .next (s.emit (.debugRead (norRead s.sec.nor off len)))) ∧
      (∀ addr data, s.working → addr + data.length ≤ s.mem.total → s.mem.retired = [] → s.mem.damaged = [] →
        s.mem.bytes.wf = true →
        ∃ t, exec (.debugPortAccess (.writeMemory addr data cleanLines)) s = .next t ∧ Wrote s t addr data ∧ t.ctxs = s.ctxs) ∧
      (∀ addr len, s.working → addr + len ≤ s.mem.total → addr + len ≤ s.mem.usable → s.mem.retired = [] →
        s.mem.damaged = [] →
        exec (.debugPortAccess (.readMemory addr len cleanLines)) s =
          .next (s.emit (.debugRead (s.mem.bytes.read addr len)))) ∧
      (∀ addr len lines, ¬ s.working →
        exec (.debugPortAccess (.readMemory addr len lines)) s = .next (s.emit .debugDenied)) ∧
      (∀ (p : Fin 8) (off : Nat) (data : List Byte), s.working → off + data.length ≤ 1536 * 65536 → s.yard.retired = [] →
        s.yard.damaged = [] → s.yard.bytes.wf = true →
        ∃ t, exec (.debugPortAccess (.writeYard p off data)) s = .next t ∧ t.mem = s.mem ∧
          exec (.debugPortAccess (.readYard p off data.length)) t = .next (t.emit (.debugRead data))) ∧
      (∀ off data, off + data.length ≤ 2 ^ 24 →
        ∃ t, exec (.debugPortAccess (.writeSram off data)) s = .next t ∧ t = { s with sec.sram := t.sec.sram } ∧
          exec (.debugPortAccess (.readSram off data.length .clean)) t = .next (t.emit (.debugRead data))) ∧
      (∀ (bank : Fin 2) (off : Nat) (data : List Byte), bank.val = 1 → 0x20000 ≤ off → off + data.length ≤ 0x300000 →
        ∃ t, exec (.debugPortAccess (.writeMram bank off data)) s = .next t ∧ t = { s with mram.cells := t.mram.cells } ∧
          exec (.debugPortAccess (.readMram bank off data.length)) t = .next (t.emit (.debugRead data))) ∧
      (∀ (bank : Fin 2), bank.val = 1 → s.mram.est0.length = 64 → s.mram.est1.length = 64 →
        exec (.debugPortAccess (.readMram bank 0x2000 128)) s =
          .next (s.emit (.debugRead (s.mram.est0 ++ s.mram.est1))) ∧
        ∀ off len, 0x10000 < off + len → off < 0x20000 →
          exec (.debugPortAccess (.readMram bank off len)) s = .next (s.emit .debugDenied))) ∧
    exec .bypass s = .next { s with sec.jtag := .bypass } ∧
    (∀ bits, (s.sec.level = 2 →
        exec (.sample bits) s = .next { s with sec.jtag := .sample, sec.cells := bits } ∧
        exec (.preload bits) s = .next { s with sec.jtag := .preload, sec.cells := bits } ∧
        ∃ t, exec (.extest bits) s = .next t ∧ t.out = s.out ++ [.pins s.sec.cells] ∧ t.sec.cells = bits ∧
          t.sec.jtag = .extest ∧ t.start = s.start) ∧
      (s.sec.level < 2 → ∀ cmd ∈ [Instr.sample bits, .preload bits, .extest bits],
        exec cmd s = .next ({ s with sec.jtag := .bypass }.emit .debugDenied)))

/-! ## The machine as a whole -/

/-- A step takes the command at the front of the queue and runs it with the queue's rest, on an empty queue the
block idles, and a command whose operands no outside party can send is a fault. The queue, the idle step and the
fault are the model's form (log entries 1, 111). -/
def Obligations.StepTakesTheFront : Prop :=
  (∀ (c : Instr) (rest : List Instr) (s : State),
    step { s with pending := c :: rest } = exec c { s with pending := rest }) ∧
  (∀ s : State, s.pending = [] → step s = .next s) ∧
  ∀ (c : Instr) (s : State), c.wellFormed = false → exec c s = .fault .illFormed

/-- R149, R161, R177, R182, R202, R209, R280, R296, R332, R387, R445, R457, R458, R482, R567: reset leaves every
context FREE under generation 1, every ring UNBOUND, every token unallotted at 0, the default class weights, the
drop counters at 0, full credits, no node id, epoch or revoked epoch, the PCIe channel at sequence 0, FW_STATE 0, no
endpoint id, the descriptor unpublished, the Timetable's and the ceilings' values, an empty bucket and log, debug
Closed and JTAG in BYPASS. The queue is empty (the model's form, log entry 1), and both invariants of the steps
hold. -/
def Obligations.ResetValues : Prop :=
  let s := State.reset
  (∀ c, (s.ctx c).state = .free ∧ (s.ctx c).gen = 1) ∧ (∀ r, (s.ring r).state = .unbound) ∧
    (∀ i, (s.token i).value = 0 ∧ (s.token i).owner = none) ∧ s.marsh.weights = [1, 2, 4, 8, 16, 32, 64, 128] ∧
    s.drops.counters = [0, 0, 0, 0, 0, 0, 0, 0] ∧ (∀ i < 20, (s.port i).cred = [512, 512, 512, 64]) ∧
    s.rails.node = 0xFFFFFFFF ∧ s.rails.epoch = 0 ∧ s.rails.revoked = [] ∧ s.book.pcie.inSeq = 0 ∧
    s.book.pcie.outSeq = 0 ∧ s.book.pcie.outAck = 0xFFFFFFFF ∧ s.book.fwState = 0 ∧ s.book.eid = none ∧
    s.cap.published = false ∧ s.power.slew = 200000 ∧ s.power.manual = false ∧ s.power.duty = 0 ∧
    s.power.small = true ∧ s.power.ceilings = [64, 64, 64, 64, 64, 64] ∧ s.power.bucket = 0 ∧ s.sbx.nextId = 1 ∧
    s.sbx.log = [] ∧ s.sec.level = 0 ∧ s.sec.jtag = .bypass ∧ s.pending = [] ∧ s.memoryOk ∧ s.capStill

/-- Every step keeps the canonical form of every memory, so that equal memories are equal data. -/
def Obligations.StepsKeepMemoryForm : Prop :=
  ∀ s t : State, s.memoryOk → step s = .next t → t.memoryOk

/-- R54: between steps CHANGE_COUNT of the descriptor is even. R539: no step takes a fuse bit back: the lifecycle and
OWNER_DESTROYED only gain bits, and the fused SVN never falls. -/
def Obligations.StepsKeepDescriptorAndFuses : Prop :=
  ∀ s t : State, s.capStill → step s = .next t → t.capStill ∧ t.fuses.grewFrom s.fuses
end

