-- ==== Sys2Proof/Laws/Mctp.lean ====
section
/-! SUPPORT. The packets of an MCTP message: what the module sends in block writes, an endpoint like it puts together again
(R341). -/

namespace Sys2Proof.Machine

/-- The fields of the flags byte of packet n of a message. -/
theorem packetFlags (som last : Bool) (n : Nat) :
    let f := (BitVec.ofNat 8 (128 * b2n som + 64 * b2n last + 16 * (n % 4) + 8)).toNat
    bit f 7 = som ∧ bit f 6 = last ∧ field f 5 4 = n % 4 ∧ field f 3 0 = 8 := by
  have h : n % 4 < 4 := Nat.mod_lt _ (by decide)
  generalize n % 4 = k at h
  revert h
  revert k
  cases som <;> cases last <;> decide

/-- A block write of one packet to the module reads back as that packet. -/
theorem readPacket_smbWrite (own slave src flags : Byte) (payload : List Byte) (h0 : 0 < payload.length)
    (h : payload.length ≤ mctpUnit) :
    readPacket own (smbWrite smbAddress slave ([1, own, src, flags] ++ payload)) =
      some { src := src, som := bit flags.toNat 7, eom := bit flags.toNat 6, seq := field flags.toNat 5 4
             tag := field flags.toNat 3 0, payload := payload } := by
  unfold mctpUnit at h
  have e : (BitVec.ofNat 8 (([1, own, src, flags] ++ payload).length + 1)).toNat = payload.length + 5 := by
    simp only [List.length_append, List.length_cons, List.length_nil, BitVec.toNat_ofNat]
    omega
  have o : bit (slave <<< 1 ||| 1).toNat 0 = true := by
    revert slave; decide
  unfold smbWrite
  generalize hb : [smbAddress <<< 1, (0x0F : Byte), BitVec.ofNat 8 (([1, own, src, flags] ++ payload).length + 1),
    slave <<< 1 ||| 1] ++ ([1, own, src, flags] ++ payload) = bs
  have hl : bs.length = payload.length + 8 := by
    rw [← hb]
    simp
  have g : ∀ i, i < bs.length → ((bs ++ [smbPec bs])[i]?).getD 0 = (bs[i]?).getD 0 := by
    intro i hi
    rw [List.getElem?_append_left hi]
  have last : ((bs ++ [smbPec bs])[bs.length]?).getD 0 = smbPec bs := by simp
  have front : (bs ++ [smbPec bs]).take bs.length = bs := by simp
  have body : ((bs ++ [smbPec bs]).drop 8).take payload.length = payload := by
    rw [← hb]
    simp
  unfold readPacket
  simp only [List.length_append, List.length_cons, List.length_nil, Nat.add_sub_cancel, Nat.zero_add, last, front]
  rw [g 0 (by omega), g 1 (by omega), g 2 (by omega), g 3 (by omega), g 4 (by omega), g 5 (by omega), g 6 (by omega),
    g 7 (by omega)]
  have b0 : (bs[0]?).getD 0 = smbAddress <<< 1 := by rw [← hb]; rfl
  have b1 : (bs[1]?).getD 0 = 0x0F := by rw [← hb]; rfl
  have b2 : ((bs[2]?).getD 0).toNat = payload.length + 5 := by rw [← e, ← hb]; rfl
  have b3 : (bs[3]?).getD 0 = slave <<< 1 ||| 1 := by rw [← hb]; rfl
  have b4 : (bs[4]?).getD 0 = 1 := by rw [← hb]; rfl
  have b5 : (bs[5]?).getD 0 = own := by rw [← hb]; rfl
  have b6 : (bs[6]?).getD 0 = src := by rw [← hb]; rfl
  have b7 : (bs[7]?).getD 0 = flags := by rw [← hb]; rfl
  rw [b0, b1, b2, b3, b4, b5, b6, b7, o, hl]
  rw [if_neg (by unfold mctpUnit; simp [field]; omega)]
  simp only [show payload.length + 8 + 1 - 9 = payload.length by omega, body]

/-- The packets of a message from packet n on complete the message under way, whose last packet was packet n − 1. -/
theorem assemble_mctpPackets (own slave src : Byte) (fuel : Nat) : ∀ (n : Nat) (bs : List Byte) (m : Option MctpPacket),
    0 < bs.length → bs.length ≤ mctpUnit * fuel →
    (n ≠ 0 → ∃ q, m = some q ∧ q.eom = false ∧ q.src = src ∧ q.tag = 8 ∧ q.seq = (n - 1) % 4) →
    assemble own m ((mctpPackets own src fuel n bs).map (smbWrite smbAddress slave)) =
      some (src, (if n = 0 then [] else (m.map (fun q => q.payload)).getD []) ++ bs) := by
  induction fuel with
  | zero => intro n bs m h0 h; simp at h; simp [h] at h0
  | succ k ih =>
    intro n bs m h0 h hm
    unfold mctpPackets
    obtain ⟨fs, fl, fq, ft⟩ := packetFlags (decide (n = 0)) (decide (bs.length ≤ mctpUnit)) n
    simp only [List.map_cons, assemble]
    rw [readPacket_smbWrite own slave src _ _ (by simp [mctpUnit]; omega) (by simp)]
    simp only [fs, fl, fq, ft]
    by_cases last : bs.length ≤ mctpUnit
    · have take : bs.take mctpUnit = bs := List.take_of_length_le last
      by_cases hn : n = 0
      · subst hn
        simp [MctpPacket.join, last, take, assemble]
      · obtain ⟨q, rfl, he, hs, hq, hk⟩ := hm hn
        have : n % 4 = ((n - 1) % 4 + 1) % 4 := by omega
        simp [MctpPacket.join, last, take, assemble, hn, he, hs, hq, hk, this]
    · have full : (bs.take mctpUnit).length = mctpUnit := by simp; omega
      have rest : 0 < (bs.drop mctpUnit).length := by simp; omega
      have fits : (bs.drop mctpUnit).length ≤ mctpUnit * k := by
        rw [Nat.mul_succ] at h
        simp
        omega
      by_cases hn : n = 0
      · subst hn
        simp only [MctpPacket.join, full, last, decide_true, decide_false, if_true, if_false, Bool.false_eq_true,
          not_false_eq_true, ne_eq, not_true_eq_false, and_false]
        rw [ih 1 _ _ rest fits (fun _ => ⟨_, rfl, rfl, rfl, rfl, rfl⟩)]
        simp
      · obtain ⟨q, rfl, he, hs, hq, hk⟩ := hm hn
        have : n % 4 = ((n - 1) % 4 + 1) % 4 := by omega
        simp only [MctpPacket.join, full, last, hn, decide_false, if_false, Bool.false_eq_true,
          not_false_eq_true, ne_eq, not_true_eq_false, and_false, Option.bind_some, he, hs, hq, hk, false_or, this]
        rw [ih (n + 1) _ _ rest fits (fun _ => ⟨_, rfl, rfl, rfl, rfl, by simp; omega⟩)]
        simp

/-- A message arrives whole, in whatever packets it is cut (R341). -/
theorem assemble_messagePackets (own slave src : Byte) (message : List Byte) (h : 0 < message.length) :
    assemble own none ((messagePackets own src message).map (smbWrite smbAddress slave)) = some (src, message) := by
  unfold messagePackets
  rw [assemble_mctpPackets own slave src _ 0 message none h _ (fun k => absurd rfl k)]
  · simp
  · unfold mctpUnit
    omega

end Sys2Proof.Machine
end

