-- ==== Sys2Proof/Laws/Memory.lean ====
section
/-! SUPPORT. The memory operations: what a read leaves, and that every operation that writes keeps the canonical form. -/

namespace Sys2Proof.Machine

/-! ### What reads leave -/

/-- The bytes of module memory, of the Yard and of the save area are the same. -/
structure SameBytes (s t : State) : Prop where
  mem : t.mem.bytes = s.mem.bytes
  yard : t.yard.bytes = s.yard.bytes
  save : t.mem.saveArea = s.mem.saveArea

theorem SameBytes.refl (s : State) : SameBytes s s := ⟨rfl, rfl, rfl⟩

theorem SameBytes.trans {s t u : State} (h : SameBytes s t) (k : SameBytes t u) : SameBytes s u :=
  ⟨k.mem.trans h.mem, k.yard.trans h.yard, k.save.trans h.save⟩

/-- A change of the descriptor leaves everything but the change count as the change itself does (R54). -/
theorem State.recap_eq (f : State → State) (s : State) : ∃ n, s.recap f = { f s with cap.changeCount := n } := by
  unfold State.recap
  dsimp only
  split
  · exact ⟨_, rfl⟩
  · exact ⟨(f s).cap.changeCount, rfl⟩

theorem State.recap_same {f : State → State} {s : State} (h : SameBytes s (f s)) : SameBytes s (s.recap f) := by
  obtain ⟨n, e⟩ := State.recap_eq f s
  rw [e]
  exact ⟨h.mem, h.yard, h.save⟩

theorem State.report_same (s : State) (src : W32) (code : Nat) (ctx : Option (Nat × W16)) (info : W32) :
    SameBytes s (s.report src code ctx info) := by
  obtain ⟨g, e⟩ := s.report_eq src code ctx info
  rw [e]
  exact ⟨rfl, rfl, rfl⟩

theorem State.event_same (s : State) (op : Nat) (payload : List Byte) : SameBytes s (s.event op payload) := by
  obtain ⟨g, e⟩ := s.event_eq op payload
  rw [e]
  exact ⟨rfl, rfl, rfl⟩

theorem SameBytes.foldl {β : Type} {f : State → β → State} (h : ∀ s b, SameBytes s (f s b)) (l : List β) :
    ∀ s, SameBytes s (l.foldl f s) := by
  induction l with
  | nil => intro s; exact .refl s
  | cons b t ih => intro s; exact (h s b).trans (ih _)

theorem OnlyBook.same {s t : State} (h : OnlyBook s t) : SameBytes s t := by
  rw [show t = _ from h]
  exact ⟨rfl, rfl, rfl⟩

/-- A grant that is mapped, or that waits for zeroing, leaves every byte. -/
theorem State.grantPages_same (s : State) (ctx : Nat) (ps : List Page) (r : Request) (payload : List Byte) :
    SameBytes s (s.grantPages ctx ps r payload) := by
  unfold State.grantPages
  dsimp only
  split
  · have h := (State.ok_only (s.modCtx ctx (fun c => { c with pages := addPages c.pages ps })) r payload).same
    exact ⟨h.mem, h.yard, h.save⟩
  · exact ⟨rfl, rfl, rfl⟩

theorem State.dropGrant_same (s : State) (g : Grant) (short : Nat) : SameBytes s (s.dropGrant g short) := by
  unfold State.dropGrant
  have h := (State.reply_only s g.req stShort 0 (leBytes 8 short ++ leBytes 20 0)).same
  dsimp only
  split
  · exact ⟨h.mem, h.yard, h.save⟩
  · exact h

/-- Grants placed anew leave every byte. -/
theorem State.mendGrants_same (s : State) : SameBytes s s.mendGrants := by
  unfold State.mendGrants
  refine SameBytes.trans ?_ (SameBytes.foldl (f := State.placeAgain) ?_ _ _)
  · exact ⟨rfl, rfl, rfl⟩
  intro s g
  unfold State.placeAgain
  dsimp only
  split
  · exact State.dropGrant_same ..
  · split <;> exact State.grantPages_same ..

theorem State.retireFrame_same (s : State) (f dev : Nat) : SameBytes s (s.retireFrame f dev) := by
  unfold State.retireFrame
  split
  · exact .refl s
  · dsimp only
    have h := State.recap_same (s := s) (f := fun s => { s with
      mem.retired := s.mem.retired ++ [f], mem.retiredOf := setNth s.mem.retiredOf dev (fun x => x + 1)
      mem.zeroing := dropFrom f s.mem.zeroing }) ⟨rfl, rfl, rfl⟩
    split
    · exact (h.trans (State.report_same ..)).trans (State.mendGrants_same _)
    · exact h.trans (State.mendGrants_same _)

theorem State.memTicket_same (s : State) (addr : Nat) : SameBytes s (s.memTicket addr) := State.event_same ..

theorem State.memCorrected_same (s : State) (addr : Nat) : SameBytes s (s.memCorrected addr) := by
  unfold State.memCorrected
  dsimp only
  have h := State.report_same { s with mem.corrected := (s.mem.corrected.filter (fun e => s.within e.sec 86400)) ++
    [{ place := addr / 64, sec := s.trg.seconds }] } (source 6 0 (s.mem.locate addr).1) 0x0102 none 0
  split
  · exact .trans ⟨h.mem, h.yard, h.save⟩ (State.retireFrame_same ..)
  · exact ⟨h.mem, h.yard, h.save⟩

theorem State.memBad_same (s : State) (addr : Nat) : SameBytes s (s.memBad addr) := by
  have h := State.memTicket_same { s with mem.damaged := addTo (addr / 64) s.mem.damaged } addr
  exact .trans ⟨h.mem, h.yard, h.save⟩ (State.retireFrame_same ..)

theorem State.lineRead_same (s : State) (addr : Nat) (ecc : Ecc) : SameBytes s (s.lineRead addr ecc).2 := by
  unfold State.lineRead
  split
  · exact .refl s
  · exact State.memCorrected_same ..
  · exact State.memBad_same ..

/-- A load leaves every byte. -/
theorem State.memLoad_same (fuel : Nat) : ∀ (s : State) (addr n : Nat) (lines : LineEcc),
    SameBytes s (s.memLoad addr n lines fuel).2.2 := by
  induction fuel with
  | zero => intro s _ _ _; exact .refl s
  | succ k ih =>
    intro s addr n ecc
    unfold State.memLoad
    split
    · exact .refl s
    · exact (State.lineRead_same ..).trans (ih ..)

theorem State.moveReserved_same (s : State) (k : Nat) : SameBytes s (s.moveReserved k) := by
  unfold State.moveReserved
  split <;> exact ⟨rfl, rfl, rfl⟩

theorem State.retireBlock_same (s : State) (k : Nat) : SameBytes s (s.retireBlock k) := by
  unfold State.retireBlock
  split
  · exact .refl s
  · refine State.recap_same ?_
    dsimp only
    split
    · refine SameBytes.trans ?_ (State.moveReserved_same _ _)
      exact ⟨rfl, rfl, rfl⟩
    · split
      · refine SameBytes.trans ?_ (State.moveReserved_same _ _)
        exact ⟨rfl, rfl, rfl⟩
      · exact ⟨rfl, rfl, rfl⟩

theorem State.yardBad_same (s : State) (w : Nat) : SameBytes s (s.yardBad w) := by
  have h := State.retireBlock_same { s with yard.damaged := addTo w s.yard.damaged } (w / 8192)
  exact ⟨h.mem, h.yard, h.save⟩

theorem State.yardCorrected_same (s : State) (w : Nat) : SameBytes s (s.yardCorrected w) := by
  unfold State.yardCorrected
  dsimp only
  have h := State.report_same { s with yard.corrected := (s.yard.corrected.filter (fun e => s.within e.sec 86400)) ++
    [{ place := w, sec := s.trg.seconds }] } (source 7 (w / 2 ^ 24) 0) 0x0101 none 0
  split
  · exact .trans ⟨h.mem, h.yard, h.save⟩ (State.retireBlock_same ..)
  · exact ⟨h.mem, h.yard, h.save⟩

/-- What a command's reads find in the Yard leaves every byte. -/
theorem State.yardSense_same (s : State) (part : Nat) (ecc : YardEcc) (range : List Nat) :
    SameBytes s (s.yardSense part ecc range).2 := by
  unfold State.yardSense
  exact (SameBytes.foldl State.yardCorrected_same _ s).trans (SameBytes.foldl State.yardBad_same _ _)

/-! ### The canonical form -/

/-- Module memory, the Yard and the save area have their canonical form. -/
structure FormOk (s : State) : Prop where
  mem : s.mem.bytes.wf = true
  yard : s.yard.bytes.wf = true
  save : s.mem.saveArea.wf = true

theorem FormOk.same {s t : State} (h : FormOk s) (k : SameBytes s t) : FormOk t :=
  ⟨k.mem ▸ h.mem, k.yard ▸ h.yard, k.save ▸ h.save⟩

theorem Bytes.wf_filter (m : Bytes) (p : Host.Cell → Bool) (h : m.wf = true) : Bytes.wf (List.filter p m) = true :=
  Table.wf_filter 0 p m h

/-- A line stored. -/
theorem State.lineStore_form (s : State) (addr : Nat) (bs : List Byte) (ecc : Ecc) (h : FormOk s) :
    FormOk (s.lineStore addr bs ecc).2 := by
  unfold State.lineStore
  split
  · exact ⟨Bytes.wf_write _ _ _ h.mem, h.yard, h.save⟩
  · have k := h.same (State.lineRead_same s addr ecc)
    dsimp only
    split
    · exact k
    · exact ⟨Bytes.wf_write _ _ _ k.mem, k.yard, k.save⟩

/-- Bytes stored from an address. -/
theorem State.memStore_form (fuel : Nat) : ∀ (s : State) (addr : Nat) (bs : List Byte) (lines : LineEcc), FormOk s →
    FormOk (s.memStore addr bs lines fuel).2 := by
  induction fuel with
  | zero => intro s _ _ _ h; exact h
  | succ k ih =>
    intro s addr bs ecc h
    unfold State.memStore
    split
    · exact h
    · exact ih _ _ _ _ (State.lineStore_form _ _ _ _ h)

/-- A frame zeroed. -/
theorem State.zeroFrame_form (s : State) (f : Nat) (h : FormOk s) : FormOk (s.zeroFrame f) :=
  ⟨Bytes.wf_clear _ _ _ h.mem, h.yard, h.save⟩

theorem Bytes.wf_puts (key : Nat) (l : List (Byte × Nat)) : ∀ m : Bytes, m.wf = true →
    Bytes.wf (l.foldl (fun m (b, i) => Bytes.put m (key + i) b) m) = true := by
  induction l with
  | nil => intro m h; exact h
  | cons a t ih => intro m h; exact ih _ (Table.wf_put 0 _ m _ h)

/-- Bytes stored into the Yard. -/
theorem State.yardStore_form (s : State) (key : Nat) (bs : List Byte) (h : FormOk s) :
    FormOk (s.yardStore key bs).2 := by
  unfold State.yardStore
  refine FormOk.same ?_ (SameBytes.foldl State.yardBad_same _ _)
  exact ⟨h.mem, Bytes.wf_puts key _ _ h.yard, h.save⟩

/-- The Yard of a partition or of an allotment zeroed, and everything erased. -/
theorem State.zeroYard_form (s : State) (p : Nat) (h : FormOk s) : FormOk (s.zeroYard p) :=
  ⟨h.mem, Bytes.wf_filter _ _ h.yard, h.save⟩

theorem State.zeroAllotment_form (s : State) (w : YardWord) (h : FormOk s) : FormOk (s.zeroAllotment w) :=
  ⟨h.mem, Bytes.wf_filter _ _ h.yard, h.save⟩

theorem State.eraseAll_form (s : State) (h : FormOk s) : FormOk s.eraseAll :=
  ⟨Bytes.wf_filter _ _ h.mem, Bytes.wf_filter _ _ h.yard, rfl⟩

/-- Bytes programmed into the NOR, whose unlisted bytes read 0xFF. -/
theorem norWrite_wf (bs : List Byte) : ∀ (m : Bytes) (a : Nat), Table.wf (0xFF : Byte) m = true →
    Table.wf (0xFF : Byte) (norWrite m a bs) = true := by
  induction bs with
  | nil => intro m a h; exact h
  | cons b t ih => intro m a h; exact ih _ _ (Table.wf_put 0xFF b m a h)

/-! ### The canonical form of pieces joined -/

/-- Two tables in canonical form, every key of the first below every key of the second, joined. -/
theorem Table.wfFrom_append {α : Type} [DecidableEq α] (d : α) (b : Option Nat) (m n : Table α) (h : Table.wfFrom d b m = true)
    (k : ∀ c, (c = b ∨ ∃ x ∈ m, c = some x.1) → Table.wfFrom d c n = true) : Table.wfFrom d b (m ++ n) = true := by
  induction m generalizing b with
  | nil => exact k b (.inl rfl)
  | cons a t ih =>
    obtain ⟨i, v⟩ := a
    simp only [List.cons_append, Table.wfFrom, Bool.and_eq_true] at h ⊢
    refine ⟨h.1, ih (some i) h.2 ?_⟩
    rintro c (rfl | ⟨x, hx, rfl⟩)
    · exact k _ (.inr ⟨_, List.mem_cons_self, rfl⟩)
    · exact k _ (.inr ⟨x, List.mem_cons_of_mem _ hx, rfl⟩)

/-- A canonical form above a bound, from the form and the keys. -/
theorem Table.wfFrom_some {α : Type} [DecidableEq α] (d : α) (b : Nat) (n : Table α) (h : Table.wf d n = true)
    (k : ∀ x ∈ n, b < x.1) : Table.wfFrom d (some b) n = true := by
  cases n with
  | nil => rfl
  | cons a t =>
    obtain ⟨i, v⟩ := a
    simp only [Table.wf, Table.wfFrom, Bool.and_eq_true, decide_eq_true_eq] at h ⊢
    exact ⟨⟨k _ List.mem_cons_self, h.1.2⟩, h.2⟩

theorem Table.wf_append {α : Type} [DecidableEq α] (d : α) (m n : Table α) (h : Table.wf d m = true) (k : Table.wf d n = true)
    (lt : ∀ x ∈ m, ∀ y ∈ n, x.1 < y.1) : Table.wf d (m ++ n) = true := by
  refine Table.wfFrom_append d none m n h ?_
  rintro c (rfl | ⟨x, hx, rfl⟩)
  · exact k
  · exact Table.wfFrom_some d _ n k (fun y hy => lt x hx y hy)

/-- Every key of a table in canonical form above a bound lies above it. -/
theorem Table.lt_of_wfFrom {α : Type} [DecidableEq α] (d : α) (b : Nat) (m : Table α) (h : Table.wfFrom d (some b) m = true) :
    ∀ x ∈ m, b < x.1 := by
  induction m generalizing b with
  | nil => intro x hx; cases hx
  | cons a t ih =>
    obtain ⟨i, v⟩ := a
    simp only [Table.wfFrom, Bool.and_eq_true, decide_eq_true_eq] at h
    intro x hx
    rcases List.mem_cons.mp hx with rfl | hx
    · exact h.1.1
    · exact Nat.lt_trans h.1.1 (ih i h.2 x hx)

/-- A table whose keys are moved by a rising function. -/
theorem Table.wf_map {α : Type} [DecidableEq α] (d : α) (g : Nat → Nat) (m : Table α) (h : Table.wf d m = true)
    (up : ∀ x ∈ m, ∀ y ∈ m, x.1 < y.1 → g x.1 < g y.1) : Table.wf d (m.map (fun x => (g x.1, x.2))) = true := by
  have gen : ∀ (m : Table α) (b : Option Nat) (c : Option Nat), Table.wfFrom d b m = true →
      (∀ x ∈ m, ∀ y ∈ m, x.1 < y.1 → g x.1 < g y.1) → (∀ n, c = some n → ∀ x ∈ m, n < g x.1) →
      Table.wfFrom d c (m.map (fun x => (g x.1, x.2))) = true := by
    intro m
    induction m with
    | nil => intros; rfl
    | cons a t ih =>
      obtain ⟨i, v⟩ := a
      intro b c h up lo
      simp only [List.map_cons, Table.wfFrom, Bool.and_eq_true, decide_eq_true_eq] at h ⊢
      refine ⟨⟨?_, h.1.2⟩, ih (some i) (some (g i)) h.2
        (fun x hx y hy => up x (List.mem_cons_of_mem _ hx) y (List.mem_cons_of_mem _ hy)) ?_⟩
      · cases c with
        | none => rfl
        | some n => simpa using lo n rfl (i, v) List.mem_cons_self
      · intro n hn x hx
        cases hn
        refine up (i, v) List.mem_cons_self x (List.mem_cons_of_mem _ hx) ?_
        exact Table.lt_of_wfFrom d i t h.2 x hx
  exact gen m none none h up (by intro n hn; cases hn)

/-- Blocks of a stall-report region as the save area takes them, b the first of them: canonical, every key in its block. -/
theorem Table.wf_blocks (d : Byte) (lo : Nat) (block : Nat → Table Byte) (h : ∀ b, Table.wf d (block b) = true)
    (k : ∀ b, ∀ x ∈ block b, lo + b * 65536 ≤ x.1 ∧ x.1 < lo + (b + 1) * 65536) (n : Nat) : ∀ a,
    Table.wf d ((List.range' a n).flatMap block) = true ∧
      ∀ x ∈ (List.range' a n).flatMap block, lo + a * 65536 ≤ x.1 ∧ x.1 < lo + (a + n) * 65536 := by
  induction n with
  | zero => intro a; exact ⟨rfl, by intro x hx; simp at hx⟩
  | succ n ih =>
    intro a
    obtain ⟨w, r⟩ := ih (a + 1)
    simp only [List.range'_succ, List.flatMap_cons]
    refine ⟨Table.wf_append d _ _ (h a) w ?_, ?_⟩
    · intro x hx y hy
      have := k a x hx
      have := r y hy
      omega
    · intro x hx
      rcases List.mem_append.mp hx with hx | hx
      · have := k a x hx
        constructor
        · omega
        · have : (a + 1) * 65536 ≤ (a + (n + 1)) * 65536 := Nat.mul_le_mul_right _ (by omega)
          omega
      · have := r x hx
        constructor
        · omega
        · have e : a + 1 + n = a + (n + 1) := by omega
          rw [e] at this
          omega

/-- The copy of a stall-report region (R42). -/
theorem State.saveStall_form (s : State) (p : Nat) (h : FormOk s) : FormOk (s.saveStall p) := by
  refine ⟨h.mem, h.yard, ?_⟩
  have blocks := Table.wf_blocks 0 (p * 2 ^ 20) (fun b =>
    match s.stallBlock p b with
    | none => []
    | some h => (s.yard.bytes.filter (fun c => h * 65536 ≤ c.1 ∧ c.1 < h * 65536 + 65536 ∧
        c.1 / 8 ∉ s.yard.damaged)).map (fun c => (p * 2 ^ 20 + b * 65536 + (c.1 - h * 65536), c.2)))
    (by
      intro b
      split
      · rfl
      · rename_i h _
        refine Table.wf_map 0 (fun a => p * 2 ^ 20 + b * 65536 + (a - h * 65536)) _ (Table.wf_filter 0 _ _ ‹FormOk s›.yard) ?_
        intro x hx y hy lt
        simp only [List.mem_filter, decide_eq_true_eq] at hx hy
        omega)
    (by
      intro b x hx
      split at hx
      · cases hx
      · simp only [List.mem_map, List.mem_filter, decide_eq_true_eq] at hx
        obtain ⟨c, ⟨-, hl, hu, -⟩, rfl⟩ := hx
        clear * - hl hu
        omega) 16 0
  rw [← List.range_eq_range'] at blocks
  have lowPart := Table.wf_filter 0 (fun c => (c.1 < p * 2 ^ 20 : Bool)) _ h.save
  have highPart := Table.wf_filter 0 (fun c => (p * 2 ^ 20 + 2 ^ 20 ≤ c.1 : Bool)) _ h.save
  refine Table.wf_append 0 _ _ (Table.wf_append 0 _ _ lowPart blocks.1 ?_) highPart ?_
  · intro x hx y hy
    simp only [List.mem_filter, decide_eq_true_eq] at hx
    have := blocks.2 y hy
    omega
  · intro x hx y hy
    simp only [List.mem_filter, decide_eq_true_eq] at hy
    rcases List.mem_append.mp hx with hx | hx
    · simp only [List.mem_filter, decide_eq_true_eq] at hx
      omega
    · have := blocks.2 x hx
      omega

/-! ### Reads where no line is damaged -/

/-- A clean read of a line that holds no uncorrectable error changes nothing. -/
theorem State.lineRead_clean {s : State} (h : s.mem.damaged = []) (addr : Nat) : s.lineRead addr .clean = (false, s) := by
  simp [State.lineRead, State.lineOutcome, h]

@[simp] theorem lineErr_clean (addr : Nat) : lineErr cleanLines addr = .clean := by simp [lineErr, cleanLines]

/-- The same of a read of several lines. -/
theorem State.memLoad_clean {s : State} (h : s.mem.damaged = []) (fuel : Nat) :
    ∀ addr n, (s.memLoad addr n cleanLines fuel).1 = false ∧ (s.memLoad addr n cleanLines fuel).2.2 = s := by
  induction fuel with
  | zero => intro addr n; exact ⟨rfl, rfl⟩
  | succ k ih =>
    intro addr n
    unfold State.memLoad
    split
    · exact ⟨rfl, rfl⟩
    · simp [State.lineRead_clean h, ih]

/-- A read of a context's memory finds nothing uncorrectable and changes nothing where no line is damaged. -/
theorem State.memGet_clean {s : State} (h : s.mem.damaged = []) (c va n : Nat) :
    (s.memGet c cleanLines va n).1 = false ∧ (s.memGet c cleanLines va n).2.2 = s := by
  unfold State.memGet
  suffices ∀ (l : List Span) (bs : List Byte), ∃ bs', l.foldl (fun (bad, bs, t) (a, k) =>
      match (t.ctx c).translate false a with
      | none => (bad, bs ++ List.replicate k 0, t)
      | some pa =>
        let r := t.memLoad pa k cleanLines 2
        let u := if r.1 then r.2.2.noteLine pa (some (c, (t.ctx c).gen)) else r.2.2
        (bad || r.1, bs ++ r.2.1, u)) (false, bs, s) = (false, bs', s) by
    obtain ⟨bs', e⟩ := this (lineSpans va n) []
    exact e ▸ ⟨rfl, rfl⟩
  intro l
  induction l with
  | nil => intro bs; exact ⟨bs, rfl⟩
  | cons x t ih =>
    intro bs
    rw [List.foldl_cons]
    dsimp only
    split
    · exact ih _
    · simp only [State.memLoad_clean h 2, Bool.or_self, Bool.false_eq_true, if_false]
      exact ih _

/-- A packet to a peer that can be reached leaves under the next tag (R289, R297). -/
theorem State.sendTo_tag {s : State} {kind : Nat} {p : Peer} {arg pflags : Nat} {data : List Byte} {ctx : Nat}
    {w : Waiter} (hn : s.rails.node ≠ noNode) (hs : s.rails.stopped = false)
    (hr : ({ s with rails.nextTag := (s.rails.nextTag + 1) % 2 ^ 32 }).unreachable p.node = false) :
    (s.sendTo kind p arg pflags data ctx w).map (fun x => x.1) = some s.rails.nextTag := by
  unfold State.sendTo
  rw [if_neg (by simp [hn, hs])]
  simp only [State.launch, State.form, hr, Bool.false_eq_true, if_false, Option.map_some]

/-- One page of a restore with no line damaged: its packet is sent, or the target cannot be reached. -/
theorem State.restorePage_clean {s : State} (h : s.mem.damaged = []) (c : Nat) (p : Peer) (va src : Nat) :
    ∃ data, (s.restorePage c p cleanLines va src).1 = (s.sendTo 0x1 p va 0 data c (.restore c)).map (fun x => x.1) := by
  unfold State.restorePage
  refine ⟨(s.memGet c cleanLines src mib2).2.1, ?_⟩
  simp only [State.memGet_clean h, Bool.false_eq_true, if_false]
  cases s.sendTo 1 p va 0 (s.memGet c cleanLines src mib2).2.1 c (.restore c) <;> rfl

end Sys2Proof.Machine
end

