-- ==== Sys2Proof/Laws/PerInstr.lean ====
section
/-! SUPPORT. What holds of every command, one lemma per constructor: all but seven commands are well formed whatever their
operands. -/

namespace Sys2Proof.Laws.Operands

/-- The commands whose operands an outside party can get wrong. -/
def guarded : Instr → Bool
  | .frameReceive _ _ _ _ => true
  | .apertureRead _ _ _ => true
  | .apertureWrite _ _ _ => true
  | .zeroMeasurementDone _ => true
  | .estimatorSample _ => true
  | .energySample _ _ _ _ => true
  | .computeDomainResetDone _ => true
  | _ => false

/-- A command is well formed, or one of those whose operands are checked. -/
def Statement (i : Instr) : Prop := i.wellFormed = true ∨ guarded i = true

theorem sessionQuery (ch : Chan) : Statement (.sessionQuery ch) := .inl rfl
theorem sessionResume (ch : Chan) : Statement (.sessionResume ch) := .inl rfl
theorem sessionAck (ch : Chan) : Statement (.sessionAck ch) := .inl rfl
theorem identityGet (ch : Chan) : Statement (.identityGet ch) := .inl rfl
theorem capRead (ch : Chan) : Statement (.capRead ch) := .inl rfl
theorem contextCreate (ch : Chan) : Statement (.contextCreate ch) := .inl rfl
theorem contextDestroy (ch : Chan) : Statement (.contextDestroy ch) := .inl rfl
theorem contextHalt (ch : Chan) : Statement (.contextHalt ch) := .inl rfl
theorem contextResume (ch : Chan) : Statement (.contextResume ch) := .inl rfl
theorem contextRead (ch : Chan) : Statement (.contextRead ch) := .inl rfl
theorem contextSet (ch : Chan) : Statement (.contextSet ch) := .inl rfl
theorem classWeights (ch : Chan) : Statement (.classWeights ch) := .inl rfl
theorem memReserve (ch : Chan) : Statement (.memReserve ch) := .inl rfl
theorem memRelease (ch : Chan) : Statement (.memRelease ch) := .inl rfl
theorem tokenAlloc (ch : Chan) : Statement (.tokenAlloc ch) := .inl rfl
theorem tokenList (ch : Chan) : Statement (.tokenList ch) := .inl rfl
theorem ringBind (ch : Chan) : Statement (.ringBind ch) := .inl rfl
theorem ringStop (ch : Chan) : Statement (.ringStop ch) := .inl rfl
theorem ringUnbind (ch : Chan) : Statement (.ringUnbind ch) := .inl rfl
theorem apertureBind (ch : Chan) : Statement (.apertureBind ch) := .inl rfl
theorem dropCounters (ch : Chan) : Statement (.dropCounters ch) := .inl rfl
theorem timetableSet (ch : Chan) : Statement (.timetableSet ch) := .inl rfl
theorem powerStatus (ch : Chan) : Statement (.powerStatus ch) := .inl rfl
theorem energyRead (ch : Chan) : Statement (.energyRead ch) := .inl rfl
theorem powerStateSet (ch : Chan) (tests : List SelfTest) (readBacks : ReadBacks) : Statement (.powerStateSet ch tests readBacks) := .inl rfl
theorem hayloftAnchorWalk (ch : Chan) : Statement (.hayloftAnchorWalk ch) := .inl rfl
theorem trgSummary (ch : Chan) : Statement (.trgSummary ch) := .inl rfl
theorem trgRead (ch : Chan) (ecc : Ecc) : Statement (.trgRead ch ecc) := .inl rfl
theorem trgAnnotate (ch : Chan) : Statement (.trgAnnotate ch) := .inl rfl
theorem trgClear (ch : Chan) (cut : Bool) : Statement (.trgClear ch cut) := .inl rfl
theorem faultList (ch : Chan) : Statement (.faultList ch) := .inl rfl
theorem faultAck (ch : Chan) : Statement (.faultAck ch) := .inl rfl
theorem resetRequest (ch : Chan) (readBacks : ReadBacks) : Statement (.resetRequest ch readBacks) := .inl rfl
theorem stallRead (ch : Chan) : Statement (.stallRead ch) := .inl rfl
theorem authChallenge (ch : Chan) : Statement (.authChallenge ch) := .inl rfl
theorem measurementGet (ch : Chan) : Statement (.measurementGet ch) := .inl rfl
theorem attestQuote (ch : Chan) (how : QuoteEnd) : Statement (.attestQuote ch how) := .inl rfl
theorem pubkeyGet (ch : Chan) : Statement (.pubkeyGet ch) := .inl rfl
theorem provision (ch : Chan) (how : ProvisionEnd) : Statement (.provision ch how) := .inl rfl
theorem lifecycleSet (ch : Chan) : Statement (.lifecycleSet ch) := .inl rfl
theorem ownerKeyDestroy (ch : Chan) : Statement (.ownerKeyDestroy ch) := .inl rfl
theorem debugUnlock (ch : Chan) : Statement (.debugUnlock ch) := .inl rfl
theorem debugLock (ch : Chan) : Statement (.debugLock ch) := .inl rfl
theorem railInject (ch : Chan) : Statement (.railInject ch) := .inl rfl
theorem sbxInject (ch : Chan) : Statement (.sbxInject ch) := .inl rfl
theorem fwUpdateBegin (ch : Chan) : Statement (.fwUpdateBegin ch) := .inl rfl
theorem fwUpdateData (ch : Chan) (host : HostRead) : Statement (.fwUpdateData ch host) := .inl rfl
theorem fwUpdateVerify (ch : Chan) : Statement (.fwUpdateVerify ch) := .inl rfl
theorem fwUpdateCommit (ch : Chan) (how : CommitEnd) : Statement (.fwUpdateCommit ch how) := .inl rfl
theorem fwUpdateAbort (ch : Chan) : Statement (.fwUpdateAbort ch) := .inl rfl
theorem fwUpdateStatus (ch : Chan) : Statement (.fwUpdateStatus ch) := .inl rfl
theorem fwActivate (ch : Chan) (readBacks : ReadBacks) : Statement (.fwActivate ch readBacks) := .inl rfl
theorem railNodeSet (ch : Chan) : Statement (.railNodeSet ch) := .inl rfl
theorem routeSet (ch : Chan) : Statement (.routeSet ch) := .inl rfl
theorem epochSet (ch : Chan) : Statement (.epochSet ch) := .inl rfl
theorem peerSet (ch : Chan) : Statement (.peerSet ch) := .inl rfl
theorem coupleSet (ch : Chan) : Statement (.coupleSet ch) := .inl rfl
theorem coupleStore (ch : Chan) (lines : LineEcc) : Statement (.coupleStore ch lines) := .inl rfl
theorem coupleRestore (ch : Chan) (lines : LineEcc) : Statement (.coupleRestore ch lines) := .inl rfl
theorem collGroupSet (ch : Chan) : Statement (.collGroupSet ch) := .inl rfl
theorem railStatus (ch : Chan) : Statement (.railStatus ch) := .inl rfl
theorem sidingEnter (ch : Chan) : Statement (.sidingEnter ch) := .inl rfl
theorem reservedOpcodeRequest (ch : Chan) : Statement (.reservedOpcodeRequest ch) := .inl rfl
theorem setEndpointId (src : Byte) (slave : Byte) (op : Byte) (eid : Byte) : Statement (.setEndpointId src slave op eid) := .inl rfl
theorem getEndpointId (src : Byte) : Statement (.getEndpointId src) := .inl rfl
theorem getMctpVersionSupport (src : Byte) (msgType : Byte) : Statement (.getMctpVersionSupport src msgType) := .inl rfl
theorem getMessageTypeSupport (src : Byte) : Statement (.getMessageTypeSupport src) := .inl rfl
theorem getVendorDefinedMsgSupport (src : Byte) (selector : Byte) : Statement (.getVendorDefinedMsgSupport src selector) := .inl rfl
theorem getTid (src : Byte) : Statement (.getTid src) := .inl rfl
theorem getPldmVersion (src : Byte) (type : Byte) : Statement (.getPldmVersion src type) := .inl rfl
theorem getPldmTypes (src : Byte) : Statement (.getPldmTypes src) := .inl rfl
theorem getPldmCommands (src : Byte) (type : Byte) : Statement (.getPldmCommands src type) := .inl rfl
theorem queryDeviceIdentifiers (src : Byte) : Statement (.queryDeviceIdentifiers src) := .inl rfl
theorem getFirmwareParameters (src : Byte) : Statement (.getFirmwareParameters src) := .inl rfl
theorem requestUpdate (src : Byte) : Statement (.requestUpdate src) := .inl rfl
theorem passComponentTable (src : Byte) (component : W16) : Statement (.passComponentTable src component) := .inl rfl
theorem updateComponent (src : Byte) (component : W16) (size : W32) : Statement (.updateComponent src component size) := .inl rfl
theorem requestFirmwareData (src : Byte) (data : List Byte) : Statement (.requestFirmwareData src data) := .inl rfl
theorem transferComplete (src : Byte) : Statement (.transferComplete src) := .inl rfl
theorem applyComplete (src : Byte) : Statement (.applyComplete src) := .inl rfl
theorem activateFirmware (src : Byte) : Statement (.activateFirmware src) := .inl rfl
theorem getStatus (src : Byte) : Statement (.getStatus src) := .inl rfl
theorem cancelUpdateComponent (src : Byte) : Statement (.cancelUpdateComponent src) := .inl rfl
theorem cancelUpdate (src : Byte) : Statement (.cancelUpdate src) := .inl rfl
theorem mctpResendTimeout : Statement .mctpResendTimeout := .inl rfl
theorem mbxInDoorbell (tail : W32) : Statement (.mbxInDoorbell tail) := .inl rfl
theorem mailboxRequestReceive : Statement .mailboxRequestReceive := .inl rfl
theorem mbxOutAck (ack : W32) : Statement (.mbxOutAck ack) := .inl rfl
theorem mbxOutDoorbell (value : W32) : Statement (.mbxOutDoorbell value) := .inl rfl
theorem outboundTicketWrite (ch : Chan) : Statement (.outboundTicketWrite ch) := .inl rfl
theorem msixHoldoffExpiry (vector : Fin 2048) : Statement (.msixHoldoffExpiry vector) := .inl rfl
theorem msixVectorUnmask (vector : Fin 2048) : Statement (.msixVectorUnmask vector) := .inl rfl
theorem rngIrqPend (k : Fin 64) (mask : W64) : Statement (.rngIrqPend k mask) := .inl rfl
theorem rngDoorbell (ring : Fin 4096) (value : W64) (whole : Bool) : Statement (.rngDoorbell ring value whole) := .inl rfl
theorem tokSignal (token : Fin 65536) (value : W64) (whole : Bool) : Statement (.tokSignal token value whole) := .inl rfl
theorem apertureRead (addr : BitVec 38) (len : Fin 4097) (lines : LineEcc) : Statement (.apertureRead addr len lines) := .inr rfl
theorem apertureWrite (addr : BitVec 38) (data : List Byte) (lines : LineEcc) : Statement (.apertureWrite addr data lines) := .inr rfl
theorem configWrite (reg : ConfigReg) : Statement (.configWrite reg) := .inl rfl
theorem registerWriteOther (bar : Bar) (offset : Nat) (data : List Byte) : Statement (.registerWriteOther bar offset data) := .inl rfl
theorem pcieConventionalReset (how : PcieReset) (link : LinkResult) : Statement (.pcieConventionalReset how link) := .inl rfl
theorem wagonFetch (ring : Fin 4096) (how : FetchEnd) : Statement (.wagonFetch ring how) := .inl rfl
theorem marshallingDispatch (unit : UnitRef) : Statement (.marshallingDispatch unit) := .inl rfl
theorem wagonStart (ring : Fin 4096) (index : W32) (cycle : Nat) : Statement (.wagonStart ring index cycle) := .inl rfl
theorem creditReturn (unit : UnitRef) : Statement (.creditReturn unit) := .inl rfl
theorem nop (ring : Fin 4096) (index : W32) : Statement (.nop ring index) := .inl rfl
theorem mma (ring : Fin 4096) (index : W32) (ecc : YardEcc) (slips : List Slip) (rebuild : ReplayFaults) : Statement (.mma ring index ecc slips rebuild) := .inl rfl
theorem ledgerAdd (ring : Fin 4096) (index : W32) (ecc : YardEcc) (slips : List Slip) (rebuild : ReplayFaults) : Statement (.ledgerAdd ring index ecc slips rebuild) := .inl rfl
theorem readout (ring : Fin 4096) (index : W32) (ecc : YardEcc) (faults : TileFaults) (rebuild : ReplayFaults) (again : Reexecution) : Statement (.readout ring index ecc faults rebuild again) := .inl rfl
theorem vector (ring : Fin 4096) (index : W32) (ecc : YardEcc) (faults : LaneFaults) (again : LaneFaults) : Statement (.vector ring index ecc faults again) := .inl rfl
theorem copy (ring : Fin 4096) (index : W32) (errs : MemErrs) : Statement (.copy ring index errs) := .inl rfl
theorem gather (ring : Fin 4096) (index : W32) (errs : MemErrs) : Statement (.gather ring index errs) := .inl rfl
theorem scatter (ring : Fin 4096) (index : W32) (errs : MemErrs) : Statement (.scatter ring index errs) := .inl rfl
theorem fill (ring : Fin 4096) (index : W32) (errs : MemErrs) : Statement (.fill ring index errs) := .inl rfl
theorem allreduce (ring : Fin 4096) (index : W32) (errs : MemErrs) (sums : List SumSlip) : Statement (.allreduce ring index errs sums) := .inl rfl
theorem reduce (ring : Fin 4096) (index : W32) (errs : MemErrs) (sums : List SumSlip) : Statement (.reduce ring index errs sums) := .inl rfl
theorem broadcast (ring : Fin 4096) (index : W32) (errs : MemErrs) : Statement (.broadcast ring index errs) := .inl rfl
theorem tokenWait (ring : Fin 4096) (index : W32) : Statement (.tokenWait ring index) := .inl rfl
theorem tokenSignal (ring : Fin 4096) (index : W32) : Statement (.tokenSignal ring index) := .inl rfl
theorem tokenSet (ring : Fin 4096) (index : W32) : Statement (.tokenSet ring index) := .inl rfl
theorem stepCommit (ring : Fin 4096) (index : W32) : Statement (.stepCommit ring index) := .inl rfl
theorem wagonComplete (ring : Fin 4096) (index : W32) (ecc : Ecc) : Statement (.wagonComplete ring index ecc) := .inl rfl
theorem memoryReadReply (part : Fin 8) (dm : Fin 4) (tag : Nat) (reply : HostRead) (errs : MemErrs) : Statement (.memoryReadReply part dm tag reply errs) := .inl rfl
theorem tokenWaitTimeout (ring : Fin 4096) (index : W32) : Statement (.tokenWaitTimeout ring index) := .inl rfl
theorem collTimeout (ring : Fin 4096) (index : W32) : Statement (.collTimeout ring index) := .inl rfl
theorem mirrorAckTimeout (ctx : Fin 262144) : Statement (.mirrorAckTimeout ctx) := .inl rfl
theorem mirrorCloseTimeout (ctx : Fin 262144) : Statement (.mirrorCloseTimeout ctx) := .inl rfl
theorem teardownComplete (ctx : Fin 262144) : Statement (.teardownComplete ctx) := .inl rfl
theorem quarantineExpiry (ctx : Fin 262144) : Statement (.quarantineExpiry ctx) := .inl rfl
theorem zeroingDone : Statement .zeroingDone := .inl rfl
theorem patrolScrubRead (line : Nat) (ecc : Ecc) : Statement (.patrolScrubRead line ecc) := .inl rfl
theorem yardScrubRead (part : Fin 8) (word : Nat) (ecc : Ecc) : Statement (.yardScrubRead part word ecc) := .inl rfl
theorem frameReceive (port : Fin 20) (frame : List Byte) (corrected uncorrectable : Nat) : Statement (.frameReceive port frame corrected uncorrectable) := .inr rfl
theorem frameSend (port : Fin 20) : Statement (.frameSend port) := .inl rfl
theorem replayTimeout (port : Fin 20) : Statement (.replayTimeout port) := .inl rfl
theorem trailerTimeout (port : Fin 20) : Statement (.trailerTimeout port) := .inl rfl
theorem trainingDone (port : Fin 20) : Statement (.trainingDone port) := .inl rfl
theorem trainingRetry (port : Fin 20) : Statement (.trainingRetry port) := .inl rfl
theorem quietEnd (port : Fin 20) : Statement (.quietEnd port) := .inl rfl
theorem resendWaitExpiry (port : Fin 20) : Statement (.resendWaitExpiry port) := .inl rfl
theorem write (port : Fin 20) (lines : LineEcc) : Statement (.write port lines) := .inl rfl
theorem signal (port : Fin 20) : Statement (.signal port) := .inl rfl
theorem doorbell (port : Fin 20) : Statement (.doorbell port) := .inl rfl
theorem mirrorOpen (port : Fin 20) (lines : LineEcc) : Statement (.mirrorOpen port lines) := .inl rfl
theorem mirrorClose (port : Fin 20) : Statement (.mirrorClose port) := .inl rfl
theorem mirrorReply (port : Fin 20) : Statement (.mirrorReply port) := .inl rfl
theorem collUp (port : Fin 20) (errs : MemErrs) (sums : List SumSlip) : Statement (.collUp port errs sums) := .inl rfl
theorem collDown (port : Fin 20) (errs : MemErrs) : Statement (.collDown port errs) := .inl rfl
theorem collAbort (port : Fin 20) : Statement (.collAbort port) := .inl rfl
theorem dack (port : Fin 20) (lines : LineEcc) : Statement (.dack port lines) := .inl rfl
theorem epochNotice (port : Fin 20) : Statement (.epochNotice port) := .inl rfl
theorem signalBoxReport (source : W32) (code : Nat) (ctx : Option (Fin 262144)) (info : W32) : Statement (.signalBoxReport source code ctx info) := .inl rfl
theorem signallingFault (source : W32) : Statement (.signallingFault source) := .inl rfl
theorem pairWalk (wrong : List W32) : Statement (.pairWalk wrong) := .inl rfl
theorem milepostStall (source : W32) : Statement (.milepostStall source) := .inl rfl
theorem coreWatchdogExpiry (core : Fin 16) : Statement (.coreWatchdogExpiry core) := .inl rfl
theorem moduleWatchdogExpiry : Statement .moduleWatchdogExpiry := .inl rfl
theorem clockMonitorTrip : Statement .clockMonitorTrip := .inl rfl
theorem resetDeadlineMissed (level : Fin 7) (scope : W32) : Statement (.resetDeadlineMissed level scope) := .inl rfl
theorem moduleResetTimerExpiry : Statement .moduleResetTimerExpiry := .inl rfl
theorem unitResetDone (source : W32) : Statement (.unitResetDone source) := .inl rfl
theorem partitionResetDone (part : Fin 8) (test : SelfTest) : Statement (.partitionResetDone part test) := .inl rfl
theorem computeDomainResetDone (tests : List SelfTest) : Statement (.computeDomainResetDone tests) := .inr rfl
theorem eventAutoAck (event : Nat) : Statement (.eventAutoAck event) := .inl rfl
theorem coastingTimeout (unit : UnitRef) (cycle : Nat) : Statement (.coastingTimeout unit cycle) := .inl rfl
theorem departureSlotGrant (cycle : Nat) : Statement (.departureSlotGrant cycle) := .inl rfl
theorem innerLoopTick (m : TickMeas) : Statement (.innerLoopTick m) := .inl rfl
theorem outerLoopTick : Statement .outerLoopTick := .inl rfl
theorem overrunFallback : Statement .overrunFallback := .inl rfl
theorem engineTrialDone (onTime : Bool) : Statement (.engineTrialDone onTime) := .inl rfl
theorem ceilingPeriod (ceiling : Ceiling) (m : CeilMeas) : Statement (.ceilingPeriod ceiling m) := .inl rfl
theorem computeStepChange : Statement .computeStepChange := .inl rfl
theorem sustainedBucketUpdate : Statement .sustainedBucketUpdate := .inl rfl
theorem trimRung : Statement .trimRung := .inl rfl
theorem droopStretch (part : Fin 8) : Statement (.droopStretch part) := .inl rfl
theorem droopRelease (cycles : Nat) (fabric : Nat) : Statement (.droopRelease cycles fabric) := .inl rfl
theorem thermalTrip (sensor : Fin 64) : Statement (.thermalTrip sensor) := .inl rfl
theorem thermalTripRelease : Statement .thermalTripRelease := .inl rfl
theorem railCurrentLimit (rail : Supply) : Statement (.railCurrentLimit rail) := .inl rfl
theorem energySample (partMj : List Nat) (ran : List (Fin 8 × Nat × Nat)) (coasting : List (UnitRef × Nat)) (busMj : Nat × Nat × Nat) : Statement (.energySample partMj ran coasting busMj) := .inr rfl
theorem cartridgeInsert : Statement .cartridgeInsert := .inl rfl
theorem zeroMeasurementDone (m : CartMeas) : Statement (.zeroMeasurementDone m) := .inr rfl
theorem thermistorSample (milliC : Int) (readBacks : ReadBacks) : Statement (.thermistorSample milliC readBacks) := .inl rfl
theorem identityPeriodicRead (reads : List (List Byte)) (readBacks : ReadBacks) : Statement (.identityPeriodicRead reads readBacks) := .inl rfl
theorem cartridgeHwTrip (kind : HwTrip) : Statement (.cartridgeHwTrip kind) := .inl rfl
theorem estimatorSample (m : EstMeas) : Statement (.estimatorSample m) := .inr rfl
theorem fullAnchor (readBacks : ReadBacks) : Statement (.fullAnchor readBacks) := .inl rfl
theorem learningPauseTimeout : Statement .learningPauseTimeout := .inl rfl
theorem anchorWalkStart : Statement .anchorWalkStart := .inl rfl
theorem anchorWalkTimeout : Statement .anchorWalkTimeout := .inl rfl
theorem recordWriteTimer (readBacks : ReadBacks) : Statement (.recordWriteTimer readBacks) := .inl rfl
theorem trgFlush (how : FlushEnd) : Statement (.trgFlush how) := .inl rfl
theorem trgPeriodicSample (key : SampleKey) : Statement (.trgPeriodicSample key) := .inl rfl
theorem quoteBudgetRefill (identity : Bool) : Statement (.quoteBudgetRefill identity) := .inl rfl
theorem powerGood (journalWhole : Bool) (link : LinkResult) : Statement (.powerGood journalWhole link) := .inl rfl
theorem partitionSelfTestDone (part : Fin 8) (test : SelfTest) : Statement (.partitionSelfTestDone part test) := .inl rfl
theorem memoryTrainingDone (device : Fin 12) (passed : Bool) (values : List Byte) : Statement (.memoryTrainingDone device passed values) := .inl rfl
theorem memoryTestDone (badLines : List Nat) (badBlocks : List Nat) : Statement (.memoryTestDone badLines badBlocks) := .inl rfl
theorem fullModuleResetRelease (link : LinkResult) : Statement (.fullModuleResetRelease link) := .inl rfl
theorem inputLoss (how : LossKind) (readBacks : ReadBacks) : Statement (.inputLoss how readBacks) := .inl rfl
theorem holdupEnd : Statement .holdupEnd := .inl rfl
theorem inputReturn : Statement .inputReturn := .inl rfl
theorem trayResetFall (readBacks : ReadBacks) : Statement (.trayResetFall readBacks) := .inl rfl
theorem trayResetRise : Statement .trayResetRise := .inl rfl
theorem debugPortAccess (op : DebugOp) : Statement (.debugPortAccess op) := .inl rfl
theorem bypass : Statement .bypass := .inl rfl
theorem sample (pins : List Bool) : Statement (.sample pins) := .inl rfl
theorem preload (cells : List Bool) : Statement (.preload cells) := .inl rfl
theorem extest (pins : List Bool) : Statement (.extest pins) := .inl rfl
theorem pcieCompletionTimeout (part : Fin 8) (dm : Fin 4) (tag : Nat) (errs : MemErrs) : Statement (.pcieCompletionTimeout part dm tag errs) := .inl rfl
theorem vendorDefinedMessage (packets : List (List Byte)) : Statement (.vendorDefinedMessage packets) := .inl rfl
theorem perstLRise (link : LinkResult) : Statement (.perstLRise link) := .inl rfl
theorem localSelfTestDone (source : W32) (passed : Bool) : Statement (.localSelfTestDone source passed) := .inl rfl
theorem vddFabLimitRelease : Statement .vddFabLimitRelease := .inl rfl

end Sys2Proof.Laws.Operands
end

