-- ==== Sys2Proof/Laws/Records.lean ====
section
/-! SUPPORT. What the records of MRAM do: a write reads back, the history and the fence list, the places of control SRAM. -/

namespace Sys2Proof.Machine

/-- A record written well reads as what was written, whichever copy took it (R431). -/
@[simp] theorem TwoCopy.read_store {α : Type} (t : TwoCopy α) (v : α) : (t.store v true).read = some v := by
  obtain ⟨s0, v0, s1, v1⟩ := t
  rcases s0 with _ | a <;> rcases s1 with _ | b
  · rfl
  · simp [TwoCopy.store, TwoCopy.target, TwoCopy.read, TwoCopy.high]
  · simp [TwoCopy.store, TwoCopy.target, TwoCopy.read, TwoCopy.high]
  · by_cases h : b < a
    · have : a < max a b + 1 := by omega
      simp [TwoCopy.store, TwoCopy.target, TwoCopy.read, TwoCopy.high, h, this]
    · have : ¬ max a b + 1 < b := by omega
      simp [TwoCopy.store, TwoCopy.target, TwoCopy.read, TwoCopy.high, h, this]

/-- The same of a record that may hold nothing. -/
@[simp] theorem TwoCopy.value_store {α : Type} (t : TwoCopy (Option α)) (v : Option α) : (t.store v true).value = v := by
  simp [TwoCopy.value]

/-- A fresh record reads as its value. -/
@[simp] theorem TwoCopy.read_fresh {α : Type} (v : α) : (TwoCopy.fresh v).read = some v := rfl

/-- The history and the fence list after a write, which Hold-up does not begin (R502, R601). -/
theorem State.past_modPast (s : State) (f : History → History) :
    (s.modPast f).past = if s.power.state = .holdUp then s.past else f s.past := by
  unfold State.modPast
  split
  · rfl
  · simp [State.past]

/-- A write of the history touches nothing but MRAM. -/
theorem State.modPast_eq (s : State) (f : History → History) : ∃ h, s.modPast f = { s with mram.history := h } := by
  unfold State.modPast
  split
  · exact ⟨s.mram.history, rfl⟩
  · exact ⟨_, rfl⟩

/-- Outside Hold-up a fence enters the list (R502). -/
theorem State.listFence_mem (s : State) (src : W32) (h : s.power.state ≠ .holdUp) : src ∈ (s.listFence src).past.fences := by
  unfold State.listFence
  rw [State.past_modPast, if_neg h]
  unfold addTo
  split
  · assumption
  · simp

/-- The places that a list of bytes takes in a table of written bytes, from an offset on. -/
theorem Table.get_putAll (data : List Byte) : ∀ (m : Table (Option Byte)) (off base k : Nat),
    Table.get none ((data.zipIdx base).foldl (fun m x => Table.put none (off + x.2) (some x.1) m) m) k =
      if off + base ≤ k ∧ k < off + base + data.length then data[k - (off + base)]? else Table.get none m k := by
  induction data with
  | nil =>
    intro m off base k
    rw [if_neg (by intro h; simp at h; omega)]
    rfl
  | cons b t ih =>
    intro m off base k
    simp only [List.zipIdx_cons, List.foldl_cons, ih, List.length_cons]
    by_cases h : k = off + base
    · subst h
      rw [if_neg (by omega), Table.get_put_ne _ _ _ _ (by simp), if_pos (by omega)]
      simp
    · by_cases hin : off + (base + 1) ≤ k ∧ k < off + (base + 1) + t.length
      · rw [if_pos hin, if_pos (by omega)]
        have : k - (off + base) = k - (off + (base + 1)) + 1 := by omega
        rw [this, List.getElem?_cons_succ]
      · rw [if_neg hin, if_neg (by omega), Table.get_put_other _ _ _ h]

/-- Control SRAM holds what the debug port wrote, and every other byte as before (R22, R567). -/
theorem State.sramWrite_get (s : State) (off k : Nat) (data : List Byte) :
    Table.get none (s.sramWrite off data).sec.sram k =
      if off ≤ k ∧ k < off + data.length then data[k - off]? else Table.get none s.sec.sram k := by
  simpa [State.sramWrite] using Table.get_putAll data s.sec.sram off 0 k

end Sys2Proof.Machine
end

