-- ==== Sys2Proof/Tests/Slice0.lean ====
section
/-! SUPPORT. Tests: the well-formedness smoke, examples of the manual, and for every statement with hypotheses states
and operands that meet them. -/

set_option Elab.async false

namespace Sys2Proof.Tests

open Sys2Proof Sys2Proof.Machine

/-! ## A module at work, for the witnesses -/

/-- A partition in service. -/
def partIn : Partition := { Partition.reset.placed with unit := .inService }

/-- A peer that may do everything. -/
def peerA : Peer :=
  { node := 2, remoteGen := 1, remoteCtx := 0, doorbellIn := true, signalIn := true, writeIn := true, valid := true }

/-- An ACTIVE context with one partition, one 1 GiB page and two peers. -/
def ctxA : Context :=
  { Context.reset with
    state := .active
    yard := [{ phys := 0, base := 0, size := 16 }]
    pages := [{ vbase := 0, big := true, addr := 0, write := true }]
    peers := [peerA, peerA]
    groups := [(0, [{ parent := none, children := [] }]), (1, [{ parent := none, children := [0] }]),
               (2, [{ parent := some 0, children := [] }])] }

/-- A running ring of 64 wagons in module memory. -/
def ringA : Ring := { Ring.reset with state := .running, logSize := 6, cplBase := 4096, tail := 8 }

/-- A port UP with nothing under way. -/
def portUp : Port := { Port.reset with unit := .inService, state := .up, peerNode := 2 }

/-- The module at work: one partition, one memory device, one port, context 0 with ring 0 and token 0. -/
def ws : State :=
  { State.reset with
    parts := partIn :: List.replicate 7 Partition.reset
    cores := List.replicate 16 { ControlCore.reset with unit := .inService }
    ctxs := [(0, ctxA)]
    rings := [(0, ringA)]
    tokens := [(0, { value := 0, owner := some 0 })]
    mem := { Memory.reset with
      devices := { unit := .inService, attempts := 1, trained := true } ::
        List.replicate 11 { unit := .fenced, attempts := 3, trained := false }
      map := [0] }
    rails := { Rails.reset with
      ports := portUp :: List.replicate 19 Port.reset, node := 1, epoch := 7, routes := [(0, (2, 1))] }
    book := { Book.reset with fwState := 3, eid := some 9, peer := some 8, mctpUp := true }
    pcie := { Pcie.reset with linkUp := true, ready := true, busMaster := true, msixEnabled := true }
    power := { Power.reset with state := .run }
    hay := Hay.reset
    start := { Start.reset with phase := .rom, control := true } }

/-- The same with context 0 HALTED. -/
def wsH : State := ws.modCtx 0 (fun c => { c with state := .halted })

/-- The same with one free block of Yard left, the rest held by context 3. -/
def wsFull : State :=
  ws.modCtx 3 (fun c => { c with state := .halted, yard := [{ phys := 0, base := 17, size := 1455 }] })

/-- A request of a channel. -/
def rq (ch : Chan) (op : Nat) (payload : List Byte) : Request :=
  { chan := ch, opcode := op, flags := 0, client := 1, tag := 0, ack := 0, payload := payload, broken := false }

/-- A request with an authorisation block of zeros that names a key. -/
def rqs (op : Nat) (body : List Byte) (key : Nat) : Request :=
  { rq .pcie op (body ++ List.replicate 32 0 ++ leBytes 1 key ++ List.replicate 2823 0) with flags := 0x10 }

/-- A state in which a request alone is received. -/
def ask (s : State) (r : Request) : State := s.modChan r.chan (fun c => { c with received := [r] })

/-- A state in which a request alone is received, under a live nonce of value 0. -/
def askS (s : State) (r : Request) : State :=
  { ask s r with sec.nonces := [{ chan := .pcie, value := 0, issued := 0 }] }

/-- Naming context 0 under its generation, and more. -/
def nm (rest : List Byte) : List Byte := leBytes 4 0 ++ leBytes 2 1 ++ rest

/-- A request ticket's bytes, with its check. -/
def ticket (seq op : Nat) : List Byte :=
  let head := fun (crc : Nat) =>
    leBytes 4 seq ++ leBytes 4 0 ++ leBytes 2 op ++ leBytes 2 0 ++ leBytes 2 0 ++ leBytes 2 0 ++ leBytes 4 1 ++
      leBytes 4 0 ++ leBytes 4 crc ++ leBytes 4 0
  head (crc32c (head 0)).toNat

/-- The block writes of a vendor-defined message that carries a ticket, from the tray controller. -/
def message (seq op : Nat) : List (List Byte) :=
  (messagePackets 9 8 (ticketMessage (ticket seq op))).map (smbWrite smbAddress 0x10)

/-- A wagon dispatched by ring 0 for context 0. -/
def fl (u : UnitRef) (stage : Stage) (bits : Nat) : Flight :=
  { ring := 0, index := 0, ctx := 0, gen := 1, bits := BitVec.ofNat 512 bits, unit := u, stage := stage, tile := 0
    status := 0, flags := 0, causes := [], plane := 0, row := 0, col := 0, issuedAll := false, peer := none
    tags := [], cutShort := false, fence := none, list := [] }

/-- A state with one wagon dispatched. -/
def fly (s : State) (f : Flight) : State := { s with marsh.flights := [f] }

/-- A packet from node 2 to this module for context 0, under the epoch. -/
def pk (kind arg length : Nat) (data : List Byte) : Packet :=
  { epoch := 7, dst := 1, src := 2, tag := 5, arg := BitVec.ofNat 64 arg, length := length, ctx := 0, gen := 1
    kind := kind, pflags := 0, data := data }

/-- A state in which port 0 holds one packet, in lane 0. -/
def lane (s : State) (x : Packet) : State := s.modPort 0 (fun p => { p with rxq := [[(x, 1)], [], [], []] })

/-- A packet of tag 5 sent to node 2 and not settled. -/
def sentTo (kind : Nat) (w : Waiter) : OutPacket :=
  { packet := { pk kind 0 0 [] with dst := 2, src := 1 }, port := 0, ctx := 0, waiter := w }

/-- A full segment of a collective. -/
def segmentA : Packet := pk 8 (2 ^ 48) 4112 (List.replicate 4112 0)

theorem segment_taken : (lane ws segmentA).packetRefusal segmentA = none := by
  have h : segmentA.isCut = false := by
    unfold Packet.isCut
    rw [show segmentA.data.length = 4112 from List.length_replicate]
    rfl
  unfold State.packetRefusal
  rw [h]
  decide +kernel

/-- A mirror store of context 0. -/
def storeA : Store :=
  { sourceNode := 2, sourcePeer := 0, slotBytes := 2 ^ 21, opened := none, applied := 0, restoring := none }

/-- A state whose context 0 is a mirror store. -/
def asStore (s : State) (y : Store) : State := s.modCtx 0 (fun c => { c with store := some y })

/-- A mirror in progress for the wagon of ring 0. -/
def mirrorA (phase : MirrorPhase) : Mirror :=
  { ring := 0, index := 0, phase := phase, slot := false, retried := false, left := [], tags := [5], bytesSent := 0
    bad := false }

/-- A state whose context 0 mirrors. -/
def mirrors (s : State) (phase : MirrorPhase) : State := s.modCtx 0 (fun c => { c with mirror := some (mirrorA phase) })

/-- A read of a mover for the wagon of ring 0. -/
def readA (gen : W16) (host : Bool) : ReadReq :=
  { tag := 0, ring := 0, index := 0, ctx := 0, gen := gen, host := host, src := 0, dst := 64, n := 64, held := none }

/-- A state in which mover 0 of partition 0 waits for one read. -/
def reading (s : State) (r : ReadReq) : State := s.modMover 0 0 (fun m => { m with reads := [r] })

/-- A flit of lane 0. -/
def flitA : Flit := { seq := 0, vl := 0, first := true, last := true, bytes := List.replicate 256 0 }

/-- A restore of one page whose packet is sent, with no line damaged. -/
theorem restored {s : State} {c : Nat} {p : Peer} {base : Nat} {pages : List (Nat × Nat)} (hp : pages = [(0, 0)])
    (h : s.mem.damaged = [])
    (hs : ∀ data, (s.sendTo 0x1 p 0 0 data c (.restore c)).map (fun x => x.1) = some 0) :
    s.restorePages c p cleanLines base pages = (some [0], (s.restorePages c p cleanLines base pages).2) := by
  subst hp
  obtain ⟨data, e⟩ := s.restorePage_clean h c p 0 (base + 0)
  rw [hs data] at e
  refine Prod.ext ?_ rfl
  unfold State.restorePages
  dsimp only
  split
  · next x u f => rw [f] at e; cases e
  · next x t u f => rw [f] at e; cases e; rfl

/-- A COUPLE_RESTORE on a store whose record holds one region of one page. -/
def reqR : Request := rq .pcie 0x0906 (nm (leBytes 2 1))
def wsR : State := ask { asStore wsH storeA with mem.bytes := [(26, 2), (40, 1), (74, 0x20)] } reqR

theorem sends_page (data : List Byte) :
    ((wsR.started .pcie reqR []).sendTo 0x1 peerA 0 0 data 0 (.restore 0)).map (fun x => x.1) = some 0 :=
  State.sendTo_tag (by decide +kernel) rfl (by decide +kernel)

/-- Executions without an error, and with a parity error. -/
def tileA (parity : Bool) : TileFaults := { slips := [], image := [], parity := parity }
def laneA (parity : Bool) : LaneFaults := { slips := [], parity := parity }

/-- A reply with a full payload. -/
def ticketA : OutTicket :=
  { opcode := 0x0110, event := false, client := 1, tag := 0, code := 0, detail := 0, payload := List.replicate 480 1 }

/-- A vector's entry, programmed and not masked. -/
def entryA : MsixEntry := { addr := 1, data := 1, masked := false, programmed := true }

/-- The identity record of a QSH-20, with its CRC-32C (R403). -/
def recordA : List Byte :=
  let body := leBytes 8 1 ++ cartPart ++ [1, 14] ++ leBytes 10 0
  body ++ leBytes 4 (crc32c body).toNat

/-- Measurements of a good cartridge. -/
def cartA : CartMeas :=
  { reads := [recordA], cellsMv := List.replicate 14 3000, tempMc := 25000, stackMv := 42000, zero := [0]
    readBacks := written }

/-- A record of zeros has no sequence number, so that the next one has room. -/
theorem room (n : Nat) (h : estSeq (List.replicate 64 0) = some n ∨ estSeq (List.replicate 64 0) = some n) :
    n + 1 < 2 ^ 64 := by
  rw [show estSeq (List.replicate 64 0) = none by decide +kernel] at h
  rcases h with h | h <;> cases h

/-- A scheduled anchor walk. -/
def walkA : Walk := { id := 1, empty := false, running := false, limited := false }

/-- A slot of the recorder. -/
def slotA : Slot :=
  { code := 0x8004, source := 0, lin := true, base := 0, width := 64, total := 1, low := 0, high := 0, firstStamp := 0
    lastStamp := 0, bins := [], seq := 0, lastMs := 0 }

/-- An event of the log. -/
def eventA : Event :=
  { id := 1, code := 0x0201, cls := 1, level := 0, taken := 0, escalated := false, absorbed := false
    injected := false, state := 0, ctx := none, source := source 1 0 0, stamp := 0, info := 0 }

/-- A report that waits. -/
def reportA : Report := { source := source 1 0 0, code := 0x0201, ctx := none, info := 0, injected := false }

/-- An open update. -/
def updateA : Update :=
  { imageBytes := 4096, got := [], verified := false, committed := false, writing := false, discarded := false }

/-- A Roundhouse that took every byte of an image, whose header is all zeros. -/
def loadedA : Roundhouse :=
  { Roundhouse.reset with state := .download, size := 4096, taken := 4096, header := List.replicate 128 0 }

/-- A key pair, whose public key is left unevaluated. -/
def pairA : KeyPair := { skSeed := 1, skPrf := 2, pubSeed := 3 }

theorem public_length (k : KeyPair) : k.publicKey.length = 68 := by
  simp only [KeyPair.publicKey, slice, List.length_append, List.length_replicate, List.length_take]
  omega

/-- The module at work under an owner's key. -/
def ownedBy (key : List Byte) : State :=
  { ws with mram.ownerKey := TwoCopy.fresh (some key), fuses.ownerHash := keyHash key }

def ownerA : List Byte := List.replicate 68 0

theorem owned (key : List Byte) : (ask (ownedBy key) (rq .pcie 0x0603 (leBytes 1 2 ++ leBytes 3 0))).ownerKey = some key :=
  if_pos rfl

/-- A history whose module was reset a moment ago. -/
def justReset : TwoCopy History :=
  TwoCopy.fresh { History.empty with rungDone := [{ source := moduleScope, sec := 0 }] }

/-- The module with every partition in service, its sensors' ceiling at the floor, and input drawn. -/
def eightIn (profile : Nat) : State :=
  { ws with
    parts := List.replicate 8 partIn
    cap.profile := profile
    power.ceilings := [64, 64, 16, 64, 64, 64]
    power.inputMw := 1 }

/-- The module at work, Provisioned, with both keys in control SRAM and one quote left of each. -/
def keyedA : State :=
  { ws with
    fuses.lifecycle := 1
    sec.attestRam := some pairA
    sec.identityRam := some pairA
    sec.attestBudget := 1
    sec.identityBudget := 1 }

/-- The module with every memory device in training. -/
def training (attempts : Nat) : State :=
  { ws with
    mem := { Memory.reset with
      devices := List.replicate 12 { unit := .pending, attempts := attempts, trained := false } } }
/-! ## The well-formedness smoke: one ill-formed and one well-formed term for each check -/

theorem test_frame_of_no_slots_is_ill_formed : (Instr.frameReceive 0 [] 0 0).wellFormed = false := by decide

theorem test_frame_of_32_slots_is_well_formed :
    (Instr.frameReceive 0 (List.replicate 8192 0) 0 0).wellFormed = true := by
  change decide ((List.replicate 8192 (0 : Byte)).length = 8192) = true
  rw [List.length_replicate]
  rfl

theorem test_read_across_4_kib_is_ill_formed : (Instr.apertureRead 4092 8 cleanLines).wellFormed = false := by decide +kernel

theorem test_read_up_to_4_kib_is_well_formed : (Instr.apertureRead 4092 4 cleanLines).wellFormed = true := by decide +kernel

theorem test_write_of_no_bytes_is_ill_formed : (Instr.apertureWrite 0 [] cleanLines).wellFormed = false := by decide +kernel

theorem test_write_of_a_byte_is_well_formed : (Instr.apertureWrite 4095 [1] cleanLines).wellFormed = true := by
  decide +kernel

theorem test_cartridge_of_13_cells_is_ill_formed :
    (Instr.zeroMeasurementDone { cartA with cellsMv := List.replicate 13 2500 }).wellFormed = false ∧
    (Instr.estimatorSample
      { dtUs := 1, code := 0, cellsMv := List.replicate 15 2500, readBacks := written }).wellFormed = false := by
  decide

theorem test_cartridge_of_14_cells_is_well_formed :
    (Instr.zeroMeasurementDone cartA).wellFormed = true ∧
    (Instr.estimatorSample
      { dtUs := 1, code := 0, cellsMv := List.replicate 14 2500, readBacks := written }).wellFormed = true := by
  decide

theorem test_sample_of_7_partitions_is_ill_formed :
    (Instr.energySample (List.replicate 7 0) [] [] (0, 0, 0)).wellFormed = false ∧
    (Instr.computeDomainResetDone []).wellFormed = false := by
  decide

theorem test_sample_of_8_partitions_is_well_formed :
    (Instr.energySample (List.replicate 8 0) [] [] (0, 0, 0)).wellFormed = true ∧
    (Instr.computeDomainResetDone
      (List.replicate 8 { engines := [], vector := true, movers := [], yard := true })).wellFormed = true := by
  decide

theorem test_ill_formed_read_faults : exec (.apertureRead 4092 8 cleanLines) ws = .fault .illFormed := rfl

/-! ## Examples of the manual -/

/-- Example of R70 (02_ledger): four BF16 products at anchor −20 leave L = 1310719 with INEXACT set. -/
theorem test_ledger_example :
    let g := [(0x3FA0, 0x3F80), (0x3540, 0x3F80), (0x3500, 0x3F80), (0xB5C0, 0x3F80)].foldl
      (fun l p => Ledger.product (-20) l (decode 8 p.1) (decode 8 p.2)) Ledger.zero
    g.l = 1310719 ∧ g.sat = false ∧ g.invalid = false ∧ g.inexact = true ∧ g.res = 1310719 % 255 ∧ g.off = false := by
  decide +kernel

/-- Example of R76 (02_ledger): the read-out of that ledger to BF16 in RNE, RTZ and SR. -/
theorem test_read_out_example :
    [(0, 0), (1, 0), (2, 0x5C219E40), (2, 0xFFF7FFFF), (2, 0xFFF80000)].map (fun p =>
      (Ledger.convert { Ledger.zero with l := 1310719, inexact := true } (-20) 8 p.1 p.2).1) =
    [0x3FA0, 0x3F9F, 0x3FA0, 0x3FA0, 0x3F9F] := by
  decide +kernel

/-- Example of R216 (05_memory): with twelve devices, address 1_0000_0C40 is on MEM05, CH5, line 699051. -/
theorem test_address_example :
    ({ Memory.reset with map := List.range 12 } : Memory).locate 0x100000C40 = (5, 5, 699051) ∧
    lineBank 699051 = 1 := by
  decide +kernel

/-- CRC-32C of the nine digits: the check value that the catalogues of CRCs give for it. -/
theorem test_crc_of_digits :
    crc32c [0x31, 0x32, 0x33, 0x34, 0x35, 0x36, 0x37, 0x38, 0x39] = 0xE3069283 := by
  decide +kernel

/-- SHAKE256 of the empty message: the first 32 bytes of the output that NIST publishes with FIPS 202. -/
theorem test_shake256_of_nothing :
    beNat (shake256 32 []) = 0x46B9DD2B0BA88D13233B3FEB743EEB243FCD52EA62B81B82B50C27646ED5762F := by
  decide +kernel

/-- A TRG_CLEAR that power cut short. -/
def cutClear : ClearRecord :=
  { stamp := 0, genBefore := 0, genAfter := 1, client := 1, slotsBefore := 0, done := false, key := 0
    overflowBefore := 0, nonce := [] }

/-- The module without power, that clear still PENDING, and the tray's reset released. -/
def coldA : State := { State.reset with start.trayReset := true, trg.clears := [cutClear] }

theorem witness_cold_start :
    coldA.start.phase = .off ∧ coldA.start.trayReset = true ∧ coldA.power.state ≠ .holdUp ∧
    coldA.trg.journal = none ∧ coldA.trg.bad = false ∧ coldA.trg.stopped = false ∧
    coldA.trg.clears.any (fun c => !c.done) = true := by
  decide +kernel

/-! ## What meets the hypotheses of the statements -/

theorem witness_session_requests :
    (∃ (s : State) (r : Request) (rest : List Request) (ch : Chan), Asked s ch 0x0100 r rest ∧ Shaped r 0 []) ∧
    (∃ (s : State) (r : Request) (rest : List Request) (ch : Chan), (s.chan ch).ackInRange r.ack = true ∧ Asked s ch
     0x0101 r rest ∧ Shaped r 0 []) ∧
    (∃ (s : State) (r : Request) (rest : List Request) (ch : Chan), (s.chan ch).ackInRange r.ack = true ∧ Asked s ch
     0x0102 r rest) ∧
    (∃ (s : State) (own src : Byte) (packets : List (List Byte)) (message : List Byte), s.book.fwState = 3 ∧
     s.book.eid = some own ∧ assemble own none packets = some (src, message) ∧ s.book.peer = some src ∧ s.mctpHears
     src false = true ∧ 37 ≤ message.length ∧ message.take 5 = ticketMessage [] ∧
     let m := ticketOf (message.drop 5)
     m.length ≤ 480 ∧ ticketCrc (message.drop 5) = m.crc ∧ m.opcode = 0x0100) ∧
    (∃ (s : State) (r : Request) (rest : List Request) (dst : Byte), s.book.mctp.received = r :: rest ∧ r.chan =
     .mctp ∧ r.opcode = 0x0100 ∧ s.book.fwState = 3 ∧ s.mayStart r = true ∧ s.book.peer = some dst) :=
  ⟨
    ⟨(ask ws (rq .mctp 0x0100 [])), (rq .mctp 0x0100 []), [], .mctp, ⟨rfl, rfl, rfl, rfl, by decide +kernel, rfl,
     rfl, rfl⟩, ⟨by decide +kernel, by decide +kernel⟩⟩,
    ⟨((ask ws { rq .pcie 0x0101 [] with ack := 1 }).modChan .pcie (fun c => { c with outSeq := 2 })),
     { rq .pcie 0x0101 [] with ack := 1 }, [], .pcie, by decide +kernel, ⟨rfl, rfl, rfl, rfl, by decide +kernel,
     rfl, rfl, rfl⟩, ⟨by decide +kernel, by decide +kernel⟩⟩,
    ⟨((ask ws { rq .pcie 0x0102 [] with ack := 1 }).modChan .pcie (fun c => { c with outSeq := 2 })),
     { rq .pcie 0x0102 [] with ack := 1 }, [], .pcie, by decide +kernel, ⟨rfl, rfl, rfl, rfl, by decide +kernel,
     rfl, rfl, rfl⟩⟩,
    ⟨ws, 9, 8, (message 5 0x0100), (ticketMessage (ticket 5 0x0100)), by decide +kernel, by decide +kernel,
     assemble_messagePackets 9 0x10 8 _ (by decide +kernel), by decide +kernel, by decide +kernel,
     by decide +kernel, rfl, by decide +kernel,
     (show ticketCrc (ticket 5 0x0100) = (ticketOf (ticket 5 0x0100)).crc from by decide +kernel), by rfl⟩,
    ⟨(ask ws (rq .mctp 0x0100 [])), (rq .mctp 0x0100 []), [], 8, rfl, by decide +kernel⟩⟩

theorem witness_identity_and_descriptor_read :
    (∃ (s : State) (r : Request) (rest : List Request) (ch : Chan), Asked s ch 0x0110 r rest ∧ Shaped r 0 []) ∧
    (∃ (s : State) (r : Request) (rest : List Request) (ch : Chan), Asked s ch 0x0111 r rest ∧ Shaped r 8 [(6, 2)] ∧
     let off := r.get 0 4
     let n := r.get 4 2
     0 < n ∧ n ≤ 472 ∧ off + n ≤ 1024) ∧
    (∃ (s : State) (r : Request) (rest : List Request) (ch : Chan), ∃ op, Asked s ch op r rest ∧ op ∉ requestOpcodes
     ∧ s.power.state ≠ .holdUp) :=
  ⟨
    ⟨(ask ws (rq .pcie 0x0110 [])), (rq .pcie 0x0110 []), [], .pcie, ⟨rfl, rfl, rfl, rfl, by decide +kernel, rfl,
     rfl, rfl⟩, ⟨by decide +kernel, by decide +kernel⟩⟩,
    ⟨(ask ws (rq .pcie 0x0111 (leBytes 4 552 ++ leBytes 2 472 ++ leBytes 2 0))), (rq .pcie 0x0111 (leBytes 4 552 ++
     leBytes 2 472 ++ leBytes 2 0)), [], .pcie, ⟨rfl, rfl, rfl, rfl, by decide +kernel, rfl, rfl, rfl⟩,
     ⟨by decide +kernel, by decide +kernel⟩, by decide +kernel⟩,
    ⟨(ask ws (rq .pcie 0x0FFF [])), (rq .pcie 0x0FFF []), [], .pcie, 0x0FFF, ⟨rfl, rfl, rfl, rfl, by decide +kernel,
     rfl, rfl, rfl⟩, by decide +kernel⟩⟩

theorem witness_context_create_admits :
    (∃ (s : State) (r : Request) (rest : List Request) (ch : Chan) (id : Nat), Asked s ch 0x0200 r rest ∧
     s.power.state ≠ .holdUp ∧ Shaped r 64 [(14, 2)] ∧
     let parts := r.get 4 1
     let nt := r.get 8 2
     0 < parts ∧ parts ≤ 8 ∧ firstSet r.payload [(32 + 4 * parts, 32 - 4 * parts)] = none ∧ r.get 5 1 ≤ 7 ∧ r.get 6
     2 ≤ 4095 ∧ 0 < r.get 10 1 ∧ r.get 10 1 ≤ 8 ∧ (r.get 11 1 = 0 ∨ 8 ≤ r.get 11 1) ∧ r.get 12 2 ≤ 4095 ∧ r.get 24 4
     * 2 ^ 30 + r.get 28 4 * 2 ^ 21 ≤ 2 ^ 42 ∧ (∀ k < parts, r.get (32 + 4 * k) 4 ≠ 0) ∧ s.freeCtx = some id ∧
     shortMem s.wholeFrames.length s.looseFrames.length (r.get 24 4) (r.get 28 4) = 0 ∧ shortYard (yardRequests
     (r.yard.take parts)) s.extents = 0 ∧ parts ≤ s.serving.length ∧ nt ≤ s.freeTokens) :=
    ⟨(ask wsFull (rq .pcie 0x0200 (leBytes 4 5 ++ leBytes 1 1 ++ leBytes 1 7 ++ leBytes 2 4095 ++ leBytes 2 3 ++
     leBytes 1 8 ++ leBytes 1 8 ++ leBytes 2 4095 ++ leBytes 2 0 ++ leBytes 8 9 ++ leBytes 4 1 ++ leBytes 4 1 ++
     leBytes 4 65536 ++ leBytes 28 0))), (rq .pcie 0x0200 (leBytes 4 5 ++ leBytes 1 1 ++ leBytes 1 7 ++ leBytes 2
     4095 ++ leBytes 2 3 ++ leBytes 1 8 ++ leBytes 1 8 ++ leBytes 2 4095 ++ leBytes 2 0 ++ leBytes 8 9 ++ leBytes 4
     1 ++ leBytes 4 1 ++ leBytes 4 65536 ++ leBytes 28 0)), [], .pcie, 1, ⟨rfl, rfl, rfl, rfl, by decide +kernel,
     rfl, rfl, rfl⟩, by decide +kernel, ⟨by decide +kernel, by decide +kernel⟩, by decide +kernel⟩

theorem witness_context_read_set_destroy :
    (∃ (s : State) (r : Request) (rest : List Request) (ch : Chan), s.power.state ≠ .holdUp ∧ Asked s ch 0x0204 r
     rest ∧ Shaped r 4 [] ∧ r.get 0 4 < 262144) ∧
    (∃ (s : State) (r : Request) (rest : List Request) (ch : Chan), s.power.state ≠ .holdUp ∧ ∃ c, Asked s ch 0x0205
     r rest ∧ Shaped r 32 [(31, 1)] ∧ Naming s r c ∧
     let m := r.get 6 2
     m < 128 ∧ ((s.ctx c).state = .halted ∨ (field m 3 0 = 0 ∧ bit m 6 = false)) ∧ (bit m 3 = true → r.get 24 2 ≤
     4095) ∧ (bit m 5 = true → r.get 26 2 ≤ 4095) ∧ (bit m 1 = true → 0 < r.get 28 1 ∧ r.get 28 1 ≤ 8) ∧ (bit m 2 =
     true → r.get 29 1 = 0 ∨ 8 ≤ r.get 29 1) ∧ (bit m 4 = true → r.get 30 1 ≤ 7)) ∧
    (∃ (s : State) (r : Request) (rest : List Request) (ch : Chan), s.power.state ≠ .holdUp ∧ ∃ c, Asked s ch 0x0201
     r rest ∧ Shaped r 8 [(6, 2)] ∧ Naming s r c) :=
  ⟨
    ⟨(ask ws (rq .pcie 0x0204 (leBytes 4 262143))), (rq .pcie 0x0204 (leBytes 4 262143)), [], .pcie,
     by decide +kernel, ⟨rfl, rfl, rfl, rfl, by decide +kernel, rfl, rfl, rfl⟩, ⟨by decide +kernel,
     by decide +kernel⟩, by decide +kernel⟩,
    ⟨(ask wsH (rq .pcie 0x0205 (nm (leBytes 2 127 ++ leBytes 8 1 ++ leBytes 8 2 ++ leBytes 2 4095 ++ leBytes 2 4095
     ++ leBytes 1 8 ++ leBytes 1 8 ++ leBytes 1 7 ++ leBytes 1 0)))), (rq .pcie 0x0205 (nm (leBytes 2 127 ++ leBytes
     8 1 ++ leBytes 8 2 ++ leBytes 2 4095 ++ leBytes 2 4095 ++ leBytes 1 8 ++ leBytes 1 8 ++ leBytes 1 7 ++ leBytes
     1 0))), [], .pcie, by decide +kernel, 0, ⟨rfl, rfl, rfl, rfl, by decide +kernel, rfl, rfl, rfl⟩,
     ⟨by decide +kernel, by decide +kernel⟩, ⟨by decide +kernel, by decide +kernel, by decide +kernel,
     by decide +kernel⟩, by decide +kernel⟩,
    ⟨(ask ws (rq .pcie 0x0201 (nm (leBytes 2 0)))), (rq .pcie 0x0201 (nm (leBytes 2 0))), [], .pcie,
     by decide +kernel, 0, ⟨rfl, rfl, rfl, rfl, by decide +kernel, rfl, rfl, rfl⟩, ⟨by decide +kernel,
     by decide +kernel⟩, ⟨by decide +kernel, by decide +kernel, by decide +kernel, by decide +kernel⟩⟩⟩

theorem witness_context_halt_and_resume :
    (∃ (s : State) (r : Request) (rest : List Request) (ch : Chan) (c : Nat), s.power.state ≠ .holdUp ∧ Naming s r c
     ∧ Asked s ch 0x0202 r rest ∧ Shaped r 8 [(6, 2)]) ∧
    (∃ (s : State) (r : Request) (rest : List Request) (ch : Chan) (c : Nat), s.power.state ≠ .holdUp ∧ Naming s r c
     ∧ Asked s ch 0x0203 r rest ∧
     let n := r.get 6 2
     0 < n ∧ Shaped r (8 + 8 * n) ((List.range 59).map (fun i => (10 + 8 * i, 2))) ∧ r.payload.length ≤ 480 ∧ (s.ctx
     c).state = .halted ∧ (s.ctx c).lostPart = false ∧ (∀ i < n, s.boundTo (r.get (8 + 8 * i) 2) c = true ∧
     s.ringFenced (r.get (8 + 8 * i) 2) = false ∧ sub32 (s.ring (r.get (8 + 8 * i) 2)).tail (BitVec.ofNat 32 (r.get
     (12 + 8 * i) 4)) ≤ 2 ^ (s.ring (r.get (8 + 8 * i) 2)).logSize)) :=
  ⟨
    ⟨(ask ws (rq .pcie 0x0202 (nm (leBytes 2 0)))), (rq .pcie 0x0202 (nm (leBytes 2 0))), [], .pcie, 0,
     by decide +kernel, ⟨by decide +kernel, by decide +kernel, by decide +kernel, by decide +kernel⟩, ⟨rfl, rfl,
     rfl, rfl, by decide +kernel, rfl, rfl, rfl⟩, ⟨by decide +kernel, by decide +kernel⟩⟩,
    ⟨(ask wsH (rq .pcie 0x0203 (nm (leBytes 2 1 ++ leBytes 2 0 ++ leBytes 2 0 ++ leBytes 4 0)))), (rq .pcie 0x0203
     (nm (leBytes 2 1 ++ leBytes 2 0 ++ leBytes 2 0 ++ leBytes 4 0))), [], .pcie, 0, by decide +kernel,
     ⟨by decide +kernel, by decide +kernel, by decide +kernel, by decide +kernel⟩, ⟨rfl, rfl, rfl, rfl,
     by decide +kernel, rfl, rfl, rfl⟩, by decide +kernel, ⟨by decide +kernel, by decide +kernel⟩,
     by decide +kernel⟩⟩

theorem witness_weights_counters_tokens :
    (∃ (s : State) (r : Request) (rest : List Request) (ch : Chan), s.power.state ≠ .holdUp ∧ Asked s ch 0x0206 r
     rest ∧ Shaped r 8 [] ∧ (∀ i < 8, r.get i 1 ≠ 0)) ∧
    (∃ (s : State) (r : Request) (rest : List Request) (ch : Chan), s.power.state ≠ .holdUp ∧ Asked s ch 0x0220 r
     rest ∧ Shaped r 0 []) ∧
    (∃ (s : State) (r : Request) (rest : List Request) (ch : Chan), s.power.state ≠ .holdUp ∧ ∃ c, Asked s ch 0x020A
     r rest ∧ Shaped r 8 [] ∧ Naming s r c ∧
     let n := r.get 6 2
     0 < n ∧ n ≤ s.freeTokens) ∧
    (∃ (s : State) (r : Request) (rest : List Request) (ch : Chan), s.power.state ≠ .holdUp ∧ ∃ c, Asked s ch 0x020B
     r rest ∧ Shaped r 12 [(6, 2)] ∧ Naming s r c ∧
     let l := (s.tokensOf c).filter (fun i => r.get 8 4 ≤ i)
     l.length ≤ 3836) :=
  ⟨
    ⟨(ask ws (rq .pcie 0x0206 (leBytes 8 72340172838076673))), (rq .pcie 0x0206 (leBytes 8 72340172838076673)), [],
     .pcie, by decide +kernel, ⟨rfl, rfl, rfl, rfl, by decide +kernel, rfl, rfl, rfl⟩, ⟨by decide +kernel,
     by decide +kernel⟩, by decide +kernel⟩,
    ⟨(ask ws (rq .pcie 0x0220 [])), (rq .pcie 0x0220 []), [], .pcie, by decide +kernel, ⟨rfl, rfl, rfl, rfl,
     by decide +kernel, rfl, rfl, rfl⟩, ⟨by decide +kernel, by decide +kernel⟩⟩,
    ⟨(ask ws (rq .pcie 0x020A (nm (leBytes 2 65535)))), (rq .pcie 0x020A (nm (leBytes 2 65535))), [], .pcie,
     by decide +kernel, 0, ⟨rfl, rfl, rfl, rfl, by decide +kernel, rfl, rfl, rfl⟩, ⟨by decide +kernel,
     by decide +kernel⟩, ⟨by decide +kernel, by decide +kernel, by decide +kernel, by decide +kernel⟩,
     by decide +kernel⟩,
    ⟨(ask ws (rq .pcie 0x020B (nm (leBytes 2 0 ++ leBytes 4 0)))), (rq .pcie 0x020B (nm (leBytes 2 0 ++ leBytes 4
     0))), [], .pcie, by decide +kernel, 0, ⟨rfl, rfl, rfl, rfl, by decide +kernel, rfl, rfl, rfl⟩,
     ⟨by decide +kernel, by decide +kernel⟩, ⟨by decide +kernel, by decide +kernel, by decide +kernel,
     by decide +kernel⟩, by decide +kernel⟩⟩

theorem witness_memory_reserve_release_zero :
    (∃ (s : State), ∃ (r : Request) (rest : List Request) (ch : Chan) (c : Nat), s.power.state ≠ .holdUp ∧ Naming s
     r c ∧ Asked s ch 0x0208 r rest ∧ Shaped r 24 [(7, 1)] ∧
     let vbase := r.get 8 8
     let g1 := r.get 16 4
     let g2 := r.get 20 4
     r.get 6 1 ≤ 1 ∧ vbase % (if g1 ≠ 0 then 2 ^ 30 else 2 ^ 21) = 0 ∧ vbase + (g1 * 2 ^ 30 + g2 * 2 ^ 21) ≤ 2 ^ 42
     ∧ s.overlaps c vbase (g1 * 2 ^ 30 + g2 * 2 ^ 21) = false ∧ shortMem s.wholeFrames.length s.looseFrames.length
     g1 g2 = 0) ∧
    (∃ (s : State), ∃ (r : Request) (rest : List Request) (ch : Chan) (c : Nat), s.power.state ≠ .holdUp ∧ Naming s
     r c ∧ Asked s ch 0x0209 r rest ∧ Shaped r 24 [(6, 2)] ∧
     let lo := r.get 8 8
     let hi := lo + r.get 16 8
     let gone := (s.ctx c).pages.filter (fun p => lo ≤ p.vbase && p.vbase + p.size ≤ hi)
     (∀ g ∈ (s.ctx c).regions, g.vbase + g.len ≤ lo ∨ hi ≤ g.vbase) ∧ (∀ p ∈ (s.ctx c).pages, p ∈ gone ∨ hi ≤
     p.vbase ∨ p.vbase + p.size ≤ lo) ∧ (gone.map Page.size).foldl (· + ·) 0 = hi - lo) ∧
    (∃ (s : State), ∃ f rest, s.mem.grants.flatMap (fun g => g.frames) = [] ∧ s.mem.zeroing = f :: rest) :=
  ⟨
    ⟨(ask ws (rq .pcie 0x0208 (nm (leBytes 1 1 ++ leBytes 1 0 ++ leBytes 8 (2 ^ 30) ++ leBytes 4 1 ++ leBytes 4
     1)))), (rq .pcie 0x0208 (nm (leBytes 1 1 ++ leBytes 1 0 ++ leBytes 8 (2 ^ 30) ++ leBytes 4 1 ++ leBytes 4 1))),
     [], .pcie, 0, by decide +kernel, ⟨by decide +kernel, by decide +kernel, by decide +kernel, by decide +kernel⟩,
     ⟨rfl, rfl, rfl, rfl, by decide +kernel, rfl, rfl, rfl⟩, ⟨by decide +kernel, by decide +kernel⟩,
     by decide +kernel⟩,
    ⟨(ask ws (rq .pcie 0x0209 (nm (leBytes 2 0 ++ leBytes 8 0 ++ leBytes 8 (2 ^ 30))))), (rq .pcie 0x0209 (nm
     (leBytes 2 0 ++ leBytes 8 0 ++ leBytes 8 (2 ^ 30)))), [], .pcie, 0, by decide +kernel, ⟨by decide +kernel,
     by decide +kernel, by decide +kernel, by decide +kernel⟩, ⟨rfl, rfl, rfl, rfl, by decide +kernel, rfl, rfl,
     rfl⟩, ⟨by decide +kernel, by decide +kernel⟩, by decide +kernel⟩,
    ⟨{ ws with mem.zeroing := [3] }, 3, [], by decide +kernel⟩⟩

theorem witness_ring_bind_stop_unbind :
    (∃ (s : State) (r : Request) (rest : List Request) (ch : Chan) (c : Nat), s.power.state ≠ .holdUp ∧ Naming s r c
     ∧
     let n := r.get 6 2
     Asked s ch 0x0210 r rest ∧ Shaped r 40 [(14, 2), (20, 4)] ∧
     let sz := r.get 8 1
     n ≤ 4095 ∧ 6 ≤ sz ∧ sz ≤ 16 ∧ r.get 9 1 ≤ 1 ∧ r.get 10 1 ≤ 2 ∧ r.get 11 1 ≤ 1 ∧ (¬ (r.get 9 1 = 1 ∧ r.get 11 1
     = 1)) ∧ (r.get 11 1 = 1 → r.get 12 2 ≤ 1023) ∧ r.get 24 8 % (64 * 2 ^ sz) = 0 ∧ r.get 32 8 % (16 * 2 ^ sz) = 0
     ∧ s.ringFenced n = false ∧ (s.ring n).state = .unbound) ∧
    (∃ (s : State) (r : Request) (rest : List Request) (ch : Chan) (c : Nat), s.power.state ≠ .holdUp ∧ Naming s r c
     ∧
     let n := r.get 6 2
     Asked s ch 0x0211 r rest ∧ Shaped r 8 [] ∧ s.boundTo n c = true ∧ (s.ring n).state = .running) ∧
    (∃ (s : State) (r : Request) (rest : List Request) (ch : Chan) (c : Nat), s.power.state ≠ .holdUp ∧ Naming s r c
     ∧
     let n := r.get 6 2
     Asked s ch 0x0212 r rest ∧ Shaped r 8 [] ∧ s.boundTo n c = true ∧ (s.ring n).state = .halted ∧ s.rings.wf
     Ring.reset = true) :=
  ⟨
    ⟨(ask ws (rq .pcie 0x0210 (nm (leBytes 2 4095 ++ leBytes 1 16 ++ leBytes 1 0 ++ leBytes 1 2 ++ leBytes 1 1 ++
     leBytes 2 1023 ++ leBytes 2 0 ++ leBytes 4 0 ++ leBytes 4 0 ++ leBytes 8 (2 ^ 22) ++ leBytes 8 (2 ^ 20))))),
     (rq .pcie 0x0210 (nm (leBytes 2 4095 ++ leBytes 1 16 ++ leBytes 1 0 ++ leBytes 1 2 ++ leBytes 1 1 ++ leBytes 2
     1023 ++ leBytes 2 0 ++ leBytes 4 0 ++ leBytes 4 0 ++ leBytes 8 (2 ^ 22) ++ leBytes 8 (2 ^ 20)))), [], .pcie, 0,
     by decide +kernel, ⟨by decide +kernel, by decide +kernel, by decide +kernel, by decide +kernel⟩, ⟨rfl, rfl,
     rfl, rfl, by decide +kernel, rfl, rfl, rfl⟩, ⟨by decide +kernel, by decide +kernel⟩, by decide +kernel⟩,
    ⟨(ask ws (rq .pcie 0x0211 (nm (leBytes 2 0)))), (rq .pcie 0x0211 (nm (leBytes 2 0))), [], .pcie, 0,
     by decide +kernel, ⟨by decide +kernel, by decide +kernel, by decide +kernel, by decide +kernel⟩, ⟨rfl, rfl,
     rfl, rfl, by decide +kernel, rfl, rfl, rfl⟩, ⟨by decide +kernel, by decide +kernel⟩, by decide +kernel⟩,
    ⟨(ask (ws.modRing 0 (fun q => { q with state := .halted })) (rq .pcie 0x0212 (nm (leBytes 2 0)))), (rq .pcie
     0x0212 (nm (leBytes 2 0))), [], .pcie, 0, by decide +kernel, ⟨by decide +kernel, by decide +kernel,
     by decide +kernel, by decide +kernel⟩, ⟨rfl, rfl, rfl, rfl, by decide +kernel, rfl, rfl, rfl⟩,
     ⟨by decide +kernel, by decide +kernel⟩, by decide +kernel⟩⟩

theorem witness_ring_doorbell :
    (∃ (s : State) (n : Fin 4096) (v : W64), s.hostUp = true ∧
     let q := s.ring n.val
     q.state ≠ .unbound ∧ q.feeder = none ∧ (s.ctx q.ctx).gen.toNat = field v.toNat 63 48) ∧
    (∃ (s : State) (n : Fin 4096) (v : W64), s.hostUp = true ∧
     let q := s.ring n.val
     ∃ (whole : Bool), (whole = false ∨ q.state = .unbound ∨ q.feeder.isSome ∨ (s.ctx q.ctx).gen.toNat ≠ field
     v.toNat 63 48)) :=
  ⟨
    ⟨ws, 0, (BitVec.ofNat 64 (2 ^ 48 + 64)), by decide +kernel⟩,
    ⟨ws, 4095, 0, by decide +kernel, true, by decide +kernel⟩⟩

theorem witness_aperture_bind_read_write :
    (∃ (s : State), ∃ (r : Request) (rest : List Request) (c : Nat), s.power.state ≠ .holdUp ∧ Naming s r c ∧ Asked
     s .pcie 0x0218 r rest ∧ Shaped r 16 [] ∧ r.get 7 1 ≤ 2 ∧ (r.get 7 1 ≠ 0 → r.get 8 8 % 2 ^ 30 = 0 ∧ r.get 8 8 <
     2 ^ 42) ∧ s.windows.wf Window.reset = true) ∧
    (∃ (s : State), ∃ (addr : BitVec 38) (c va pa : Nat), s.hostUp = true ∧ s.power.state ≠ .holdUp ∧ ∃ (len : Fin
     4097), accessOk addr.toNat len.val = true ∧ s.aperture addr.toNat false = some (c, va) ∧ (s.ctx c).translate
     false va = some pa ∧ (∀ l ∈ s.mem.damaged, l * 64 + 64 ≤ pa ∨ pa + len.val ≤ l * 64)) ∧
    (∃ (s : State), ∃ (addr : BitVec 38) (c va pa : Nat), s.hostUp = true ∧ s.power.state ≠ .holdUp ∧ ∃ (data : List
     Byte), accessOk addr.toNat data.length = true ∧ s.aperture addr.toNat true = some (c, va) ∧ (s.ctx c).translate
     true va = some pa ∧ (∀ l ∈ s.mem.damaged, l * 64 + 64 ≤ pa ∨ pa + data.length ≤ l * 64) ∧ s.mem.bytes.wf =
     true) ∧
    (∃ (s : State), ∃ (addr : BitVec 38), s.hostUp = true ∧ s.power.state ≠ .holdUp ∧ ∃ (data : List Byte), accessOk
     addr.toNat data.length = true ∧ s.aperture addr.toNat true = none) :=
  ⟨
    ⟨(ask ws (rq .pcie 0x0218 (nm (leBytes 1 255 ++ leBytes 1 2 ++ leBytes 8 (2 ^ 30))))), (rq .pcie 0x0218 (nm
     (leBytes 1 255 ++ leBytes 1 2 ++ leBytes 8 (2 ^ 30)))), [], 0, by decide +kernel, ⟨by decide +kernel,
     by decide +kernel, by decide +kernel, by decide +kernel⟩, ⟨rfl, rfl, rfl, rfl, by decide +kernel, rfl, rfl,
     rfl⟩, ⟨by decide +kernel, by decide +kernel⟩, by decide +kernel⟩,
    ⟨{ ws with windows := [(0, { bound := some (0, 1, 0, true) })] }, 0, 0, 0, 0, by decide +kernel,
     by decide +kernel, 4096, by decide +kernel⟩,
    ⟨{ ws with windows := [(0, { bound := some (0, 1, 0, true) })] }, 4095, 0, 4095, 4095, by decide +kernel,
     by decide +kernel, [1], by decide +kernel⟩,
    ⟨ws, 0, by decide +kernel, by decide +kernel, [1], by decide +kernel⟩⟩

theorem witness_teardown_and_quarantine :
    (∃ (s : State) (c : Fin 262144), (s.ctx c.val).state = .teardown ∧ s.tokens.wf Token.reset = true ∧ s.rings.wf
     Ring.reset = true) ∧
    (∃ (s : State) (c : Fin 262144), (s.ctx c.val).state = .quarantine ∧ s.ctxs.wf Context.reset = true) :=
  ⟨
    ⟨(ws.modCtx 0 (fun c => { c with state := .teardown })), 0, by decide +kernel⟩,
    ⟨(ws.modCtx 0 (fun c => { c with state := .quarantine })), 0, by decide +kernel⟩⟩

theorem witness_scrubs_retire :
    (∃ (s : State), ∃ (line : Nat), 64 * line < s.mem.total) ∧
    (∃ (s : State), ∃ (line : Nat), 64 * line < s.mem.total ∧ line ∉ s.mem.damaged) ∧
    (∃ (s : State), ∃ (p : Fin 8) (word : Nat), word < yardWordCount ∧ ((s.part p.val).unit = .inService ∨ (s.part
     p.val).unit = .held)) ∧
    (∃ (s : State), ∃ (p : Fin 8) (word : Nat), word < yardWordCount ∧ ((s.part p.val).unit = .inService ∨ (s.part
     p.val).unit = .held) ∧
     let w := p.val * 2 ^ 24 + word
     w ∉ s.yard.damaged) :=
  ⟨
    ⟨ws, (2 ^ 31 - 1), by decide +kernel⟩,
    ⟨ws, 0, by decide +kernel⟩,
    ⟨ws, 0, (yardWordCount - 1), by decide +kernel⟩,
    ⟨ws, 0, 0, by decide +kernel⟩⟩

theorem witness_marshalling_fetches_and_dispatches :
    (∃ (s : State) (n : Fin 4096), s.frozen = false ∧ s.live n.val = true ∧ (s.ring n.val).fetched ≠ (s.ring
     n.val).tail ∧ s.inPrefetch n.val (s.ring n.val).fetched = true ∧
     let q := s.ring n.val
     let a := q.base + 64 * (q.fetched.toNat % 2 ^ q.logSize)
     ∃ pa, q.host = false ∧ (s.ctx q.ctx).translate false a = some pa ∧ (∀ l ∈ s.mem.damaged, l * 64 + 64 ≤ pa ∨ pa
     + 64 ≤ l * 64)) ∧
    (∃ (s : State) (n : Fin 4096), s.frozen = false ∧ s.live n.val = true ∧ (s.ring n.val).fetched ≠ (s.ring
     n.val).tail ∧ s.inPrefetch n.val (s.ring n.val).fetched = true ∧
     let q := s.ring n.val
     ∃ (bs : List Byte), q.host = true ∧ s.hostUp = true ∧ bs.length = 64) ∧
    (∃ (s : State) (n : Fin 4096), s.frozen = false ∧ s.live n.val = true ∧ (s.ring n.val).fetched ≠ (s.ring
     n.val).tail ∧ s.inPrefetch n.val (s.ring n.val).fetched = true ∧
     let q := s.ring n.val
     q.host = true) ∧
    (∃ (s : State), ∃ (u : UnitRef) (ring : Nat) (e : Dispatch) (x : W32) (w : BitVec 512) (tail : List (W32 ×
     BitVec 512)), s.frozen = false ∧ s.power.state ≠ .idle ∧ (s.unit u).taken < unitDepth u ∧ s.unitUp u = true ∧
     (s.unit u).choose s.marsh.weights (fun c => ((s.rings.map (fun x => x.1)).filter (fun r => s.ready u r)).filter
     (fun r => (s.ctx (s.ring r).ctx).priority = c)) = some (ring, e) ∧ (s.ring ring).state = .running ∧ (s.ring
     ring).window = (x, w) :: tail) ∧
    (∃ (s : State), ∃ (ring : Fin 4096) (x : W32) (f : Flight), s.flight ring.val x = some f ∧ s.frozen = false ∧
     f.stage = .queued ∧ s.unitUp f.unit = true ∧ s.startMet f = true ∧ s.pace f.unit ≠ .parked) ∧
    (∃ (s : State), ∃ (ring : Fin 4096) (x : W32) (f : Flight), s.flight ring.val x = some f ∧ s.frozen = false ∧
     f.stage = .queued ∧ s.unitUp f.unit = true ∧ s.startMet f = true ∧ s.pace f.unit = .parked ∧ s.wants f.unit =
     none) ∧
    (∃ (s : State), ∃ (u : UnitRef), 0 < (s.unit u).freed) :=
  ⟨
    ⟨ws, 0, rfl, by decide +kernel, by decide +kernel, by decide +kernel, 0, by decide +kernel⟩,
    ⟨(ws.modRing 0 (fun q => { q with host := true })), 0, rfl, by decide +kernel, by decide +kernel,
     by decide +kernel, (List.replicate 64 1), by decide +kernel⟩,
    ⟨(ws.modRing 0 (fun q => { q with host := true })), 0, by decide +kernel⟩,
    ⟨(ws.modRing 0 (fun q => { q with window := [(0, 1)], fetched := 1 })), (.token 0), 0, { Dispatch.reset with
     spent := [1, 0, 0, 0, 0, 0, 0, 0], last := [some 0, none, none, none, none, none, none, none] }, 0, 1, [],
     by decide +kernel⟩,
    ⟨(fly ws (fl (.token 0) .queued (1))), 0, 0, (fl (.token 0) .queued (1)), by decide +kernel⟩,
    ⟨(fly ws (fl (.vector 0) .queued (0x20))), 0, 0, (fl (.vector 0) .queued (0x20)), by decide +kernel⟩,
    ⟨(ws.modUnit (.token 0) (fun d => { d with freed := 1 })), (.token 0), by decide +kernel⟩⟩

theorem witness_token_wagons :
    (∃ (s : State) (ring : Fin 4096) (x : W32) (f : Flight), s.flight ring.val x = some f ∧ s.frozen = false ∧
     (f.stage = .queued ∨ f.stage = .started) ∧ badWagon f.bits = false ∧ wOpcode f.bits = 0x01 ∧ s.fenceMet f =
     true) ∧
    (∃ (s : State) (ring : Fin 4096) (x : W32) (f : Flight), s.flight ring.val x = some f ∧ s.frozen = false ∧
     (f.stage = .queued ∨ f.stage = .started) ∧ badWagon f.bits = false ∧
     let k := tkToken f.bits
     let v := tkValue f.bits
     let met := ((s.token k).value - v).toNat < 2 ^ 31
     wOpcode f.bits = 0x40 ∧ met) ∧
    (∃ (s : State) (ring : Fin 4096) (x : W32) (f : Flight), s.flight ring.val x = some f ∧ s.frozen = false ∧
     (f.stage = .queued ∨ f.stage = .started) ∧ badWagon f.bits = false ∧
     let k := tkToken f.bits
     let v := tkValue f.bits
     let met := ((s.token k).value - v).toNat < 2 ^ 31
     wOpcode f.bits = 0x40 ∧ (¬ met)) ∧
    (∃ (s : State) (ring : Fin 4096) (x : W32) (f : Flight), s.flight ring.val x = some f ∧ s.frozen = false ∧
     (f.stage = .queued ∨ f.stage = .started) ∧ badWagon f.bits = false ∧
     let k := tkToken f.bits
     let v := tkValue f.bits
     let met := ((s.token k).value - v).toNat < 2 ^ 31
     wOpcode f.bits = 0x40 ∧ (¬ met) ∧ tkTimeout f.bits ≠ 0) ∧
    (∃ (s : State) (ring : Fin 4096) (x : W32) (f : Flight), s.flight ring.val x = some f ∧ s.frozen = false ∧
     (f.stage = .queued ∨ f.stage = .started) ∧ badWagon f.bits = false ∧
     let k := tkToken f.bits
     wOpcode f.bits = 0x42 ∧ s.fenceMet f = true ∧ (s.token k).owner.isSome) ∧
    (∃ (s : State) (ring : Fin 4096) (x : W32) (f : Flight), s.flight ring.val x = some f ∧ s.frozen = false ∧
     (f.stage = .queued ∨ f.stage = .started) ∧ badWagon f.bits = false ∧
     let k := tkToken f.bits
     wOpcode f.bits = 0x41 ∧ s.fenceMet f = true ∧ tkRemote f.bits = false ∧ (s.token k).owner.isSome) ∧
    (∃ (s : State) (ring : Fin 4096) (x : W32) (f : Flight), s.flight ring.val x = some f ∧ s.frozen = false ∧
     (f.stage = .queued ∨ f.stage = .started) ∧ badWagon f.bits = false ∧ wOpcode f.bits = 0x41 ∧ s.fenceMet f =
     true ∧ ∃ p, tkRemote f.bits = true ∧ (s.ctx f.ctx).peer (tkPeer f.bits) = some p ∧ s.rails.node ≠ noNode ∧
     s.rails.stopped = false ∧ s.route p.node ≠ []) ∧
    (∃ (s : State) (ring : Fin 4096) (x : W32) (f : Flight), s.flight ring.val x = some f ∧ s.frozen = false ∧
     (f.stage = .queued ∨ f.stage = .started) ∧ badWagon f.bits = false ∧ s.fenceMet f = false ∧ wOpcode f.bits =
     0x01) ∧
    (∃ (s : State) (ring : Fin 4096) (x : W32) (f : Flight), s.flight ring.val x = some f ∧ s.frozen = false ∧
     (f.stage = .queued ∨ f.stage = .started) ∧ badWagon f.bits = false ∧ s.fenceMet f = false ∧ wOpcode f.bits =
     0x41) ∧
    (∃ (s : State) (ring : Fin 4096) (x : W32) (f : Flight), s.flight ring.val x = some f ∧ s.frozen = false ∧
     (f.stage = .queued ∨ f.stage = .started) ∧ badWagon f.bits = false ∧ s.fenceMet f = false ∧ wOpcode f.bits =
     0x42) :=
  ⟨
    ⟨(fly ws (fl (.token 0) .started (0x01 + 0))), 0, 0, (fl (.token 0) .started (0x01 + 0)), by decide +kernel⟩,
    ⟨(fly ws (fl (.token 0) .started (0x40 + 2 ^ 96 * (2 ^ 31 + 1)))), 0, 0, (fl (.token 0) .started (0x40 + 2 ^ 96
     * (2 ^ 31 + 1))), by decide +kernel⟩,
    ⟨(fly ws (fl (.token 0) .started (0x40 + 2 ^ 96 * 2 ^ 31))), 0, 0, (fl (.token 0) .started (0x40 + 2 ^ 96 * 2 ^
     31)), by decide +kernel⟩,
    ⟨(fly ws (fl (.token 0) .started (0x40 + 2 ^ 96 + 2 ^ 144))), 0, 0, (fl (.token 0) .started (0x40 + 2 ^ 96 + 2 ^
     144)), by decide +kernel⟩,
    ⟨(fly ws (fl (.token 0) .started (0x42 + 0))), 0, 0, (fl (.token 0) .started (0x42 + 0)), by decide +kernel⟩,
    ⟨(fly ws (fl (.token 0) .queued (0x41 + 2 ^ 96))), 0, 0, (fl (.token 0) .queued (0x41 + 2 ^ 96)),
     by decide +kernel⟩,
    ⟨(fly ws (fl (.token 0) .started (0x41 + 2 ^ 12 + 2 ^ 96))), 0, 0, (fl (.token 0) .started (0x41 + 2 ^ 12 + 2 ^
     96)), by decide +kernel, rfl, by decide +kernel, by decide +kernel, by decide +kernel, by decide +kernel,
     peerA, by decide +kernel⟩,
    ⟨{ ws with marsh.flights := [fl (.mover 0 0) .started 0x30,
     { fl (.token 0) .started (0x01 + 0) with index := 1 }] }, 0, 1,
     { fl (.token 0) .started (0x01 + 0) with index := 1 }, by decide +kernel⟩,
    ⟨{ ws with marsh.flights := [fl (.mover 0 0) .started 0x30,
     { fl (.token 0) .started (0x41 + 2 ^ 96) with index := 1 }] }, 0, 1,
     { fl (.token 0) .started (0x41 + 2 ^ 96) with index := 1 }, by decide +kernel⟩,
    ⟨{ ws with marsh.flights := [fl (.mover 0 0) .started 0x30,
     { fl (.token 0) .started (0x42 + 0) with index := 1 }] }, 0, 1,
     { fl (.token 0) .started (0x42 + 0) with index := 1 }, by decide +kernel⟩⟩

theorem witness_step_commits :
    (∃ (s : State) (ring : Fin 4096) (x : W32) (f : Flight), s.flight ring.val x = some f ∧ s.frozen = false ∧
     (f.stage = .queued ∨ f.stage = .started) ∧ badWagon f.bits = false ∧ wOpcode f.bits = 0x43 ∧ s.fenceMet f =
     true ∧ (s.ctx f.ctx).commitRing = ring.val ∧
     let c := s.ctx f.ctx
     tkExpect f.bits ≠ c.step + 1) ∧
    (∃ (s : State) (ring : Fin 4096) (x : W32) (f : Flight), s.flight ring.val x = some f ∧ s.frozen = false ∧
     (f.stage = .queued ∨ f.stage = .started) ∧ badWagon f.bits = false ∧ wOpcode f.bits = 0x43 ∧ s.fenceMet f =
     true ∧ (s.ctx f.ctx).commitRing = ring.val ∧
     let c := s.ctx f.ctx
     let invalid := f.fence.getD c.stepInvalid
     tkExpect f.bits = c.step + 1 ∧ invalid = true) ∧
    (∃ (s : State) (ring : Fin 4096) (x : W32) (f : Flight), s.flight ring.val x = some f ∧ s.frozen = false ∧
     (f.stage = .queued ∨ f.stage = .started) ∧ badWagon f.bits = false ∧ wOpcode f.bits = 0x43 ∧ s.fenceMet f =
     true ∧ (s.ctx f.ctx).commitRing = ring.val ∧
     let c := s.ctx f.ctx
     let invalid := f.fence.getD c.stepInvalid
     tkExpect f.bits = c.step + 1 ∧ invalid = false ∧ c.state = .active ∧ c.regions = []) ∧
    (∃ (s : State) (ring : Fin 4096) (x : W32) (f : Flight), s.flight ring.val x = some f ∧ s.frozen = false ∧
     (f.stage = .queued ∨ f.stage = .started) ∧ badWagon f.bits = false ∧ wOpcode f.bits = 0x43 ∧ s.fenceMet f =
     true ∧ (s.ctx f.ctx).commitRing = ring.val ∧
     let c := s.ctx f.ctx
     let invalid := f.fence.getD c.stepInvalid
     tkExpect f.bits = c.step + 1 ∧ invalid = false ∧ c.state = .active ∧ ∃ p, c.regions ≠ [] ∧ c.buddyPeer = some p
     ∧ s.rails.node ≠ noNode ∧ s.rails.stopped = false ∧ s.route p.node ≠ []) :=
  ⟨
    ⟨(fly ws (fl (.token 0) .started (0x43 + 0))), 0, 0, (fl (.token 0) .started (0x43 + 0)), by decide +kernel⟩,
    ⟨(fly (ws.modCtx 0 (fun c => { c with stepInvalid := true })) (fl (.token 0) .started (0x43 + 2 ^ 64))), 0, 0,
     (fl (.token 0) .started (0x43 + 2 ^ 64)), by decide +kernel⟩,
    ⟨(fly ws (fl (.token 0) .started (0x43 + 2 ^ 64))), 0, 0, (fl (.token 0) .started (0x43 + 2 ^ 64)),
     by decide +kernel⟩,
    ⟨(fly (ws.modCtx 0 (fun c => { c with regions := [{ vbase := 0, len := 2 ^ 21 }], buddy := some 0 })) (fl
     (.token 0) .started (0x43 + 2 ^ 64))), 0, 0, (fl (.token 0) .started (0x43 + 2 ^ 64)), by decide +kernel, rfl,
     by decide +kernel, by decide +kernel, by decide +kernel, by decide +kernel, by decide +kernel,
     by decide +kernel, by decide +kernel, by decide +kernel, peerA, by decide +kernel⟩⟩

theorem witness_wagon_completes :
    (∃ (s : State) (ring : Fin 4096) (x : W32) (f : Flight), s.flight ring.val x = some f ∧ s.frozen = false ∧
     f.stage = .decided ∧ f.status = wsOk ∧ (s.ring ring.val).recordLost = false ∧ (s.ring ring.val).state =
     .running ∧
     let q := s.ring ring.val
     let a := q.cplBase + 16 * (x.toNat % 2 ^ q.logSize)
     ((q.host = true ∧ s.hostUp = true) ∨ (q.host = false ∧ ∃ pa, (s.ctx q.ctx).translate true a = some pa ∧ ∀ l ∈
     s.mem.damaged, l * 64 + 64 ≤ pa ∨ pa + 16 ≤ l * 64))) :=
    ⟨(fly ws (fl (.token 0) .decided (1))), 0, 0, (fl (.token 0) .decided (1)), by decide +kernel, rfl,
     by decide +kernel, by decide +kernel, by decide +kernel, by decide +kernel, Or.inr ⟨by decide +kernel, 4096, by
     decide +kernel, by decide +kernel⟩⟩

theorem witness_mma_accumulates :
    (∃ (s : State) (ring : Fin 4096) (x : W32) (f : Flight) (p : Fin 8) (e : Fin 20), Running s ring.val x f 0x10 ∧
     f.unit = .matrix p e ∧
     let w := f.bits
     let y := s.allot f
     let old := s.bank p.val e.val (wBank w)
     (wClear w = true ∨ (old.seq.isSome ∧ old.anchor = mmAnchor w ∧ old.log.length < 64 ∧ old.rebuild = false ∧
     Table.wf Ledger.zero old.cells = true)) ∧ y.holds (mmaSpans w) = true ∧ s.yard.damaged = []) ∧
    (∃ (s : State) (ring : Fin 4096) (x : W32) (f : Flight) (p : Fin 8) (e : Fin 20), Running s ring.val x f 0x10 ∧
     f.unit = .matrix p e ∧
     let w := f.bits
     let y := s.allot f
     let old := s.bank p.val e.val (wBank w)
     (wClear w = true ∨ (old.seq.isSome ∧ old.anchor = mmAnchor w ∧ old.log.length < 64 ∧ old.rebuild = false ∧
     Table.wf Ledger.zero old.cells = true)) ∧ y.holds (mmaSpans w) = true ∧ (∃ a ∈ mmaSpans w, ∃ d ∈ yardWords
     (y.key a.1) a.2, d ∈ s.yard.damaged)) :=
  ⟨
    ⟨(fly ws (fl (.matrix 0 0) .started (0x10 + 2 ^ 12 + 2 ^ 96 * 64 + 2 ^ 192 + 2 ^ 208 + 2 ^ 256 * 2 + 2 ^ 288 * 8
     + 2 ^ 292 * 8 + 2 ^ 296 + 2 ^ 304))), 0, 0, (fl (.matrix 0 0) .started (0x10 + 2 ^ 12 + 2 ^ 96 * 64 + 2 ^ 192 +
     2 ^ 208 + 2 ^ 256 * 2 + 2 ^ 288 * 8 + 2 ^ 292 * 8 + 2 ^ 296 + 2 ^ 304)), 0, 0, ⟨rfl, by decide +kernel, rfl,
     by decide +kernel, by decide +kernel, by decide +kernel⟩, by decide +kernel, by decide +kernel,
     by decide +kernel, rfl⟩,
    ⟨(fly ({ ws with yard.damaged := [0] }) (fl (.matrix 0 0) .started (0x10 + 2 ^ 12 + 2 ^ 96 * 64 + 2 ^ 192 + 2 ^
     208 + 2 ^ 256 * 2 + 2 ^ 288 * 8 + 2 ^ 292 * 8 + 2 ^ 296 + 2 ^ 304))), 0, 0, (fl (.matrix 0 0) .started (0x10 +
     2 ^ 12 + 2 ^ 96 * 64 + 2 ^ 192 + 2 ^ 208 + 2 ^ 256 * 2 + 2 ^ 288 * 8 + 2 ^ 292 * 8 + 2 ^ 296 + 2 ^ 304)), 0, 0,
     ⟨rfl, by decide +kernel, rfl, by decide +kernel, by decide +kernel, by decide +kernel⟩, by decide +kernel⟩⟩

theorem witness_ledger_add_accumulates :
    (∃ (s : State) (ring : Fin 4096) (x : W32) (f : Flight) (p : Fin 8) (e : Fin 20), Running s ring.val x f 0x11 ∧
     f.unit = .matrix p e ∧ s.yard.damaged = [] ∧
     let w := f.bits
     let y := s.allot f
     let old := s.bank p.val e.val (wBank w)
     let seg := fun k => Segment.parse (s.yardGet y (laAddr w + 64 * laStride w * k) segBytes)
     (wClear w = true ∨ (old.seq.isSome ∧ old.anchor = laAnchor w ∧ old.log.length < 64 ∧ old.rebuild = false ∧
     Table.wf Ledger.zero old.cells = true)) ∧ y.holds (addSpans w) = true ∧ (∀ k < (laRows w + 3) / 4, laAnchor w ≤
     (seg k).anchor)) :=
    ⟨(fly ws (fl (.matrix 0 0) .started (0x11 + 2 ^ 12 + 2 ^ 96 * 65 + 2 ^ 128 + 2 ^ 136))), 0, 0, (fl (.matrix 0 0)
     .started (0x11 + 2 ^ 12 + 2 ^ 96 * 65 + 2 ^ 128 + 2 ^ 136)), 0, 0, ⟨rfl, by decide +kernel, rfl,
     by decide +kernel, by decide +kernel, by decide +kernel⟩, by decide +kernel⟩

theorem witness_readout_stores :
    (∃ (s : State) (ring : Fin 4096) (x : W32) (f : Flight) (p : Fin 8) (e : Fin 20) (x1 : TileFaults), Running s
     ring.val x f 0x12 ∧ f.unit = .matrix p e ∧ s.yard.damaged = [] ∧ s.yard.bytes.wf = true ∧
     let w := f.bits
     let y := s.allot f
     let old := s.bank p.val e.val (wBank w)
     let bias := if roBias w then (codesOf (roBiasFmt w) (roCols w) (s.yardGet y (roBiasAddr w) (rowBytes (roBiasFmt
         w) (roCols w)))).map (decode (roBiasFmt w)) else []
     let tile := s.tileFlags p.val e.val w old false false
     let o := s.tileOut f old bias x1 tile
     old.seq.isSome ∧ old.lost = false ∧ old.rebuild = false ∧ old.held = false ∧ (¬ (roFmt w = 0xC ∧ roSegAnchor w
     < old.anchor + roScaleExp w)) ∧ y.holds (roBiasSpans w ++ roSpans w) = true ∧ o.2.2 = true ∧ Apart o.1) ∧
    (∃ (s : State) (ring : Fin 4096) (x : W32) (f : Flight) (p : Fin 8) (e : Fin 20) (x1 : TileFaults), Running s
     ring.val x f 0x12 ∧ f.unit = .matrix p e ∧ s.yard.damaged = [] ∧ s.yard.bytes.wf = true ∧
     let w := f.bits
     let y := s.allot f
     let old := s.bank p.val e.val (wBank w)
     let bias := if roBias w then (codesOf (roBiasFmt w) (roCols w) (s.yardGet y (roBiasAddr w) (rowBytes (roBiasFmt
         w) (roCols w)))).map (decode (roBiasFmt w)) else []
     let tile := s.tileFlags p.val e.val w old false false
     let o := s.tileOut f old bias x1 tile
     old.seq.isSome ∧ old.lost = false ∧ old.rebuild = false ∧ old.held = false ∧ (¬ (roFmt w = 0xC ∧ roSegAnchor w
     < old.anchor + roScaleExp w)) ∧ y.holds (roBiasSpans w ++ roSpans w) = true ∧ o.2.2 = false ∧ s.reexecutor
     p.val e.val = none) ∧
    (∃ (s : State) (ring : Fin 4096) (x : W32) (f : Flight) (p : Fin 8) (e : Fin 20) (x1 x2 : TileFaults), Running s
     ring.val x f 0x12 ∧ f.unit = .matrix p e ∧ s.yard.damaged = [] ∧ s.yard.bytes.wf = true ∧
     let w := f.bits
     let y := s.allot f
     let old := s.bank p.val e.val (wBank w)
     let bias := if roBias w then (codesOf (roBiasFmt w) (roCols w) (s.yardGet y (roBiasAddr w) (rowBytes (roBiasFmt
         w) (roCols w)))).map (decode (roBiasFmt w)) else []
     let tile := s.tileFlags p.val e.val w old false false
     let o := s.tileOut f old bias x1 tile
     old.seq.isSome ∧ old.lost = false ∧ old.rebuild = false ∧ old.held = false ∧ (¬ (roFmt w = 0xC ∧ roSegAnchor w
     < old.anchor + roScaleExp w)) ∧ y.holds (roBiasSpans w ++ roSpans w) = true ∧ o.2.2 = false ∧ (s.reexecutor
     p.val e.val).isSome ∧
     let b := { old with cells := (s.replay f y old.log []).2.1 }
     let tile2 := s.tileFlags p.val e.val w b false true
     let o2 := s.tileOut f b bias x2 tile2
     o2.2.2 = true ∧ Apart o2.1) ∧
    (∃ (s : State) (ring : Fin 4096) (x : W32) (f : Flight) (p : Fin 8) (e : Fin 20) (x1 x2 : TileFaults), Running s
     ring.val x f 0x12 ∧ f.unit = .matrix p e ∧ s.yard.damaged = [] ∧ s.yard.bytes.wf = true ∧
     let w := f.bits
     let y := s.allot f
     let old := s.bank p.val e.val (wBank w)
     let bias := if roBias w then (codesOf (roBiasFmt w) (roCols w) (s.yardGet y (roBiasAddr w) (rowBytes (roBiasFmt
         w) (roCols w)))).map (decode (roBiasFmt w)) else []
     let tile := s.tileFlags p.val e.val w old false false
     let o := s.tileOut f old bias x1 tile
     old.seq.isSome ∧ old.lost = false ∧ old.rebuild = false ∧ old.held = false ∧ (¬ (roFmt w = 0xC ∧ roSegAnchor w
     < old.anchor + roScaleExp w)) ∧ y.holds (roBiasSpans w ++ roSpans w) = true ∧ o.2.2 = false ∧ (s.reexecutor
     p.val e.val).isSome ∧
     let b := { old with cells := (s.replay f y old.log []).2.1 }
     let tile2 := s.tileFlags p.val e.val w b false true
     let o2 := s.tileOut f b bias x2 tile2
     o2.2.2 = false) :=
  ⟨
    ⟨(fly (ws.modEngine 0 0 (fun e => { e with bank0 := { Bank.closed with seq := some 0 } })) (fl (.matrix 0 0)
     .started (0x12 + 2 ^ 256 + 2 ^ 304 * 8 + 2 ^ 328 + 2 ^ 336))), 0, 0, (fl (.matrix 0 0) .started (0x12 + 2 ^ 256
     + 2 ^ 304 * 8 + 2 ^ 328 + 2 ^ 336)), 0, 0, (tileA false), ⟨rfl, by decide +kernel, rfl, by decide +kernel,
     by decide +kernel, by decide +kernel⟩, by decide +kernel, rfl, by decide +kernel, by decide +kernel,
     by decide +kernel, by decide +kernel, by decide +kernel, fun h => absurd h (by decide +kernel),
     by decide +kernel, by decide +kernel, by unfold Apart; decide +kernel⟩,
    ⟨(fly ((ws.modEngine 0 0 (fun e => { e with bank0 := { Bank.closed with seq := some 0 } })).modPart 0 (fun q =>
     { q with mes := q.mes.take 1 })) (fl (.matrix 0 0) .started (0x12 + 2 ^ 256 + 2 ^ 304 * 8 + 2 ^ 328 + 2 ^
     336))), 0, 0, (fl (.matrix 0 0) .started (0x12 + 2 ^ 256 + 2 ^ 304 * 8 + 2 ^ 328 + 2 ^ 336)), 0, 0, (tileA
     true), ⟨rfl, by decide +kernel, rfl, by decide +kernel, by decide +kernel, by decide +kernel⟩,
     by decide +kernel, rfl, by decide +kernel, by decide +kernel, by decide +kernel, by decide +kernel,
     by decide +kernel, fun h => absurd h (by decide +kernel), by decide +kernel⟩,
    ⟨(fly (ws.modEngine 0 0 (fun e => { e with bank0 := { Bank.closed with seq := some 0 } })) (fl (.matrix 0 0)
     .started (0x12 + 2 ^ 256 + 2 ^ 304 * 8 + 2 ^ 328 + 2 ^ 336))), 0, 0, (fl (.matrix 0 0) .started (0x12 + 2 ^ 256
     + 2 ^ 304 * 8 + 2 ^ 328 + 2 ^ 336)), 0, 0, (tileA true), (tileA false), ⟨rfl, by decide +kernel, rfl,
     by decide +kernel, by decide +kernel, by decide +kernel⟩, by decide +kernel, rfl, by decide +kernel,
     by decide +kernel, by decide +kernel, by decide +kernel, by decide +kernel,
     fun h => absurd h (by decide +kernel), by decide +kernel, by decide +kernel, by decide +kernel,
     by decide +kernel, by unfold Apart; decide +kernel⟩,
    ⟨(fly (ws.modEngine 0 0 (fun e => { e with bank0 := { Bank.closed with seq := some 0 } })) (fl (.matrix 0 0)
     .started (0x12 + 2 ^ 256 + 2 ^ 304 * 8 + 2 ^ 328 + 2 ^ 336))), 0, 0, (fl (.matrix 0 0) .started (0x12 + 2 ^ 256
     + 2 ^ 304 * 8 + 2 ^ 328 + 2 ^ 336)), 0, 0, (tileA true), (tileA true), ⟨rfl, by decide +kernel, rfl,
     by decide +kernel, by decide +kernel, by decide +kernel⟩, by decide +kernel, rfl, by decide +kernel,
     by decide +kernel, by decide +kernel, by decide +kernel, by decide +kernel,
     fun h => absurd h (by decide +kernel), by decide +kernel⟩⟩

theorem witness_vector_stores :
    (∃ (s : State) (ring : Fin 4096) (x : W32) (f : Flight) (p : Fin 8) (x1 : LaneFaults), Running s ring.val x f
     0x20 ∧ f.unit = .vector p ∧ s.yard.damaged = [] ∧ s.yard.bytes.wf = true ∧
     let w := f.bits
     let y := s.allot f
     let tile := { noFlags with dataErr := (s.part p.val).vec.feedErr }
     let out := fun fl x => s.vxOutput y w (s.ctx f.ctx).srSeed fl x
     let o := out tile x1
     y.holds (vxReads w ++ vxDstSpans w ++ vxOutScaleSpans w) = true ∧ o.2.2 = true ∧ vxForbidden w = false ∧ Apart
     o.1) ∧
    (∃ (s : State) (ring : Fin 4096) (x : W32) (f : Flight) (p : Fin 8) (x1 : LaneFaults), Running s ring.val x f
     0x20 ∧ f.unit = .vector p ∧ s.yard.damaged = [] ∧ s.yard.bytes.wf = true ∧
     let w := f.bits
     let y := s.allot f
     let tile := { noFlags with dataErr := (s.part p.val).vec.feedErr }
     let out := fun fl x => s.vxOutput y w (s.ctx f.ctx).srSeed fl x
     let o := out tile x1
     y.holds (vxReads w ++ vxDstSpans w ++ vxOutScaleSpans w) = true ∧ o.2.2 = true ∧ vxForbidden w = true) ∧
    (∃ (s : State) (ring : Fin 4096) (x : W32) (f : Flight) (p : Fin 8) (x1 x2 : LaneFaults), Running s ring.val x f
     0x20 ∧ f.unit = .vector p ∧ s.yard.damaged = [] ∧ s.yard.bytes.wf = true ∧
     let w := f.bits
     let y := s.allot f
     let tile := { noFlags with dataErr := (s.part p.val).vec.feedErr }
     let out := fun fl x => s.vxOutput y w (s.ctx f.ctx).srSeed fl x
     let o := out tile x1
     let tile2 := { tile with retried := true }
     let o2 := out tile2 x2
     y.holds (vxReads w ++ vxDstSpans w ++ vxOutScaleSpans w) = true ∧ o.2.2 = false ∧ o2.2.2 = true ∧ vxForbidden w
     = false ∧ Apart o2.1) ∧
    (∃ (s : State) (ring : Fin 4096) (x : W32) (f : Flight) (p : Fin 8) (x1 x2 : LaneFaults), Running s ring.val x f
     0x20 ∧ f.unit = .vector p ∧ s.yard.damaged = [] ∧ s.yard.bytes.wf = true ∧
     let w := f.bits
     let y := s.allot f
     let tile := { noFlags with dataErr := (s.part p.val).vec.feedErr }
     let out := fun fl x => s.vxOutput y w (s.ctx f.ctx).srSeed fl x
     let o := out tile x1
     let tile2 := { tile with retried := true }
     let o2 := out tile2 x2
     y.holds (vxReads w ++ vxDstSpans w ++ vxOutScaleSpans w) = true ∧ o.2.2 = false ∧ o2.2.2 = false) :=
  ⟨
    ⟨(fly ws (fl (.vector 0) .started (0x20 + 2 ^ 64 + 2 ^ 80 * 8 + 2 ^ 84 * 8 + 2 ^ 92 * 8 + 2 ^ 128 * 64 + 2 ^ 192
     * 128 + 2 ^ 288 * 1 + 2 ^ 304 * 1 + 2 ^ 224 + 2 ^ 240 + 2 ^ 272))), 0, 0, (fl (.vector 0) .started (0x20 + 2 ^
     64 + 2 ^ 80 * 8 + 2 ^ 84 * 8 + 2 ^ 92 * 8 + 2 ^ 128 * 64 + 2 ^ 192 * 128 + 2 ^ 288 * 1 + 2 ^ 304 * 1 + 2 ^ 224
     + 2 ^ 240 + 2 ^ 272)), 0, (laneA false), ⟨rfl, by decide +kernel, rfl, by decide +kernel, by decide +kernel,
     by decide +kernel⟩, by decide +kernel, rfl, by decide +kernel, by decide +kernel, by decide +kernel,
     by decide +kernel, by unfold Apart; decide +kernel⟩,
    ⟨(fly ws (fl (.vector 0) .started (0x20 + 2 ^ 64 + 2 ^ 80 * 8 + 2 ^ 84 * 8 + 2 ^ 92 * 8 + 2 ^ 128 * 64 + 2 ^ 192
     * 2 + 2 ^ 288 * 1 + 2 ^ 304 * 2 + 2 ^ 224 + 2 ^ 240 + 2 ^ 272))), 0, 0, (fl (.vector 0) .started (0x20 + 2 ^ 64
     + 2 ^ 80 * 8 + 2 ^ 84 * 8 + 2 ^ 92 * 8 + 2 ^ 128 * 64 + 2 ^ 192 * 2 + 2 ^ 288 * 1 + 2 ^ 304 * 2 + 2 ^ 224 + 2 ^
     240 + 2 ^ 272)), 0, (laneA false), ⟨rfl, by decide +kernel, rfl, by decide +kernel, by decide +kernel,
     by decide +kernel⟩, by decide +kernel⟩,
    ⟨(fly ws (fl (.vector 0) .started (0x20 + 2 ^ 64 + 2 ^ 80 * 8 + 2 ^ 84 * 8 + 2 ^ 92 * 8 + 2 ^ 128 * 64 + 2 ^ 192
     * 128 + 2 ^ 288 * 1 + 2 ^ 304 * 1 + 2 ^ 224 + 2 ^ 240 + 2 ^ 272))), 0, 0, (fl (.vector 0) .started (0x20 + 2 ^
     64 + 2 ^ 80 * 8 + 2 ^ 84 * 8 + 2 ^ 92 * 8 + 2 ^ 128 * 64 + 2 ^ 192 * 128 + 2 ^ 288 * 1 + 2 ^ 304 * 1 + 2 ^ 224
     + 2 ^ 240 + 2 ^ 272)), 0, (laneA true), (laneA false), ⟨rfl, by decide +kernel, rfl, by decide +kernel,
     by decide +kernel, by decide +kernel⟩, by decide +kernel, rfl, by decide +kernel, by decide +kernel,
     by decide +kernel, by decide +kernel, by decide +kernel, by unfold Apart; decide +kernel⟩,
    ⟨(fly ws (fl (.vector 0) .started (0x20 + 2 ^ 64 + 2 ^ 80 * 8 + 2 ^ 84 * 8 + 2 ^ 92 * 8 + 2 ^ 128 * 64 + 2 ^ 192
     * 128 + 2 ^ 288 * 1 + 2 ^ 304 * 1 + 2 ^ 224 + 2 ^ 240 + 2 ^ 272))), 0, 0, (fl (.vector 0) .started (0x20 + 2 ^
     64 + 2 ^ 80 * 8 + 2 ^ 84 * 8 + 2 ^ 92 * 8 + 2 ^ 128 * 64 + 2 ^ 192 * 128 + 2 ^ 288 * 1 + 2 ^ 304 * 1 + 2 ^ 224
     + 2 ^ 240 + 2 ^ 272)), 0, (laneA true), (laneA true), ⟨rfl, by decide +kernel, rfl, by decide +kernel,
     by decide +kernel, by decide +kernel⟩, by decide +kernel⟩⟩

theorem witness_movers_move_rows :
    (∃ (s : State) (ring : Fin 4096) (x : W32) (f : Flight) (p : Fin 8) (m : Fin 4) (op : Nat) (cmd : Instr), (op,
     cmd) ∈ [(0x30, Instr.copy ring x noErrs), (0x31, Instr.gather ring x noErrs), (0x32, Instr.scatter ring x
     noErrs), (0x33, Instr.fill ring x noErrs)] ∧ Running s ring.val x f op ∧ f.unit = .mover p m ∧ s.unitFlights
     f.unit = [f] ∧ s.yard.damaged = [] ∧ s.yard.bytes.wf = true ∧ (s.mover p.val m.val).reads = [] ∧ f.causes = []
     ∧ f.tags = [] ∧ f.plane = 0 ∧ f.row = 0 ∧ f.col = 0 ∧ f.issuedAll = false ∧
     let w := f.bits
     let y := s.allot f
     let idx := s.indexList y w
     let n := mvRowBytes w
     let src := (srcRow w idx 0 0).toNat
     let dst := (dstRow w idx 0 0).toNat
     s.mvRefusal { f with list := idx } = none ∧ y.size < 4096 ∧ mvPlanes w = 1 ∧ mvRows w = 1 ∧ mvDstLoc w = 1 ∧
     (op = 0x33 ∨ mvSrcLoc w = 1) ∧ (op ≠ 0x33 → src + n ≤ dst ∨ dst + n ≤ src)) :=
    ⟨(fly ws (fl (.mover 0 0) .started (0x30 + 2 ^ 64 * 0 + 2 ^ 128 * 64 + 2 ^ 192 * 64 + 2 ^ 224 + 2 ^ 240 + 2 ^
     416 * 1 + 2 ^ 420))), 0, 0, (fl (.mover 0 0) .started (0x30 + 2 ^ 64 * 0 + 2 ^ 128 * 64 + 2 ^ 192 * 64 + 2 ^
     224 + 2 ^ 240 + 2 ^ 416 * 1 + 2 ^ 420)), 0, 0, 0x30, (.copy 0 0 noErrs), by decide +kernel, ⟨rfl,
     by decide +kernel, rfl, by decide +kernel, by decide +kernel, by decide +kernel⟩, by decide +kernel⟩

theorem witness_memory_reads_and_replies :
    (∃ (s : State) (ring : Fin 4096) (x : W32) (f : Flight) (p : Fin 8) (m : Fin 4), s.flight ring.val x = some f ∧
     s.frozen = false ∧ f.unit = .mover p m ∧ s.unitFlights f.unit = [f] ∧ f.causes = [] ∧ f.tags = [] ∧
     let w := f.bits
     ∃ pa, Running s ring.val x f 0x30 ∧ s.mvRefusal f = none ∧ (s.mover p.val m.val).reads = [] ∧ f.plane = 0 ∧
     f.row = 0 ∧ f.col = 0 ∧ f.issuedAll = false ∧ mvPlanes w = 1 ∧ mvRows w = 1 ∧ mvSrcLoc w = 0 ∧ mvDstLoc w = 1 ∧
     mvSrc w % 64 + mvRowBytes w ≤ 64 ∧ (s.ctx f.ctx).translate false (mvSrc w) = some pa) ∧
    (∃ (s : State) (ring : Fin 4096) (x : W32) (f : Flight) (p : Fin 8) (m : Fin 4), s.flight ring.val x = some f ∧
     s.frozen = false ∧ f.unit = .mover p m ∧ s.unitFlights f.unit = [f] ∧ f.causes = [] ∧ f.tags = [] ∧ ∃ r,
     (s.mover p.val m.val).reads = [r] ∧ r.held = none ∧ r.ring = ring.val ∧ r.index = x ∧ r.n ≤ 64 ∧ (s.ctx
     r.ctx).gen ≠ r.gen) ∧
    (∃ (s : State) (ring : Fin 4096) (x : W32) (f : Flight) (p : Fin 8) (m : Fin 4), s.flight ring.val x = some f ∧
     s.frozen = false ∧ f.unit = .mover p m ∧ s.unitFlights f.unit = [f] ∧ f.causes = [] ∧ f.tags = [] ∧
     let w := f.bits
     ∃ r, (s.mover p.val m.val).reads = [r] ∧ r.held = none ∧ r.ring = ring.val ∧ r.index = x ∧ r.n ≤ 64 ∧ (s.ctx
     r.ctx).gen = r.gen ∧ f.stage = .waiting ∧ f.issuedAll = true ∧ wOpcode f.bits = 0x30 ∧ r.host = false ∧
     mvDstLoc w = 1 ∧ s.yard.damaged = [] ∧ s.yard.bytes.wf = true ∧ (∀ l ∈ s.mem.damaged, l * 64 + 64 ≤ r.src ∨
     r.src + r.n ≤ l * 64)) ∧
    (∃ (s : State) (ring : Fin 4096) (x : W32) (f : Flight) (p : Fin 8) (m : Fin 4), s.flight ring.val x = some f ∧
     s.frozen = false ∧ f.unit = .mover p m ∧ s.unitFlights f.unit = [f] ∧ f.causes = [] ∧ f.tags = [] ∧ ∃ r,
     (s.mover p.val m.val).reads = [r] ∧ r.held = none ∧ r.ring = ring.val ∧ r.index = x ∧ r.n ≤ 64 ∧ (s.ctx
     r.ctx).gen = r.gen ∧ f.stage = .waiting ∧ f.issuedAll = true ∧ wOpcode f.bits = 0x30 ∧ r.host = true) :=
  ⟨
    ⟨(fly ws (fl (.mover 0 0) .started (0x30 + 2 ^ 64 * 0 + 2 ^ 128 * 64 + 2 ^ 192 * 64 + 2 ^ 224 + 2 ^ 240 + 2 ^
     416 * 0 + 2 ^ 420))), 0, 0, (fl (.mover 0 0) .started (0x30 + 2 ^ 64 * 0 + 2 ^ 128 * 64 + 2 ^ 192 * 64 + 2 ^
     224 + 2 ^ 240 + 2 ^ 416 * 0 + 2 ^ 420)), 0, 0, by decide +kernel, rfl, by decide +kernel, by decide +kernel,
     by decide +kernel, by decide +kernel, 0, ⟨rfl, by decide +kernel, rfl, by decide +kernel, by decide +kernel,
     by decide +kernel⟩, by decide +kernel⟩,
    ⟨(fly (reading ws (readA 2 false)) { fl (.mover 0 0) .waiting (0x30 + 2 ^ 64 * 0 + 2 ^ 128 * 64 + 2 ^ 192 * 64 +
     2 ^ 224 + 2 ^ 240 + 2 ^ 416 * 0 + 2 ^ 420) with issuedAll := true }), 0, 0, { fl (.mover 0 0) .waiting (0x30 +
     2 ^ 64 * 0 + 2 ^ 128 * 64 + 2 ^ 192 * 64 + 2 ^ 224 + 2 ^ 240 + 2 ^ 416 * 0 + 2 ^ 420) with issuedAll := true },
     0, 0, by decide +kernel, rfl, by decide +kernel, by decide +kernel, by decide +kernel, by decide +kernel,
     (readA 2 false), by decide +kernel⟩,
    ⟨(fly (reading ws (readA 1 false)) { fl (.mover 0 0) .waiting (0x30 + 2 ^ 64 * 0 + 2 ^ 128 * 64 + 2 ^ 192 * 64 +
     2 ^ 224 + 2 ^ 240 + 2 ^ 416 * 0 + 2 ^ 420) with issuedAll := true }), 0, 0, { fl (.mover 0 0) .waiting (0x30 +
     2 ^ 64 * 0 + 2 ^ 128 * 64 + 2 ^ 192 * 64 + 2 ^ 224 + 2 ^ 240 + 2 ^ 416 * 0 + 2 ^ 420) with issuedAll := true },
     0, 0, by decide +kernel, rfl, by decide +kernel, by decide +kernel, by decide +kernel, by decide +kernel,
     (readA 1 false), by decide +kernel⟩,
    ⟨(fly (reading ws (readA 1 true)) { fl (.mover 0 0) .waiting (0x30 + 2 ^ 64 * 0 + 2 ^ 128 * 64 + 2 ^ 192 * 64 +
     2 ^ 224 + 2 ^ 240 + 2 ^ 416 * 2 + 2 ^ 420) with issuedAll := true }), 0, 0, { fl (.mover 0 0) .waiting (0x30 +
     2 ^ 64 * 0 + 2 ^ 128 * 64 + 2 ^ 192 * 64 + 2 ^ 224 + 2 ^ 240 + 2 ^ 416 * 2 + 2 ^ 420) with issuedAll := true },
     0, 0, by decide +kernel, rfl, by decide +kernel, by decide +kernel, by decide +kernel, by decide +kernel,
     (readA 1 true), by decide +kernel⟩⟩

theorem witness_collectives_complete :
    (∃ (s : State) (ring : Fin 4096) (x : W32) (f : Flight) (h : Fin 2), f.unit = .coll h ∧ (∀ g ∈ s.marsh.flights,
     opColl (wOpcode g.bits) = true → g.stage = .waiting → g = f) ∧
     let w := f.bits
     let y := s.allot f
     let g := clGroup w
     ∃ (op : Nat) (cmd : Instr), (op, cmd) ∈ [(0x38, Instr.allreduce ring x noErrs []), (0x39, Instr.reduce ring x
     noErrs []), (0x3A, Instr.broadcast ring x noErrs)] ∧ Running s ring.val x f op ∧ s.yard.damaged = [] ∧
     s.yard.bytes.wf = true ∧ s.collRefusal f = none ∧ Table.get [] (s.ctx f.ctx).groups g =
     [{ parent := none, children := [] }] ∧ clSegs w = 1 ∧ clSrcLoc w = 1 ∧ clDstLoc w = 1 ∧ f.causes = [] ∧ f.tags
     = [] ∧ f.plane = 0 ∧ f.issuedAll = false ∧ s.rails.accums = [] ∧
     let own := s.yardGet y (clSrc w) (clBytes w 0)
     (op ≠ 0x3A → (Segment.parse own).flags.dataErr = false)) ∧
    (∃ (s : State) (ring : Fin 4096) (x : W32) (f : Flight) (h : Fin 2), f.unit = .coll h ∧ (∀ g ∈ s.marsh.flights,
     opColl (wOpcode g.bits) = true → g.stage = .waiting → g = f) ∧
     let w := f.bits
     s.flight ring.val x = some f ∧ s.frozen = false ∧ f.stage = .waiting ∧ opColl (wOpcode w) = true ∧ clTimeout w
     ≠ 0 ∧ f.causes = []) :=
  ⟨
    ⟨(fly ws (fl (.coll 0) .started (0x38 + 2 ^ 128 * 8192 + 2 ^ 288 * 65 + 2 ^ 304 * 65 + 2 ^ 320 + 2 ^ 408 + 2 ^
     412))), 0, 0, (fl (.coll 0) .started (0x38 + 2 ^ 128 * 8192 + 2 ^ 288 * 65 + 2 ^ 304 * 65 + 2 ^ 320 + 2 ^ 408 +
     2 ^ 412)), 0, by decide +kernel, by decide +kernel, 0x38, (.allreduce 0 0 noErrs []), by decide +kernel, ⟨rfl,
     by decide +kernel, rfl, by decide +kernel, by decide +kernel, by decide +kernel⟩, by decide +kernel⟩,
    ⟨(fly ws (fl (.coll 1) .waiting (0x39 + 2 ^ 432 + 2 ^ 128 * 8192 + 2 ^ 288 * 65 + 2 ^ 304 * 65 + 2 ^ 320 + 2 ^
     408 + 2 ^ 412))), 0, 0, (fl (.coll 1) .waiting (0x39 + 2 ^ 432 + 2 ^ 128 * 8192 + 2 ^ 288 * 65 + 2 ^ 304 * 65 +
     2 ^ 320 + 2 ^ 408 + 2 ^ 412)), 1, by decide +kernel⟩⟩

theorem witness_frames_carry_flits :
    (∃ (s : State) (n : Fin 20), ((s.port n.val).state = .down ∨ (s.port n.val).state = .training)) ∧
    (∃ (s : State) (n : Fin 20), ((s.port n.val).state = .init ∨ (s.port n.val).state = .up ∨ (s.port n.val).state =
     .quiet) ∧ n.val < s.rails.ports.length ∧ (s.port n.val).unit ≠ .absent ∧ (∀ l ∈ s.rails.ports, (∀ f ∈
     l.replayBuf, f.bytes.length = 256) ∧ ∀ q ∈ l.txq, ∀ f ∈ q, f.bytes.length = 256)) ∧
    (∃ (p : Port) (vl : Nat), vl < 4 ∧ p.sent.length = 4 ∧ p.replayBuf.length ≤ 2048) :=
  ⟨
    ⟨ws, 19, by decide +kernel⟩,
    ⟨ws, 0, by decide +kernel⟩,
    ⟨Port.reset, 3, by decide +kernel⟩⟩

theorem witness_frame_receive_acts :
    (∃ (frame : List Byte), frame.length ≠ 8192) ∧
    (∃ (s : State) (n : Fin 20) (frame : List Byte), frame.length = 8192 ∧ n.val < s.rails.ports.length ∧
     let p := s.port n.val
     (p.state = .up ∨ p.state = .init) ∧ p.unit ≠ .absent) :=
  ⟨
    ⟨(List.replicate 8191 0), by decide +kernel⟩,
    ⟨ws, 0, (List.replicate 8192 0), by decide +kernel⟩⟩

theorem witness_link_states_and_timers :
    (∃ (s : State) (n : Fin 20), n.val < s.rails.ports.length ∧
     let p := s.port n.val
     p.state = .training ∧ p.unit ≠ .absent) ∧
    (∃ (s : State) (n : Fin 20), n.val < s.rails.ports.length ∧
     let p := s.port n.val
     p.state = .up) ∧
    (∃ (s : State) (n : Fin 20), n.val < s.rails.ports.length ∧
     let p := s.port n.val
     p.state = .quiet) ∧
    (∃ (s : State) (n : Fin 20), n.val < s.rails.ports.length ∧
     let p := s.port n.val
     ∃ f rest, p.state = .up ∧ p.replayBuf = f :: rest ∧ p.lastReplay = none) ∧
    (∃ (s : State) (n : Fin 20), n.val < s.rails.ports.length ∧ ∃ o, s.rails.resend = [(n.val, [o])] ∧ o.packet.kind
     = 1 ∧ s.route o.packet.dst ≠ []) :=
  ⟨
    ⟨(ws.modPort 19 (fun p => { p with state := .training })), 19, by decide +kernel⟩,
    ⟨ws, 0, by decide +kernel⟩,
    ⟨(ws.modPort 19 (fun p => { p with state := .quiet })), 19, by decide +kernel⟩,
    ⟨(ws.modPort 0 (fun p => { p with state := .up, replayBuf := [flitA] })), 0, by decide +kernel, flitA, [],
     by decide +kernel⟩,
    ⟨{ ws with rails.resend := [(0, [sentTo 1 .nobody])] }, 0, by decide +kernel, (sentTo 1 .nobody),
     by decide +kernel⟩⟩

theorem witness_packets_applied_or_refused :
    (∃ (s : State) (n : Fin 20) (vl : Nat) (x : Packet), ∃ pa, Arrived s n.val 1 vl x ∧ x.data.length = x.length ∧
     MapsTo s x.ctx true x.arg.toNat x.length pa) ∧
    (∃ (s : State) (n : Fin 20) (vl : Nat) (x : Packet), Arrived s n.val 2 vl x ∧ (s.token (field x.arg.toNat 47
     32)).owner = some x.ctx) ∧
    (∃ (s : State) (n : Fin 20) (vl : Nat) (x : Packet), Arrived s n.val 3 vl x ∧
     let ring := field x.arg.toNat 43 32
     let tail := BitVec.ofNat 32 (field x.arg.toNat 31 0)
     ∃ i, s.boundTo ring x.ctx = true ∧ (s.ring ring).feeder = some i ∧ i ∈ (s.ctx x.ctx).entriesFor x.src 3 ∧
     (s.ring ring).tailOk tail = true) ∧
    (∃ (s : State) (n : Fin 20) (vl kind : Nat) (x : Packet) (cmd : Instr), (kind, cmd) ∈ [(1, Instr.write n
     cleanLines), (2, .signal n), (3, .doorbell n), (4, .mirrorOpen n cleanLines)] ∧ (s.port n.val).front kind =
     some (vl, x) ∧ x.dst ≠ s.rails.node) ∧
    (∃ (s : State) (n : Fin 20) (vl kind : Nat) (x : Packet) (cmd : Instr), (kind, cmd) ∈ [(1, Instr.write n
     cleanLines), (2, .signal n), (3, .doorbell n), (4, .mirrorOpen n cleanLines)] ∧ (s.port n.val).front kind =
     some (vl, x) ∧ x.dst = s.rails.node ∧ (s.computeReset = true ∨ x.isCut = true)) ∧
    (∃ (s : State) (n : Fin 20) (vl kind : Nat) (x : Packet) (cmd : Instr), (kind, cmd) ∈ [(1, Instr.write n
     cleanLines), (2, .signal n), (3, .doorbell n), (4, .mirrorOpen n cleanLines)] ∧ (s.port n.val).front kind =
     some (vl, x) ∧ x.dst = s.rails.node ∧ s.computeReset = false ∧ x.isCut = false ∧ lengthOk x = true) :=
  ⟨
    ⟨(lane ws (pk 1 64 64 (List.replicate 64 1))), 0, 0, (pk 1 64 64 (List.replicate 64 1)), 64, ⟨by decide +kernel,
     by decide +kernel, by decide +kernel⟩, by decide +kernel, ⟨by decide +kernel, by decide +kernel,
     by decide +kernel⟩⟩,
    ⟨(lane ws (pk 2 0 0 [])), 0, 0, (pk 2 0 0 []), ⟨by decide +kernel, by decide +kernel, by decide +kernel⟩,
     by decide +kernel⟩,
    ⟨(lane (ws.modRing 0 (fun q => { q with feeder := some 1 })) (pk 3 64 0 [])), 0, 0, (pk 3 64 0 []),
     ⟨by decide +kernel, by decide +kernel, by decide +kernel⟩, 1, by decide +kernel⟩,
    ⟨(lane ws { pk 2 0 0 [] with dst := 9 }), 0, 0, 2, { pk 2 0 0 [] with dst := 9 }, (.signal 0),
     by decide +kernel⟩,
    ⟨(lane { ws with sbx.recoveries := [{ level := 4, scope := 0, events := [], reqs := [], fence := [] }] }
     { pk 4 0 0 [] with epoch := 8 }), 0, 0, 4, { pk 4 0 0 [] with epoch := 8 }, (.mirrorOpen 0 cleanLines),
     by decide +kernel⟩,
    ⟨(lane ws { pk 4 0 0 [] with epoch := 8 }), 0, 0, 4, { pk 4 0 0 [] with epoch := 8 }, (.mirrorOpen 0
     cleanLines), by decide +kernel⟩⟩

theorem witness_mirror_packets_and_timeouts :
    (∃ (s : State) (n : Fin 20) (vl : Nat) (x : Packet) (y : Store), (s.ctx x.ctx).store = some y ∧ y.sourceNode =
     x.src ∧ y.restoring = none ∧
     let slot := bit x.pflags 0
     Arrived s n.val 4 vl x ∧ (¬ ((s.storeRecord x.ctx cleanLines).2.1.valid = true ∧ (s.storeRecord x.ctx
     cleanLines).2.1.slot = slot))) ∧
    (∃ (s : State) (n : Fin 20) (vl : Nat) (x : Packet) (y : Store), (s.ctx x.ctx).store = some y ∧ y.sourceNode =
     x.src ∧ y.restoring = none ∧
     let slot := bit x.pflags 0
     Arrived s n.val 5 vl x ∧ (y.opened = some (x.arg, slot, (s.ctx x.ctx).gen) ∧ y.applied = getLE x.data 0 8) ∧ ∃
     p pa, (s.ctx x.ctx).peers[y.sourcePeer]? = some p ∧ MapsTo s x.ctx true 0 320 pa) ∧
    (∃ (s : State) (n : Fin 20) (vl : Nat) (x : Packet) (y : Store), (s.ctx x.ctx).store = some y ∧ y.sourceNode =
     x.src ∧ y.restoring = none ∧
     let slot := bit x.pflags 0
     Arrived s n.val 5 vl x ∧ (¬ (y.opened = some (x.arg, slot, (s.ctx x.ctx).gen) ∧ y.applied = getLE x.data 0 8) ∨
     (s.ctx x.ctx).headerWritable = false)) ∧
    (∃ (s : State) (c : Fin 262144) (m : Mirror) (f : Flight), (s.ctx c.val).mirror = some m ∧ (s.ctx c.val).state ≠
     .free ∧ s.flight m.ring m.index = some f ∧ m.phase ≠ .closing) ∧
    (∃ (s : State) (c : Fin 262144) (m : Mirror) (f : Flight), (s.ctx c.val).mirror = some m ∧ (s.ctx c.val).state ≠
     .free ∧ s.flight m.ring m.index = some f ∧ m.phase = .closing) :=
  ⟨
    ⟨(lane (asStore ws storeA) (pk 4 1 0 [])), 0, 0, (pk 4 1 0 []), storeA, by decide +kernel, by decide +kernel,
     by decide +kernel, ⟨by decide +kernel, by decide +kernel, by decide +kernel⟩, by decide +kernel⟩,
    ⟨(lane (asStore ws { storeA with opened := some (1, false, 1) }) (pk 5 1 272 (List.replicate 272 0))), 0, 0, (pk
     5 1 272 (List.replicate 272 0)), { storeA with opened := some (1, false, 1) }, by decide +kernel,
     by decide +kernel, by decide +kernel, ⟨by decide +kernel, by decide +kernel, by decide +kernel⟩,
     by decide +kernel, peerA, 0, by decide +kernel, ⟨by decide +kernel, by decide +kernel, by decide +kernel⟩⟩,
    ⟨(lane (asStore ws storeA) (pk 5 1 272 (List.replicate 272 0))), 0, 0, (pk 5 1 272 (List.replicate 272 0)),
     storeA, by decide +kernel, by decide +kernel, by decide +kernel, ⟨by decide +kernel, by decide +kernel,
     by decide +kernel⟩, by decide +kernel⟩,
    ⟨(fly (mirrors ws .pages) (fl (.token 0) .waiting (0x43))), 0, (mirrorA .pages), (fl (.token 0) .waiting
     (0x43)), by decide +kernel⟩,
    ⟨(fly (mirrors ws .closing) (fl (.token 0) .waiting (0x43))), 0, (mirrorA .closing), (fl (.token 0) .waiting
     (0x43)), by decide +kernel⟩⟩

theorem witness_answers_settle_what_waits :
    (∃ (s : State) (n : Fin 20) (vl : Nat) (x : Packet) (o : OutPacket), ReplyArrived s n.val 6 vl x ∧ s.unsettled
     x.src x.tag isClose = some o ∧ s.frozen = true) ∧
    (∃ (s : State) (n : Fin 20) (vl : Nat) (x : Packet) (o : OutPacket), ReplyArrived s n.val 6 vl x ∧ s.unsettled
     x.src x.tag isClose = some o ∧ ∃ c m f, s.frozen = false ∧ o.waiter = .mirrorClose c ∧ (s.ctx c).mirror = some
     m ∧ m.phase = .closing ∧ x.tag.toNat ∈ m.tags ∧ (s.ctx c).state = .active ∧ s.flight m.ring m.index = some f) ∧
    (∃ (s : State) (n : Fin 20) (vl : Nat) (x : Packet) (o : OutPacket), ReplyArrived s n.val 0xB vl x ∧ field
     x.arg.toNat 7 0 = 1 ∧
     let entry := getLE x.data 0 8
     s.unsettled x.src (BitVec.ofNat 32 (field entry 31 0)) (fun y => !isClose y) = some o ∧ s.frozen = true) ∧
    (∃ (s : State) (n : Fin 20) (vl : Nat) (x : Packet) (o : OutPacket), ReplyArrived s n.val 0xB vl x ∧ field
     x.arg.toNat 7 0 = 1 ∧
     let entry := getLE x.data 0 8
     s.unsettled x.src (BitVec.ofNat 32 (field entry 31 0)) (fun y => !isClose y) = some o ∧ ∃ ring index f,
     s.frozen = false ∧ (∀ g ∈ s.marsh.flights, opColl (wOpcode g.bits) = true → g.stage ≠ .waiting) ∧ o.waiter =
     .wagon ring index ∧ s.flight ring index = some f ∧ wOpcode f.bits = 0x41 ∧ o.packet.tag.toNat ∈ f.tags) :=
  ⟨
    ⟨(lane { ws with rails.out := [(sentTo 5 (.mirrorClose 0))], power.clockStopped := true } (pk 6 1 0 [])), 0, 0,
     (pk 6 1 0 []), (sentTo 5 (.mirrorClose 0)), ⟨by decide +kernel, by decide +kernel, by decide +kernel,
     by decide +kernel, by decide +kernel⟩, by decide +kernel⟩,
    ⟨(lane { (fly (mirrors ws .closing) (fl (.token 0) .waiting (0x43))) with rails.out := [(sentTo 5 (.mirrorClose
     0))] } (pk 6 1 0 [])), 0, 0, (pk 6 1 0 []), (sentTo 5 (.mirrorClose 0)), ⟨by decide +kernel, by decide +kernel,
     by decide +kernel, by decide +kernel, by decide +kernel⟩, by decide +kernel, 0, (mirrorA .closing), (fl (.token
     0) .waiting (0x43)), by decide +kernel⟩,
    ⟨(lane { ws with rails.out := [(sentTo 2 (.wagon 0 0))], power.clockStopped := true } (pk 0xB 1 8 (leBytes 8
     5))), 0, 0, (pk 0xB 1 8 (leBytes 8 5)), (sentTo 2 (.wagon 0 0)), ⟨by decide +kernel, by decide +kernel,
     by decide +kernel, by decide +kernel, by decide +kernel⟩, by decide +kernel⟩,
    ⟨(lane { fly ws { fl (.token 0) .waiting (0x41 + 2 ^ 12 + 2 ^ 96) with tags := [5] } with rails.out := [(sentTo
     2 (.wagon 0 0))] } (pk 0xB 1 8 (leBytes 8 5))), 0, 0, (pk 0xB 1 8 (leBytes 8 5)), (sentTo 2 (.wagon 0 0)),
     ⟨by decide +kernel, by decide +kernel, by decide +kernel, by decide +kernel, by decide +kernel⟩,
     by decide +kernel, by decide +kernel, 0, 0,
     { fl (.token 0) .waiting (0x41 + 2 ^ 12 + 2 ^ 96) with tags := [5] }, by decide +kernel⟩⟩

theorem witness_collective_and_epoch_packets :
    (∃ (s : State) (n : Fin 20) (vl : Nat) (x : Packet), Arrived s n.val 8 vl x ∧ s.upWaits n.val = false ∧ s.opOver
     x = false ∧ s.running_ x.ctx (clArgGroup x) (clArgSeq x) = none ∧ ∃ i, s.neighbour x (fun r => r.children) =
     some i ∧ (s.accumFor x).sources.contains (some i) = false) ∧
    (∃ (s : State) (n : Fin 20) (vl : Nat) (x : Packet), Arrived s n.val 9 vl x ∧ s.opOver x = false ∧ s.running_
     x.ctx (clArgGroup x) (clArgSeq x) = none ∧ (s.accumFor x).written = false ∧ (s.accumFor x).sum = none ∧ ∃ i,
     s.neighbour x (fun r => r.parent.toList) = some i) ∧
    (∃ (s : State) (n : Fin 20) (vl : Nat) (x : Packet), Arrived s n.val 0xA vl x ∧ s.frozen = false ∧ ∃ f,
     s.running_ x.ctx (clArgGroup x) (clArgSeq x) = some f ∧ f.causes = [] ∧ s.flight f.ring f.index = some f ∧ (∀ g
     ∈ s.marsh.flights, opColl (wOpcode g.bits) = true → g.stage = .waiting → g = f)) ∧
    (∃ (s : State) (n : Fin 20) (vl : Nat) (x : Packet), (s.port n.val).front 0xC = some (vl, x) ∧ x.dst =
     s.rails.node ∧ lengthOk x = true ∧ s.rails.epoch ≠ 0 ∧ field x.arg.toNat 31 0 = s.rails.epoch.toNat ∧ field
     x.arg.toNat 63 32 ≠ s.rails.epoch.toNat) :=
  ⟨
    ⟨(lane ws segmentA), 0, 0, segmentA, ⟨rfl, rfl, segment_taken⟩, by decide +kernel, by decide +kernel,
     by decide +kernel, 0, by decide +kernel⟩,
    ⟨(lane ws (pk 9 (2 ^ 49) 1 [0])), 0, 0, (pk 9 (2 ^ 49) 1 [0]), ⟨by decide +kernel, by decide +kernel,
     by decide +kernel⟩, by decide +kernel, by decide +kernel, by decide +kernel, by decide +kernel, 0,
     by decide +kernel⟩,
    ⟨(lane (fly ws (fl (.coll 0) .waiting 0x38)) (pk 0xA 0 0 [])), 0, 0, (pk 0xA 0 0 []), ⟨by decide +kernel,
     by decide +kernel, by decide +kernel⟩, rfl, (fl (.coll 0) .waiting 0x38), by decide +kernel⟩,
    ⟨(lane ws (pk 0xC 7 0 [])), 0, 0, (pk 0xC 7 0 []), by decide +kernel⟩⟩

theorem witness_rail_settings :
    (∃ (s : State) (r : Request) (rest : List Request) (ch : Chan), s.power.state ≠ .holdUp ∧ Asked s ch 0x0900 r
     rest ∧ Shaped r 4 [] ∧ r.get 0 4 ≠ 0xFFFFFFFF) ∧
    (∃ (s : State) (r : Request) (rest : List Request) (ch : Chan), s.power.state ≠ .holdUp ∧ Asked s ch 0x0901 r
     rest ∧
     let first := r.get 0 2
     let n := r.get 2 2
     Shaped r (4 + 8 * n) [] ∧ n ≤ 59 ∧ first + n ≤ 8192 ∧ first ≤ 8191 ∧ (∀ i < n, r.get (8 + 8 * i) 4 < 2 ^ 20 ∧ ∀
     k < 20, bit (r.get (8 + 8 * i) 4) k = true → s.portOut k = false)) ∧
    (∃ (s : State) (r : Request) (rest : List Request) (ch : Chan), s.power.state ≠ .holdUp ∧ Asked s ch 0x0902 r
     rest ∧ Shaped r 4 [] ∧
     let e : W32 := BitVec.ofNat 32 (r.get 0 4)
     e ≠ 0 ∧ e ∉ s.rails.revoked ∧ e ≠ s.rails.epoch) ∧
    (∃ (s : State) (r : Request) (rest : List Request) (ch : Chan), s.power.state ≠ .holdUp ∧ Asked s ch 0x0902 r
     rest ∧ Shaped r 4 [] ∧ r.get 0 4 = 0) ∧
    (∃ (s : State) (r : Request) (rest : List Request) (ch : Chan), s.power.state ≠ .holdUp ∧ Asked s ch 0x0908 r
     rest ∧ Shaped r 4 [(1, 3)] ∧
     let p := s.port (r.get 0 1)
     r.get 0 1 ≤ 19 ∧ p.unit ≠ .absent ∧ p.unit ≠ .fenced) :=
  ⟨
    ⟨(ask ws (rq .pcie 0x0900 (leBytes 4 0xFFFFFFFE))), (rq .pcie 0x0900 (leBytes 4 0xFFFFFFFE)), [], .pcie,
     by decide +kernel, ⟨rfl, rfl, rfl, rfl, by decide +kernel, rfl, rfl, rfl⟩, ⟨by decide +kernel,
     by decide +kernel⟩, by decide +kernel⟩,
    ⟨(ask ws (rq .pcie 0x0901 (leBytes 2 8191 ++ leBytes 2 1 ++ leBytes 4 2 ++ leBytes 4 1))), (rq .pcie 0x0901
     (leBytes 2 8191 ++ leBytes 2 1 ++ leBytes 4 2 ++ leBytes 4 1)), [], .pcie, by decide +kernel, ⟨rfl, rfl, rfl,
     rfl, by decide +kernel, rfl, rfl, rfl⟩, ⟨by decide +kernel, by decide +kernel⟩, by decide +kernel⟩,
    ⟨(ask ws (rq .pcie 0x0902 (leBytes 4 8))), (rq .pcie 0x0902 (leBytes 4 8)), [], .pcie, by decide +kernel, ⟨rfl,
     rfl, rfl, rfl, by decide +kernel, rfl, rfl, rfl⟩, ⟨by decide +kernel, by decide +kernel⟩, by decide +kernel⟩,
    ⟨(ask ws (rq .pcie 0x0902 (leBytes 4 0))), (rq .pcie 0x0902 (leBytes 4 0)), [], .pcie, by decide +kernel, ⟨rfl,
     rfl, rfl, rfl, by decide +kernel, rfl, rfl, rfl⟩, ⟨by decide +kernel, by decide +kernel⟩, by decide +kernel⟩,
    ⟨(ask ws (rq .pcie 0x0908 (leBytes 1 19 ++ leBytes 3 0))), (rq .pcie 0x0908 (leBytes 1 19 ++ leBytes 3 0)), [],
     .pcie, by decide +kernel, ⟨rfl, rfl, rfl, rfl, by decide +kernel, rfl, rfl, rfl⟩, ⟨by decide +kernel,
     by decide +kernel⟩, by decide +kernel⟩⟩

theorem witness_peers_groups_siding :
    (∃ (s : State) (r : Request) (rest : List Request) (ch : Chan), s.power.state ≠ .holdUp ∧ ∃ c, Naming s r c ∧
     Asked s ch 0x0903 r rest ∧
     let first := r.get 6 2
     let n := r.get 8 2
     Shaped r (16 + 16 * n) [(10, 6)] ∧ 0 < n ∧ n ≤ 29 ∧ first ≤ 1023 ∧ first + n ≤ 1024 ∧ (∀ i < n, peerReserved
     (r.get (16 + 16 * i) 16) = none)) ∧
    (∃ (s : State) (r : Request) (rest : List Request) (ch : Chan), s.power.state ≠ .holdUp ∧ ∃ c, Naming s r c ∧
     Asked s ch 0x0907 r rest ∧
     let g := r.get 6 1
     let n := r.get 7 1
     Shaped r (8 + 18 * n) [] ∧ (s.ctx c).state = .halted ∧ g ≤ 15 ∧ 0 < n ∧ n ≤ 16 ∧ (∀ i < n, ∀ e ∈ r.tree i,
     (s.ctx c).treePeer e = true)) ∧
    (∃ (s : State) (r : Request) (rest : List Request) (ch : Chan), s.power.state ≠ .holdUp ∧ Asked s ch 0x0909 r
     rest ∧ Shaped r 0 [] ∧ s.power.state ≠ .standby) :=
  ⟨
    ⟨(ask ws (rq .pcie 0x0903 (nm (leBytes 2 1023 ++ leBytes 2 1 ++ leBytes 6 0 ++ leBytes 16 2)))), (rq .pcie
     0x0903 (nm (leBytes 2 1023 ++ leBytes 2 1 ++ leBytes 6 0 ++ leBytes 16 2))), [], .pcie, by decide +kernel, 0,
     ⟨by decide +kernel, by decide +kernel, by decide +kernel, by decide +kernel⟩, ⟨rfl, rfl, rfl, rfl,
     by decide +kernel, rfl, rfl, rfl⟩, ⟨by decide +kernel, by decide +kernel⟩, by decide +kernel⟩,
    ⟨(ask wsH (rq .pcie 0x0907 (nm (leBytes 1 15 ++ leBytes 1 1 ++ leBytes 18 (2 ^ 144 - 1))))), (rq .pcie 0x0907
     (nm (leBytes 1 15 ++ leBytes 1 1 ++ leBytes 18 (2 ^ 144 - 1)))), [], .pcie, by decide +kernel, 0,
     ⟨by decide +kernel, by decide +kernel, by decide +kernel, by decide +kernel⟩, ⟨rfl, rfl, rfl, rfl,
     by decide +kernel, rfl, rfl, rfl⟩, ⟨by decide +kernel, by decide +kernel⟩, by decide +kernel⟩,
    ⟨(ask ws (rq .pcie 0x0909 [])), (rq .pcie 0x0909 []), [], .pcie, by decide +kernel, ⟨rfl, rfl, rfl, rfl,
     by decide +kernel, rfl, rfl, rfl⟩, ⟨by decide +kernel, by decide +kernel⟩, by decide +kernel⟩⟩

theorem witness_coupling_requests :
    (∃ (s : State) (r : Request) (rest : List Request) (ch : Chan) (c : Nat), s.power.state ≠ .holdUp ∧ Naming s r c
     ∧ Asked s ch 0x0904 r rest ∧
     let n := r.get 8 1
     Shaped r (16 + 16 * n) [(9, 7)] ∧ (s.ctx c).state = .halted ∧ n ≤ 16 ∧ ((s.ctx c).peer (r.get 6 2)).isSome ∧
     r.get 6 2 ≠ 0xFFFF ∧ regionFault (s.ctx c) r.coupled = none) ∧
    (∃ (s : State) (r : Request) (rest : List Request) (ch : Chan) (c : Nat), s.power.state ≠ .holdUp ∧ Naming s r c
     ∧ ∃ p, Asked s ch 0x0905 r rest ∧ Shaped r 24 [(12, 4)] ∧ (s.ctx c).state = .halted ∧ (s.ctx c).peer (r.get 6
     2) = some p ∧ p.writeIn = true ∧ p.node = BitVec.ofNat 32 (r.get 8 4) ∧ (s.ctx c).pagesMapped 0 (storeHeader +
     2 * r.get 16 8) = true ∧ (s.ctx c).headerWritable = true) ∧
    (∃ (s : State) (r : Request) (rest : List Request) (ch : Chan) (c : Nat), s.power.state ≠ .holdUp ∧ Naming s r c
     ∧ ∃ y p, Asked s ch 0x0906 r rest ∧ Shaped r 8 [] ∧ (s.ctx c).store = some y ∧ y.restoring = none ∧
     s.mem.damaged = [] ∧ (s.ctx c).peer (r.get 6 2) = some p ∧
     let q := (s.storeRecord c cleanLines).2.1
     let pages := slotPagesOf 0 (storeRegions q.regions (s.memGet c cleanLines 64 256).2.1)
     q.valid = true ∧ pages = []) ∧
    (∃ (s : State) (r : Request) (rest : List Request) (ch : Chan) (c : Nat), s.power.state ≠ .holdUp ∧ Naming s r c
     ∧ ∃ y p, Asked s ch 0x0906 r rest ∧ Shaped r 8 [] ∧ (s.ctx c).store = some y ∧ y.restoring = none ∧
     s.mem.damaged = [] ∧ (s.ctx c).peer (r.get 6 2) = some p ∧
     let q := (s.storeRecord c cleanLines).2.1
     let pages := slotPagesOf 0 (storeRegions q.regions (s.memGet c cleanLines 64 256).2.1)
     q.valid = true ∧ ∃ tags u, pages ≠ [] ∧ (s.started ch r rest).restorePages c p cleanLines (storeHeader + slotNo
     q.slot * q.slotBytes.toNat) pages = (some tags, u)) :=
  ⟨
    ⟨(ask wsH (rq .pcie 0x0904 (nm (leBytes 2 1 ++ leBytes 1 1 ++ leBytes 7 0 ++ leBytes 8 0 ++ leBytes 8 (2 ^
     21))))), (rq .pcie 0x0904 (nm (leBytes 2 1 ++ leBytes 1 1 ++ leBytes 7 0 ++ leBytes 8 0 ++ leBytes 8 (2 ^
     21)))), [], .pcie, 0, by decide +kernel, ⟨by decide +kernel, by decide +kernel, by decide +kernel,
     by decide +kernel⟩, ⟨rfl, rfl, rfl, rfl, by decide +kernel, rfl, rfl, rfl⟩, ⟨by decide +kernel,
     by decide +kernel⟩, by decide +kernel⟩,
    ⟨(ask wsH (rq .pcie 0x0905 (nm (leBytes 2 0 ++ leBytes 4 2 ++ leBytes 4 0 ++ leBytes 8 (2 ^ 21))))), (rq .pcie
     0x0905 (nm (leBytes 2 0 ++ leBytes 4 2 ++ leBytes 4 0 ++ leBytes 8 (2 ^ 21)))), [], .pcie, 0,
     by decide +kernel, ⟨by decide +kernel, by decide +kernel, by decide +kernel, by decide +kernel⟩, peerA, ⟨rfl,
     rfl, rfl, rfl, by decide +kernel, rfl, rfl, rfl⟩, ⟨by decide +kernel, by decide +kernel⟩, by decide +kernel⟩,
    ⟨(ask ({ asStore wsH storeA with mem.bytes := [(26, 2)] }) (rq .pcie 0x0906 (nm (leBytes 2 0)))), (rq .pcie
     0x0906 (nm (leBytes 2 0))), [], .pcie, 0, by decide +kernel, ⟨by decide +kernel, by decide +kernel,
     by decide +kernel, by decide +kernel⟩, storeA, peerA, ⟨rfl, rfl, rfl, rfl, by decide +kernel, rfl, rfl, rfl⟩,
     ⟨by decide +kernel, by decide +kernel⟩, by decide +kernel⟩,
    ⟨wsR, reqR, [], .pcie, 0, by decide +kernel, ⟨by decide +kernel, by decide +kernel, by decide +kernel,
     by decide +kernel⟩, storeA, peerA, ⟨rfl, rfl, rfl, rfl, by decide +kernel, rfl, rfl, rfl⟩, ⟨by decide +kernel,
     by decide +kernel⟩, by decide +kernel, by decide +kernel, by decide +kernel, by decide +kernel,
     by decide +kernel, [0], _, by decide +kernel, restored (by decide +kernel) rfl sends_page⟩⟩

theorem witness_requests_are_received :
    (∃ (s : State), s.book.fwState = 3 ∧
     let c := s.book.pcie
     let bs := s.book.inWin.read (512 * (c.inSeq.toNat % 32)) 512
     let k := ticketOf bs
     frameError bs c.inSeq = 0 ∧ c.hasPlace = true ∧ c.chain = [] ∧ k.more = false ∧ k.headerBad = false ∧ s.hostUp
     = true) ∧
    (∃ (s : State), s.book.fwState = 3 ∧
     let c := s.book.pcie
     let bs := s.book.inWin.read (512 * (c.inSeq.toNat % 32)) 512
     let k := ticketOf bs
     frameError bs c.inSeq = 0 ∧ c.hasPlace = true ∧ c.chain = [] ∧ k.more = false ∧ k.headerBad = false ∧ c.tail =
     some (c.inSeq + 1)) ∧
    (∃ (s : State), s.book.fwState = 3 ∧
     let c := s.book.pcie
     ∃ (tail : W32), s.hostUp = true ∧ 32 < sub32 tail c.inSeq) ∧
    (∃ (s : State), s.book.fwState = 3 ∧
     let c := s.book.pcie
     let bs := s.book.inWin.read (512 * (c.inSeq.toNat % 32)) 512
     let k := ticketOf bs
     s.hostUp = true ∧ k.length ≤ 480 ∧ ticketCrc bs ≠ k.crc ∧ c.hasPlace = true) ∧
    (∃ (s : State), s.book.fwState = 3 ∧ ∃ (own : _) (src : _) (packets : _) (message : List Byte), s.book.eid =
     some own ∧ s.book.peer = some src ∧ s.mctpHears src false = true ∧ assemble own none packets = some (src,
     message) ∧ 37 ≤ message.length ∧ message.take 5 = ticketMessage [] ∧
     let m := ticketOf (message.drop 5)
     m.length ≤ 480 ∧ ticketCrc (message.drop 5) = m.crc ∧ m.opcode ≠ 0x0100 ∧ m.seq = s.book.mctp.inSeq ∧
     s.book.mctp.hasPlace = true ∧ s.book.mctp.chain = [] ∧ m.more = false ∧ m.headerBad = false) :=
  ⟨
    ⟨{ ws with book.inWin := Bytes.write [] 0 (ticket 0 0x0110) }, by decide +kernel⟩,
    ⟨{ ws with book.inWin := Bytes.write [] 0 (ticket 0 0x0110), book.pcie.tail := some 1 }, by decide +kernel⟩,
    ⟨ws, by decide +kernel, 33, by decide +kernel⟩,
    ⟨ws, by decide +kernel⟩,
    ⟨ws, by decide +kernel, 9, 8, (message 0 0x0110), (ticketMessage (ticket 0 0x0110)), by decide +kernel,
     by decide +kernel, by decide +kernel, assemble_messagePackets 9 0x10 8 _ (by decide +kernel),
     by decide +kernel, rfl, by decide +kernel,
     (show ticketCrc (ticket 0 0x0110) = (ticketOf (ticket 0 0x0110)).crc from by decide +kernel),
     by decide +kernel, by decide +kernel, by decide +kernel, by decide +kernel, by decide +kernel, by rfl⟩⟩

theorem witness_tickets_go_out :
    (∃ (s : State), ∃ (ch : Chan) (q : OutTicket) (rest : List OutTicket), s.chanUp ch = true ∧ (s.chan ch).mayWrite
     = true ∧ (s.chan ch).queue = q :: rest ∧ q.payload.length ≤ 480 ∧ (s.chan ch).lost = 0 ∧ s.book.outWin.wf =
     true) ∧
    (∃ (s : State), s.hostUp = true) ∧
    (∃ (s : State), s.hostUp = true) ∧
    (∃ (s : State), ∃ dst, s.chanUp .mctp = true ∧ s.book.peer = some dst) :=
  ⟨
    ⟨{ ws with book.pcie.queue := [ticketA] }, .pcie, ticketA, [], by decide +kernel⟩,
    ⟨ws, by decide +kernel⟩,
    ⟨ws, by decide +kernel⟩,
    ⟨ws, 8, by decide +kernel⟩⟩

theorem witness_signals_and_vectors :
    (∃ (s : State), s.hostUp = true ∧ ∃ (k : Fin 65536) (v : W64) (c : Nat), (s.token k.val).owner = some c ∧ (s.ctx
     c).gen.toNat = field v.toNat 63 48) ∧
    (∃ (s : State), s.hostUp = true ∧ ∃ (k : Fin 65536) (v : W64) (c : Nat), (s.token k.val).owner = some c ∧ (s.ctx
     c).gen.toNat ≠ field v.toNat 63 48) ∧
    (∃ (s : State), s.hostUp = true ∧ ∃ (v : Fin 2048), v.val ∈ s.pcie.holdoff ∧ v.val ∉ s.pcie.due) ∧
    (∃ (s : State), s.hostUp = true ∧ ∃ (v : Fin 2048),
     let e := s.msixEntry v.val
     v.val ∈ s.pcie.holdoff ∧ v.val ∈ s.pcie.due ∧ e.masked = false ∧ e.programmed = true ∧ s.pcie.msixEnabled =
     true) ∧
    (∃ (s : State), s.hostUp = true ∧ ∃ (v : Fin 2048),
     let e := s.msixEntry v.val
     v.val ∈ s.pcie.pba ∧ v.val ∉ s.pcie.holdoff ∧ e.programmed = true ∧ s.pcie.msixEnabled = true) ∧
    (∃ (s : State), s.hostUp = true) :=
  ⟨
    ⟨ws, by decide +kernel, 0, (BitVec.ofNat 64 (2 ^ 48 + 1)), 0, by decide +kernel⟩,
    ⟨ws, by decide +kernel, 0, 1, 0, by decide +kernel⟩,
    ⟨{ ws with pcie.msix := [(2047, entryA)], pcie.holdoff := [2047] }, by decide +kernel, 2047, by decide +kernel⟩,
    ⟨{ ws with pcie.msix := [(2047, entryA)], pcie.holdoff := [2047], pcie.due := [2047] }, by decide +kernel, 2047,
     by decide +kernel⟩,
    ⟨{ ws with pcie.msix := [(2047, entryA)], pcie.pba := [2047] }, by decide +kernel, 2047, by decide +kernel⟩,
    ⟨ws, by decide +kernel⟩⟩

theorem witness_endpoint_writes_and_resets :
    (∃ (s : State), s.pcie.ready = false) ∧
    (∃ (s : State), s.pcie.ready = true) ∧
    (∃ (s : State), s.pcie.ready = true ∧ ∃ (off : Fin 4096), s.configAt off.val = none) ∧
    (∃ (s : State), s.pcie.ready = true ∧ ∃ (off : Fin 4096), (off.val < 4 ∨ 8 ≤ off.val ∧ off.val < 12 ∨ 0x2C ≤
     off.val ∧ off.val < 0x30)) ∧
    (∃ (s : State), s.hostUp = true ∧ ∃ (off : Nat) (bs : List Byte), off < 0x4000 ∧ off + bs.length ≤ 0x4000) ∧
    (∃ (s : State), s.hostUp = true) ∧
    (∃ (s : State), s.hostUp = false) :=
  ⟨
    ⟨{ ws with pcie.ready := false }, by decide +kernel⟩,
    ⟨ws, by decide +kernel⟩,
    ⟨ws, by decide +kernel, 0xFF0, by decide +kernel⟩,
    ⟨ws, by decide +kernel, 0x2F, by decide +kernel⟩,
    ⟨ws, by decide +kernel, 0x3FFF, [1], by decide +kernel⟩,
    ⟨ws, by decide +kernel⟩,
    ⟨State.reset, by decide +kernel⟩⟩

theorem witness_mctp_and_pldm_answers :
    (∃ (message : List Byte), message ≠ []) ∧
    (∃ (s : State) (src : Byte), ∃ (op eid : Byte), s.mctpHears src true = true ∧ op.toNat % 4 ≤ 1 ∧ 8 ≤ eid.toNat ∧
     eid ≠ 0xFF) ∧
    (∃ (s : State) (src : Byte), s.mctpHears src false = true) ∧
    (∃ (s : State) (src : Byte), s.mctpHears src false = false) ∧
    (∃ (s : State) (src : Byte), s.book.fwState = 1 ∧ s.book.peer = some src ∧ s.mctpHears src false = true) ∧
    (∃ (s : State) (src : Byte), s.book.fwState = 1 ∧ s.book.peer = some src ∧ s.mctpHears src false = true ∧ ∃
     (type : Byte), (type = 0 ∨ type = 5)) :=
  ⟨
    ⟨[0x7E], by decide +kernel⟩,
    ⟨ws, 8, 1, 8, by decide +kernel⟩,
    ⟨ws, 8, by decide +kernel⟩,
    ⟨ws, 9, by decide +kernel⟩,
    ⟨{ ws with book.fwState := 1 }, 8, by decide +kernel⟩,
    ⟨{ ws with book.fwState := 1 }, 8, by decide +kernel, by decide +kernel, by decide +kernel, 5,
     by decide +kernel⟩⟩

theorem witness_pldm_update_runs :
    (∃ (s : State) (src : Byte), s.book.fwState = 1 ∧ s.book.peer = some src ∧ s.mctpHears src false = true ∧
     s.power.state ≠ .holdUp ∧
     let rh := s.sec.rh
     rh.state = .idle) ∧
    (∃ (s : State) (src : Byte), s.book.fwState = 1 ∧ s.book.peer = some src ∧ s.mctpHears src false = true ∧
     s.power.state ≠ .holdUp ∧
     let rh := s.sec.rh
     rh.state = .learn) ∧
    (∃ (s : State) (src : Byte), s.book.fwState = 1 ∧ s.book.peer = some src ∧ s.mctpHears src false = true ∧
     s.power.state ≠ .holdUp ∧
     let rh := s.sec.rh
     ∃ (size : W32), rh.state = .ready ∧ 4096 ≤ size.toNat ∧ size.toNat ≤ imageMax) ∧
    (∃ (s : State) (src : Byte), s.book.fwState = 1 ∧ s.book.peer = some src ∧ s.mctpHears src false = true ∧
     s.power.state ≠ .holdUp ∧
     let rh := s.sec.rh
     ∃ (data : List Byte), rh.state = .download ∧ rh.taken < rh.size ∧ data.length = min 512 (rh.size - rh.taken) ∧
     128 ≤ rh.taken) ∧
    (∃ (s : State) (src : Byte), s.book.fwState = 1 ∧ s.book.peer = some src ∧ s.mctpHears src false = true ∧
     s.power.state ≠ .holdUp ∧
     let rh := s.sec.rh
     rh.state = .download ∧ rh.size ≤ rh.taken) ∧
    (∃ (s : State) (src : Byte), s.book.fwState = 1 ∧ s.book.peer = some src ∧ s.mctpHears src false = true ∧
     s.power.state ≠ .holdUp ∧
     let rh := s.sec.rh
     rh.state = .apply) ∧
    (∃ (s : State) (src : Byte), s.book.fwState = 1 ∧ s.book.peer = some src ∧ s.mctpHears src false = true ∧
     s.power.state ≠ .holdUp ∧
     let rh := s.sec.rh
     rh.state = .ready ∧ rh.verified = true) ∧
    (∃ (s : State) (src : Byte), s.book.fwState = 1 ∧ s.book.peer = some src ∧ s.mctpHears src false = true ∧
     s.power.state ≠ .holdUp ∧
     let rh := s.sec.rh
     rh.state = .download) ∧
    (∃ (s : State) (src : Byte), s.book.fwState = 1 ∧ s.book.peer = some src ∧ s.mctpHears src false = true ∧
     s.power.state ≠ .holdUp ∧
     let rh := s.sec.rh
     rh.state ≠ .idle) :=
  ⟨
    ⟨{ ws with book.fwState := 1, sec.rh := { Roundhouse.reset with state := .idle } }, 8, by decide +kernel⟩,
    ⟨{ ws with book.fwState := 1, sec.rh := { Roundhouse.reset with state := .learn } }, 8, by decide +kernel⟩,
    ⟨{ ws with book.fwState := 1, sec.rh := { Roundhouse.reset with state := .ready } }, 8, by decide +kernel,
     by decide +kernel, by decide +kernel, by decide +kernel, 4096, by decide +kernel⟩,
    ⟨{ ws with book.fwState := 1, sec.rh :=
     { Roundhouse.reset with state := .download, size := 4096, taken := 4095 } }, 8, by decide +kernel,
     by decide +kernel, by decide +kernel, by decide +kernel, [1], by decide +kernel⟩,
    ⟨{ ws with book.fwState := 1, sec.rh := loadedA }, 8, by decide +kernel⟩,
    ⟨{ ws with book.fwState := 1, sec.rh := { Roundhouse.reset with state := .apply } }, 8, by decide +kernel⟩,
    ⟨{ ws with book.fwState := 1, sec.rh := { Roundhouse.reset with state := .ready, verified := true } }, 8,
     by decide +kernel⟩,
    ⟨{ ws with book.fwState := 1, sec.rh := { Roundhouse.reset with state := .download } }, 8, by decide +kernel⟩,
    ⟨{ ws with book.fwState := 1, sec.rh := { Roundhouse.reset with state := .learn } }, 8, by decide +kernel⟩⟩

theorem witness_power_requests :
    (∃ (s : State) (r : Request) (rest : List Request) (ch : Chan), Asked s ch 0x0300 r rest ∧ Shaped r 16 [(9, 1),
     (12, 4)] ∧ s.power.state ≠ .holdUp ∧ r.get 0 4 ≤ 2600000 ∧ 10000 ≤ r.get 4 4 ∧ r.get 4 4 ≤ 50000000 ∧ r.get 8 1
     ≤ 1 ∧ (r.get 8 1 = 0 → r.get 10 2 = 0)) ∧
    (∃ (s : State) (r : Request) (rest : List Request) (ch : Chan), Asked s ch 0x0300 r rest ∧ Shaped r 16 [(9, 1),
     (12, 4)] ∧ s.power.state ≠ .holdUp ∧ r.get 8 1 = 0 ∧ r.get 10 2 ≠ 0) ∧
    (∃ (s : State) (r : Request) (rest : List Request) (ch : Chan), Asked s ch 0x0301 r rest ∧ Shaped r 0 []) ∧
    (∃ (s : State) (r : Request) (rest : List Request) (ch : Chan), Asked s ch 0x0302 r rest ∧ Shaped r 8 [(1, 1),
     (6, 2)] ∧
     let first := r.get 2 2
     let n := r.get 4 2
     0 < n ∧ n ≤ 56 ∧ (r.get 0 1 = 0 ∧ first + n ≤ 11 ∨ r.get 0 1 = 1 ∧ first + n ≤ 4096)) ∧
    (∃ (s : State) (r : Request) (rest : List Request) (ch : Chan), Asked s ch 0x0303 r rest ∧ Shaped r 4 [(1, 3)] ∧
     s.power.ceilings.length = 6 ∧ r.get 0 1 = 2 ∧ (s.power.state = .run ∨ s.power.state = .trimmed)) ∧
    (∃ (s : State) (r : Request) (rest : List Request) (ch : Chan), Asked s ch 0x0303 r rest ∧ Shaped r 4 [(1, 3)] ∧
     s.power.ceilings.length = 6 ∧ r.get 0 1 = 0 ∧ s.power.state = .idle) ∧
    (∃ (s : State) (r : Request) (rest : List Request) (ch : Chan), Asked s ch 0x0303 r rest ∧ Shaped r 4 [(1, 3)] ∧
     s.power.ceilings.length = 6 ∧ r.get 0 1 = 0 ∧ (s.power.state = .run ∨ s.power.state = .trimmed)) ∧
    (∃ (s : State) (r : Request) (rest : List Request) (ch : Chan), Asked s ch 0x0303 r rest ∧ Shaped r 4 [(1, 3)] ∧
     s.power.ceilings.length = 6 ∧ r.get 0 1 = 0 ∧ s.power.state = .standby) ∧
    (∃ (s : State) (r : Request) (rest : List Request) (ch : Chan), Asked s ch 0x0303 r rest ∧ Shaped r 4 [(1, 3)] ∧
     s.power.ceilings.length = 6 ∧ r.get 0 1 = 4 ∧ (s.power.state = .run ∨ s.power.state = .trimmed ∨ s.power.state
     = .idle) ∧ s.sec.update.any (fun u => u.writing) = true) ∧
    (∃ (s : State) (r : Request) (rest : List Request) (ch : Chan), Asked s ch 0x0303 r rest ∧ Shaped r 4 [(1, 3)] ∧
     s.power.ceilings.length = 6 ∧ r.get 0 1 = 4 ∧ (s.power.state = .run ∨ s.power.state = .trimmed ∨ s.power.state
     = .idle) ∧ s.sec.update.any (fun u => u.writing) = false ∧ s.allQuiet = true) ∧
    (∃ (s : State) (r : Request) (rest : List Request) (ch : Chan), Asked s ch 0x0303 r rest ∧ Shaped r 4 [(1, 3)] ∧
     s.power.ceilings.length = 6 ∧ r.get 0 1 = 4 ∧ (s.power.state = .run ∨ s.power.state = .trimmed ∨ s.power.state
     = .idle) ∧ s.sec.update.any (fun u => u.writing) = false ∧ s.allQuiet = false) ∧
    (∃ (s : State) (r : Request) (rest : List Request) (ch : Chan), Asked s ch 0x0304 r rest ∧ Shaped r 8 [(1, 3)] ∧
     s.working ∧ r.get 0 1 ≤ 1 ∧ r.get 4 4 ≤ 86400 ∧ s.hayIn = true ∧ s.hay.walk = none) :=
  ⟨
    ⟨(ask ws (rq .pcie 0x0300 (leBytes 4 2600000 ++ leBytes 4 10000 ++ leBytes 1 1 ++ leBytes 1 0 ++ leBytes 2 65535
     ++ leBytes 4 0))), (rq .pcie 0x0300 (leBytes 4 2600000 ++ leBytes 4 10000 ++ leBytes 1 1 ++ leBytes 1 0 ++
     leBytes 2 65535 ++ leBytes 4 0)), [], .pcie, ⟨rfl, rfl, rfl, rfl, by decide +kernel, rfl, rfl, rfl⟩,
     ⟨by decide +kernel, by decide +kernel⟩, by decide +kernel⟩,
    ⟨(ask ws (rq .pcie 0x0300 (leBytes 4 2600000 ++ leBytes 4 10000 ++ leBytes 1 0 ++ leBytes 1 0 ++ leBytes 2 1 ++
     leBytes 4 0))), (rq .pcie 0x0300 (leBytes 4 2600000 ++ leBytes 4 10000 ++ leBytes 1 0 ++ leBytes 1 0 ++ leBytes
     2 1 ++ leBytes 4 0)), [], .pcie, ⟨rfl, rfl, rfl, rfl, by decide +kernel, rfl, rfl, rfl⟩, ⟨by decide +kernel,
     by decide +kernel⟩, by decide +kernel⟩,
    ⟨(ask ws (rq .pcie 0x0301 [])), (rq .pcie 0x0301 []), [], .pcie, ⟨rfl, rfl, rfl, rfl, by decide +kernel, rfl,
     rfl, rfl⟩, ⟨by decide +kernel, by decide +kernel⟩⟩,
    ⟨(ask ws (rq .pcie 0x0302 (leBytes 1 1 ++ leBytes 1 0 ++ leBytes 2 4040 ++ leBytes 2 56 ++ leBytes 2 0))), (rq
     .pcie 0x0302 (leBytes 1 1 ++ leBytes 1 0 ++ leBytes 2 4040 ++ leBytes 2 56 ++ leBytes 2 0)), [], .pcie, ⟨rfl,
     rfl, rfl, rfl, by decide +kernel, rfl, rfl, rfl⟩, ⟨by decide +kernel, by decide +kernel⟩, by decide +kernel⟩,
    ⟨(ask ({ ws with power.state := .run }) (rq .pcie 0x0303 (leBytes 1 2 ++ leBytes 3 0))), (rq .pcie 0x0303
     (leBytes 1 2 ++ leBytes 3 0)), [], .pcie, ⟨rfl, rfl, rfl, rfl, by decide +kernel, rfl, rfl, rfl⟩,
     ⟨by decide +kernel, by decide +kernel⟩, by decide +kernel⟩,
    ⟨(ask ({ ws with power.state := .idle }) (rq .pcie 0x0303 (leBytes 1 0 ++ leBytes 3 0))), (rq .pcie 0x0303
     (leBytes 1 0 ++ leBytes 3 0)), [], .pcie, ⟨rfl, rfl, rfl, rfl, by decide +kernel, rfl, rfl, rfl⟩,
     ⟨by decide +kernel, by decide +kernel⟩, by decide +kernel⟩,
    ⟨(ask ({ ws with power.state := .trimmed }) (rq .pcie 0x0303 (leBytes 1 0 ++ leBytes 3 0))), (rq .pcie 0x0303
     (leBytes 1 0 ++ leBytes 3 0)), [], .pcie, ⟨rfl, rfl, rfl, rfl, by decide +kernel, rfl, rfl, rfl⟩,
     ⟨by decide +kernel, by decide +kernel⟩, by decide +kernel⟩,
    ⟨(ask ({ ws with power.state := .standby }) (rq .pcie 0x0303 (leBytes 1 0 ++ leBytes 3 0))), (rq .pcie 0x0303
     (leBytes 1 0 ++ leBytes 3 0)), [], .pcie, ⟨rfl, rfl, rfl, rfl, by decide +kernel, rfl, rfl, rfl⟩,
     ⟨by decide +kernel, by decide +kernel⟩, by decide +kernel⟩,
    ⟨(ask ({ ws with power.state := .run, sec.update := some { updateA with writing := true } }) (rq .pcie 0x0303
     (leBytes 1 4 ++ leBytes 3 0))), (rq .pcie 0x0303 (leBytes 1 4 ++ leBytes 3 0)), [], .pcie, ⟨rfl, rfl, rfl, rfl,
     by decide +kernel, rfl, rfl, rfl⟩, ⟨by decide +kernel, by decide +kernel⟩, by decide +kernel⟩,
    ⟨(ask ({ ws with power.state := .idle, ctxs := [] }) (rq .pcie 0x0303 (leBytes 1 4 ++ leBytes 3 0))), (rq .pcie
     0x0303 (leBytes 1 4 ++ leBytes 3 0)), [], .pcie, ⟨rfl, rfl, rfl, rfl, by decide +kernel, rfl, rfl, rfl⟩,
     ⟨by decide +kernel, by decide +kernel⟩, by decide +kernel⟩,
    ⟨(ask ({ ws with power.state := .run }) (rq .pcie 0x0303 (leBytes 1 4 ++ leBytes 3 0))), (rq .pcie 0x0303
     (leBytes 1 4 ++ leBytes 3 0)), [], .pcie, ⟨rfl, rfl, rfl, rfl, by decide +kernel, rfl, rfl, rfl⟩,
     ⟨by decide +kernel, by decide +kernel⟩, by decide +kernel⟩,
    ⟨(ask ({ ws with hay.entry := .inService }) (rq .pcie 0x0304 (leBytes 1 1 ++ leBytes 3 0 ++ leBytes 4 86400))),
     (rq .pcie 0x0304 (leBytes 1 1 ++ leBytes 3 0 ++ leBytes 4 86400)), [], .pcie, ⟨rfl, rfl, rfl, rfl,
     by decide +kernel, rfl, rfl, rfl⟩, ⟨by decide +kernel, by decide +kernel⟩, ⟨by decide +kernel,
     by decide +kernel⟩, by decide +kernel⟩⟩

theorem witness_pacing_and_protection :
    (∃ (s : State), ∃ (p : Fin 8) (e : Fin 20), (s.engine p.val e.val).pace = .coasting ∧ (s.engine p.val
     e.val).wants = none) ∧
    (∃ (s : State), ∃ (cycle : Nat), s.frozen = false ∧ s.power.stretch = none ∧ (∀ c, s.power.lastSlot = some c → c
     + 77 ≤ cycle) ∧ s.slotUnits.2 ≠ []) ∧
    (∃ (s : State), ∃ (cycle : Nat) (c : _), s.power.lastSlot = some c ∧ cycle < c + 77) ∧
    (∃ (s : State), s.power.stretch.isSome = true) ∧
    (∃ (s : State), ∃ n, s.power.target = some n ∧ s.power.stretch = none) ∧
    (∃ (s : State), ∃ n, s.power.target = some n ∧ ∃ p, s.power.stretch = some p) ∧
    (∃ (s : State), s.power.stretch = none) ∧
    (∃ (s : State), ∃ (p : _) (cycles : Nat), s.power.stretch = some p ∧ 32 ≤ cycles) ∧
    (∃ (s : State), ∃ (p : _) (cycles : Nat), s.power.stretch = some p ∧ cycles < 32) ∧
    (∃ (rail : Supply), rail ≠ .fab) ∧
    (∃ (s : State), ∃ (n : Fin 64), s.power.tripped = false ∧ source 0xC 0 n.val ∉ s.sbx.sensorsOut) ∧
    (∃ (s : State), s.power.tripped = true ∧ s.power.clockStopped = true) ∧
    (∃ (s : State), s.power.tripped = true ∧ s.power.clockStopped = false) :=
  ⟨
    ⟨(ws.modEngine 7 19 (fun e => { e with pace := .coasting })), 7, 19, by decide +kernel⟩,
    ⟨(ws.modEngine 0 0 (fun e => { e with wants := some (.departure, 0) })), 77, rfl, by decide +kernel, (fun c h =>
     by cases h), by decide +kernel⟩,
    ⟨{ ws with power.lastSlot := some 5 }, 81, 5, by decide +kernel⟩,
    ⟨{ ws with power.stretch := some 0 }, by decide +kernel⟩,
    ⟨{ ws with power.target := some 16 }, 16, by decide +kernel⟩,
    ⟨{ ws with power.target := some 16, power.stretch := some 0 }, 16, by decide +kernel, 0, by decide +kernel⟩,
    ⟨ws, by decide +kernel⟩,
    ⟨{ ws with power.stretch := some 0 }, 0, 32, by decide +kernel⟩,
    ⟨{ ws with power.stretch := some 0 }, 0, 31, by decide +kernel⟩,
    ⟨.ctl, by decide +kernel⟩,
    ⟨ws, 63, by decide +kernel⟩,
    ⟨{ ws with power.tripped := true, power.clockStopped := true }, by decide +kernel⟩,
    ⟨{ ws with power.tripped := true }, by decide +kernel⟩⟩

theorem witness_control_loop_ticks :
    (∃ (s : State), (s.start.phase = .off ∨ s.start.phase = .held)) ∧
    (∃ (s : State), s.start.phase = .rom ∧ 2 ≤ s.book.fwState ∧ s.power.pendingSet = []) ∧
    (∃ (s : State), s.start.phase = .rom ∧ 2 ≤ s.book.fwState ∧ ∃ r, s.power.pendingSet = [r]) ∧
    (∃ (s : State), s.start.phase = .rom ∧ 2 ≤ s.book.fwState) ∧
    (∃ (s : State), s.power.fallback = false ∧ 3 ≤ s.power.overrunRow) ∧
    (∃ (s : State), s.power.overrunRow < 3) ∧
    (∃ (s : State), s.power.fallback = true ∧ s.power.trial = true) :=
  ⟨
    ⟨State.reset, by decide +kernel⟩,
    ⟨ws, by decide +kernel⟩,
    ⟨{ ws with power.pendingSet := [rq .pcie 0x0300 []] }, by decide +kernel, by decide +kernel, (rq .pcie 0x0300
     []), by decide +kernel⟩,
    ⟨ws, by decide +kernel⟩,
    ⟨{ ws with power.overrunRow := 3 }, by decide +kernel⟩,
    ⟨{ ws with power.overrunRow := 2 }, by decide +kernel⟩,
    ⟨{ ws with power.fallback := true, power.trial := true }, by decide +kernel⟩⟩

theorem witness_ceilings_trimming_energy :
    (∃ (s : State), s.start.phase = .rom ∧ 2 ≤ s.book.fwState ∧ s.power.ceilings.length = 6) ∧
    (∃ (s : State), s.start.phase = .rom ∧ (s.power.state = .run ∨ s.power.state = .trimmed) ∧ s.power.ceiling 2 =
     16 ∧ s.refNw < s.power.drawMw * 1000000 ∧ s.atFloor 0 = true ∧
     let n := rungBelow s.cap.profile
     let free := s.serving.filter (fun p => ¬ s.isGranted p)
     n ≠ 0 ∧ s.cap.profile - n ≤ free.length) ∧
    (∃ (s : State), s.start.phase = .rom ∧ (s.power.state = .run ∨ s.power.state = .trimmed) ∧ s.power.ceiling 2 =
     16 ∧ s.refNw < s.power.drawMw * 1000000 ∧ s.atFloor 0 = true ∧
     let n := rungBelow s.cap.profile
     let free := s.serving.filter (fun p => ¬ s.isGranted p)
     (n = 0 ∨ free.length < s.cap.profile - n)) ∧
    (∃ (s : State), ∃ (mj : List Nat), mj.length = 8 ∧ s.power.energy.length = 11) ∧
    (∃ (s : State), ∃ (mj : List Nat), mj.length = 8 ∧ s.power.energy.length = 11 ∧ ∃ (c n : Nat), 0 < n ∧
     s.power.energyId.wf 0 = true ∧ (s.ctx c).state ≠ .free ∧ (s.ctx c).state ≠ .quarantine) ∧
    (∃ (s : State), ∃ (mj : List Nat), mj.length = 8 ∧ s.power.energy.length = 11 ∧ ∃ (p : Fin 8) (c n : Nat), 0 < n
     ∧ s.power.energyId.wf 0 = true ∧ (s.ctx c).state ≠ .free ∧ (s.ctx c).state ≠ .quarantine ∧ ∃ (e : Fin 20),
     (s.engine p.val e.val).lastCtx = some c) :=
  ⟨
    ⟨ws, by decide +kernel⟩,
    ⟨(eightIn 8), by decide +kernel⟩,
    ⟨(eightIn 1), by decide +kernel⟩,
    ⟨ws, (List.replicate 8 1), by decide +kernel⟩,
    ⟨ws, (List.replicate 8 1), by decide +kernel, by decide +kernel, 0, 1, by decide +kernel⟩,
    ⟨(ws.modEngine 7 19 (fun e => { e with lastCtx := some 0 })), (List.replicate 8 1), by decide +kernel,
     by decide +kernel, 7, 0, 1, by decide +kernel, by decide +kernel, by decide +kernel, by decide +kernel, 19,
     by decide +kernel⟩⟩

theorem witness_cartridge_comes_and_goes :
    (∃ (s : State), s.hay.entry = .absent ∧ s.start.phase = .rom) ∧
    (∃ (s : State), s.hay.entry = .absent ∧ s.start.phase ≠ .rom) ∧
    (∃ (s : State), s.hay.entry = .absent ∧ s.cap.published = true ∧ ∃ t, exec .cartridgeInsert s = .next t) ∧
    (∃ (m : CartMeas), cellsOk m.cellsMv = false) ∧
    (∃ (s : State), ∃ (m : CartMeas), cellsOk m.cellsMv = true ∧ s.hay.entry = .pending ∧ s.hay.phase = .checking ∧
     10 ≤ s.hay.goodSamples ∧ s.start.phase = .rom ∧ badCart m = true) ∧
    (∃ (s : State), ∃ (m : CartMeas), cellsOk m.cellsMv = true ∧ s.hay.entry = .pending ∧ s.hay.phase = .checking ∧
     10 ≤ s.hay.goodSamples ∧ s.start.phase = .rom ∧ badCart m = false) ∧
    (∃ (s : State), ∃ (milliC : Int), s.hay.entry ≠ .absent ∧ s.start.phase ≠ .off ∧ (milliC < -40000 ∨ 150000 <
     milliC) ∧ 1 ≤ s.hay.badSamples) ∧
    (∃ (s : State), ∃ (milliC : Int), s.hay.entry ≠ .absent ∧ s.start.phase ≠ .off ∧ (milliC < -40000 ∨ 150000 <
     milliC) ∧ s.hay.badSamples = 0) ∧
    (∃ (s : State), ∃ (milliC : Int), s.hay.entry ≠ .absent ∧ s.start.phase ≠ .off ∧ -40000 ≤ milliC ∧ milliC ≤
     150000 ∧ s.hay.phase = .checking) ∧
    (∃ (s : State), ∃ (milliC : Int), s.hay.entry ≠ .absent ∧ s.start.phase ≠ .off ∧ -40000 ≤ milliC ∧ milliC ≤
     150000 ∧ s.hay.phase = .serving) ∧
    (∃ (s : State), ∃ reads, s.hay.entry ≠ .absent ∧ s.start.phase ≠ .off ∧ cartRecord reads = none) ∧
    (∃ (s : State), ∃ reads, s.hay.entry ≠ .absent ∧ s.start.phase ≠ .off ∧ ∃ x id, cartRecord reads = some x ∧
     s.hay.cartId = some id ∧ cartIdOf x = id) ∧
    (∃ (s : State), ∃ reads, s.hay.entry ≠ .absent ∧ s.start.phase ≠ .off ∧ ∃ x id, cartRecord reads = some x ∧
     s.hay.cartId = some id ∧ cartIdOf x ≠ id) ∧
    (∃ (s : State), s.hayIn = true) ∧
    (∃ (s : State), s.hayIn = true ∧ ∃ (k : HwTrip), k ≠ .hot) :=
  ⟨
    ⟨ws, by decide +kernel⟩,
    ⟨{ State.reset with hay.entry := .absent }, by decide +kernel⟩,
    ⟨{ ws with cap.published := true }, by decide +kernel, by decide +kernel, _, rfl⟩,
    ⟨{ cartA with cellsMv := [] }, by decide +kernel⟩,
    ⟨{ ws with hay := { Hay.reset with entry := .pending, phase := .checking, goodSamples := 10 } },
     { cartA with cellsMv := List.replicate 14 2000 }, by decide +kernel⟩,
    ⟨{ ws with hay := { Hay.reset with entry := .pending, phase := .checking, goodSamples := 10 } }, cartA,
     by decide +kernel⟩,
    ⟨{ ws with hay := { Hay.reset with entry := .pending, badSamples := 1 } }, 150001, by decide +kernel⟩,
    ⟨{ ws with hay := { Hay.reset with entry := .pending } }, (-40001), by decide +kernel⟩,
    ⟨{ ws with hay := { Hay.reset with entry := .pending, phase := .checking } }, 150000, by decide +kernel⟩,
    ⟨{ ws with hay := { Hay.reset with entry := .inService, phase := .serving } }, (-40000), by decide +kernel⟩,
    ⟨{ ws with hay := { Hay.reset with entry := .inService, phase := .serving } }, [], by decide +kernel⟩,
    ⟨{ ws with hay := { Hay.reset with entry := .pending, cartId := some 1 } }, [recordA], by decide +kernel,
     by decide +kernel, recordA, 1, by decide +kernel⟩,
    ⟨{ ws with hay := { Hay.reset with entry := .fenced, cartId := some 2 } }, [[], recordA], by decide +kernel,
     by decide +kernel, recordA, 2, by decide +kernel⟩,
    ⟨{ ws with hay := { Hay.reset with entry := .inService, phase := .serving } }, by decide +kernel⟩,
    ⟨{ ws with hay := { Hay.reset with entry := .inService, phase := .serving } }, by decide +kernel,
     .converterFault, by decide +kernel⟩⟩

theorem witness_estimator_counts :
    (∃ (m : EstMeas), cellsOk m.cellsMv = false) ∧
    (∃ (s : State), s.hayIn = true ∧ ∃ (m : EstMeas), cellsOk m.cellsMv = true ∧ 0 < m.dtUs ∧
     let ua := m.code.toInt * 20
     2000 < lowCell m.cellsMv ∧ highCell m.cellsMv < 3850 ∧ ua.natAbs < 150000000 ∧ (2200 < lowCell m.cellsMv ∨ 0 ≤
     ua ∨ s.hay.stopLow = true)) ∧
    (∃ (s : State), s.hayIn = true ∧ ∃ (m : EstMeas), cellsOk m.cellsMv = true ∧ 0 < m.dtUs ∧
     let ua := m.code.toInt * 20
     2000 < lowCell m.cellsMv ∧ highCell m.cellsMv < 3850 ∧ ua.natAbs < 150000000 ∧ lowCell m.cellsMv ≤ 2200 ∧ ua <
     0 ∧ s.hay.stopLow = false ∧ s.hay.run = none) ∧
    (∃ (s : State), s.hayIn = true ∧ ∃ (m : EstMeas), cellsOk m.cellsMv = true ∧ 0 < m.dtUs ∧
     let ua := m.code.toInt * 20
     (lowCell m.cellsMv ≤ 2000 ∨ 3850 ≤ highCell m.cellsMv ∨ 150000000 ≤ ua.natAbs)) ∧
    (∃ (s : State), s.hayIn = true ∧ s.hay.fullUs < 30000000) ∧
    (∃ (s : State), s.hayIn = true ∧ 30000000 ≤ s.hay.fullUs) ∧
    (∃ (s : State), s.hayIn = true ∧ ∃ w, s.hay.walk = some w) ∧
    (∃ (s : State), s.hayIn = true ∧ s.mayRecord) ∧
    (∃ (s : State), ∃ r, s.hay.run = some r ∧ 60000000 < r.pauseUs) ∧
    (∃ (s : State), ∃ r, s.hay.run = some r ∧ r.pauseUs ≤ 60000000) ∧
    (∃ (s : State), ∃ w, s.hay.walk = some w ∧ w.running = true ∧ 2 ≤ s.book.fwState ∧ (∀ ch, ((s.chan
     ch).queue.filter (fun q => q.event)).length < 1024)) :=
  ⟨
    ⟨{ dtUs := 1, code := 0, cellsMv := [], readBacks := written }, by decide +kernel⟩,
    ⟨{ ws with hay := { Hay.reset with entry := .inService, phase := .serving } }, by decide +kernel,
     { dtUs := 1000, code := (-50), cellsMv := List.replicate 14 2201, readBacks := written }, by decide +kernel⟩,
    ⟨{ ws with hay := { Hay.reset with entry := .inService, phase := .serving } }, by decide +kernel,
     { dtUs := 1000, code := (-50), cellsMv := List.replicate 14 2200, readBacks := written }, by decide +kernel⟩,
    ⟨{ ws with hay := { Hay.reset with entry := .inService, phase := .serving } }, by decide +kernel,
     { dtUs := 1000, code := 0, cellsMv := List.replicate 14 3850, readBacks := written }, by decide +kernel⟩,
    ⟨{ ws with hay := { Hay.reset with entry := .inService, phase := .serving } }, by decide +kernel⟩,
    ⟨{ ws with hay := { Hay.reset with entry := .inService, fullUs := 30000000 } }, by decide +kernel⟩,
    ⟨{ ws with hay := { Hay.reset with entry := .inService, walk := some walkA } }, by decide +kernel, walkA,
     by decide +kernel⟩,
    ⟨{ ws with hay := { Hay.reset with entry := .inService, phase := .serving } }, by decide +kernel,
     ⟨by decide +kernel, room⟩⟩,
    ⟨{ ws with hay := { Hay.reset with run := some { out := 0, pauseUs := 60000001 } } },
     { out := 0, pauseUs := 60000001 }, by decide +kernel⟩,
    ⟨{ ws with hay := { Hay.reset with run := some { out := 0, pauseUs := 60000000 } } },
     { out := 0, pauseUs := 60000000 }, by decide +kernel⟩,
    ⟨{ ws with hay := { Hay.reset with entry := .inService, walk := some { walkA with running := true } } },
     { walkA with running := true }, by decide +kernel, by decide +kernel, by decide +kernel,
     (fun ch => by cases ch <;> decide +kernel)⟩⟩

theorem witness_recorder_and_log_requests :
    (∃ (s : State) (r : Request) (rest : List Request) (ch : Chan), Asked s ch 0x0400 r rest ∧ Shaped r 0 []) ∧
    (∃ (s : State) (r : Request) (rest : List Request) (ch : Chan), Asked s ch 0x0401 r rest ∧ Shaped r 8 [(5, 3)] ∧
     let cursor := r.get 0 4
     s.trg.stopped = false ∧ s.trg.bad = false ∧ r.get 4 1 = 0 ∧ ∃ x, s.trg.bank0.slots[cursor]? = some x) ∧
    (∃ (s : State) (r : Request) (rest : List Request) (ch : Chan), Asked s ch 0x0401 r rest ∧ Shaped r 8 [(5, 3)] ∧
     s.trg.stopped = false ∧ s.trg.bad = true ∧ r.get 4 1 < 2) ∧
    (∃ (s : State) (r : Request) (rest : List Request) (ch : Chan), Asked s ch 0x0402 r rest ∧ Shaped r (16 + r.get
     8 1) [(9, 7)] ∧ r.get 8 1 ≤ 64 ∧ s.power.state ≠ .holdUp ∧ s.trg.bad = false ∧ s.trg.stopped = false ∧
     s.trg.live.notes.length < 256) ∧
    (∃ (s : State) (r : Request) (rest : List Request) (ch : Chan), Asked s ch 0x0500 r rest ∧ Shaped r 4 []) ∧
    (∃ (s : State) (r : Request) (rest : List Request) (ch : Chan), ∃ e, Asked s ch 0x0501 r rest ∧ Shaped r 4 [] ∧
     s.power.state ≠ .holdUp ∧ s.sbx.log.find? (fun x => x.id = r.get 0 4) = some e ∧ e.state = 1) ∧
    (∃ (s : State) (r : Request) (rest : List Request) (ch : Chan), ∃ e, Asked s ch 0x0501 r rest ∧ Shaped r 4 [] ∧
     s.power.state ≠ .holdUp ∧ s.sbx.log.find? (fun x => x.id = r.get 0 4) = some e ∧ e.state ≠ 1) ∧
    (∃ (s : State) (r : Request) (rest : List Request) (ch : Chan), Asked s ch 0x0501 r rest ∧ Shaped r 4 [] ∧
     s.power.state ≠ .holdUp ∧ (∀ x ∈ s.sbx.log, x.id ≠ r.get 0 4)) ∧
    (∃ (s : State) (r : Request) (rest : List Request) (ch : Chan), Asked s ch 0x0503 r rest ∧ Shaped r 8 [(1, 1)] ∧
     let p := r.get 0 1
     let n := r.get 2 2
     let off := r.get 4 4
     p ≤ 7 ∧ 0 < n ∧ n ≤ 472 ∧ off + n ≤ 2 ^ 20) :=
  ⟨
    ⟨(ask ws (rq .pcie 0x0400 [])), (rq .pcie 0x0400 []), [], .pcie, ⟨rfl, rfl, rfl, rfl, by decide +kernel, rfl,
     rfl, rfl⟩, ⟨by decide +kernel, by decide +kernel⟩⟩,
    ⟨(ask ({ ws with trg.bank0.slots := [slotA] }) (rq .pcie 0x0401 (leBytes 4 0 ++ leBytes 1 0 ++ leBytes 3 0))),
     (rq .pcie 0x0401 (leBytes 4 0 ++ leBytes 1 0 ++ leBytes 3 0)), [], .pcie, ⟨rfl, rfl, rfl, rfl,
     by decide +kernel, rfl, rfl, rfl⟩, ⟨by decide +kernel, by decide +kernel⟩, rfl, by decide +kernel,
     by decide +kernel, slotA, by decide +kernel⟩,
    ⟨(ask ({ ws with trg.bad := true }) (rq .pcie 0x0401 (leBytes 4 0 ++ leBytes 1 1 ++ leBytes 3 0))), (rq .pcie
     0x0401 (leBytes 4 0 ++ leBytes 1 1 ++ leBytes 3 0)), [], .pcie, ⟨rfl, rfl, rfl, rfl, by decide +kernel, rfl,
     rfl, rfl⟩, ⟨by decide +kernel, by decide +kernel⟩, by decide +kernel⟩,
    ⟨(ask ws (rq .pcie 0x0402 (leBytes 8 0 ++ leBytes 1 64 ++ leBytes 7 0 ++ leBytes 64 0))), (rq .pcie 0x0402
     (leBytes 8 0 ++ leBytes 1 64 ++ leBytes 7 0 ++ leBytes 64 0)), [], .pcie, ⟨rfl, rfl, rfl, rfl,
     by decide +kernel, rfl, rfl, rfl⟩, ⟨by decide +kernel, by decide +kernel⟩, by decide +kernel⟩,
    ⟨(ask ws (rq .pcie 0x0500 (leBytes 4 0))), (rq .pcie 0x0500 (leBytes 4 0)), [], .pcie, ⟨rfl, rfl, rfl, rfl,
     by decide +kernel, rfl, rfl, rfl⟩, ⟨by decide +kernel, by decide +kernel⟩⟩,
    ⟨(ask ({ ws with sbx.log := [{ eventA with state := 1 }] }) (rq .pcie 0x0501 (leBytes 4 1))), (rq .pcie 0x0501
     (leBytes 4 1)), [], .pcie, { eventA with state := 1 }, ⟨rfl, rfl, rfl, rfl, by decide +kernel, rfl, rfl, rfl⟩,
     ⟨by decide +kernel, by decide +kernel⟩, by decide +kernel⟩,
    ⟨(ask ({ ws with sbx.log := [{ eventA with state := 2 }] }) (rq .pcie 0x0501 (leBytes 4 1))), (rq .pcie 0x0501
     (leBytes 4 1)), [], .pcie, { eventA with state := 2 }, ⟨rfl, rfl, rfl, rfl, by decide +kernel, rfl, rfl, rfl⟩,
     ⟨by decide +kernel, by decide +kernel⟩, by decide +kernel⟩,
    ⟨(ask ({ ws with sbx.log := [{ eventA with state := 1 }] }) (rq .pcie 0x0501 (leBytes 4 2))), (rq .pcie 0x0501
     (leBytes 4 2)), [], .pcie, ⟨rfl, rfl, rfl, rfl, by decide +kernel, rfl, rfl, rfl⟩, ⟨by decide +kernel,
     by decide +kernel⟩, by decide +kernel⟩,
    ⟨(ask ws (rq .pcie 0x0503 (leBytes 1 7 ++ leBytes 1 0 ++ leBytes 2 472 ++ leBytes 4 (2 ^ 20 - 472)))), (rq .pcie
     0x0503 (leBytes 1 7 ++ leBytes 1 0 ++ leBytes 2 472 ++ leBytes 4 (2 ^ 20 - 472))), [], .pcie, ⟨rfl, rfl, rfl,
     rfl, by decide +kernel, rfl, rfl, rfl⟩, ⟨by decide +kernel, by decide +kernel⟩, by decide +kernel⟩⟩

theorem witness_recorder_writes :
    (∃ (s : State), s.start.control = true ∧ s.power.state ≠ .holdUp ∧ s.trg.stopped = false ∧ s.trg.bad = false) ∧
    (∃ (s : State), s.start.control = true ∧ s.power.state ≠ .holdUp ∧ s.trg.stopped = false ∧ s.trg.bad = false ∧
     s.start.phase = .rom ∧ 2 ≤ s.book.fwState ∧
     let watts : Int := ((s.power.meanInput / 1000 : Nat) : Int)
     s.trg.live.slots.length < 4096 ∧ watts ≤ 0x7FFFFFFF ∧ (∀ x ∈ s.trg.live.slots, ¬ (x.code = 0x8004 ∧ x.source =
     0))) ∧
    (∃ (s : State), s.start.control = true ∧ s.power.state ≠ .holdUp ∧ s.trg.stopped = false ∧ s.trg.bad = false ∧
     s.start.phase = .rom ∧ 2 ≤ s.book.fwState) ∧
    (∃ (s : State), s.start.control = true ∧ s.power.state ≠ .holdUp ∧ s.trg.stopped = false ∧ s.trg.bad = false ∧
     s.start.phase = .rom ∧ 2 ≤ s.book.fwState ∧
     let key := 0x9001 * 2 ^ 16
     let n := s.power.overruns.toNat - Table.get 0 s.trg.lastCounters key
     0 < n ∧ n ≤ 0x7FFFFFFF ∧ Table.wf 0 s.trg.lastCounters = true ∧ s.trg.live.slots.length < 4096 ∧ (∀ x ∈
     s.trg.live.slots, ¬ (x.code = 0x9001 ∧ x.source = 0))) ∧
    (∃ (s : State), s.start.control = true ∧ s.power.state ≠ .holdUp ∧ s.trg.stopped = false) ∧
    (∃ (s : State), s.start.control = true ∧ s.power.state ≠ .holdUp ∧ s.trg.stopped = false ∧ s.trg.bad = true) :=
  ⟨
    ⟨ws, by decide +kernel⟩,
    ⟨ws, by decide +kernel⟩,
    ⟨ws, by decide +kernel⟩,
    ⟨{ ws with power.overruns := 1 }, by decide +kernel⟩,
    ⟨ws, by decide +kernel, by decide +kernel, rfl⟩,
    ⟨{ ws with trg.bad := true }, by decide +kernel⟩⟩

theorem witness_security_queries :
    (∃ (s : State) (r : Request) (rest : List Request) (ch : Chan), Asked s ch 0x0600 r rest ∧ Shaped r 0 []) ∧
    (∃ (s : State) (r : Request) (rest : List Request) (ch : Chan), Asked s ch 0x0601 r rest ∧ Shaped r 4 [(1, 3)] ∧
     r.get 0 1 ≤ 15) ∧
    (∃ (s : State) (r : Request) (rest : List Request) (ch : Chan), Asked s ch 0x0602 r rest ∧ Shaped r 36 [] ∧
     s.power.state ≠ .holdUp ∧ s.fuses.life ≠ .blank ∧ s.fuses.life ≠ .destroyed ∧
     let mask := r.get 32 4
     field mask 30 16 = 0 ∧ ∃ (key : KeyPair), bit mask 31 = false ∧ s.sec.attestRam = some key ∧ 0 <
     s.sec.attestBudget ∧ s.sec.attestNext < 2 ^ 20) ∧
    (∃ (s : State) (r : Request) (rest : List Request) (ch : Chan), Asked s ch 0x0602 r rest ∧ Shaped r 36 [] ∧
     s.power.state ≠ .holdUp ∧ s.fuses.life ≠ .blank ∧ s.fuses.life ≠ .destroyed ∧
     let mask := r.get 32 4
     field mask 30 16 = 0 ∧ ∃ (key : KeyPair), bit mask 31 = false ∧ s.sec.attestRam = some key ∧ 0 <
     s.sec.attestBudget ∧ s.sec.attestNext < 2 ^ 20 ∧ s.sec.attestNext = s.sec.attestTop) ∧
    (∃ (s : State) (r : Request) (rest : List Request) (ch : Chan), Asked s ch 0x0602 r rest ∧ Shaped r 36 [] ∧
     s.power.state ≠ .holdUp ∧ s.fuses.life ≠ .blank ∧ s.fuses.life ≠ .destroyed ∧
     let mask := r.get 32 4
     field mask 30 16 = 0 ∧ ∃ (key : KeyPair), bit mask 31 = true ∧ s.sec.identityRam = some key ∧ s.sec.idSealed =
     false ∧ 0 < s.sec.identityBudget ∧ s.sec.identityNext < 2 ^ 20) ∧
    (∃ (s : State) (r : Request) (rest : List Request) (ch : Chan), Asked s ch 0x0602 r rest ∧ Shaped r 36 [] ∧
     s.power.state ≠ .holdUp ∧ s.fuses.life ≠ .blank ∧ s.fuses.life ≠ .destroyed ∧
     let mask := r.get 32 4
     field mask 30 16 = 0 ∧ bit mask 31 = true ∧ s.sec.idSealed = true) ∧
    (∃ (s : State) (r : Request) (rest : List Request) (ch : Chan), Asked s ch 0x0602 r rest ∧ Shaped r 36 [] ∧
     s.power.state ≠ .holdUp ∧ s.fuses.life ≠ .blank ∧ s.fuses.life ≠ .destroyed ∧
     let mask := r.get 32 4
     field mask 30 16 = 0 ∧ (bit mask 31 = false ∧ s.sec.attestBudget = 0 ∧ s.sec.attestNext < 2 ^ 20 ∨ bit mask 31
     = true ∧ s.sec.idSealed = false ∧ s.sec.identityBudget = 0 ∧ s.sec.identityNext < 2 ^ 20)) ∧
    (∃ (s : State) (r : Request) (rest : List Request) (ch : Chan), ∃ (key : List Byte), Asked s ch 0x0603 r rest ∧
     Shaped r 4 [(1, 3)] ∧ key.length = 68 ∧ ∃ pair, pair.publicKey = key ∧ r.get 0 1 = 0 ∧ s.sec.identityRam = some
     pair) ∧
    (∃ (s : State) (r : Request) (rest : List Request) (ch : Chan), ∃ (key : List Byte), Asked s ch 0x0603 r rest ∧
     Shaped r 4 [(1, 3)] ∧ key.length = 68 ∧ ∃ pair, pair.publicKey = key ∧ r.get 0 1 = 1 ∧ s.sec.attestRam = some
     pair) ∧
    (∃ (s : State) (r : Request) (rest : List Request) (ch : Chan), ∃ (key : List Byte), Asked s ch 0x0603 r rest ∧
     Shaped r 4 [(1, 3)] ∧ key.length = 68 ∧ r.get 0 1 = 2 ∧ s.ownerKey = some key) ∧
    (∃ (s : State) (r : Request) (rest : List Request) (ch : Chan), ∃ (key : List Byte), Asked s ch 0x0603 r rest ∧
     Shaped r 4 [(1, 3)] ∧ key.length = 68 ∧ r.get 0 1 = 3 ∧ imgSigner (norRead s.sec.nor 0 128) = key) ∧
    (∃ (s : State) (r : Request) (rest : List Request) (ch : Chan), Asked s ch 0x0701 r rest ∧ Shaped r 0 []) :=
  ⟨
    ⟨(ask ws (rq .pcie 0x0600 [])), (rq .pcie 0x0600 []), [], .pcie, ⟨rfl, rfl, rfl, rfl, by decide +kernel, rfl,
     rfl, rfl⟩, ⟨by decide +kernel, by decide +kernel⟩⟩,
    ⟨(ask ws (rq .pcie 0x0601 (leBytes 1 15 ++ leBytes 3 0))), (rq .pcie 0x0601 (leBytes 1 15 ++ leBytes 3 0)), [],
     .pcie, ⟨rfl, rfl, rfl, rfl, by decide +kernel, rfl, rfl, rfl⟩, ⟨by decide +kernel, by decide +kernel⟩,
     by decide +kernel⟩,
    ⟨(ask ({ keyedA with sec.attestNext := 2 ^ 20 - 1 }) (rq .pcie 0x0602 (leBytes 32 0 ++ leBytes 4 0xFFFF))), (rq
     .pcie 0x0602 (leBytes 32 0 ++ leBytes 4 0xFFFF)), [], .pcie, ⟨rfl, rfl, rfl, rfl, by decide +kernel, rfl, rfl,
     rfl⟩, ⟨by decide +kernel, by decide +kernel⟩, by decide +kernel, by decide +kernel, by decide +kernel,
     by decide +kernel, pairA, by decide +kernel⟩,
    ⟨(ask keyedA (rq .pcie 0x0602 (leBytes 32 0 ++ leBytes 4 0xFFFF))), (rq .pcie 0x0602 (leBytes 32 0 ++ leBytes 4
     0xFFFF)), [], .pcie, ⟨rfl, rfl, rfl, rfl, by decide +kernel, rfl, rfl, rfl⟩, ⟨by decide +kernel,
     by decide +kernel⟩, by decide +kernel, by decide +kernel, by decide +kernel, by decide +kernel, pairA,
     by decide +kernel⟩,
    ⟨(ask keyedA (rq .pcie 0x0602 (leBytes 32 0 ++ leBytes 4 (2 ^ 31)))), (rq .pcie 0x0602 (leBytes 32 0 ++ leBytes
     4 (2 ^ 31))), [], .pcie, ⟨rfl, rfl, rfl, rfl, by decide +kernel, rfl, rfl, rfl⟩, ⟨by decide +kernel,
     by decide +kernel⟩, by decide +kernel, by decide +kernel, by decide +kernel, by decide +kernel, pairA,
     by decide +kernel⟩,
    ⟨(ask ({ ws with fuses.lifecycle := 1, sec.idSealed := true }) (rq .pcie 0x0602 (leBytes 32 0 ++ leBytes 4 (2 ^
     31)))), (rq .pcie 0x0602 (leBytes 32 0 ++ leBytes 4 (2 ^ 31))), [], .pcie, ⟨rfl, rfl, rfl, rfl,
     by decide +kernel, rfl, rfl, rfl⟩, ⟨by decide +kernel, by decide +kernel⟩, by decide +kernel⟩,
    ⟨(ask ({ ws with fuses.lifecycle := 1, sec.attestBudget := 0 }) (rq .pcie 0x0602 (leBytes 32 0 ++ leBytes 4
     0))), (rq .pcie 0x0602 (leBytes 32 0 ++ leBytes 4 0)), [], .pcie, ⟨rfl, rfl, rfl, rfl, by decide +kernel, rfl,
     rfl, rfl⟩, ⟨by decide +kernel, by decide +kernel⟩, by decide +kernel⟩,
    ⟨(ask ({ ws with sec.identityRam := some pairA }) (rq .pcie 0x0603 (leBytes 1 0 ++ leBytes 3 0))), (rq .pcie
     0x0603 (leBytes 1 0 ++ leBytes 3 0)), [], .pcie, pairA.publicKey, ⟨rfl, rfl, rfl, rfl, by decide +kernel, rfl,
     rfl, rfl⟩, ⟨by decide +kernel, by decide +kernel⟩, public_length _, pairA, rfl, by decide +kernel, rfl⟩,
    ⟨(ask ({ ws with sec.attestRam := some pairA }) (rq .pcie 0x0603 (leBytes 1 1 ++ leBytes 3 0))), (rq .pcie
     0x0603 (leBytes 1 1 ++ leBytes 3 0)), [], .pcie, pairA.publicKey, ⟨rfl, rfl, rfl, rfl, by decide +kernel, rfl,
     rfl, rfl⟩, ⟨by decide +kernel, by decide +kernel⟩, public_length _, pairA, rfl, by decide +kernel, rfl⟩,
    ⟨(ask (ownedBy ownerA) (rq .pcie 0x0603 (leBytes 1 2 ++ leBytes 3 0))), (rq .pcie 0x0603 (leBytes 1 2 ++ leBytes
     3 0)), [], .pcie, ownerA, ⟨rfl, rfl, rfl, rfl, by decide +kernel, rfl, rfl, rfl⟩, ⟨by decide +kernel,
     by decide +kernel⟩, by decide +kernel, by decide +kernel, owned ownerA⟩,
    ⟨(ask ws (rq .pcie 0x0603 (leBytes 1 3 ++ leBytes 3 0))), (rq .pcie 0x0603 (leBytes 1 3 ++ leBytes 3 0)), [],
     .pcie, (List.replicate 68 0xFF), ⟨rfl, rfl, rfl, rfl, by decide +kernel, rfl, rfl, rfl⟩, ⟨by decide +kernel,
     by decide +kernel⟩, by decide +kernel⟩,
    ⟨(ask ws (rq .pcie 0x0701 [])), (rq .pcie 0x0701 []), [], .pcie, ⟨rfl, rfl, rfl, rfl, by decide +kernel, rfl,
     rfl, rfl⟩, ⟨by decide +kernel, by decide +kernel⟩⟩⟩

theorem witness_signed_requests :
    (∃ (s : State) (r : Request) (rest : List Request) (ch : Chan), s.power.state ≠ .holdUp ∧ Signed s ch 0x0604 r
     rest 1 ∧ ShapedBody r 72 [(68, 4)] ∧ s.fuses.life = .blank ∧ s.fuses.ownerHash = 0) ∧
    (∃ (s : State) (r : Request) (rest : List Request) (ch : Chan), s.power.state ≠ .holdUp ∧ Signed s ch 0x0604 r
     rest 1 ∧ ShapedBody r 72 [(68, 4)] ∧ s.fuses.life = .blank ∧ s.fuses.ownerHash = 0 ∧ ∃ how, how ≠
     ProvisionEnd.whole) ∧
    (∃ (s : State) (r : Request) (rest : List Request) (ch : Chan), s.power.state ≠ .holdUp ∧ Signed s ch 0x0605 r
     rest 0 ∧ ShapedBody r 4 [(1, 3)] ∧ s.fuses.life = .provisioned ∧ r.get 0 1 = 2) ∧
    (∃ (s : State) (r : Request) (rest : List Request) (ch : Chan), s.power.state ≠ .holdUp ∧ Signed s ch 0x0605 r
     rest 0 ∧ ShapedBody r 4 [(1, 3)] ∧ (s.fuses.life = .provisioned ∨ s.fuses.life = .fielded) ∧ r.get 0 1 = 3 ∧
     s.allQuiet = true ∧ s.fuses.ownerDestroyed = false) ∧
    (∃ (s : State) (r : Request) (rest : List Request) (ch : Chan), s.power.state ≠ .holdUp ∧ Signed s ch 0x0605 r
     rest 0 ∧ ShapedBody r 4 [(1, 3)] ∧ s.fuses.life = .fielded ∧ r.get 0 1 = 2) ∧
    (∃ (s : State) (r : Request) (rest : List Request) (ch : Chan), s.power.state ≠ .holdUp ∧ Signed s ch 0x0606 r
     rest 0 ∧ ShapedBody r 0 [] ∧ s.fuses.life = .owned) ∧
    (∃ (s : State) (r : Request) (rest : List Request) (ch : Chan), s.power.state ≠ .holdUp ∧ ∃ k level, Signed s ch
     0x0700 r rest k ∧ ShapedBody r 4 [(1, 3)] ∧ s.unlockKey r = some k ∧ r.get 0 1 = level ∧ (level = 1 ∨ level =
     2) ∧ s.sec.level < level ∧ (¬ (level = 2 ∧ s.fuses.life = .fielded))) ∧
    (∃ (s : State) (r : Request) (rest : List Request) (ch : Chan), s.power.state ≠ .holdUp ∧ ∃ k level, Signed s ch
     0x0700 r rest k ∧ ShapedBody r 4 [(1, 3)] ∧ s.unlockKey r = some k ∧ r.get 0 1 = level ∧ (level = 1 ∨ level =
     2) ∧ s.sec.level < level ∧ level = 2 ∧ s.fuses.life = .fielded) ∧
    (∃ (s : State) (r : Request) (rest : List Request) (ch : Chan), s.power.state ≠ .holdUp ∧ Signed s ch 0x0403 r
     rest (if s.fuses.life = .destroyed then 1 else 0) ∧ ShapedBody r 4 [(1, 3)] ∧ s.fuses.life ≠ .blank ∧ r.get 0 1
     = 0 ∧ s.trg.stopped = false ∧ s.trg.bad = false) ∧
    (∃ (s : State) (r : Request) (rest : List Request) (ch : Chan), s.power.state ≠ .holdUp ∧ s.fuses.life =
     .provisioned ∧ s.sec.level < 2 ∧ s.power.state ≠ .standby ∧ Signed s ch 0x0710 r rest 0 ∧ ShapedBody r 8 [(6,
     2)] ∧
     let n := r.get 0 1
     n ≤ 19 ∧ r.get 1 1 ≤ 3 ∧ 0 < r.get 2 2 ∧ 0 < r.get 4 2 ∧ (s.port n).unit = .inService ∧ (s.port n).state = .up) ∧
    (∃ (s : State) (r : Request) (rest : List Request) (ch : Chan), s.power.state ≠ .holdUp ∧ s.fuses.life =
     .provisioned ∧ s.sec.level < 2 ∧ s.power.state ≠ .standby ∧ Signed s ch 0x0711 r rest 0 ∧ ShapedBody r 8 [(5,
     3)] ∧ srcValid (BitVec.ofNat 32 (r.get 0 4)) = true ∧ r.get 4 1 ≤ 1 ∧ s.unitAt (BitVec.ofNat 32 (r.get 0 4)) ≠
     .absent) ∧
    (∃ (s : State) (r : Request) (rest : List Request) (ch : Chan), s.power.state ≠ .holdUp ∧ s.sec.level = 2 ∧
     s.power.state ≠ .standby ∧ Asked s ch 0x0710 r rest ∧ Shaped r 8 [(6, 2)] ∧
     let n := r.get 0 1
     n ≤ 19 ∧ r.get 1 1 ≤ 3 ∧ 0 < r.get 2 2 ∧ 0 < r.get 4 2 ∧ (s.port n).unit ≠ .fenced ∧ (s.port n).unit ≠ .absent
     ∧ (s.port n).state = .up) ∧
    (∃ (s : State) (r : Request) (rest : List Request) (ch : Chan), s.power.state ≠ .holdUp ∧ s.sec.level = 2 ∧
     s.power.state ≠ .standby ∧ Asked s ch 0x0711 r rest ∧ Shaped r 8 [(5, 3)] ∧ srcValid (BitVec.ofNat 32 (r.get 0
     4)) = true ∧ r.get 4 1 ≤ 1 ∧ s.unitAt (BitVec.ofNat 32 (r.get 0 4)) ≠ .absent) ∧
    (∃ (s : State) (r : Request) (rest : List Request) (ch : Chan), s.power.state ≠ .holdUp ∧ s.sec.level = 2 ∧
     s.power.state ≠ .standby ∧ Asked s ch 0x0711 r rest ∧ Shaped r 8 [(5, 3)] ∧ srcValid (BitVec.ofNat 32 (r.get 0
     4)) = true ∧ r.get 4 1 ≤ 1 ∧ s.unitAt (BitVec.ofNat 32 (r.get 0 4)) = .absent) :=
  ⟨
    ⟨(askS ws (rqs 0x0604 (leBytes 72 0) 1)), (rqs 0x0604 (leBytes 72 0) 1), [], .pcie, by decide +kernel, ⟨rfl,
     rfl, rfl, rfl, by decide +kernel, rfl, rfl, rfl, by decide +kernel, by decide +kernel, by decide +kernel, ⟨_,
     List.mem_cons_self, rfl, by decide +kernel, by decide +kernel⟩⟩, ⟨by decide +kernel, by decide +kernel⟩,
     by decide +kernel⟩,
    ⟨(askS ws (rqs 0x0604 (leBytes 72 0) 1)), (rqs 0x0604 (leBytes 72 0) 1), [], .pcie, by decide +kernel, ⟨rfl,
     rfl, rfl, rfl, by decide +kernel, rfl, rfl, rfl, by decide +kernel, by decide +kernel, by decide +kernel, ⟨_,
     List.mem_cons_self, rfl, by decide +kernel, by decide +kernel⟩⟩, ⟨by decide +kernel, by decide +kernel⟩,
     by decide +kernel, by decide +kernel, .beforeHash, by decide +kernel⟩,
    ⟨(askS ({ ws with fuses.lifecycle := 1 }) (rqs 0x0605 (leBytes 1 2 ++ leBytes 3 0) 0)), (rqs 0x0605 (leBytes 1 2
     ++ leBytes 3 0) 0), [], .pcie, by decide +kernel, ⟨rfl, rfl, rfl, rfl, by decide +kernel, rfl, rfl, rfl,
     by decide +kernel, by decide +kernel, by decide +kernel, ⟨_, List.mem_cons_self, rfl, by decide +kernel,
     by decide +kernel⟩⟩, ⟨by decide +kernel, by decide +kernel⟩, by decide +kernel⟩,
    ⟨(askS ({ ws with fuses.lifecycle := 3, ctxs := [] }) (rqs 0x0605 (leBytes 1 3 ++ leBytes 3 0) 0)), (rqs 0x0605
     (leBytes 1 3 ++ leBytes 3 0) 0), [], .pcie, by decide +kernel, ⟨rfl, rfl, rfl, rfl, by decide +kernel, rfl,
     rfl, rfl, by decide +kernel, by decide +kernel, by decide +kernel, ⟨_, List.mem_cons_self, rfl,
     by decide +kernel, by decide +kernel⟩⟩, ⟨by decide +kernel, by decide +kernel⟩, by decide +kernel⟩,
    ⟨(askS ({ ws with fuses.lifecycle := 3 }) (rqs 0x0605 (leBytes 1 2 ++ leBytes 3 0) 0)), (rqs 0x0605 (leBytes 1 2
     ++ leBytes 3 0) 0), [], .pcie, by decide +kernel, ⟨rfl, rfl, rfl, rfl, by decide +kernel, rfl, rfl, rfl,
     by decide +kernel, by decide +kernel, by decide +kernel, ⟨_, List.mem_cons_self, rfl, by decide +kernel,
     by decide +kernel⟩⟩, ⟨by decide +kernel, by decide +kernel⟩, by decide +kernel⟩,
    ⟨(askS ({ ws with fuses.lifecycle := 7 }) (rqs 0x0606 [] 0)), (rqs 0x0606 [] 0), [], .pcie, by decide +kernel,
     ⟨rfl, rfl, rfl, rfl, by decide +kernel, rfl, rfl, rfl, by decide +kernel, by decide +kernel, by decide +kernel,
     ⟨_, List.mem_cons_self, rfl, by decide +kernel, by decide +kernel⟩⟩, ⟨by decide +kernel, by decide +kernel⟩,
     by decide +kernel⟩,
    ⟨(askS ({ ws with fuses.lifecycle := 1 }) (rqs 0x0700 (leBytes 1 2 ++ leBytes 3 0) 0)), (rqs 0x0700 (leBytes 1 2
     ++ leBytes 3 0) 0), [], .pcie, by decide +kernel, 0, 2, ⟨rfl, rfl, rfl, rfl, by decide +kernel, rfl, rfl, rfl,
     by decide +kernel, by decide +kernel, by decide +kernel, ⟨_, List.mem_cons_self, rfl, by decide +kernel,
     by decide +kernel⟩⟩, ⟨by decide +kernel, by decide +kernel⟩, by decide +kernel⟩,
    ⟨(askS ({ ws with fuses.lifecycle := 3 }) (rqs 0x0700 (leBytes 1 2 ++ leBytes 3 0) 0)), (rqs 0x0700 (leBytes 1 2
     ++ leBytes 3 0) 0), [], .pcie, by decide +kernel, 0, 2, ⟨rfl, rfl, rfl, rfl, by decide +kernel, rfl, rfl, rfl,
     by decide +kernel, by decide +kernel, by decide +kernel, ⟨_, List.mem_cons_self, rfl, by decide +kernel,
     by decide +kernel⟩⟩, ⟨by decide +kernel, by decide +kernel⟩, by decide +kernel⟩,
    ⟨(askS ({ ws with fuses.lifecycle := 1 }) (rqs 0x0403 (leBytes 1 0 ++ leBytes 3 0) 0)), (rqs 0x0403 (leBytes 1 0
     ++ leBytes 3 0) 0), [], .pcie, by decide +kernel, ⟨rfl, rfl, rfl, rfl, by decide +kernel, rfl, rfl, rfl,
     by decide +kernel, by decide +kernel, by decide +kernel, ⟨_, List.mem_cons_self, rfl, by decide +kernel,
     by decide +kernel⟩⟩, ⟨by decide +kernel, by decide +kernel⟩, by decide +kernel⟩,
    ⟨(askS ({ ws with fuses.lifecycle := 1 }) (rqs 0x0710 (leBytes 1 0 ++ leBytes 1 3 ++ leBytes 2 1 ++ leBytes 2 1
     ++ leBytes 2 0) 0)), (rqs 0x0710 (leBytes 1 0 ++ leBytes 1 3 ++ leBytes 2 1 ++ leBytes 2 1 ++ leBytes 2 0) 0),
     [], .pcie, by decide +kernel, by decide +kernel, by decide +kernel, by decide +kernel, ⟨rfl, rfl, rfl, rfl,
     by decide +kernel, rfl, rfl, rfl, by decide +kernel, by decide +kernel, by decide +kernel, ⟨_,
     List.mem_cons_self, rfl, by decide +kernel, by decide +kernel⟩⟩, ⟨by decide +kernel, by decide +kernel⟩,
     by decide +kernel⟩,
    ⟨(askS ({ ws with fuses.lifecycle := 1 }) (rqs 0x0711 (leBytes 4 (source 1 0 0).toNat ++ leBytes 1 1 ++ leBytes
     3 0) 0)), (rqs 0x0711 (leBytes 4 (source 1 0 0).toNat ++ leBytes 1 1 ++ leBytes 3 0) 0), [], .pcie,
     by decide +kernel, by decide +kernel, by decide +kernel, by decide +kernel, ⟨rfl, rfl, rfl, rfl,
     by decide +kernel, rfl, rfl, rfl, by decide +kernel, by decide +kernel, by decide +kernel, ⟨_,
     List.mem_cons_self, rfl, by decide +kernel, by decide +kernel⟩⟩, ⟨by decide +kernel, by decide +kernel⟩,
     by decide +kernel⟩,
    ⟨(ask ({ ws with sec.level := 2 }) (rq .pcie 0x0710 (leBytes 1 0 ++ leBytes 1 3 ++ leBytes 2 1 ++ leBytes 2 1 ++
     leBytes 2 0))), (rq .pcie 0x0710 (leBytes 1 0 ++ leBytes 1 3 ++ leBytes 2 1 ++ leBytes 2 1 ++ leBytes 2 0)),
     [], .pcie, by decide +kernel, by decide +kernel, by decide +kernel, ⟨rfl, rfl, rfl, rfl, by decide +kernel,
     rfl, rfl, rfl⟩, ⟨by decide +kernel, by decide +kernel⟩, by decide +kernel⟩,
    ⟨(ask ({ ws with sec.level := 2 }) (rq .pcie 0x0711 (leBytes 4 (source 1 0 0).toNat ++ leBytes 1 1 ++ leBytes 3
     0))), (rq .pcie 0x0711 (leBytes 4 (source 1 0 0).toNat ++ leBytes 1 1 ++ leBytes 3 0)), [], .pcie,
     by decide +kernel, by decide +kernel, by decide +kernel, ⟨rfl, rfl, rfl, rfl, by decide +kernel, rfl, rfl,
     rfl⟩, ⟨by decide +kernel, by decide +kernel⟩, by decide +kernel⟩,
    ⟨(ask (({ ws with sec.level := 2 }).modPort 19 (fun p => { p with unit := .absent })) (rq .pcie 0x0711 (leBytes
     4 (source 5 0 19).toNat ++ leBytes 1 1 ++ leBytes 3 0))), (rq .pcie 0x0711 (leBytes 4 (source 5 0 19).toNat ++
     leBytes 1 1 ++ leBytes 3 0)), [], .pcie, by decide +kernel, by decide +kernel, by decide +kernel, ⟨rfl, rfl,
     rfl, rfl, by decide +kernel, rfl, rfl, rfl⟩, ⟨by decide +kernel, by decide +kernel⟩, by decide +kernel⟩⟩

theorem witness_firmware_updates :
    (∃ (s : State) (r : Request) (rest : List Request) (ch : Chan), s.power.state ≠ .holdUp ∧ s.power.state ≠
     .standby ∧ Asked s ch 0x0800 r rest ∧ Shaped r 8 [(4, 4)] ∧
     let n := r.get 0 4
     s.openUpdate = none ∧ n ≤ 8388608 ∧ n ≤ s.stagingBytes) ∧
    (∃ (s : State) (r : Request) (rest : List Request) (ch : Chan), s.power.state ≠ .holdUp ∧ s.power.state ≠
     .standby ∧ Asked s ch 0x0800 r rest ∧ Shaped r 8 [(4, 4)] ∧
     let n := r.get 0 4
     s.openUpdate = none ∧ n ≤ 8388608 ∧ s.stagingBytes < n) ∧
    (∃ (s : State) (r : Request) (rest : List Request) (ch : Chan), s.power.state ≠ .holdUp ∧ s.power.state ≠
     .standby ∧ ∃ u, s.openUpdate = some u ∧ Asked s ch 0x0801 r rest ∧
     let off := r.get 0 4
     let n := r.payload.length - 8
     9 ≤ r.payload.length ∧ r.payload.length ≤ 480 ∧ firstSet r.payload [(4, 4)] = none ∧ u.committed = false ∧ off
     + n ≤ u.imageBytes ∧ s.yard.bytes.wf = true ∧ s.yard.damaged = []) ∧
    (∃ (s : State) (r : Request) (rest : List Request), s.power.state ≠ .holdUp ∧ s.power.state ≠ .standby ∧ ∃ u,
     s.openUpdate = some u ∧ (s.chan .pcie).received = r :: rest ∧ r.chan = .pcie ∧ r.opcode = 0x0801 ∧
     s.book.fwState = 3 ∧ s.mayStart r = true ∧ r.broken = false ∧ r.auth = false ∧ r.hostbuf = true ∧
     r.payload.length = 16 ∧
     let off := r.get 0 4
     let n := r.get 4 4
     u.committed = false ∧ 0 < n ∧ n ≤ 1048576 ∧ off + n ≤ u.imageBytes ∧ s.hostUp = true) ∧
    (∃ (s : State) (r : Request) (rest : List Request) (ch : Chan), s.power.state ≠ .holdUp ∧ s.power.state ≠
     .standby ∧ ∃ u, s.openUpdate = some u ∧ Asked s ch 0x0802 r rest ∧ Shaped r 0 [] ∧ u.committed = false ∧
     u.imageBytes ≤ u.received) ∧
    (∃ (s : State) (r : Request) (rest : List Request) (ch : Chan), s.power.state ≠ .holdUp ∧ s.power.state ≠
     .standby ∧ ∃ u, s.openUpdate = some u ∧ Asked s ch 0x0803 r rest ∧ Shaped r 0 [] ∧ u.verified = true ∧
     u.committed = false ∧ s.commitRunning = none) ∧
    (∃ (s : State), s.power.state ≠ .holdUp ∧ s.power.state ≠ .standby ∧ ∃ u, s.openUpdate = some u ∧ ∃ q,
     s.commitRunning = some q) ∧
    (∃ (s : State) (r : Request) (rest : List Request) (ch : Chan), s.power.state ≠ .holdUp ∧ s.power.state ≠
     .standby ∧ ∃ u, s.openUpdate = some u ∧ Asked s ch 0x0806 r rest ∧ Shaped r 0 [] ∧ u.committed = true) ∧
    (∃ (s : State) (r : Request) (rest : List Request) (ch : Chan), s.power.state ≠ .holdUp ∧ s.power.state ≠
     .standby ∧ ∃ u, s.openUpdate = some u ∧ Asked s ch 0x0806 r rest ∧ Shaped r 0 [] ∧ u.committed = false) ∧
    (∃ (s : State) (r : Request) (rest : List Request) (ch : Chan), s.power.state ≠ .holdUp ∧ s.power.state ≠
     .standby ∧ ∃ u, Asked s ch 0x0804 r rest ∧ Shaped r 0 [] ∧ s.sec.update = some u ∧ u.writing = false) ∧
    (∃ (s : State) (r : Request) (rest : List Request) (ch : Chan), s.power.state ≠ .holdUp ∧ s.power.state ≠
     .standby ∧ ∃ u, Asked s ch 0x0804 r rest ∧ Shaped r 0 [] ∧ s.sec.update = some u ∧ u.writing = true) ∧
    (∃ (s : State) (r : Request) (rest : List Request) (ch : Chan), s.power.state ≠ .holdUp ∧ s.power.state ≠
     .standby ∧ Asked s ch 0x0805 r rest ∧ Shaped r 0 []) :=
  ⟨
    ⟨(ask ws (rq .pcie 0x0800 (leBytes 4 3145728 ++ leBytes 4 0))), (rq .pcie 0x0800 (leBytes 4 3145728 ++ leBytes 4
     0)), [], .pcie, by decide +kernel, by decide +kernel, ⟨rfl, rfl, rfl, rfl, by decide +kernel, rfl, rfl, rfl⟩,
     ⟨by decide +kernel, by decide +kernel⟩, by decide +kernel⟩,
    ⟨(ask ws (rq .pcie 0x0800 (leBytes 4 3145729 ++ leBytes 4 0))), (rq .pcie 0x0800 (leBytes 4 3145729 ++ leBytes 4
     0)), [], .pcie, by decide +kernel, by decide +kernel, ⟨rfl, rfl, rfl, rfl, by decide +kernel, rfl, rfl, rfl⟩,
     ⟨by decide +kernel, by decide +kernel⟩, by decide +kernel⟩,
    ⟨(ask ({ ws with sec.update := some updateA }) (rq .pcie 0x0801 (leBytes 4 4095 ++ leBytes 4 0 ++ leBytes 1
     1))), (rq .pcie 0x0801 (leBytes 4 4095 ++ leBytes 4 0 ++ leBytes 1 1)), [], .pcie, by decide +kernel,
     by decide +kernel, updateA, by decide +kernel, ⟨rfl, rfl, rfl, rfl, by decide +kernel, rfl, rfl, rfl⟩,
     by decide +kernel, by decide +kernel, by decide +kernel, by decide +kernel, by decide +kernel,
     by decide +kernel, rfl⟩,
    ⟨(ask { ws with sec.update := some updateA }
     { rq .pcie 0x0801 (leBytes 4 0 ++ leBytes 4 4096 ++ leBytes 8 0) with flags := 0x20 }),
     { rq .pcie 0x0801 (leBytes 4 0 ++ leBytes 4 4096 ++ leBytes 8 0) with flags := 0x20 }, [], by decide +kernel,
     by decide +kernel, updateA, by decide +kernel, rfl, by decide +kernel⟩,
    ⟨(ask ({ ws with sec.update := some { updateA with got := [(0, 4096)] } }) (rq .pcie 0x0802 [])), (rq .pcie
     0x0802 []), [], .pcie, by decide +kernel, by decide +kernel, { updateA with got := [(0, 4096)] },
     by decide +kernel, ⟨rfl, rfl, rfl, rfl, by decide +kernel, rfl, rfl, rfl⟩, ⟨by decide +kernel,
     by decide +kernel⟩, by decide +kernel⟩,
    ⟨(ask ({ ws with sec.update := some { updateA with verified := true } }) (rq .pcie 0x0803 [])), (rq .pcie 0x0803
     []), [], .pcie, by decide +kernel, by decide +kernel, { updateA with verified := true }, by decide +kernel,
     ⟨rfl, rfl, rfl, rfl, by decide +kernel, rfl, rfl, rfl⟩, ⟨by decide +kernel, by decide +kernel⟩,
     by decide +kernel⟩,
    ⟨({ ws with sec.update := some { updateA with writing := true } }.modChan .pcie (fun c =>
     { c with running := [rq .pcie 0x0803 []] })), by decide +kernel, by decide +kernel,
     { updateA with writing := true }, by decide +kernel, (rq .pcie 0x0803 []), by decide +kernel⟩,
    ⟨(ask ({ ws with sec.update := some { updateA with verified := true, committed := true } }) (rq .pcie 0x0806
     [])), (rq .pcie 0x0806 []), [], .pcie, by decide +kernel, by decide +kernel,
     { updateA with verified := true, committed := true }, by decide +kernel, ⟨rfl, rfl, rfl, rfl,
     by decide +kernel, rfl, rfl, rfl⟩, ⟨by decide +kernel, by decide +kernel⟩, by decide +kernel⟩,
    ⟨(ask ({ ws with sec.update := some { updateA with verified := true } }) (rq .pcie 0x0806 [])), (rq .pcie 0x0806
     []), [], .pcie, by decide +kernel, by decide +kernel, { updateA with verified := true }, by decide +kernel,
     ⟨rfl, rfl, rfl, rfl, by decide +kernel, rfl, rfl, rfl⟩, ⟨by decide +kernel, by decide +kernel⟩,
     by decide +kernel⟩,
    ⟨(ask ({ ws with sec.update := some updateA }) (rq .pcie 0x0804 [])), (rq .pcie 0x0804 []), [], .pcie,
     by decide +kernel, by decide +kernel, updateA, ⟨rfl, rfl, rfl, rfl, by decide +kernel, rfl, rfl, rfl⟩,
     ⟨by decide +kernel, by decide +kernel⟩, by decide +kernel⟩,
    ⟨(ask ({ ws with sec.update := some { updateA with writing := true } }) (rq .pcie 0x0804 [])), (rq .pcie 0x0804
     []), [], .pcie, by decide +kernel, by decide +kernel, { updateA with writing := true }, ⟨rfl, rfl, rfl, rfl,
     by decide +kernel, rfl, rfl, rfl⟩, ⟨by decide +kernel, by decide +kernel⟩, by decide +kernel⟩,
    ⟨(ask ws (rq .pcie 0x0805 [])), (rq .pcie 0x0805 []), [], .pcie, by decide +kernel, by decide +kernel, ⟨rfl,
     rfl, rfl, rfl, by decide +kernel, rfl, rfl, rfl⟩, ⟨by decide +kernel, by decide +kernel⟩⟩⟩

theorem witness_signal_box_acts :
    (∃ (s : State), s.start.phase = .rom ∧ ∃ (src : W32) (code : Nat), s.srcThere src = true ∧ src ∉ s.sbx.deaf ∧ (∀
     x ∈ s.sbx.reports, x.source ≠ src) ∧ codeReported code = true ∧ s.calm code ∧ codeLevel code = 0 ∧ codeClass
     code ≠ 0 ∧ code ≠ 0x0505) ∧
    (∃ (s : State), s.start.phase = .rom ∧ ∃ (src : W32) (code : Nat), s.srcThere src = true ∧ src ∉ s.sbx.deaf ∧ (∀
     x ∈ s.sbx.reports, x.source ≠ src) ∧ codeReported code = true ∧ s.calm code ∧ codeLevel code = 2 ∧ 1 ≤ srcKind
     src ∧ srcKind src ≤ 3) ∧
    (∃ (s : State), s.start.phase = .rom ∧ ∃ (src : W32) (code : Nat) (ctx : Option (Fin 262144)), s.srcThere src =
     true ∧ src ∉ s.sbx.deaf ∧ (∀ x ∈ s.sbx.reports, x.source ≠ src) ∧ codeReported code = true ∧ s.calm code ∧ ∃ (c
     : Fin 262144), codeLevel code = 1 ∧ ctx = some c ∧ (s.ctx c.val).state = .active) ∧
    (∃ (s : State), s.start.phase = .rom ∧ ∃ (src : W32) (x : Report), s.srcThere src = true ∧ src ∉ s.sbx.deaf ∧
     s.sbx.reports.find? (fun y => y.source = src) = some x ∧ codeLevel x.code = 0 ∧ codeClass x.code ≠ 0 ∧ x.code ≠
     0x0505 ∧ s.calm x.code) ∧
    (∃ (s : State), s.start.phase = .rom ∧ ∃ src, s.srcThere src = true ∧ src ∉ s.sbx.deaf ∧ 1 ≤ srcKind src ∧
     srcKind src ≤ 3 ∧ s.calm 0x0601) ∧
    (∃ (s : State), s.start.phase = .rom) ∧
    (∃ (s : State), s.start.phase = .rom ∧ ∃ (i : Fin 16), (s.core i.val).unit = .inService ∧ s.calm 0x0303) ∧
    (∃ (s : State), s.start.phase = .rom ∧ ∃ (src : W32), s.srcThere src = false) ∧
    (∃ (s : State), s.start.phase = .rom ∧ ∃ src, s.srcThere src = true ∧ s.hasWork src = true ∧ s.windowOff src =
     false ∧ srcKind src ≤ 3 ∧ s.calm (stallCode src) ∧ s.yard.stallSeq.length = 8) ∧
    (∃ (s : State), s.start.phase = .rom ∧ ∃ (x : Recovery), s.sbx.recoveries = [x] ∧ x.level = 2 ∧ srcValid x.scope
     = true ∧ 1 ≤ srcKind x.scope ∧ srcKind x.scope ≤ 3 ∧ (∀ e ∈ s.events, e.cls = 3 → e.state = 2) ∧
     s.sbx.log.length < 1024 ∧ s.doneLately (partScope (srcMid x.scope)) = false) ∧
    (∃ (s : State), s.start.phase = .rom ∧ ∃ (r : Request) (rest : List Request) (ch : Chan), Asked s ch 0x0502 r
     rest ∧ Shaped r 8 [(2, 2)] ∧ s.power.state ≠ .holdUp ∧ ∃ c, r.get 0 1 = 1 ∧ r.get 1 1 = 0 ∧ r.get 4 4 = c ∧ c <
     262144 ∧ ((s.ctx c).state = .active ∨ (s.ctx c).state = .halted)) ∧
    (∃ (s : State), s.start.phase = .rom ∧ ∃ (r : Request) (rest : List Request) (ch : Chan), Asked s ch 0x0502 r
     rest ∧ Shaped r 8 [(2, 2)] ∧ s.power.state ≠ .holdUp ∧ ∃ src, r.get 0 1 = 2 ∧ 1 ≤ r.get 1 1 ∧ r.get 1 1 ≤ 3 ∧
     s.resetTarget (r.get 1 1) (r.get 4 4) = .inr src ∧ s.sbx.recoveries = []) :=
  ⟨
    ⟨ws, by decide +kernel, (source 1 0 0), 0x0201, by decide +kernel, by decide +kernel, by decide +kernel,
     by decide +kernel, ⟨by decide +kernel, by decide +kernel, by decide +kernel⟩, by decide +kernel⟩,
    ⟨ws, by decide +kernel, (source 1 0 0), 0x0301, by decide +kernel, by decide +kernel, by decide +kernel,
     by decide +kernel, ⟨by decide +kernel, by decide +kernel, by decide +kernel⟩, by decide +kernel⟩,
    ⟨ws, by decide +kernel, (source 1 0 0), 0x0203, (some 0), by decide +kernel, by decide +kernel,
     by decide +kernel, by decide +kernel, ⟨by decide +kernel, by decide +kernel, by decide +kernel⟩, 0,
     by decide +kernel⟩,
    ⟨{ ws with sbx.reports := [reportA] }, by decide +kernel, (source 1 0 0), reportA, by decide +kernel,
     by decide +kernel, by decide +kernel, by decide +kernel, by decide +kernel, by decide +kernel,
     ⟨by decide +kernel, by decide +kernel, by decide +kernel⟩⟩,
    ⟨ws, by decide +kernel, (source 3 7 3), by decide +kernel, by decide +kernel, by decide +kernel,
     by decide +kernel, ⟨by decide +kernel, by decide +kernel, by decide +kernel⟩⟩,
    ⟨ws, by decide +kernel⟩,
    ⟨ws, by decide +kernel, 15, by decide +kernel, ⟨by decide +kernel, by decide +kernel, by decide +kernel⟩⟩,
    ⟨ws, by decide +kernel, (source 1 8 0), by decide +kernel⟩,
    ⟨(fly ws (fl (.matrix 0 0) .started 0x10)), by decide +kernel, (source 1 0 0), by decide +kernel,
     by decide +kernel, by decide +kernel, by decide +kernel, ⟨by decide +kernel, by decide +kernel,
     by decide +kernel⟩, by decide +kernel⟩,
    ⟨{ ws with sbx.recoveries := [{ level := 2, scope := (source 1 0 0), events := [], reqs := [], fence := [] }] },
     by decide +kernel, { level := 2, scope := (source 1 0 0), events := [], reqs := [], fence := [] },
     by decide +kernel⟩,
    ⟨(ask ws (rq .pcie 0x0502 (leBytes 1 1 ++ leBytes 1 0 ++ leBytes 2 0 ++ leBytes 4 0))), by decide +kernel, (rq
     .pcie 0x0502 (leBytes 1 1 ++ leBytes 1 0 ++ leBytes 2 0 ++ leBytes 4 0)), [], .pcie, ⟨rfl, rfl, rfl, rfl,
     by decide +kernel, rfl, rfl, rfl⟩, ⟨by decide +kernel, by decide +kernel⟩, by decide +kernel, 0,
     by decide +kernel⟩,
    ⟨(ask ws (rq .pcie 0x0502 (leBytes 1 2 ++ leBytes 1 1 ++ leBytes 2 0 ++ leBytes 4 (source 1 0 0).toNat))),
     by decide +kernel, (rq .pcie 0x0502 (leBytes 1 2 ++ leBytes 1 1 ++ leBytes 2 0 ++ leBytes 4 (source 1 0
     0).toNat)), [], .pcie, ⟨rfl, rfl, rfl, rfl, by decide +kernel, rfl, rfl, rfl⟩, ⟨by decide +kernel,
     by decide +kernel⟩, by decide +kernel, (source 1 0 0), by decide +kernel⟩⟩

theorem witness_resets_complete :
    (∃ (s : State), s.start.phase = .rom ∧ s.sbx.watchdog = true ∧ s.doneLately moduleScope = false) ∧
    (∃ (s : State), s.start.phase = .rom ∧ s.sbx.watchdog = true ∧ s.doneLately moduleScope = true) ∧
    (∃ (s : State), (s.start.phase = .rom ∨ s.start.phase = .resetting) ∧ (∀ r ∈ s.sbx.recoveries, r.level < 6)) ∧
    (∃ (s : State), (s.start.phase = .rom ∨ s.start.phase = .resetting) ∧ (∀ r ∈ s.sbx.recoveries, r.level < 6) ∧
     s.sbx.resetTimer = true) ∧
    (∃ (s : State), ∃ (r : Recovery), s.start.phase = .rom ∧ s.sbx.recoveries = [r] ∧ s.power.state ≠ .holdUp ∧
     r.level = 2 ∧ r.fence = [] ∧ 1 ≤ srcKind r.scope ∧ srcKind r.scope ≤ 3 ∧ s.resetsLately r.scope < 3 ∧
     s.mustLeave r.scope = none) ∧
    (∃ (s : State), ∃ (r : Recovery), s.start.phase = .rom ∧ s.sbx.recoveries = [r] ∧ s.power.state ≠ .holdUp ∧ ∃ (i
     : Fin 16), r.level = 2 ∧ r.scope = source 9 0 i.val ∧ r.fence = [r.scope] ∧ s.cores.length = 16) ∧
    (∃ (s : State), ∃ (r : Recovery), s.start.phase = .rom ∧ s.sbx.recoveries = [r] ∧ s.power.state ≠ .holdUp ∧ ∃ (p
     : Fin 8), r.level = 3 ∧ r.scope = partScope p.val ∧ r.fence = []) ∧
    (∃ (s : State), ∃ (r : Recovery), s.start.phase = .rom ∧ s.sbx.recoveries = [r] ∧ s.power.state ≠ .holdUp ∧
     r.level = 4 ∧ r.fence = [] ∧ s.tokens.wf Token.reset = true) ∧
    (∃ (tests : List SelfTest), tests.length ≠ 8) :=
  ⟨
    ⟨{ ws with sbx.watchdog := true }, by decide +kernel⟩,
    ⟨{ ws with sbx.watchdog := true, mram.history := justReset }, by decide +kernel⟩,
    ⟨{ ws with start.phase := .resetting }, by decide +kernel⟩,
    ⟨{ ws with start.phase := .resetting, sbx.resetTimer := true }, by decide +kernel⟩,
    ⟨{ ws with sbx.recoveries := [{ level := 2, scope := (source 1 0 0), events := [], reqs := [], fence := [] }] },
     { level := 2, scope := (source 1 0 0), events := [], reqs := [], fence := [] }, by decide +kernel⟩,
    ⟨{ ws with sbx.recoveries :=
     [{ level := 2, scope := source 9 0 15, events := [], reqs := [], fence := [source 9 0 15] }] },
     { level := 2, scope := source 9 0 15, events := [], reqs := [], fence := [source 9 0 15] }, by decide +kernel,
     by decide +kernel, by decide +kernel, 15, by decide +kernel⟩,
    ⟨{ ws with sbx.recoveries := [{ level := 3, scope := partScope 7, events := [], reqs := [], fence := [] }] },
     { level := 3, scope := partScope 7, events := [], reqs := [], fence := [] }, by decide +kernel,
     by decide +kernel, by decide +kernel, 7, by decide +kernel⟩,
    ⟨{ ws with sbx.recoveries := [{ level := 4, scope := computeScope, events := [], reqs := [], fence := [] }] },
     { level := 4, scope := computeScope, events := [], reqs := [], fence := [] }, by decide +kernel⟩,
    ⟨(List.replicate 7 cleanTest), by decide +kernel⟩⟩

theorem witness_module_starts :
    (∃ (s : State) (cmd : Instr), ((∃ whole link, cmd = .powerGood whole link ∧ s.start.phase = .off ∧
     s.start.trayReset = true) ∨ (∃ link, cmd = .fullModuleResetRelease link ∧ s.start.phase = .resetting)) ∧
     s.power.state ≠ .holdUp) :=
    ⟨{ ws with start.phase := .resetting }, (.fullModuleResetRelease ⟨4, 3⟩), Or.inr ⟨⟨4, 3⟩, rfl, rfl⟩,
     by decide +kernel⟩

theorem witness_start_up_tests :
    (∃ (s : State), s.starting = true ∧ s.power.state ≠ .holdUp ∧ ∃ (p : Fin 8), s.mayTest p.val = true ∧
     s.cap.published = false ∧ s.parts.length = 8 ∧ (s.part p.val).placed.unit = .held) ∧
    (∃ (s : State), s.starting = true ∧ s.power.state ≠ .holdUp ∧ ∃ (i : Fin 12), (s.device i.val).unit = .pending ∧
     (s.device i.val).trained = false ∧ s.mem.devices.length = 12) ∧
    (∃ (s : State), s.starting = true ∧ s.power.state ≠ .holdUp ∧ ∃ (i : Fin 12), (s.device i.val).unit = .pending ∧
     (s.device i.val).trained = false ∧ s.mem.devices.length = 12 ∧ (s.device i.val).attempts + 1 < s.trainLimit
     i.val) ∧
    (∃ (s : State), s.starting = true ∧ s.power.state ≠ .holdUp ∧ ∃ (i : Fin 12), (s.device i.val).unit = .pending ∧
     (s.device i.val).trained = false ∧ s.mem.devices.length = 12 ∧ s.trainLimit i.val ≤ (s.device i.val).attempts +
     1) ∧
    (∃ (s : State), s.starting = true ∧ s.power.state ≠ .holdUp ∧ s.mem.map = [] ∧ s.devicesIn ≠ [] ∧ (∀ d ∈
     s.mem.devices, d.unit = .pending → d.trained = true)) ∧
    (∃ (s : State), s.starting = true ∧ s.power.state ≠ .holdUp ∧ ∃ (i : Fin 16), (s.core i.val).unit = .pending ∧
     s.cores.length = 16) ∧
    (∃ (s : State), s.starting = true ∧ s.power.state ≠ .holdUp ∧ ∃ (i : Fin 20), (s.port i.val).unit = .pending ∧
     s.rails.ports.length = 20) :=
  ⟨
    ⟨{ ws with parts := List.replicate 8 Partition.reset }, by decide +kernel, by decide +kernel, 0,
     by decide +kernel⟩,
    ⟨(training 2), by decide +kernel, by decide +kernel, 11, by decide +kernel⟩,
    ⟨(training 1), by decide +kernel, by decide +kernel, 11, by decide +kernel⟩,
    ⟨(training 2), by decide +kernel, by decide +kernel, 11, by decide +kernel⟩,
    ⟨{ ws with mem.map := [] }, by decide +kernel⟩,
    ⟨{ ws with cores := List.replicate 16 ControlCore.reset }, by decide +kernel, by decide +kernel, 15,
     by decide +kernel⟩,
    ⟨ws, by decide +kernel, by decide +kernel, 19, by decide +kernel⟩⟩

theorem witness_power_loss_and_return :
    (∃ (s : State), s.start.control = true ∧ s.power.state ≠ .holdUp) ∧
    (∃ (s : State), s.start.control = false) ∧
    (∃ (s : State), s.power.state = .holdUp ∧ s.start.control = true) ∧
    (∃ (s : State), s.power.state = .holdUp ∧ s.start.control = true ∧ s.start.trayReset = true ∧ (s.start.phase =
     .rom ∨ s.start.phase = .resetting)) ∧
    (∃ (s : State), s.start.control = true ∧ s.power.state ≠ .holdUp) ∧
    (∃ (s : State) (readBacks : ReadBacks), ∃ (r : Request) (rest : List Request) (ch : Chan) (op : Nat) (cmd :
     Instr), s.power.state = .holdUp ∧ (op, cmd) ∈ [(0x0200, Instr.contextCreate ch), (0x0208, .memReserve ch),
     (0x0300, .timetableSet ch), (0x0303, .powerStateSet ch [] readBacks), (0x0402, .trgAnnotate ch), (0x0501,
     .faultAck ch), (0x0502, .resetRequest ch readBacks), (0x0602, .attestQuote ch .signed), (0x0700, .debugUnlock
     ch), (0x0800, .fwUpdateBegin ch), (0x0900, .railNodeSet ch)] ∧ Asked s ch op r rest) :=
  ⟨
    ⟨ws, by decide +kernel⟩,
    ⟨State.reset, by decide +kernel⟩,
    ⟨{ ws with power.state := .holdUp }, by decide +kernel⟩,
    ⟨{ ws with power.state := .holdUp, start.trayReset := true }, by decide +kernel⟩,
    ⟨ws, by decide +kernel⟩,
    ⟨(ask ({ ws with power.state := .holdUp }) (rq .pcie 0x0900 [])), written, (rq .pcie 0x0900 []), [], .pcie,
     0x0900, (.railNodeSet .pcie), by decide +kernel, by simp, ⟨rfl, rfl, rfl, rfl, by decide +kernel, rfl, rfl,
     rfl⟩⟩⟩

theorem witness_debug_port_obeys_levels :
    (∃ (s : State), s.start.control = true ∧ s.sec.level = 0) ∧
    (∃ (s : State), s.start.control = true ∧ 1 ≤ s.sec.level) ∧
    (∃ (s : State), s.start.control = true ∧ s.sec.level = 1) ∧
    (∃ (s : State), s.start.control = true ∧ s.sec.level = 2 ∧ ∃ (i : Fin 16), (s.core i.val).unit = .inService) ∧
    (∃ (s : State), s.start.control = true ∧ s.sec.level = 2 ∧ ∃ (off : Nat) (data : List Byte), off + data.length ≤
     2 ^ 26) ∧
    (∃ (s : State), s.start.control = true ∧ s.sec.level = 2 ∧ ∃ (off : Nat) (len : Nat), off + len ≤ 2 ^ 26) ∧
    (∃ (s : State), s.start.control = true ∧ s.sec.level = 2 ∧ ∃ (addr : Nat) (data : List Byte), s.working ∧ addr +
     data.length ≤ s.mem.total ∧ s.mem.retired = [] ∧ s.mem.damaged = [] ∧ s.mem.bytes.wf = true) ∧
    (∃ (s : State), s.start.control = true ∧ s.sec.level = 2 ∧ ∃ (addr : Nat) (len : Nat), s.working ∧ addr + len ≤
     s.mem.total ∧ addr + len ≤ s.mem.usable ∧ s.mem.retired = [] ∧ s.mem.damaged = []) ∧
    (∃ (s : State), s.start.control = true ∧ s.sec.level = 2 ∧ (¬ s.working)) ∧
    (∃ (s : State), s.start.control = true ∧ s.sec.level = 2 ∧ ∃ (off : Nat) (data : List Byte), s.working ∧ off +
     data.length ≤ 1536 * 65536 ∧ s.yard.retired = [] ∧ s.yard.damaged = [] ∧ s.yard.bytes.wf = true) ∧
    (∃ (s : State), s.start.control = true ∧ s.sec.level = 2 ∧ ∃ (off : Nat) (data : List Byte), off + data.length ≤
     2 ^ 24) ∧
    (∃ (s : State), s.start.control = true ∧ s.sec.level = 2 ∧ ∃ (bank : Fin 2) (off : Nat) (data : List Byte),
     bank.val = 1 ∧ 0x20000 ≤ off ∧ off + data.length ≤ 0x300000) ∧
    (∃ (s : State), s.start.control = true ∧ s.sec.level = 2 ∧ ∃ (bank : Fin 2), bank.val = 1 ∧ s.mram.est0.length =
     64 ∧ s.mram.est1.length = 64) ∧
    (∃ (s : State), s.start.control = true ∧ s.sec.level = 2 ∧ ∃ (bank : Fin 2), bank.val = 1 ∧ s.mram.est0.length =
     64 ∧ s.mram.est1.length = 64 ∧ ∃ (off : Nat) (len : Nat), 0x10000 < off + len ∧ off < 0x20000) ∧
    (∃ (s : State), s.start.control = true) ∧
    (∃ (s : State), s.start.control = true ∧ s.sec.level = 2) ∧
    (∃ (s : State), s.start.control = true ∧ s.sec.level < 2) :=
  ⟨
    ⟨ws, by decide +kernel⟩,
    ⟨{ ws with sec.level := 1 }, by decide +kernel⟩,
    ⟨{ ws with sec.level := 1 }, by decide +kernel⟩,
    ⟨{ ws with sec.level := 2 }, by decide +kernel, by decide +kernel, 15, by decide +kernel⟩,
    ⟨{ ws with sec.level := 2 }, by decide +kernel, by decide +kernel, (2 ^ 26 - 1), [1], by decide +kernel⟩,
    ⟨{ ws with sec.level := 2 }, by decide +kernel, by decide +kernel, (2 ^ 26 - 1), 1, by decide +kernel⟩,
    ⟨{ ws with sec.level := 2 }, by decide +kernel, by decide +kernel, (2 ^ 37 - 1), [1], ⟨by decide +kernel,
     by decide +kernel⟩, by decide +kernel⟩,
    ⟨{ ws with sec.level := 2 }, by decide +kernel, by decide +kernel, (124 * 2 ^ 30 - 1), 1, ⟨by decide +kernel,
     by decide +kernel⟩, by decide +kernel⟩,
    ⟨{ ws with sec.level := 2, power.state := .standby }, by decide +kernel, by decide +kernel, (fun h => h.2 rfl)⟩,
    ⟨{ ws with sec.level := 2 }, by decide +kernel, by decide +kernel, (1536 * 65536 - 1), [1], ⟨by decide +kernel,
     by decide +kernel⟩, by decide +kernel⟩,
    ⟨{ ws with sec.level := 2 }, by decide +kernel, by decide +kernel, (2 ^ 24 - 1), [1], by decide +kernel⟩,
    ⟨{ ws with sec.level := 2 }, by decide +kernel, by decide +kernel, 1, 0x20000, [1], by decide +kernel⟩,
    ⟨{ ws with sec.level := 2 }, by decide +kernel, by decide +kernel, 1, by decide +kernel⟩,
    ⟨{ ws with sec.level := 2 }, by decide +kernel, by decide +kernel, 1, by decide +kernel, by decide +kernel,
     by decide +kernel, 0xFFFF, 2, by decide +kernel⟩,
    ⟨ws, by decide +kernel⟩,
    ⟨{ ws with sec.level := 2 }, by decide +kernel⟩,
    ⟨{ ws with sec.level := 1 }, by decide +kernel⟩⟩

theorem witness_step_takes_the_front :
    (∃ (s : State), s.pending = []) ∧
    (∃ (c : Instr), c.wellFormed = false) :=
  ⟨
    ⟨ws, by decide +kernel⟩,
    ⟨(.frameReceive 0 [] 0 0), by decide +kernel⟩⟩

theorem witness_steps_keep_memory_form :
    (∃ (s t : State), s.memoryOk ∧ step s = .next t) :=
    ⟨{ ws with pending := [.zeroingDone] }, ws, by unfold State.memoryOk; decide +kernel, rfl⟩

theorem witness_steps_keep_descriptor_and_fuses :
    (∃ (s t : State), s.capStill ∧ step s = .next t) :=
    ⟨{ ws with pending := [.zeroingDone] }, ws, by unfold State.capStill; decide +kernel, rfl⟩

end Sys2Proof.Tests
end

section
/-! SUPPORT. The power block (R400 to R469) under the work of the data path: reads and stores of memory and Yard, packets,
wagons, mirrors and collectives leave it as it was. -/

namespace Sys2Proof.Machine

/-! ### Folds -/

/-- What every step of a fold leaves, the fold leaves. -/
theorem foldl_keeps {σ β γ : Type} (π : σ → γ) {f : σ → β → σ} (h : ∀ x b, π (f x b) = π x) (l : List β) (x : σ) :
    π (l.foldl f x) = π x :=
  List.foldlRecOn l f (motive := fun y => π y = π x) rfl (fun y hy b _ => (h y b).trans hy)

/-! ### Reports, events, replies, the descriptor -/

@[simp] theorem State.report_power (s : State) (src : W32) (code : Nat) (ctx : Option (Nat × W16)) (info : W32) :
    (s.report src code ctx info).power = s.power := by
  obtain ⟨g, h⟩ := s.report_eq src code ctx info
  rw [h]

theorem OnlyBook.power {s t : State} (h : OnlyBook s t) : t.power = s.power := by
  rw [show t = _ from h]

@[simp] theorem State.event_power (s : State) (op : Nat) (payload : List Byte) : (s.event op payload).power = s.power :=
  (s.event_only op payload).power

@[simp] theorem State.reply_power (s : State) (r : Request) (code detail : Nat) (payload : List Byte) :
    (s.reply r code detail payload).power = s.power := (s.reply_only r code detail payload).power

@[simp] theorem State.ok_power (s : State) (r : Request) (payload : List Byte) : (s.ok r payload).power = s.power :=
  (s.ok_only r payload).power

@[simp] theorem State.recap_power (f : State → State) (s : State) : (s.recap f).power = (f s).power := by
  obtain ⟨n, h⟩ := State.recap_eq f s
  rw [h]

@[simp] theorem State.mile_power (s : State) (src : W32) (n : Nat) : (s.mile src n).power = s.power := rfl

/-! ### Module memory -/

@[simp] theorem State.grantPages_power (s : State) (ctx : Nat) (ps : List Page) (r : Request) (payload : List Byte) :
    (s.grantPages ctx ps r payload).power = s.power := by
  unfold State.grantPages
  dsimp only
  split <;> simp

@[simp] theorem State.dropGrant_power (s : State) (g : Grant) (short : Nat) : (s.dropGrant g short).power = s.power := by
  unfold State.dropGrant
  dsimp only
  split <;> simp [State.freeTokensOf]

/-- R248, R211: a grant placed anew is answered with its shortfall, or granted other pages. -/
theorem State.placeAgain_cases (s : State) (g : Grant) :
    (∃ short, s.placeAgain g = s.dropGrant g short) ∨ ∃ ps, s.placeAgain g = s.grantPages g.ctx ps g.req g.payload := by
  unfold State.placeAgain
  dsimp only
  split
  · exact .inl ⟨_, rfl⟩
  · split <;> exact .inr ⟨_, rfl⟩

@[simp] theorem State.placeAgain_power (s : State) (g : Grant) : (s.placeAgain g).power = s.power := by
  obtain ⟨short, h⟩ | ⟨ps, h⟩ := s.placeAgain_cases g
  · rw [h, State.dropGrant_power]
  · rw [h, State.grantPages_power]

@[simp] theorem State.mendGrants_power (s : State) : s.mendGrants.power = s.power := by
  unfold State.mendGrants
  exact foldl_keeps State.power State.placeAgain_power _ _

@[simp] theorem State.retireFrame_power (s : State) (f dev : Nat) : (s.retireFrame f dev).power = s.power := by
  unfold State.retireFrame
  dsimp only
  split
  · rfl
  · split <;> simp

@[simp] theorem State.memCorrected_power (s : State) (addr : Nat) : (s.memCorrected addr).power = s.power := by
  unfold State.memCorrected
  dsimp only
  split <;> simp

@[simp] theorem State.memBad_power (s : State) (addr : Nat) : (s.memBad addr).power = s.power := by
  simp [State.memBad, State.memTicket]

@[simp] theorem State.lineRead_power (s : State) (addr : Nat) (ecc : Ecc) : (s.lineRead addr ecc).2.power = s.power := by
  unfold State.lineRead
  split <;> simp

@[simp] theorem State.lineStore_power (s : State) (addr : Nat) (bs : List Byte) (ecc : Ecc) :
    (s.lineStore addr bs ecc).2.power = s.power := by
  unfold State.lineStore
  dsimp only
  split
  · rfl
  · split <;> simp

@[simp] theorem State.memLoad_power (fuel : Nat) : ∀ (s : State) (addr n : Nat) (lines : LineEcc),
    (s.memLoad addr n lines fuel).2.2.power = s.power := by
  induction fuel with
  | zero => intro s addr n lines; rfl
  | succ k ih =>
    intro s addr n lines
    unfold State.memLoad
    split
    · rfl
    · simp [ih]

@[simp] theorem State.noteLine_power (s : State) (addr : Nat) (who : Option (Nat × W16)) :
    (s.noteLine addr who).power = s.power := State.report_power ..

@[simp] theorem State.memGet_power (s : State) (ctx : Nat) (lines : LineEcc) (va n : Nat) :
    (s.memGet ctx lines va n).2.2.power = s.power := by
  unfold State.memGet
  refine foldl_keeps (fun x : Bool × List Byte × State => x.2.2.power) ?_ _ _
  rintro ⟨bad, bs, t⟩ ⟨a, k⟩
  dsimp only
  split
  · rfl
  · dsimp only; split <;> simp

@[simp] theorem State.memPut_power (s : State) (ctx : Nat) (lines : LineEcc) (va : Nat) (bs : List Byte) :
    (s.memPut ctx lines va bs).2.power = s.power := by
  unfold State.memPut
  refine foldl_keeps (fun x : Bool × State => x.2.power) ?_ _ _
  rintro ⟨bad, t⟩ ⟨a, b⟩
  dsimp only
  split
  · rfl
  · split <;> simp

/-! ### The Yard -/

@[simp] theorem State.moveReserved_power (s : State) (k : Nat) : (s.moveReserved k).power = s.power := by
  unfold State.moveReserved
  split <;> rfl

@[simp] theorem State.retireBlock_power (s : State) (k : Nat) : (s.retireBlock k).power = s.power := by
  unfold State.retireBlock
  split
  · rfl
  · rw [State.recap_power]
    dsimp only
    split
    · simp
    · split <;> simp

@[simp] theorem State.yardCorrected_power (s : State) (w : Nat) : (s.yardCorrected w).power = s.power := by
  unfold State.yardCorrected
  dsimp only
  split <;> simp

@[simp] theorem State.yardBad_power (s : State) (w : Nat) : (s.yardBad w).power = s.power := by simp [State.yardBad]

@[simp] theorem State.yardStore_power (s : State) (key : Nat) (bs : List Byte) :
    (s.yardStore key bs).2.power = s.power := foldl_keeps State.power State.yardBad_power _ _

@[simp] theorem State.yardSense_power (s : State) (part : Nat) (ecc : YardEcc) (range : List Nat) :
    (s.yardSense part ecc range).2.power = s.power :=
  (foldl_keeps State.power State.yardBad_power _ _).trans (foldl_keeps State.power State.yardCorrected_power _ _)

@[simp] theorem State.operands_power (s : State) (f : Flight) (y : YardWord) (ecc : YardEcc) (spans : List Span) :
    (s.operands f y ecc spans).2.power = s.power :=
  (foldl_keeps State.power (fun _ _ => State.report_power ..) _ _).trans (State.yardSense_power ..)

@[simp] theorem State.yardPut_power (s : State) (f : Flight) (y : YardWord) (ecc : YardEcc)
    (puts : List (Nat × List Byte)) : (s.yardPut f y ecc puts).2.power = s.power := by
  unfold State.yardPut
  refine foldl_keeps (fun x : Bool × State => x.2.power) ?_ _ _
  rintro ⟨bad, t⟩ ⟨o, bs⟩
  dsimp only
  split <;> simp

/-! ### Packets -/

@[simp] theorem State.takePort_power (s : State) (o : OutPacket) (port : Nat) : (s.takePort o port).power = s.power := by
  unfold State.takePort
  dsimp only
  split <;> rfl

@[simp] theorem State.power_place_ (s : State) (o : OutPacket) : (s.place_ o).power = s.power := by
  unfold State.place_
  split <;> simp

/-- A packet that was sent leaves the power block. -/
theorem State.sendTo_power {s u : State} {kind arg pflags ctx tag : Nat} {peer : Peer} {data : List Byte} {w : Waiter}
    (h : s.sendTo kind peer arg pflags data ctx w = some (tag, u)) : u.power = s.power := by
  unfold State.sendTo State.launch at h
  dsimp only at h
  split at h
  · cases h
  · split at h <;> rename_i hl <;> split at hl <;> cases hl
    · cases h
    · cases h
      simp

/-- The same of a packet sent to a peer that may not exist. -/
theorem State.bind_sendTo_power {s u : State} {kind arg pflags ctx tag : Nat} {peer : Option Peer} {data : List Byte}
    {w : Waiter} (h : peer.bind (fun p => s.sendTo kind p arg pflags data ctx w) = some (tag, u)) : u.power = s.power := by
  obtain ⟨p, -, h⟩ := Option.bind_eq_some_iff.mp h
  exact State.sendTo_power h

/-! ### Wagons and their engines -/

@[simp] theorem State.setPace_power (s : State) (u : UnitRef) (pace : Pace) (wants : Option (SlotKind × Nat)) :
    (s.setPace u pace wants).power = s.power := by cases u <;> rfl

@[simp] theorem State.settle_power (s : State) (u : UnitRef) : (s.settle u).power = s.power := by
  unfold State.settle
  split <;> simp

@[simp] theorem State.takeFeed_power (s : State) (u : UnitRef) (w : Wagon) : (s.takeFeed u w).2.power = s.power := by
  unfold State.takeFeed
  split
  · rfl
  · cases u <;> rfl

@[simp] theorem State.finish_power (s : State) (f : Flight) (status : Byte) (flags : Flags) :
    (s.finish f status flags).power = s.power := by simp [State.finish]

@[simp] theorem State.cause_power (s : State) (f : Flight) (code : Byte) : (s.cause f code).power = s.power := rfl

/-! ### Movers -/

@[simp] theorem State.noteMove_power (s : State) (src : W32) (f : Flight) (code : Byte) :
    (s.noteMove src f code).power = s.power := by
  unfold State.noteMove
  split <;> simp

@[simp] theorem State.finishMove_power (s : State) (f : Flight) : (s.finishMove f).power = s.power := by
  unfold State.finishMove
  rw [State.finish_power]
  exact foldl_keeps State.power (fun _ _ => State.noteMove_power ..) _ _

@[simp] theorem State.tryMove_power (s : State) (ring : Nat) (index : W32) : (s.tryMove ring index).power = s.power := by
  unfold State.tryMove
  split
  · rfl
  · dsimp only; split <;> simp

@[simp] theorem State.toMemory_power (s : State) (f : Flight) (lines : LineEcc) (va : Nat) (bs : List Byte) :
    (s.toMemory f lines va bs).power = s.power := by
  unfold State.toMemory
  split
  · rfl
  · dsimp only; split <;> simp

@[simp] theorem State.markFeed_power (s : State) (f : Flight) : (s.markFeed f).power = s.power := by
  unfold State.markFeed
  split
  · split
    · rfl
    · split
      · rfl
      · split <;> rfl
  · rfl

@[simp] theorem State.deliver_power (s : State) (f : Flight) (errs : MemErrs) (dst : Nat) (bs : List Byte) (bad : Bool) :
    (s.deliver f errs dst bs bad).power = s.power := by
  unfold State.deliver
  have marked : (if bad then s.cause f wsData else s).power = s.power := by split <;> rfl
  generalize (if bad then s.cause f wsData else s) = t at marked
  dsimp only
  rw [← marked]
  split
  · exact foldl_keeps State.power (fun _ _ => State.toMemory_power ..) _ _
  · split
    · split <;> split <;> simp
    · split
      · split <;> simp
      · split
        · simp
        · rename_i sent
          simpa using State.bind_sendTo_power sent

@[simp] theorem State.issueOne_power (s : State) (f : Flight) (errs : MemErrs) : (s.issueOne f errs).power = s.power := by
  unfold State.issueOne
  dsimp only
  rw [State.modFlight_power]
  split
  · simp
  · split
    · simp
    · split
      · split <;> simp
      · split <;> simp

@[simp] theorem State.issue_power (ring : Nat) (index : W32) (errs : MemErrs) (fuel : Nat) : ∀ s : State,
    (s.issue ring index errs fuel).power = s.power := by
  induction fuel with
  | zero => intro s; rfl
  | succ k ih =>
    intro s
    unfold State.issue
    split
    · rfl
    · dsimp only; split
      · rfl
      · simp [ih]

@[simp] theorem State.issueQueue_power (errs : MemErrs) (l : List Flight) : ∀ s : State,
    (s.issueQueue errs l).power = s.power := by
  induction l with
  | nil => intro s; rfl
  | cons f rest ih =>
    intro s
    unfold State.issueQueue
    split
    · exact ih s
    · split
      · rfl
      · split
        · dsimp only; split <;> simp [ih]
        · simp [ih]

@[simp] theorem State.issueMore_power (s : State) (u : UnitRef) (errs : MemErrs) : (s.issueMore u errs).power = s.power := by
  unfold State.issueMore
  split <;> simp

@[simp] theorem State.landed_power (s : State) (part dm : Nat) (errs : MemErrs) (r : ReadReq)
    (x : Option (List Byte × Bool)) : (s.landed part dm errs r x).power = s.power := by
  unfold State.landed
  dsimp only
  split
  · rfl
  · rw [State.issueMore_power, State.tryMove_power]
    split <;> simp

@[simp] theorem State.thaw_power (s : State) : s.thaw.power = s.power :=
  foldl_keeps State.power (fun _ _ => State.landed_power ..) _ _

/-! ### Mirrors -/

@[simp] theorem State.commitStep_power (s : State) (ring : Nat) (index : W32) (ctx : Nat) :
    (s.commitStep ring index ctx).power = s.power := rfl

@[simp] theorem State.mirrorFail_power (s : State) (ctx : Nat) : (s.mirrorFail ctx).power = s.power := by
  unfold State.mirrorFail
  split <;> rfl

@[simp] theorem State.sendOpen_power (s : State) (ctx : Nat) (m : Mirror) : (s.sendOpen ctx m).power = s.power := by
  unfold State.sendOpen
  dsimp only
  split
  · simp
  · rename_i sent
    simpa using State.bind_sendTo_power sent

@[simp] theorem State.sendClose_power (s : State) (ctx : Nat) (m : Mirror) : (s.sendClose ctx m).power = s.power := by
  unfold State.sendClose
  dsimp only
  split
  · simp
  · split
    · simp
    · rename_i sent
      simpa using State.bind_sendTo_power sent

@[simp] theorem State.sendPage_power (s : State) (ctx : Nat) (lines : LineEcc) (page off : Nat) :
    (s.sendPage ctx lines page off).power = s.power := by
  unfold State.sendPage
  dsimp only
  split
  · split
    · rw [State.mirrorFail_power]
      split <;> simp
    · rename_i sent
      rw [State.modCtx_power, State.sendTo_power sent]
      split <;> simp
  · simp

@[simp] theorem State.sendPages_power (s : State) (ctx : Nat) (lines : LineEcc) (m : Mirror) :
    (s.sendPages ctx lines m).power = s.power := by
  have pages : ∀ (l : List (Nat × Nat)) (u : State), (l.foldl (fun t (p, o) =>
      if (t.ctx ctx).mirror.isSome then t.sendPage ctx lines p o else t) u).power = u.power :=
    foldl_keeps State.power (by rintro t ⟨p, o⟩; dsimp only; split <;> simp)
  unfold State.sendPages
  dsimp only
  split
  · split <;> simp [pages]
  · simp [pages]

@[simp] theorem State.openAnswered_power (s : State) (ctx : Nat) (lines : LineEcc) (tag result : Nat) :
    (s.openAnswered ctx lines tag result).power = s.power := by
  unfold State.openAnswered
  split
  · rfl
  · split
    · rfl
    · split
      · simp
      · split <;> simp

@[simp] theorem State.pageAnswered_power (s : State) (ctx tag result : Nat) :
    (s.pageAnswered ctx tag result).power = s.power := by
  unfold State.pageAnswered
  split
  · rfl
  · split
    · rfl
    · split
      · simp
      · dsimp only; split <;> simp

@[simp] theorem State.closeAnswered_power (s : State) (ctx tag : Nat) (accept : Bool) :
    (s.closeAnswered ctx tag accept).power = s.power := by
  unfold State.closeAnswered
  split
  · rfl
  · split
    · rfl
    · split <;> simp

@[simp] theorem State.mirrorLost_power (s : State) (c tag : Nat) : (s.mirrorLost c tag).power = s.power := by
  unfold State.mirrorLost
  split
  · rfl
  · split <;> simp

/-! ### Collectives -/

@[simp] theorem State.collAbortTo_power (s : State) (ctx group : Nat) (opseq : W32) (peers : List Nat) :
    (s.collAbortTo ctx group opseq peers).power = s.power := by
  refine foldl_keeps State.power ?_ _ _
  intro t i
  split
  · rfl
  · split
    · rename_i sent
      exact State.sendTo_power sent
    · rfl

@[simp] theorem State.collEnd_power (s : State) (f : Flight) (status : Byte) (except : List Nat) :
    (s.collEnd f status except).power = s.power := by
  unfold State.collEnd
  dsimp only
  split <;> simp

@[simp] theorem State.collFinish_power (s : State) (f : Flight) (status : Byte) (except : List Nat) :
    (s.collFinish f status except).power = s.power := by simp [State.collFinish]

@[simp] theorem State.collFlags_power (s : State) (f : Flight) (bs : List Byte) : (s.collFlags f bs).power = s.power := by
  unfold State.collFlags
  split
  · rfl
  · dsimp only; split <;> rfl

@[simp] theorem State.collSend_power (s : State) (f : Flight) (kind peer : Nat) (a : Accum) (bs : List Byte) :
    (s.collSend f kind peer a bs).power = s.power := by
  unfold State.collSend
  dsimp only
  split
  · rfl
  · rename_i sent
    split
    · simpa using State.bind_sendTo_power sent
    · exact State.bind_sendTo_power sent

@[simp] theorem State.collTry_power (s : State) (ring : Nat) (index : W32) : (s.collTry ring index).power = s.power := by
  unfold State.collTry
  split
  · rfl
  · split
    · rfl
    · split
      · simp
      · split <;> simp

@[simp] theorem State.collRead_power (s : State) (f : Flight) (k : Nat) (errs : MemErrs) :
    (s.collRead f k errs).2.power = s.power := by
  unfold State.collRead
  dsimp only
  split
  · dsimp only
    split <;> split <;> simp
  · dsimp only
    split <;> simp

/-- What a result that is written here leaves: the power block. -/
theorem State.collStore_power (s : State) (f : Flight) (errs : MemErrs) (dst : Nat) (bs : List Byte) (inYard : Prop)
    [Decidable inYard] :
    let r := if inYard then s.yardPut f (s.allot f) errs.yard [(dst, bs)] else s.memPut f.ctx errs.lines dst bs
    ((if r.1 then r.2.cause f wsData else r.2).collFlags f bs).power = s.power := by
  dsimp only
  rw [State.collFlags_power]
  split <;> split <;> simp

@[simp] theorem State.collResult_power (s : State) (f : Flight) (errs : MemErrs) (a : Accum) (bs : List Byte) :
    (s.collResult f errs a bs).power = s.power := by
  have sent : ∀ (l : List Nat) (t : State), (l.foldl (fun s c => s.collSend f 9 c a bs) t).power = t.power :=
    foldl_keeps State.power (fun _ _ => State.collSend_power ..)
  have marked : (if a.mismatch then s.cause f wsSegment else s).power = s.power := by split <;> rfl
  unfold State.collResult
  generalize (if a.mismatch then s.cause f wsSegment else s) = t at marked
  dsimp only
  rw [State.setAccum_power, ← marked]
  split
  · rw [sent]
    split
    · exact State.collStore_power ..
    · split <;> simp
  · split
    · exact State.collStore_power ..
    · split <;> simp

@[simp] theorem State.collSum_power (s : State) (f : Flight) (errs : MemErrs) (a : Accum) :
    (s.collSum f errs a).power = s.power := by
  unfold State.collSum
  dsimp only
  split
  · rfl
  · split
    · rfl
    · split
      · simp
      · rw [State.setAccum_power, State.collSend_power, State.collFlags_power]
        split <;> rfl

@[simp] theorem State.collOwn_power (s : State) (f : Flight) (k : Nat) (errs : MemErrs) (sums : List SumSlip) :
    (s.collOwn f k errs sums).power = s.power := by
  unfold State.collOwn
  dsimp only
  split
  · split
    · simp
    · split <;> simp
  · simp

@[simp] theorem State.collPump_power (ring : Nat) (index : W32) (errs : MemErrs) (sums : List SumSlip) (fuel : Nat) :
    ∀ s : State, (s.collPump ring index errs sums fuel).power = s.power := by
  induction fuel with
  | zero => intro s; rfl
  | succ k ih =>
    intro s
    unfold State.collPump
    split
    · rfl
    · dsimp only
      split
      · rfl
      · split
        · rfl
        · split
          · simp [ih]
          · rfl

@[simp] theorem State.collLate_power (s : State) (f : Flight) (errs : MemErrs) : (s.collLate f errs).power = s.power := by
  refine foldl_keeps State.power ?_ _ _
  intro t a
  split
  · exact State.collResult_power ..
  · rfl

@[simp] theorem State.collMore_power (s : State) (ring : Nat) (index : W32) (errs : MemErrs) (sums : List SumSlip) :
    (s.collMore ring index errs sums).power = s.power := by
  unfold State.collMore
  split
  · rfl
  · split <;> simp

@[simp] theorem State.resumeColls_power (s : State) (errs : MemErrs) (sums : List SumSlip) :
    (s.resumeColls errs sums).power = s.power := by
  unfold State.resumeColls
  split
  · rfl
  · exact foldl_keeps State.power (fun _ _ => State.collMore_power ..) _ _

/-! ### Answers -/

@[simp] theorem State.restoreFail_power (s : State) (c : Nat) : (s.restoreFail c).power = s.power := by
  unfold State.restoreFail
  split <;> simp [State.modStore]

@[simp] theorem State.restoreAnswered_power (s : State) (c tag : Nat) (applied : Bool) :
    (s.restoreAnswered c tag applied).power = s.power := by
  unfold State.restoreAnswered
  split
  · rfl
  · split
    · rfl
    · split
      · simp
      · dsimp only
        split <;> simp [State.modStore]

@[simp] theorem State.wagonAnswered_power (s : State) (ring : Nat) (index : W32) (tag : Nat) (applied : Bool) :
    (s.wagonAnswered ring index tag applied).power = s.power := by
  unfold State.wagonAnswered
  split
  · rfl
  · dsimp only
    split
    · rfl
    · split
      · rw [State.tryMove_power]
        split <;> simp
      · split
        · rw [State.collTry_power]
          split <;> simp
        · simp

@[simp] theorem State.answered_power (s : State) (o : OutPacket) (result : Option Nat) (lines : LineEcc) :
    (s.answered o result lines).power = s.power := by
  unfold State.answered
  dsimp only
  split <;> simp

@[simp] theorem State.follow_power (s : State) (lines : LineEcc) (o : OutPacket) (a : Answer) :
    (s.follow lines o a).power = s.power := by
  unfold State.follow
  split
  · simp
  · split <;> simp

/-- R609: the work that goes on when the compute clock starts again leaves the power block. -/
@[simp] theorem State.thawAll_power (s : State) : s.thawAll.power = s.power := by
  have followed : ∀ (l : List (OutPacket × Answer)) (t : State),
      (l.foldl (fun t x => t.follow cleanLines x.1 x.2) t).power = t.power :=
    foldl_keeps State.power (fun _ _ => State.follow_power ..)
  simp [State.thawAll, followed]

end Sys2Proof.Machine
end

section
/-! SUPPORT. Engines of the state: reads after writes, their departure states and slot requests (R138, R141). -/

namespace Sys2Proof.Machine

/-! ### Lists as arrays, in and beyond their range -/

/-- Beyond the end of a list stands the default. -/
theorem nth_beyond {α : Type} (d : α) (l : List α) {i : Nat} (h : l.length ≤ i) : nth d l i = d := by
  simp [nth, List.getElem?_eq_none h]

/-- What a list with one element changed reads as, wherever the change and the read lie. -/
theorem nth_setNth {α : Type} (d : α) (l : List α) (f : α → α) (i j : Nat) :
    nth d (setNth l i f) j = if j = i ∧ i < l.length then f (nth d l i) else nth d l j := by
  split
  · rename_i h
    rw [h.1, nth_setNth_same _ _ _ h.2]
  · rename_i h
    by_cases e : j = i
    · have beyond : l.length ≤ j := Nat.le_of_not_lt fun k => h ⟨e, e ▸ k⟩
      rw [nth_beyond d l beyond, nth_beyond d _ (by simpa using beyond)]
    · exact nth_setNth_other _ _ _ e

/-! ### Parts and their engines -/

theorem State.part_modPart (s : State) (p q : Nat) (f : Partition → Partition) :
    (s.modPart p f).part q = if q = p ∧ p < s.parts.length then f (s.part p) else s.part q := nth_setNth ..

/-- The state has the matrix engine. -/
def State.hasEngine (s : State) (p e : Nat) : Prop := p < s.parts.length ∧ e < (s.part p).mes.length

/-- An engine that differs from one at reset is one that the state has. -/
theorem State.hasEngine_of_ne {s : State} {p e : Nat} (h : s.engine p e ≠ MatrixEngine.reset) : s.hasEngine p e := by
  have he : e < (s.part p).mes.length := Nat.lt_of_not_le fun k => h (nth_beyond _ _ k)
  refine ⟨Nat.lt_of_not_le fun k => h ?_, he⟩
  have fresh : s.part p = Partition.reset := nth_beyond _ _ k
  rw [State.engine, fresh]
  simp only [Partition.reset, nth, List.getElem?_replicate]
  split <;> rfl

/-- A vector engine that differs from one at reset is one that the state has. -/
theorem State.hasPart_of_vec_ne {s : State} {p : Nat} (h : (s.part p).vec ≠ VectorEngine.reset) : p < s.parts.length :=
  Nat.lt_of_not_le fun k => h (by rw [State.part, nth_beyond _ _ k]; rfl)

theorem State.engine_modEngine_same {s : State} {p e : Nat} (h : s.hasEngine p e) (f : MatrixEngine → MatrixEngine) :
    (s.modEngine p e f).engine p e = f (s.engine p e) := by
  simp only [State.engine, State.modEngine, State.part_modPart, true_and, if_pos h.1]
  exact nth_setNth_same _ _ _ h.2

theorem State.engine_modEngine_other (s : State) (f : MatrixEngine → MatrixEngine) {p e q k : Nat}
    (h : q = p → k ≠ e) : (s.modEngine p e f).engine q k = s.engine q k := by
  simp only [State.engine, State.modEngine, State.part_modPart]
  split
  · rename_i hq
    rw [hq.1]
    exact nth_setNth_other _ _ _ (h hq.1)
  · rfl

@[simp] theorem State.vec_modEngine (s : State) (p e q : Nat) (f : MatrixEngine → MatrixEngine) :
    ((s.modEngine p e f).part q).vec = (s.part q).vec := by
  simp only [State.modEngine, State.part_modPart]
  split
  · rename_i hq
    rw [hq.1]
  · rfl

@[simp] theorem State.engine_modVec (s : State) (p q k : Nat) (f : VectorEngine → VectorEngine) :
    (s.modVec p f).engine q k = s.engine q k := by
  simp only [State.engine, State.modVec, State.part_modPart]
  split
  · rename_i hq
    rw [hq.1]
  · rfl

theorem State.vec_modVec_same {s : State} {p : Nat} (h : p < s.parts.length) (f : VectorEngine → VectorEngine) :
    ((s.modVec p f).part p).vec = f (s.part p).vec := by
  simp only [State.modVec, State.part_modPart, true_and, if_pos h]

theorem State.vec_modVec_other (s : State) (f : VectorEngine → VectorEngine) {p q : Nat} (h : q ≠ p) :
    ((s.modVec p f).part q).vec = (s.part q).vec := by
  rw [State.modVec, State.part_modPart_other s _ h]

@[simp] theorem State.hasEngine_modEngine (s : State) (p e q k : Nat) (f : MatrixEngine → MatrixEngine) :
    (s.modEngine p e f).hasEngine q k ↔ s.hasEngine q k := by
  simp only [State.hasEngine, State.modEngine, State.part_modPart, State.modPart_parts, setNth_length]
  split
  · rename_i hq
    simp [hq.1]
  · rfl

@[simp] theorem State.hasEngine_modVec (s : State) (p q k : Nat) (f : VectorEngine → VectorEngine) :
    (s.modVec p f).hasEngine q k ↔ s.hasEngine q k := by
  simp only [State.hasEngine, State.modVec, State.part_modPart, State.modPart_parts, setNth_length]
  split
  · rename_i hq
    simp [hq.1]
  · rfl

/-! ### Departure states and slot requests -/

/-- A unit is an engine that the state has. -/
def State.hasUnit (s : State) : UnitRef → Prop
  | .matrix p e => s.hasEngine p.val e.val
  | .vector p => p.val < s.parts.length
  | _ => False

/-- A unit that asks for a slot is an engine that the state has. -/
theorem State.hasUnit_of_wants {s : State} {u : UnitRef} {w : SlotKind × Nat} (h : s.wants u = some w) : s.hasUnit u := by
  cases u with
  | matrix p e =>
    refine State.hasEngine_of_ne fun k => ?_
    simp [State.wants, k, MatrixEngine.reset] at h
  | vector p =>
    refine State.hasPart_of_vec_ne fun k => ?_
    simp [State.wants, k, VectorEngine.reset] at h
  | _ => cases h

@[simp] theorem State.hasUnit_setPace (s : State) (u v : UnitRef) (pace : Pace) (w : Option (SlotKind × Nat)) :
    (s.setPace u pace w).hasUnit v ↔ s.hasUnit v := by
  cases u with
  | matrix p e =>
    cases v with
    | matrix q k => exact State.hasEngine_modEngine ..
    | vector q => simp [State.hasUnit, State.setPace, State.modEngine]
    | _ => rfl
  | vector p =>
    cases v with
    | matrix q k => exact State.hasEngine_modVec ..
    | vector q => simp [State.hasUnit, State.setPace, State.modVec]
    | _ => rfl
  | _ => rfl

theorem State.setPace_same {s : State} {u : UnitRef} (h : s.hasUnit u) (pace : Pace) (w : Option (SlotKind × Nat)) :
    (s.setPace u pace w).pace u = pace ∧ (s.setPace u pace w).wants u = w := by
  cases u with
  | matrix p e => simp [State.setPace, State.pace, State.wants, State.engine_modEngine_same h]
  | vector p => simp [State.setPace, State.pace, State.wants, State.vec_modVec_same h]
  | _ => cases h

theorem State.setPace_other (s : State) {u v : UnitRef} (h : v ≠ u) (pace : Pace) (w : Option (SlotKind × Nat)) :
    (s.setPace u pace w).pace v = s.pace v ∧ (s.setPace u pace w).wants v = s.wants v := by
  cases u with
  | matrix p e =>
    cases v with
    | matrix q k =>
      have apart : q.val = p.val → k.val ≠ e.val := fun hq hk => h (by rw [Fin.ext hq, Fin.ext hk])
      simp [State.setPace, State.pace, State.wants, State.engine_modEngine_other s _ apart]
    | vector q => simp [State.setPace, State.pace, State.wants]
    | _ => exact ⟨rfl, rfl⟩
  | vector p =>
    cases v with
    | matrix q k => simp [State.setPace, State.pace, State.wants]
    | vector q =>
      have apart : q.val ≠ p.val := fun hq => h (by rw [Fin.ext hq])
      simp [State.setPace, State.pace, State.wants, State.vec_modVec_other s _ apart]
    | _ => exact ⟨rfl, rfl⟩
  | _ => exact ⟨rfl, rfl⟩

@[simp] theorem State.setPace_marsh (s : State) (u : UnitRef) (pace : Pace) (w : Option (SlotKind × Nat)) :
    (s.setPace u pace w).marsh = s.marsh := by cases u <;> rfl

@[simp] theorem State.setPace_ctxs (s : State) (u : UnitRef) (pace : Pace) (w : Option (SlotKind × Nat)) :
    (s.setPace u pace w).ctxs = s.ctxs := by cases u <;> rfl

@[simp] theorem State.departed_setPace (s : State) (u v : UnitRef) (pace : Pace) (w : Option (SlotKind × Nat)) :
    (s.setPace u pace w).departed v = s.departed v := by simp [State.departed, State.unitFlights]

end Sys2Proof.Machine
end

section
/-! Departure slots, the compute step and the protections: settles O41 (R138 to R142, R458 to R469). -/

namespace Sys2Proof.Machine

/-! ### The units that a slot moves (R140, R141) -/

theorem mem_insertWant (x y : Nat × UnitRef) (l : List (Nat × UnitRef)) : y ∈ insertWant x l ↔ y = x ∨ y ∈ l := by
  induction l with
  | nil => simp [insertWant]
  | cons z t ih =>
    unfold insertWant
    split
    · simp
    · simp only [List.mem_cons, ih]
      tauto

theorem mem_foldl_insertWant (y : Nat × UnitRef) (l : List (Nat × UnitRef)) : ∀ acc,
    y ∈ l.foldl (fun acc x => insertWant x acc) acc ↔ y ∈ l ∨ y ∈ acc := by
  induction l with
  | nil => simp
  | cons x t ih =>
    intro acc
    rw [List.foldl_cons, ih, mem_insertWant, List.mem_cons]
    tauto

/-- A unit among those that want a slot of a kind has asked for one. -/
theorem State.wants_of_wanting {s : State} {k : SlotKind} {u : UnitRef} (h : u ∈ s.wanting k) :
    ∃ n, s.wants u = some (k, n) := by
  obtain ⟨⟨n, v⟩, hv, rfl⟩ := List.mem_map.mp h
  rw [mem_foldl_insertWant] at hv
  obtain ⟨v', -, hw⟩ := List.mem_filterMap.mp (hv.resolve_right (List.not_mem_nil))
  obtain ⟨⟨k', m⟩, hm, hk⟩ := Option.bind_eq_some_iff.mp hw
  dsimp only at hk
  split at hk
  · rename_i e
    cases hk
    exact ⟨n, by rw [hm, e]⟩
  · cases hk

theorem State.hasUnit_of_slotUnits {s : State} {u : UnitRef} (h : u ∈ s.slotUnits.2) : s.hasUnit u := by
  obtain ⟨n, hn⟩ := State.wants_of_wanting (List.mem_of_mem_take h)
  exact State.hasUnit_of_wants hn

/-- A unit that a slot does not move keeps its departure state and its request. -/
theorem State.foldl_setPace_other (a : State → UnitRef → Pace) (l : List UnitRef) {u : UnitRef} : ∀ s : State, u ∉ l →
    let t := l.foldl (fun t v => t.setPace v (a t v) none) s
    t.pace u = s.pace u ∧ t.wants u = s.wants u := by
  induction l with
  | nil => intro s _; exact ⟨rfl, rfl⟩
  | cons v rest ih =>
    intro s h
    rw [List.mem_cons, not_or] at h
    have first := s.setPace_other h.1 (a s v) none
    have others := ih (s.setPace v (a s v) none) h.2
    exact ⟨others.1.trans first.1, others.2.trans first.2⟩

/-- A slot sets every unit that it moves to its departure state, which no other unit's changes, and takes its request. -/
theorem State.foldl_setPace_same {a : State → UnitRef → Pace}
    (still : ∀ (s : State) (v : UnitRef) (x : Pace) (u : UnitRef), a (s.setPace v x none) u = a s u) (l : List UnitRef)
    {u : UnitRef} : ∀ s : State, (∀ v ∈ l, s.hasUnit v) → u ∈ l →
    let t := l.foldl (fun t v => t.setPace v (a t v) none) s
    t.pace u = a s u ∧ t.wants u = none := by
  induction l with
  | nil => intro s _ h; cases h
  | cons v rest ih =>
    intro s has h
    have hasRest : ∀ w ∈ rest, (s.setPace v (a s v) none).hasUnit w := fun w hw => by
      simpa using has w (List.mem_cons_of_mem _ hw)
    by_cases hu : u ∈ rest
    · have set := ih (s.setPace v (a s v) none) hasRest hu
      exact ⟨set.1.trans (still s v _ u), set.2⟩
    · obtain rfl : u = v := (List.mem_cons.mp h).resolve_right hu
      have kept := State.foldl_setPace_other a rest (s.setPace u (a s u) none) hu
      have set := State.setPace_same (has u List.mem_cons_self) (a s u) none
      exact ⟨kept.1.trans set.1, kept.2.trans set.2⟩

/-- The departure state that a slot gives to a unit that it moves (R138). -/
def State.slotPace (s : State) (k : SlotKind) (u : UnitRef) : Pace := if k = .departure then s.departed u else .parked

/-! ### Departure slots (R138 to R142) -/

/-- R138: an engine that coasts and has asked for nothing asks for a release slot. -/
theorem execCoastingTimeout_asks (s : State) (p : Fin 8) (e : Fin 20) (cycle : Nat)
    (coasts : (s.engine p.val e.val).pace = .coasting) (asked : (s.engine p.val e.val).wants = none) :
    ∃ t, execCoastingTimeout (.matrix p e) cycle s = .next t ∧
      (t.engine p.val e.val).wants = some (.release, s.slotOrder (.matrix p e) cycle) ∧
      (t.engine p.val e.val).pace = .coasting ∧ t.power = s.power ∧ t.ctxs = s.ctxs ∧ t.marsh = s.marsh := by
  have has : s.hasUnit (.matrix p e) :=
    State.hasEngine_of_ne fun k => by simp [k, MatrixEngine.reset] at coasts
  have set := State.setPace_same has .coasting (some (.release, s.slotOrder (.matrix p e) cycle))
  have pace : s.pace (.matrix p e) = .coasting := coasts
  have wants : s.wants (.matrix p e) = none := asked
  refine ⟨_, rfl, ?_⟩
  rw [if_pos pace, State.wantSlot, if_neg (by simp [wants]), pace]
  exact ⟨set.2, set.1, by simp, by simp, by simp⟩

/-- R142: no slot within 77 fabric cycles of the last, nor in a stretch. -/
theorem execDepartureSlotGrant_none (s : State) (cycle : Nat)
    (h : s.power.stretch.isSome = true ∨ ∃ c, s.power.lastSlot = some c ∧ cycle < c + 77) :
    execDepartureSlotGrant cycle s = .next s := by
  unfold execDepartureSlotGrant
  rw [if_pos]
  obtain h | ⟨c, hc, lt⟩ := h
  · exact .inr (.inl h)
  · exact .inr (.inr (by simp [hc, lt]))

/-- R138, R140, R141: a slot that is granted moves its units. -/
theorem execDepartureSlotGrant_moves (s : State) (cycle : Nat) (clock : s.frozen = false) (calm : s.power.stretch = none)
    (late : ∀ c, s.power.lastSlot = some c → c + 77 ≤ cycle) (waits : s.slotUnits.2 ≠ []) :
    ∃ t, execDepartureSlotGrant cycle s = .next t ∧ t.power.lastSlot = some cycle ∧
      ∀ u ∈ s.slotUnits.2, t.pace u = s.slotPace s.slotUnits.1 u ∧ t.wants u = none := by
  have grants : ¬ (s.frozen ∨ s.power.stretch.isSome ∨ s.power.lastSlot.any (fun c => cycle < c + 77)) := by
    rw [clock, calm]
    simp only [Bool.false_eq_true, Option.isSome_none, false_or, Option.any_eq_true, decide_eq_true_eq, not_exists,
      not_and, Nat.not_lt]
    exact late
  obtain ⟨last, hl⟩ := Option.ne_none_iff_exists'.mp (fun k => waits (List.getLast?_eq_none_iff.mp k))
  refine ⟨_, rfl, ?_⟩
  rw [if_neg grants]
  dsimp only
  rw [hl]
  refine ⟨rfl, fun u hu => ?_⟩
  exact State.foldl_setPace_same (a := fun t v => t.slotPace s.slotUnits.1 v)
    (fun t v x w => by simp [State.slotPace]) _ s (fun v hv => State.hasUnit_of_slotUnits hv) hu

/-! ### The compute step and droop stretches (R459, R464, R465) -/

/-- R459, R465: a step change reaches its target outside a stretch and is put off inside one. -/
theorem execComputeStepChange_target (s : State) (n : Nat) (target : s.power.target = some n) :
    (s.power.stretch = none → ∃ t, execComputeStepChange s = .next t ∧ t = { s with power := t.power } ∧
      t.power.step = n ∧ t.power.coreMv = s.fuses.volts n ∧ t.power.target = none) ∧
    (∀ p, s.power.stretch = some p → execComputeStepChange s = .next { s with power.deferred := true }) := by
  unfold execComputeStepChange
  simp only [target]
  constructor
  · intro calm
    simp [calm]
  · intro p stretched
    simp [stretched]

/-- R142, R464, R465: a stretch ends after 32 compute cycles or more, and not before. -/
theorem execDroopRelease_stretched (s : State) (p cycles fabric : Nat) (stretched : s.power.stretch = some p) :
    (32 ≤ cycles → ∃ t, execDroopRelease cycles fabric s = .next t ∧
      t = { s with power := t.power, trg := t.trg } ∧ t.power.stretch = none ∧ t.power.deferred = false ∧
      t.power.lastSlot = some fabric ∧ t.power.target = s.power.target) ∧
    (cycles < 32 → execDroopRelease cycles fabric s = .next s) := by
  unfold execDroopRelease
  simp only [stretched]
  constructor
  · intro long
    obtain ⟨g, hg⟩ := State.note_eq
      { s with power := { s.power with stretch := none, deferred := false, lastSlot := some fabric } } 0x8002
      (BitVec.ofNat 32 p) (.value cycles)
    rw [if_neg (Nat.not_lt.mpr long), hg]
    exact ⟨_, rfl, rfl, rfl, rfl, rfl, rfl⟩
  · intro short
    rw [if_pos short]

/-! ### Limits of the other rails (R463) -/

/-- R463: a limit of a rail other than VDD_FAB is reported and no more. -/
theorem execRailCurrentLimit_other (s : State) {rail : Supply} (h : rail ≠ .fab) :
    ∃ t, execRailCurrentLimit rail s = .next t ∧ t = { s with sbx := t.sbx } := by
  obtain ⟨g, hg⟩ := s.report_eq (source 0xA 0 (supplyIdx rail)) 0x0505 none 0
  refine ⟨_, rfl, ?_⟩
  rw [if_neg h, hg]

/-- R463: VDD_FAB's limit is reported and slows the movers. -/
theorem execRailCurrentLimit_fab (s : State) :
    ∃ t, execRailCurrentLimit .fab s = .next t ∧ t.power.fabLimited = true ∧
      t = { s with power := t.power, sbx := t.sbx } := by
  obtain ⟨g, hg⟩ := s.report_eq (source 0xA 0 (supplyIdx .fab)) 0x0505 none 0
  refine ⟨_, rfl, ?_⟩
  rw [if_pos rfl, hg]
  exact ⟨rfl, rfl⟩

/-! ### The thermal trip (R468, R469) -/

/-- A report of a source that the Signal Box reads stands among its reports (R476, R479). -/
theorem State.report_mem {s : State} {src : W32} (heard : src ∉ s.sbx.deaf) (code : Nat) (ctx : Option (Nat × W16))
    (info : W32) : ∃ e ∈ (s.report src code ctx info).sbx.reports, e.source = src ∧ e.code = code := by
  unfold State.report
  rw [if_neg heard]
  exact ⟨_, List.mem_append_right _ (List.mem_singleton_self _), rfl, rfl⟩

/-- R468: a trip stops the compute clock and is reported. -/
theorem execThermalTrip_stops (s : State) (n : Fin 64) (running : s.power.tripped = false)
    (works : source 0xC 0 n.val ∉ s.sbx.sensorsOut) :
    ∃ t, execThermalTrip n s = .next t ∧ t.frozen = true ∧ t = { s with power.tripped := true, sbx := t.sbx } ∧
      (source 0xC 0 n.val ∉ s.sbx.deaf → ∃ e ∈ t.sbx.reports, e.source = source 0xC 0 n.val ∧ e.code = 0x0505) := by
  obtain ⟨g, hg⟩ := State.report_eq { s with power.tripped := true } (source 0xC 0 n.val) 0x0505 none 0
  refine ⟨_, rfl, ?_⟩
  rw [if_neg (by simp [running, works])]
  refine ⟨?_, ?_, fun heard => State.report_mem (s := { s with power.tripped := true }) heard ..⟩
  · simp [State.frozen]
  · rw [hg]

/-- The power block after the release of a trip (R468, R469): the clock restarts at step 16. -/
def State.releasedPower (s : State) : Power :=
  { s.power with
    tripped := false, step := 16, lowStep := 16, target := none, deferred := false, coreMv := s.fuses.volts 16
    ceilings := setNth s.power.ceilings 5 (fun _ => 16) }

/-- R468, R469: a release writes the power block, and the frozen work goes on where nothing else stops the clock. -/
theorem execThermalTripRelease_tripped (s : State) (tripped : s.power.tripped = true) :
    execThermalTripRelease s = .next (if s.power.clockStopped then { s with power := s.releasedPower }
      else { s with power := s.releasedPower }.thawAll) := by
  unfold execThermalTripRelease
  rw [if_neg (by simp [tripped])]
  rfl

/-! ### The bucket of sustained power (R458) -/

/-- R458: the bucket takes the mean draw of the last millisecond less 2,400 W, in its range. -/
theorem execSustainedBucketUpdate_takes (s : State) :
    ∃ t, execSustainedBucketUpdate s = .next t ∧ t = { s with power.bucket := t.power.bucket } ∧
      (t.power.bucket : Int) = max 0 (min 1200000000 ((s.power.bucket : Int) + (s.power.draw1 - 2400000))) :=
  ⟨_, rfl, rfl, Int.toNat_of_nonneg (le_max_left _ _)⟩

/-- Settles O41: one lemma for each command; the work that thaws after a trip leaves the power block. -/
theorem pacingAndProtection : Obligations.PacingAndProtection := by
  intro s
  refine ⟨execCoastingTimeout_asks s, ?slot, ?early, ?stretched, execComputeStepChange_target s, ?droop,
    execDroopRelease_stretched s, execRailCurrentLimit_fab s, fun rail h => execRailCurrentLimit_other s h, rfl,
    fun n => execThermalTrip_stops s n, ?held, ?released, rfl, execSustainedBucketUpdate_takes s⟩
  case slot =>
    intro cycle clock calm late waits
    obtain ⟨t, step, last, moved⟩ := execDepartureSlotGrant_moves s cycle clock calm late waits
    refine ⟨t, step, last, List.length_take_le _ _, fun departs u hu => ?_, fun none u hu => ?_⟩
    · have kind : s.slotUnits.1 = .departure := if_neg departs
      simpa [State.slotPace, State.departed, kind] using moved u hu
    · have kind : s.slotUnits.1 = .release := if_pos none
      simpa [State.slotPace, kind] using moved u hu
  case early => exact fun cycle c last early => execDepartureSlotGrant_none s cycle (.inr ⟨c, last, early⟩)
  case stretched => exact fun cycle h => execDepartureSlotGrant_none s cycle (.inl h)
  case droop =>
    intro p calm
    show execDroopStretch p s = _
    simp [execDroopStretch, calm]
  case held =>
    intro tripped stopped
    exact ⟨{ s with power := s.releasedPower }, (execThermalTripRelease_tripped s tripped).trans (by rw [if_pos stopped]),
      rfl, rfl, rfl, rfl, stopped⟩
  case released =>
    intro tripped runs
    refine ⟨_, (execThermalTripRelease_tripped s tripped).trans (by rw [if_neg (by simp [runs])]), ?_⟩
    simp [State.frozen, State.releasedPower, runs]

end Sys2Proof.Machine
end

section
/-! SUPPORT. The Yard under a wagon that finds no error in it: reads leave the state, stores read back (R232, R241, R246). -/

namespace Sys2Proof.Machine

/-! ### Bytes -/

/-- A range that was stored reads back. -/
theorem Bytes.read_of_get {m : Bytes} {a : Nat} {bs : List Byte} (h : ∀ i (hi : i < bs.length), m.get (a + i) = bs[i]) :
    m.read a bs.length = bs := by
  induction bs generalizing a with
  | nil => rfl
  | cons b t ih =>
    have rest : ∀ i (hi : i < t.length), m.get (a + 1 + i) = t[i] := fun i hi => by
      rw [Nat.add_assoc, Nat.add_comm 1 i]
      exact h (i + 1) (Nat.succ_lt_succ hi)
    show m.get a :: m.read (a + 1) t.length = b :: t
    rw [ih rest]
    exact congrArg (· :: t) (h 0 (Nat.succ_pos _))

/-- Bytes put one by one at their places are the bytes stored from the first place on. -/
theorem Bytes.foldl_put_zipIdx (key : Nat) (bs : List Byte) : ∀ (m : Bytes) (k : Nat),
    (bs.zipIdx k).foldl (fun m x => Bytes.put m (key + x.2) x.1) m = m.write (key + k) bs := by
  induction bs with
  | nil => intro m k; rfl
  | cons b t ih =>
    intro m k
    rw [List.zipIdx_cons, List.foldl_cons, ih]
    rfl

/-! ### Stores of a wagon -/

/-- The bytes of the Yard after stores at offsets of an allotment. -/
def YardWord.writes (y : YardWord) (m : Bytes) (puts : List (Nat × List Byte)) : Bytes :=
  puts.foldl (fun m a => m.write (y.key a.1) a.2) m

/-- A byte outside every range stored reads as before. -/
theorem YardWord.get_writes_outside (y : YardWord) (puts : List (Nat × List Byte)) {k : Nat} : ∀ m : Bytes,
    (∀ a ∈ puts, k < y.key a.1 ∨ y.key a.1 + a.2.length ≤ k) → (y.writes m puts).get k = m.get k := by
  induction puts with
  | nil => intro m _; rfl
  | cons a t ih =>
    intro m h
    rw [YardWord.writes, List.foldl_cons]
    exact (ih _ (fun b hb => h b (List.mem_cons_of_mem _ hb))).trans
      (Bytes.get_write_outside _ _ _ _ (h a List.mem_cons_self))

/-- The keys of an allotment rise with its offsets. -/
theorem YardWord.key_add (y : YardWord) (off : Nat) : y.key off = y.key 0 + off := by
  simp only [YardWord.key, yardKey]
  omega

/-- Ranges that share no byte all read back as they were stored. -/
theorem YardWord.read_writes (y : YardWord) (puts : List (Nat × List Byte)) : ∀ m : Bytes, m.wf = true → Apart puts →
    ∀ a ∈ puts, (y.writes m puts).read (y.key a.1) a.2.length = a.2 := by
  induction puts with
  | nil => intro m _ _ a ha; cases ha
  | cons b t ih =>
    intro m wf apart a ha
    obtain ⟨first, rest⟩ := List.pairwise_cons.mp apart
    rcases List.mem_cons.mp ha with rfl | ha
    · refine Bytes.read_of_get fun i hi => ?_
      have outside : ∀ c ∈ t, y.key a.1 + i < y.key c.1 ∨ y.key c.1 + c.2.length ≤ y.key a.1 + i := fun c hc => by
        have := first c hc
        rw [y.key_add a.1, y.key_add c.1]
        omega
      exact (y.get_writes_outside t _ outside).trans (Bytes.get_write_inside _ _ _ _ wf hi)
    · exact ih _ (Bytes.wf_write _ _ _ wf) rest a ha

/-! ### Reads and stores where no word is damaged -/

theorem State.yardSense_clean {s : State} (h : s.yard.damaged = []) (part : Nat) (range : List Nat) :
    s.yardSense part cleanYard range = ([], s) := by
  simp [State.yardSense, cleanYard, h]

theorem State.operands_clean {s : State} (h : s.yard.damaged = []) (f : Flight) (y : YardWord) (spans : List Span) :
    s.operands f y cleanYard spans = (false, s) := by
  simp [State.operands, State.yardSense_clean h]

theorem State.yardLoad_clean {s : State} (h : s.yard.damaged = []) (key n : Nat) :
    s.yardLoad key n = s.yard.bytes.read key n := by
  simp [State.yardLoad, h]

theorem State.yardStore_clean {s : State} (h : s.yard.damaged = []) (key : Nat) (bs : List Byte) :
    s.yardStore key bs = (false, { s with yard.bytes := s.yard.bytes.write key bs }) := by
  have put := Bytes.foldl_put_zipIdx key bs s.yard.bytes 0
  simp only [State.yardStore, h, List.not_mem_nil, false_and, decide_false, List.filter_false, List.isEmpty_nil,
    Bool.not_true, not_false_eq_true, decide_true, List.filter_true, List.foldl_nil, List.filter_nil]
  rw [put]
  rfl

theorem State.yardPut_clean (f : Flight) (y : YardWord) (puts : List (Nat × List Byte)) : ∀ s : State,
    s.yard.damaged = [] →
    s.yardPut f y cleanYard puts = (false, { s with yard.bytes := y.writes s.yard.bytes puts }) := by
  induction puts with
  | nil => intro s _; rfl
  | cons a t ih =>
    intro s h
    have rest := ih { s with yard.bytes := s.yard.bytes.write (y.key a.1) a.2 } h
    unfold State.yardPut at rest ⊢
    rw [List.foldl_cons]
    simp only [State.yardSense_clean h, State.yardStore_clean h, Bool.false_eq_true, and_false, if_false]
    exact rest

end Sys2Proof.Machine
end

section
/-! SUPPORT. What a READOUT reads of the state, and which updates leave it; the completion of a matrix wagon. -/

namespace Sys2Proof.Machine

/-! ### What a READOUT reads -/

/-- Two states agree in all that a READOUT reads: the Yard, module memory, contexts, dispatched wagons, and of every
matrix engine its state, its banks and its DATA_ERR. -/
structure SameReads (s t : State) : Prop where
  yard : t.yard = s.yard
  mem : t.mem = s.mem
  ctxs : t.ctxs = s.ctxs
  marsh : t.marsh = s.marsh
  unit : ∀ p e, (t.engine p e).unit = (s.engine p e).unit
  bank0 : ∀ p e, (t.engine p e).bank0 = (s.engine p e).bank0
  bank1 : ∀ p e, (t.engine p e).bank1 = (s.engine p e).bank1
  feedErr : ∀ p e, (t.engine p e).feedErr = (s.engine p e).feedErr

theorem SameReads.trans {s t u : State} (h : SameReads s t) (k : SameReads t u) : SameReads s u :=
  ⟨k.yard.trans h.yard, k.mem.trans h.mem, k.ctxs.trans h.ctxs, k.marsh.trans h.marsh,
    fun p e => (k.unit p e).trans (h.unit p e), fun p e => (k.bank0 p e).trans (h.bank0 p e),
    fun p e => (k.bank1 p e).trans (h.bank1 p e), fun p e => (k.feedErr p e).trans (h.feedErr p e)⟩

/-- An engine after a change of an engine: it, changed or not. -/
theorem State.engine_modEngine_cases (s : State) (p e q k : Nat) (f : MatrixEngine → MatrixEngine) :
    (s.modEngine p e f).engine q k = f (s.engine q k) ∨ (s.modEngine p e f).engine q k = s.engine q k := by
  simp only [State.engine, State.modEngine, State.part_modPart]
  split
  · rename_i hq
    rw [hq.1]
    simp only [nth_setNth]
    split
    · rename_i hk
      exact .inl (by rw [hk.1])
    · exact .inr rfl
  · exact .inr rfl

/-- What a change of an engine leaves of every engine, if it leaves it of one. -/
theorem State.engine_modEngine_keeps {α : Type} (s : State) {f : MatrixEngine → MatrixEngine} {π : MatrixEngine → α}
    (h : ∀ x, π (f x) = π x) (p e q k : Nat) : π ((s.modEngine p e f).engine q k) = π (s.engine q k) := by
  obtain h' | h' := s.engine_modEngine_cases p e q k f
  · rw [h', h]
  · rw [h']

/-- A change of an engine that spares its state, its banks and its DATA_ERR: of its residue time, of its last context. -/
theorem State.modEngine_reads (s : State) (p e : Nat) {f : MatrixEngine → MatrixEngine} (unit : ∀ x, (f x).unit = x.unit)
    (bank0 : ∀ x, (f x).bank0 = x.bank0) (bank1 : ∀ x, (f x).bank1 = x.bank1)
    (feedErr : ∀ x, (f x).feedErr = x.feedErr) : SameReads s (s.modEngine p e f) :=
  ⟨rfl, rfl, rfl, rfl, s.engine_modEngine_keeps unit p e, s.engine_modEngine_keeps bank0 p e,
    s.engine_modEngine_keeps bank1 p e, s.engine_modEngine_keeps feedErr p e⟩

theorem State.ranOn_reads (s : State) (p e : Nat) (f : Flight) : SameReads s (s.ranOn p e f) :=
  s.modEngine_reads p e (fun _ => rfl) (fun _ => rfl) (fun _ => rfl) (fun _ => rfl)

theorem State.report_reads (s : State) (src : W32) (code : Nat) (ctx : Option (Nat × W16)) (info : W32) :
    SameReads s (s.report src code ctx info) := by
  obtain ⟨g, h⟩ := s.report_eq src code ctx info
  rw [h]
  exact ⟨rfl, rfl, rfl, rfl, fun _ _ => rfl, fun _ _ => rfl, fun _ _ => rfl, fun _ _ => rfl⟩

theorem State.residueHit_reads (s : State) (p e : Nat) : SameReads s (s.residueHit p e) := by
  have timed : SameReads s (s.modEngine p e (fun x => { x with residueAt := some s.trg.seconds })) :=
    s.modEngine_reads p e (fun _ => rfl) (fun _ => rfl) (fun _ => rfl) (fun _ => rfl)
  unfold State.residueHit
  dsimp only
  split
  · exact timed.trans (State.report_reads ..)
  · exact timed

/-! ### Functions of what a READOUT reads -/

section
variable {s t : State} (h : SameReads s t)
include h

theorem SameReads.bank (p e b : Nat) : t.bank p e b = s.bank p e b := by
  simp only [State.bank, MatrixEngine.bank, h.bank0, h.bank1]

theorem SameReads.allot (f : Flight) : t.allot f = s.allot f := by
  simp only [State.allot, State.ctx, h.ctxs]

theorem SameReads.yardGet (y : YardWord) (off n : Nat) : t.yardGet y off n = s.yardGet y off n := by
  simp only [State.yardGet, State.yardLoad, h.yard]

theorem SameReads.tileFlags (p e : Nat) (w : Wagon) (b : Bank) (bad retried : Bool) :
    t.tileFlags p e w b bad retried = s.tileFlags p e w b bad retried := by
  simp only [State.tileFlags, h.feedErr]

theorem SameReads.tileOut (f : Flight) (b : Bank) (bias : List Val) (x : TileFaults) (tile : Flags) :
    t.tileOut f b bias x tile = s.tileOut f b bias x tile := by
  simp only [State.tileOut, State.ctx, h.ctxs]

theorem SameReads.reexecutor (p e : Nat) : t.reexecutor p e = s.reexecutor p e := by
  simp only [State.reexecutor, h.unit, h.bank0, h.bank1]

theorem SameReads.mmaLedgers (y : YardWord) (w : Wagon) (x : List Slip) (cells : Table Ledger) :
    t.mmaLedgers y w x cells = s.mmaLedgers y w x cells := by
  simp only [State.mmaLedgers, State.rowVals, h.yardGet]

theorem SameReads.addLedgers (y : YardWord) (w : Wagon) (x : List Slip) (cells : Table Ledger) :
    t.addLedgers y w x cells = s.addLedgers y w x cells := by
  simp only [State.addLedgers, State.addSegments, h.yardGet]

end

/-! ### The replay of a log (R122) -/

/-- The ledgers after one more wagon of a log, where its reads and its engine meet no error. -/
def State.logStep (s : State) (y : YardWord) (cells : Table Ledger) (w : Wagon) : Table Ledger :=
  let cells := if wClear w then [] else cells
  if wOpcode w = 0x10 then s.mmaLedgers y w [] cells else s.addLedgers y w [] cells

/-- R122: a replay that meets no error leaves the state as it was, and its ledgers are those of the log's wagons in
order. -/
theorem State.replay_clean {s : State} (h : s.yard.damaged = []) (f : Flight) (y : YardWord) (log : List Wagon) :
    s.replay f y log [] = (false, log.foldl (s.logStep y) [], s) := by
  have gen : ∀ (l : List Wagon) (k : Nat) (cells : Table Ledger),
      (l.zipIdx k).foldl (fun (x : Bool × Table Ledger × State) (z : Wagon × Nat) =>
        let m := nth (cleanYard, ([] : List Slip)) [] z.2
        let mul : Bool := wOpcode z.1 = 0x10
        let r := x.2.2.operands f y m.1 (if mul then mmaSpans z.1 else addSpans z.1)
        let cells := if wClear z.1 then [] else x.2.1
        (x.1 || r.1, if mul then r.2.mmaLedgers y z.1 m.2 cells else r.2.addLedgers y z.1 m.2 cells, r.2))
        (false, cells, s) = (false, l.foldl (s.logStep y) cells, s) := by
    intro l
    induction l with
    | nil => intro k cells; rfl
    | cons w t ih =>
      intro k cells
      have clean : nth (cleanYard, ([] : List Slip)) [] k = (cleanYard, []) := rfl
      rw [List.zipIdx_cons, List.foldl_cons, List.foldl_cons, ← ih (k + 1)]
      simp only [clean, State.operands_clean h, State.logStep, Bool.or_self, decide_eq_true_eq]
  exact gen log 0 []

/-- A replay that meets no error gives the same ledgers from every state that holds the same Yard. -/
theorem SameReads.replay {s t : State} (h : SameReads s t) (clean : s.yard.damaged = []) (f : Flight) (y : YardWord)
    (log : List Wagon) : t.replay f y log [] = (false, (s.replay f y log []).2.1, t) := by
  have same : t.logStep y = s.logStep y := by
    funext cells w
    simp only [State.logStep, h.mmaLedgers, h.addLedgers]
  rw [State.replay_clean (h.yard ▸ clean), State.replay_clean clean, same]

/-! ### The end of a matrix wagon -/

theorem Flight.is_of_flight {s : State} {ring : Nat} {index : W32} {f : Flight} (h : s.flight ring index = some f) :
    f.is ring index = true := List.find?_some (p := fun x : Flight => x.is ring index) h

/-- The wagon that a ring and an index name carries them. -/
theorem State.flight_names {s : State} {ring : Nat} {index : W32} {f : Flight} (h : s.flight ring index = some f) :
    f.ring = ring ∧ f.index = index := by
  have is := Flight.is_of_flight h
  simp only [Flight.is, Bool.and_eq_true, decide_eq_true_eq] at is
  exact is.1

theorem State.flight_congr {s t : State} (h : t.marsh = s.marsh) (ring : Nat) (index : W32) :
    t.flight ring index = s.flight ring index := by
  simp only [State.flight, h]

/-- A wagon whose completion is decided is found with what was decided. -/
theorem State.flight_decide {s : State} {ring : Nat} {index : W32} {f : Flight} (h : s.flight ring index = some f)
    (status flags : Byte) : (s.decide ring index status flags).flight ring index =
      some { f with stage := .decided, status := status, flags := flags } := by
  have is := Flight.is_of_flight h
  have same : ((fun x : Flight => x.is ring index) ∘ fun x : Flight =>
      if x.is ring index then { x with stage := .decided, status := status, flags := flags } else x) =
      fun x => x.is ring index := by
    funext x
    by_cases hx : x.is ring index
    · simp only [Function.comp, hx, if_true]
      simp only [Flight.is, Bool.and_eq_true, decide_eq_true_eq] at hx ⊢
      exact ⟨hx.1, by simp⟩
    · simp [Function.comp, hx]
  unfold State.flight at h ⊢
  simp only [State.decide, State.modFlight, List.find?_map, same, h, Option.map_some, is, if_true]

@[simp] theorem State.settle_marsh (s : State) (u : UnitRef) : (s.settle u).marsh = s.marsh := by
  unfold State.settle
  split <;> simp

/-- R238: a closing wagon takes the DATA_ERR of its engine. -/
theorem State.takeFeed_matrix (s : State) (p : Fin 8) (e : Fin 20) (w : Wagon) :
    (s.takeFeed (.matrix p e) w).1 = (wCloses w && (s.engine p.val e.val).feedErr) := by
  unfold State.takeFeed
  split
  · rename_i opens
    simp [opens]
  · rename_i closes
    simp at closes
    simp [closes]

theorem State.takeFeed_marsh (s : State) (u : UnitRef) (w : Wagon) : (s.takeFeed u w).2.marsh = s.marsh := by
  unfold State.takeFeed
  split
  · rfl
  · cases u <;> rfl

/-- A matrix wagon whose completion is decided, where its flags already carry the DATA_ERR that it takes. -/
theorem State.finish_decided {s : State} {ring : Nat} {index : W32} {f : Flight} {p : Fin 8} {e : Fin 20}
    (there : s.flight ring index = some f) (unit : f.unit = .matrix p e) (status : Byte) {flags : Flags}
    (fed : (wCloses f.bits && (s.engine p.val e.val).feedErr) = true → flags.dataErr = true) :
    DecidedWith (s.finish f status flags) ring index status flags := by
  obtain ⟨rfl, rfl⟩ := State.flight_names there
  have taken : (s.takeFeed f.unit f.bits).2.flight f.ring f.index = some f := by
    rw [State.flight_congr (State.takeFeed_marsh ..)]
    exact there
  have same : (flags.dataErr || (s.takeFeed f.unit f.bits).1) = flags.dataErr := by
    rw [unit, State.takeFeed_matrix]
    exact Bool.or_eq_left_iff_imp.mpr fed
  unfold State.finish DecidedWith
  dsimp only
  rw [same, State.flight_congr (State.settle_marsh ..)]
  exact ⟨_, State.flight_decide taken .., rfl, rfl, rfl⟩

/-! ### Banks under updates -/

theorem State.bank_modEngine_keeps (s : State) {f : MatrixEngine → MatrixEngine} (bank0 : ∀ x, (f x).bank0 = x.bank0)
    (bank1 : ∀ x, (f x).bank1 = x.bank1) (p e q k b : Nat) : (s.modEngine p e f).bank q k b = s.bank q k b := by
  unfold State.bank MatrixEngine.bank
  rw [s.engine_modEngine_keeps bank0, s.engine_modEngine_keeps bank1]

theorem State.bank_setPace (s : State) (u : UnitRef) (pace : Pace) (w : Option (SlotKind × Nat)) (q k b : Nat) :
    (s.setPace u pace w).bank q k b = s.bank q k b := by
  cases u with
  | matrix p e =>
    exact s.bank_modEngine_keeps (f := fun x => { x with pace := pace, wants := w }) (fun _ => rfl) (fun _ => rfl) ..
  | vector p => simp [State.setPace, State.bank]
  | _ => rfl

theorem State.bank_takeFeed (s : State) (u : UnitRef) (w : Wagon) (q k b : Nat) :
    (s.takeFeed u w).2.bank q k b = s.bank q k b := by
  unfold State.takeFeed
  split
  · rfl
  · cases u with
    | matrix p e => exact s.bank_modEngine_keeps (f := fun x => { x with feedErr := false }) (fun _ => rfl) (fun _ => rfl) ..
    | vector p => simp [State.bank]
    | _ => rfl

/-- The completion of a wagon leaves every bank. -/
theorem State.bank_finish (s : State) (f : Flight) (status : Byte) (flags : Flags) (q k b : Nat) :
    (s.finish f status flags).bank q k b = s.bank q k b := by
  rw [← s.bank_takeFeed f.unit f.bits q k b]
  unfold State.finish State.settle
  dsimp only
  split
  · rw [State.bank_setPace]
    rfl
  · rfl

theorem State.takeFeed_store (s : State) (u : UnitRef) (w : Wagon) :
    (s.takeFeed u w).2.yard = s.yard ∧ (s.takeFeed u w).2.mem = s.mem := by
  unfold State.takeFeed
  split
  · exact ⟨rfl, rfl⟩
  · cases u <;> exact ⟨rfl, rfl⟩

theorem State.settle_store (s : State) (u : UnitRef) : (s.settle u).yard = s.yard ∧ (s.settle u).mem = s.mem := by
  unfold State.settle
  split
  · cases u <;> exact ⟨rfl, rfl⟩
  · exact ⟨rfl, rfl⟩

/-- The completion of a wagon leaves the Yard and module memory. -/
theorem State.finish_store (s : State) (f : Flight) (status : Byte) (flags : Flags) :
    (s.finish f status flags).yard = s.yard ∧ (s.finish f status flags).mem = s.mem := by
  obtain ⟨yard, mem⟩ := s.takeFeed_store f.unit f.bits
  unfold State.finish
  rw [(State.settle_store ..).1, (State.settle_store ..).2]
  exact ⟨yard, mem⟩

/-- A bank that differs from a closed one belongs to an engine that the state has. -/
theorem State.hasEngine_of_seq {s : State} {p e b : Nat} (h : (s.bank p e b).seq.isSome) : s.hasEngine p e := by
  refine State.hasEngine_of_ne fun k => ?_
  have closed : s.bank p e b = Bank.closed := by
    rw [State.bank, k]
    exact ite_self _
  rw [closed] at h
  cases h

theorem State.bank_modBank_same {s : State} {p e : Nat} (h : s.hasEngine p e) (b : Nat) (f : Bank → Bank) :
    (s.modBank p e b f).bank p e b = f (s.bank p e b) := by
  unfold State.modBank State.bank
  rw [State.engine_modEngine_same h]
  unfold MatrixEngine.bank
  by_cases hb : b = 0 <;> simp [hb]

theorem State.feedErr_modBank (s : State) (p e b q k : Nat) (f : Bank → Bank) :
    ((s.modBank p e b f).engine q k).feedErr = (s.engine q k).feedErr :=
  s.engine_modEngine_keeps (π := MatrixEngine.feedErr) (fun x => by split <;> rfl) p e q k

/-! ### Mileposts (R490) -/

@[simp] theorem State.mile_marsh (s : State) (src : W32) (n : Nat) : (s.mile src n).marsh = s.marsh := rfl
@[simp] theorem State.mile_mem (s : State) (src : W32) (n : Nat) : (s.mile src n).mem = s.mem := rfl
@[simp] theorem State.mile_yard (s : State) (src : W32) (n : Nat) : (s.mile src n).yard = s.yard := rfl
@[simp] theorem State.engine_mile (s : State) (src : W32) (n p e : Nat) : (s.mile src n).engine p e = s.engine p e := rfl
@[simp] theorem State.bank_mile (s : State) (src : W32) (n p e b : Nat) : (s.mile src n).bank p e b = s.bank p e b := rfl

end Sys2Proof.Machine
end

section
/-! READOUT: settles O19 (R69, R84, R85, R88 to R92, R113 to R119, R122). -/

namespace Sys2Proof.Machine

/-! ### The two ends of a READOUT -/

section
variable {s : State} {ring : Nat} {index : W32} {f : Flight} {p : Fin 8} {e : Fin 20}
  (there : s.flight ring index = some f) (unit : f.unit = .matrix p e) (has : s.hasEngine p.val e.val)
include there unit has

/-- R114 to R119: an output is stored in the Yard, the wagon completes OK with the flags of elements and sequence, and its
bank is kept or closed. -/
theorem State.storeReadout_stores (k : Nat) (y : YardWord) (b : Bank) {tile : Flags} {o : WagonOut}
    (clean : s.yard.damaged = []) (wf : s.yard.bytes.wf = true) (apart : Apart o.1)
    (fed : (wCloses f.bits && (s.engine p.val e.val).feedErr) = true → tile.dataErr = true) :
    let t := s.storeReadout p.val e.val k f y cleanYard b false tile o
    DecidedWith t ring index wsOk (o.2.1.or tile) ∧ Stored s t y o.1 ∧ t.mem = s.mem ∧
      t.bank p.val e.val (wBank f.bits) =
        if roKeep f.bits then { b with rebuild := b.rebuild || k ≠ e.val, held := false } else Bank.closed := by
  have put := State.yardPut_clean f y o.1 s clean
  generalize hu : { s with yard.bytes := y.writes s.yard.bytes o.1 } = u at put
  have marsh : u.marsh = s.marsh := by rw [← hu]
  have mem : u.mem = s.mem := by rw [← hu]
  have bytes : u.yard.bytes = y.writes s.yard.bytes o.1 := by rw [← hu]
  have damaged : u.yard.damaged = [] := by rw [← hu, ← clean]
  have parts : u.parts = s.parts := by rw [← hu]
  have engine : ∀ q k, u.engine q k = s.engine q k := fun q k => by simp only [State.engine, State.part, parts]
  have hasU : u.hasEngine p.val e.val := by simpa only [State.hasEngine, State.part, parts] using has
  unfold State.storeReadout
  simp only [put, Bool.false_eq_true, or_self, if_false]
  refine ⟨State.finish_decided ?_ unit _ fun h => ?_, ⟨fun a ha => ?_, fun i hi => ?_⟩, ?_, ?_⟩
  · rw [State.flight_congr (s := s) (by simp [marsh])]
    exact there
  · rw [State.engine_mile, State.feedErr_modBank, engine] at h
    rw [Flags.or, fed h, Bool.or_true]
  · rw [State.yardGet, State.yardLoad_clean (by simp [State.finish_store, damaged])]
    simpa [State.finish_store, bytes] using y.read_writes o.1 _ wf apart a ha
  · simpa [State.finish_store, bytes] using y.get_writes_outside o.1 _ hi
  · simp [State.finish_store, mem]
  · rw [State.bank_finish, State.bank_mile, State.bank_modBank_same hasU]
    simp [Bank.afterReadout]

/-- R92, R119: a READOUT without output closes its sequence. -/
theorem State.loseReadout_closes (status : Byte) {tile : Flags}
    (fed : (wCloses f.bits && (s.engine p.val e.val).feedErr) = true → tile.dataErr = true) :
    let t := s.loseReadout p.val e.val f status tile
    DecidedWith t ring index status tile ∧ t.yard = s.yard ∧ t.mem = s.mem ∧
      t.bank p.val e.val (wBank f.bits) = Bank.closed := by
  unfold State.loseReadout
  refine ⟨State.finish_decided ?_ unit _ fun h => fed ?_, ?_, ?_, ?_⟩
  · rw [State.flight_congr (State.modBank_marsh ..)]
    exact there
  · rwa [State.feedErr_modBank] at h
  · rw [(State.finish_store ..).1, State.modBank_yard]
  · rw [(State.finish_store ..).2, State.modBank_mem]
  · rw [State.bank_finish, State.bank_modBank_same has]

end

/-! ### The turn of a READOUT -/

/-- A started matrix wagon on an engine that runs is executed there. -/
theorem State.onEngine_running {s : State} {ring : Nat} {index : W32} {f : Flight} {op : Nat} {p : Fin 8} {e : Fin 20}
    (h : Running s ring index f op) (unit : f.unit = .matrix p e) (act : Nat → Nat → Flight → State → State) :
    s.onEngine op ring index act = act p.val e.val f (s.ranOn p.val e.val f) := by
  have runs : s.runs op f = true := by simp [State.runs, h.started, h.opcode, h.up]
  unfold State.onEngine State.onFlight
  simp only [h.there, h.clock, runs]
  rw [if_neg (by simp), unit]

/-- The bias values of a READOUT as the Yard holds them (R114). -/
def State.biasOf (s : State) (f : Flight) : List Val :=
  let w := f.bits
  if roBias w then
    (codesOf (roBiasFmt w) (roCols w) (s.yardGet (s.allot f) (roBiasAddr w) (rowBytes (roBiasFmt w) (roCols w)))).map
      (decode (roBiasFmt w))
  else []

/-- Bias values read where no word of the Yard is damaged. -/
theorem SameReads.biasRead {s t : State} (h : SameReads s t) (clean : s.yard.damaged = []) (f : Flight) :
    t.biasRead f (s.allot f) cleanYard = (false, s.biasOf f, t) := by
  unfold State.biasRead State.biasOf
  simp only [State.operands_clean (h.yard ▸ clean : t.yard.damaged = []), h.yardGet]

/-- A READOUT of an open sequence that is neither lost nor held nor to be rebuilt, on engine e of partition p: no word of
the Yard is damaged, and the allotment holds its spans (R99, R113, R136). -/
structure OpenReadout (s : State) (ring : Nat) (index : W32) (f : Flight) (p : Fin 8) (e : Fin 20) : Prop where
  running : Running s ring index f 0x12
  unit : f.unit = .matrix p e
  clean : s.yard.damaged = []
  wf : s.yard.bytes.wf = true
  seq : (s.bank p.val e.val (wBank f.bits)).seq.isSome
  found : (s.bank p.val e.val (wBank f.bits)).lost = false
  whole : (s.bank p.val e.val (wBank f.bits)).rebuild = false
  free : (s.bank p.val e.val (wBank f.bits)).held = false
  anchor : ¬ (roFmt f.bits = 0xC ∧ roSegAnchor f.bits < (s.bank p.val e.val (wBank f.bits)).anchor + roScaleExp f.bits)
  holds : (s.allot f).holds (roBiasSpans f.bits ++ roSpans f.bits) = true

/-- The bank of a wagon on an engine. -/
def State.oldBank (s : State) (f : Flight) (p : Fin 8) (e : Fin 20) : Bank := s.bank p.val e.val (wBank f.bits)

/-- The bank with the ledgers that its log leaves (R122). -/
def State.replayedBank (s : State) (f : Flight) (p : Fin 8) (e : Fin 20) : Bank :=
  { s.oldBank f p e with cells := (s.replay f (s.allot f) (s.oldBank f p e).log []).2.1 }

/-- DATA_ERR and RETRIED of a tile (R69). -/
def State.firstFlags (s : State) (f : Flight) (p : Fin 8) (e : Fin 20) : Flags :=
  s.tileFlags p.val e.val f.bits (s.oldBank f p e) false false

/-- DATA_ERR and RETRIED of a tile executed again. -/
def State.secondFlags (s : State) (f : Flight) (p : Fin 8) (e : Fin 20) : Flags :=
  s.tileFlags p.val e.val f.bits (s.replayedBank f p e) false true

/-- What a READOUT puts out at first. -/
def State.firstOut (s : State) (f : Flight) (p : Fin 8) (e : Fin 20) (x : TileFaults) : WagonOut :=
  s.tileOut f (s.oldBank f p e) (s.biasOf f) x (s.firstFlags f p e)

/-- What its re-execution puts out. -/
def State.secondOut (s : State) (f : Flight) (p : Fin 8) (e : Fin 20) (x : TileFaults) : WagonOut :=
  s.tileOut f (s.replayedBank f p e) (s.biasOf f) x (s.secondFlags f p e)

/-- R238: the flags of a tile carry the DATA_ERR that its wagon takes. -/
theorem State.tileFlags_fed {s : State} {p e : Nat} {w : Wagon} {b : Bank} {bad retried : Bool}
    (fed : (wCloses w && (s.engine p e).feedErr) = true) : (s.tileFlags p e w b bad retried).dataErr = true := by
  simp only [State.tileFlags, fed, Bool.or_true]

/-- R88 to R92, R122: a tile executed again from its log is stored, or its sequence ends. -/
theorem SameReads.reexecute {s t : State} (same : SameReads s t) (clean : s.yard.damaged = []) (f : Flight) (p : Fin 8)
    (e : Fin 20) (k : Nat) (x : TileFaults) :
    t.reexecute p.val e.val k f (s.allot f) (s.oldBank f p e) { log := [], ecc := cleanYard, faults := x } =
      if (s.secondOut f p e x).2.2 then
        ((t.ranOn p.val k f).report (source 1 p.val e.val) 0x0103 f.who 0).storeReadout p.val e.val k f (s.allot f)
          cleanYard (s.replayedBank f p e) false (s.secondFlags f p e) (s.secondOut f p e x)
      else
        (((t.ranOn p.val k f).residueHit p.val k).report (source 1 p.val e.val) 0x0202 f.who 0).loseReadout p.val e.val f
          wsResidue (s.firstFlags f p e) := by
  unfold State.reexecute
  simp only [same.replay clean, same.biasRead clean, Bool.or_false, same.tileFlags, same.tileOut]
  rfl

/-- R84, R85, R122: a READOUT stores its output where every check agrees, and is executed again where one does not, if an
engine has a free bank; else it is held. -/
theorem OpenReadout.execReadout_eq {s : State} {ring : Fin 4096} {index : W32} {f : Flight} {p : Fin 8} {e : Fin 20}
    (h : OpenReadout s ring.val index f p e) (x1 : TileFaults) (again : Reexecution) :
    execReadout ring index cleanYard x1 [] again s = .next (
      let t := s.ranOn p.val e.val f
      if (s.firstOut f p e x1).2.2 then
        t.storeReadout p.val e.val e.val f (s.allot f) cleanYard (s.oldBank f p e) false (s.firstFlags f p e)
          (s.firstOut f p e x1)
      else
        (s.reexecutor p.val e.val).elim
          ((t.residueHit p.val e.val).modBank p.val e.val (wBank f.bits) (fun _ => { s.oldBank f p e with held := true }))
          (fun k => (t.residueHit p.val e.val).reexecute p.val e.val k f (s.allot f) (s.oldBank f p e) again)) := by
  have same := s.ranOn_reads p.val e.val f
  have hit := same.trans (State.residueHit_reads _ p.val e.val)
  have readout : ¬ (wOpcode f.bits ≠ 0x12 ∧ wClear f.bits) := fun k => k.1 h.running.opcode
  have opened : (s.bank p.val e.val (wBank f.bits)).seq ≠ none := Option.isSome_iff_ne_none.mp h.seq
  unfold execReadout State.bankFor State.rebuilt
  rw [State.onEngine_running h.running h.unit]
  simp only [same.bank, same.allot, h.running.good, Bool.false_eq_true, if_false, if_neg opened, if_neg h.anchor, h.holds,
    not_true_eq_false, h.found, if_neg readout, h.whole, same.biasRead h.clean, same.tileFlags, same.tileOut, h.free,
    not_false_eq_true, true_and, hit.reexecutor, State.firstOut, State.firstFlags, State.oldBank]
  cases s.reexecutor p.val e.val <;> rfl

section
variable {s t : State} {ring : Fin 4096} {index : W32} {f : Flight} {p : Fin 8} {e : Fin 20}
  (h : OpenReadout s ring.val index f p e)
include h

theorem OpenReadout.flight (same : SameReads s t) : t.flight ring.val index = some f :=
  (State.flight_congr same.marsh ..).trans h.running.there

theorem OpenReadout.hasEngine (same : SameReads s t) : t.hasEngine p.val e.val :=
  State.hasEngine_of_seq (by rw [same.bank]; exact h.seq)

/-- An output stored from a state that reads as s does. -/
theorem OpenReadout.stored (same : SameReads s t) (k : Nat) (b : Bank) {tile : Flags} {o : WagonOut} (apart : Apart o.1)
    (fed : (wCloses f.bits && (s.engine p.val e.val).feedErr) = true → tile.dataErr = true) :
    let u := t.storeReadout p.val e.val k f (s.allot f) cleanYard b false tile o
    DecidedWith u ring.val index wsOk (o.2.1.or tile) ∧ Stored s u (s.allot f) o.1 ∧ u.mem = s.mem ∧
      u.bank p.val e.val (wBank f.bits) =
        if roKeep f.bits then { b with rebuild := b.rebuild || k ≠ e.val, held := false } else Bank.closed := by
  have stored := State.storeReadout_stores (h.flight same) h.unit (h.hasEngine same) k (s.allot f) b (tile := tile)
    (by rw [same.yard]; exact h.clean) (by rw [same.yard]; exact h.wf) apart (by rw [same.feedErr]; exact fed)
  simpa only [Stored, same.yard, same.mem] using stored

/-- A sequence closed without output from a state that reads as s does. -/
theorem OpenReadout.lost (same : SameReads s t) (status : Byte) {tile : Flags}
    (fed : (wCloses f.bits && (s.engine p.val e.val).feedErr) = true → tile.dataErr = true) :
    let u := t.loseReadout p.val e.val f status tile
    DecidedWith u ring.val index status tile ∧ u.yard = s.yard ∧ u.mem = s.mem ∧
      u.bank p.val e.val (wBank f.bits) = Bank.closed := by
  have closed := State.loseReadout_closes (h.flight same) h.unit (h.hasEngine same) status (tile := tile)
    (by rw [same.feedErr]; exact fed)
  simpa only [same.yard, same.mem] using closed

/-! ### The clauses of O19 -/

variable (x1 x2 : TileFaults)

/-- R114 to R119: where every check agrees the output is stored, and the bank is kept as it was or closed. -/
theorem OpenReadout.agrees_stores (again : Reexecution) (agrees : (s.firstOut f p e x1).2.2 = true)
    (apart : Apart (s.firstOut f p e x1).1) :
    ∃ t, execReadout ring index cleanYard x1 [] again s = .next t ∧
      DecidedWith t ring.val index wsOk ((s.firstOut f p e x1).2.1.or (s.firstFlags f p e)) ∧
      Stored s t (s.allot f) (s.firstOut f p e x1).1 ∧ t.mem = s.mem ∧
      t.bank p.val e.val (wBank f.bits) = if roKeep f.bits then s.oldBank f p e else Bank.closed := by
  have kept : { s.oldBank f p e with rebuild := (s.oldBank f p e).rebuild || e.val ≠ e.val, held := false } =
      s.oldBank f p e := by
    rw [← show (s.oldBank f p e).held = false from h.free]
    simp
  have run := h.execReadout_eq x1 again
  simp only [agrees, if_true] at run
  refine ⟨_, run, ?_⟩
  have stored := h.stored (s.ranOn_reads p.val e.val f) e.val (s.oldBank f p e) (tile := s.firstFlags f p e) apart
    State.tileFlags_fed
  rwa [kept] at stored

/-- R122: where no engine has a free bank a mismatch waits, and the bank is held. -/
theorem OpenReadout.mismatch_waits (again : Reexecution) (mismatch : (s.firstOut f p e x1).2.2 = false)
    (noBank : s.reexecutor p.val e.val = none) :
    ∃ t, execReadout ring index cleanYard x1 [] again s = .next t ∧ t.flight ring.val index = some f ∧
      t.yard = s.yard ∧ t.mem = s.mem ∧
      t.bank p.val e.val (wBank f.bits) = { s.oldBank f p e with held := true } := by
  have hit := (s.ranOn_reads p.val e.val f).trans (State.residueHit_reads _ p.val e.val)
  have run := h.execReadout_eq x1 again
  simp only [mismatch, Bool.false_eq_true, if_false, noBank, Option.elim_none] at run
  refine ⟨_, run, ?_, ?_, ?_, ?_⟩
  · rw [State.flight_congr (State.modBank_marsh ..)]
    exact h.flight hit
  · rw [State.modBank_yard, hit.yard]
  · rw [State.modBank_mem, hit.mem]
  · rw [State.bank_modBank_same (h.hasEngine hit)]

/-- R88, R122: where an engine has a free bank a mismatch is executed again there. -/
theorem OpenReadout.mismatch_again (mismatch : (s.firstOut f p e x1).2.2 = false) {k : Nat}
    (free : s.reexecutor p.val e.val = some k) :
    execReadout ring index cleanYard x1 [] { log := [], ecc := cleanYard, faults := x2 } s = .next (
      let t := ((s.ranOn p.val e.val f).residueHit p.val e.val).ranOn p.val k f
      if (s.secondOut f p e x2).2.2 then
        (t.report (source 1 p.val e.val) 0x0103 f.who 0).storeReadout p.val e.val k f (s.allot f) cleanYard
          (s.replayedBank f p e) false (s.secondFlags f p e) (s.secondOut f p e x2)
      else
        ((t.residueHit p.val k).report (source 1 p.val e.val) 0x0202 f.who 0).loseReadout p.val e.val f wsResidue
          (s.firstFlags f p e)) := by
  have hit := (s.ranOn_reads p.val e.val f).trans (State.residueHit_reads _ p.val e.val)
  rw [h.execReadout_eq]
  dsimp only
  rw [if_neg (by simp [mismatch]), free, Option.elim_some, hit.reexecute h.clean]

/-- R89, R90, R122: an output of the re-execution whose checks agree is stored, and the ledgers are rebuilt before the
sequence goes on. -/
theorem OpenReadout.again_stores (mismatch : (s.firstOut f p e x1).2.2 = false)
    (spare : (s.reexecutor p.val e.val).isSome) (agrees : (s.secondOut f p e x2).2.2 = true)
    (apart : Apart (s.secondOut f p e x2).1) :
    ∃ t, execReadout ring index cleanYard x1 [] { log := [], ecc := cleanYard, faults := x2 } s = .next t ∧
      DecidedWith t ring.val index wsOk ((s.secondOut f p e x2).2.1.or (s.secondFlags f p e)) ∧
      Stored s t (s.allot f) (s.secondOut f p e x2).1 ∧ t.mem = s.mem ∧
      t.bank p.val e.val (wBank f.bits) =
        if roKeep f.bits then { s.replayedBank f p e with rebuild := true } else Bank.closed := by
  obtain ⟨k, free⟩ := Option.isSome_iff_exists.mp spare
  have other : k ≠ e.val := by
    have found := List.find?_some free
    simp only [decide_eq_true_eq] at found
    exact found.1
  have kept : { s.replayedBank f p e with rebuild := (s.replayedBank f p e).rebuild || k ≠ e.val, held := false } =
      { s.replayedBank f p e with rebuild := true } := by
    rw [← show (s.replayedBank f p e).held = false from h.free]
    simp [other]
  have reads := (((s.ranOn_reads p.val e.val f).trans (State.residueHit_reads _ p.val e.val)).trans
    (State.ranOn_reads _ p.val k f)).trans (State.report_reads _ (source 1 p.val e.val) 0x0103 f.who 0)
  have run := h.mismatch_again x1 x2 mismatch free
  simp only [agrees, if_true] at run
  refine ⟨_, run, ?_⟩
  have stored := h.stored reads k (s.replayedBank f p e) (tile := s.secondFlags f p e) apart State.tileFlags_fed
  rwa [kept] at stored

/-- R91, R92: a re-execution that mismatches too ends the READOUT without output. -/
theorem OpenReadout.again_mismatches (mismatch : (s.firstOut f p e x1).2.2 = false)
    (spare : (s.reexecutor p.val e.val).isSome) (again : (s.secondOut f p e x2).2.2 = false) :
    ∃ t, execReadout ring index cleanYard x1 [] { log := [], ecc := cleanYard, faults := x2 } s = .next t ∧
      DecidedWith t ring.val index wsResidue (s.firstFlags f p e) ∧ t.yard = s.yard ∧ t.mem = s.mem ∧
      t.bank p.val e.val (wBank f.bits) = Bank.closed := by
  obtain ⟨k, free⟩ := Option.isSome_iff_exists.mp spare
  have reads := ((((s.ranOn_reads p.val e.val f).trans (State.residueHit_reads _ p.val e.val)).trans
    (State.ranOn_reads _ p.val k f)).trans (State.residueHit_reads _ p.val k)).trans
    (State.report_reads _ (source 1 p.val e.val) 0x0202 f.who 0)
  have run := h.mismatch_again x1 x2 mismatch free
  simp only [again, Bool.false_eq_true, if_false] at run
  exact ⟨_, run, h.lost reads wsResidue State.tileFlags_fed⟩

end

/-- Settles O19: one lemma for each way that the checks of a READOUT and of its re-execution can come out. -/
theorem readoutStores : Obligations.ReadoutStores := by
  intro s ring x f p e x1 x2 running unit clean wf w y old bias tile o cmd seq found whole free anchor holds
  have h : OpenReadout s ring.val x f p e := ⟨running, unit, clean, wf, seq, found, whole, free, anchor, holds⟩
  exact ⟨h.agrees_stores x1 _, h.mismatch_waits x1 _, fun mismatch free =>
    ⟨h.again_stores x1 x2 mismatch free, h.again_mismatches x1 x2 mismatch free⟩⟩

end Sys2Proof.Machine
end

section
/-! SUPPORT. A packet sent on: the port it takes or its wait for one, and what a send leaves (R289, R297). -/

namespace Sys2Proof.Machine

/-- A port picked for a packet is one of the route that is UP. -/
theorem State.pickPort_route {s : State} {node : W32} {vl avoided i : Nat} (h : s.pickPort node vl avoided = some i) :
    i ∈ s.route node := by
  have turn := List.mem_of_find?_eq_some h
  have tried : i ∈ s.portsFor node avoided := by
    rcases List.mem_append.mp turn with k | k <;> exact (List.mem_filter.mp k).1
  unfold State.portsFor at tried
  dsimp only at tried
  split at tried
  · exact tried
  · exact (List.mem_filter.mp tried).1

/-- A packet that is placed changes the rails alone. -/
theorem State.place_keeps (s : State) (o : OutPacket) : s.place_ o = { s with rails := (s.place_ o).rails } := by
  unfold State.place_ State.takePort
  split
  · dsimp only; split <;> rfl
  · rfl

/-- A packet that gets an answer takes a port of its route, or waits for one. -/
theorem State.place_sent (s : State) (o : OutPacket) (answered : kindAnswered o.packet.kind = true) :
    ∃ port, Sent s (s.place_ o) { o with port := port } := by
  unfold State.place_
  split
  · rename_i i picked
    split at picked
    · cases picked
    · refine ⟨i, .inl ⟨?_, ?_, s.pickPort_route picked⟩⟩ <;> simp [State.takePort, answered, State.queueOn]
  · exact ⟨o.port, .inr ⟨rfl, rfl⟩⟩

/-- A packet toward a destination that has a route is placed. -/
theorem State.launch_sent {s : State} {p : Packet} (answered : kindAnswered p.kind = true) (routed : s.route p.dst ≠ [])
    (ctx : Nat) (w : Waiter) :
    ∃ u port, s.launch p ctx w = some u ∧ u = { s with rails := u.rails } ∧
      Sent s u { packet := p, port := port, ctx := ctx, waiter := w } := by
  have reached : s.unreachable p.dst = false := by simpa [State.unreachable] using routed
  obtain ⟨port, sent⟩ := s.place_sent { packet := p, port := 20, ctx := ctx, waiter := w } answered
  exact ⟨_, port, if_neg (by simp [reached]), s.place_keeps _, sent⟩

/-- A request packet to a peer that has a route leaves under the next tag, and changes the rails alone. -/
theorem State.sendTo_sent {s : State} {kind : Nat} {p : Peer} (answered : kindAnswered kind = true)
    (node : s.rails.node ≠ noNode) (forms : s.rails.stopped = false) (routed : s.route p.node ≠ []) (arg pflags : Nat)
    (data : List Byte) (ctx : Nat) (w : Waiter) :
    ∃ u port, s.sendTo kind p arg pflags data ctx w = some (s.rails.nextTag, u) ∧ u = { s with rails := u.rails } ∧
      Sent s u { packet := s.form kind p.node p.remoteCtx p.remoteGen arg pflags data
                 port := port, ctx := ctx, waiter := w } := by
  obtain ⟨u, port, launched, keeps, sent⟩ :=
    State.launch_sent (s := { s with rails.nextTag := (s.rails.nextTag + 1) % 2 ^ 32 })
      (p := s.form kind p.node p.remoteCtx p.remoteGen arg pflags data) answered routed ctx w
  refine ⟨u, port, ?_, keeps, sent⟩
  unfold State.sendTo
  rw [if_neg (by simp [node, forms])]
  dsimp only
  rw [launched]

end Sys2Proof.Machine
end

section
/-! STEP_COMMIT: settles O15 (R176, R196 to R198, R260, R261). -/

namespace Sys2Proof.Machine

/-! ### Wagons at the token unit -/

/-- The wagon of a ring at an index stands at the token unit with its fence met, and the compute clock runs (R176, R609). -/
structure AtFence (s : State) (ring : Nat) (index : W32) (f : Flight) (op : Nat) : Prop where
  there : s.flight ring index = some f
  clock : s.frozen = false
  here : f.stage = .queued ∨ f.stage = .started
  good : badWagon f.bits = false
  opcode : wOpcode f.bits = op
  met : s.fenceMet f = true

/-- A well-formed wagon whose fence is met is acted on. -/
theorem AtFence.onFenced {s : State} {ring : Nat} {index : W32} {f : Flight} {op : Nat} (h : AtFence s ring index f op)
    (act : Flight → State → State) : s.onFenced op ring index act = act f s := by
  have waits : atTokenUnit op f = true := by
    unfold atTokenUnit
    rcases h.here with k | k <;> simp [k, h.opcode]
  unfold State.onFenced State.onFlight
  simp only [h.there, h.clock, waits, h.met, h.good, not_true_eq_false, Bool.false_eq_true, or_self, if_false]

/-! ### The outcomes of a commit -/

/-- An entry that is written ACTIVE reads as written. -/
theorem State.ctx_modCtx_live {s : State} {c : Nat} {f : Context → Context} (h : (f (s.ctx c)).state = .active) :
    (s.modCtx c f).ctx c = f (s.ctx c) :=
  s.ctx_modCtx_ne c f fun free => by cases h.symm.trans (congrArg Context.state free)

/-- R261: a mirror whose buddy can be reached opens with a MIRROR_OPEN for its slot, and waits for the answer. -/
theorem State.sendOpen_sends {s : State} {ctx : Nat} {p : Peer} (live : (s.ctx ctx).state = .active)
    (buddy : (s.ctx ctx).buddyPeer = some p) (node : s.rails.node ≠ noNode) (forms : s.rails.stopped = false)
    (routed : s.route p.node ≠ []) (m : Mirror) :
    let t := s.sendOpen ctx m
    (t.ctx ctx).mirror = some { m with tags := [s.rails.nextTag] } ∧ (t.ctx ctx).step = (s.ctx ctx).step ∧
      ∃ o, Sent s t o ∧ o.packet.kind = 4 ∧ o.packet.dst = p.node ∧ o.packet.arg = (s.ctx ctx).step + 1 ∧
        o.packet.pflags = slotNo m.slot ∧ o.waiter = .mirrorOpen ctx := by
  obtain ⟨u, port, sends, keeps, sent⟩ :=
    State.sendTo_sent (s := s.modCtx ctx (fun c => { c with mirror := some m })) (kind := 4) (p := p) rfl node forms
      routed ((s.ctx ctx).step + 1).toNat (slotNo m.slot) [] ctx (.mirrorOpen ctx)
  have entry : u.ctx ctx = { s.ctx ctx with mirror := some m } := by
    rw [keeps]
    exact State.ctx_modCtx_live (s := s) (f := fun c => { c with mirror := some m }) live
  unfold State.sendOpen
  simp only [buddy, Option.bind_some, sends]
  rw [State.ctx_modCtx_live (by rw [entry]; exact live), entry]
  exact ⟨rfl, rfl, _, sent, rfl, rfl, BitVec.ofNat_toNat .., rfl, rfl⟩

/-- R198, R260: a commit that acts moves the step of its context on, and leaves every other context. -/
theorem State.commitStep_ctx {s : State} {c : Nat} (live : (s.ctx c).state = .active) (ring : Nat) (index : W32) :
    let t := s.commitStep ring index c
    let x := s.ctx c
    t.ctx c = { x with step := x.step + 1, dPrev := x.dCur, dCur := [], mirror := none } ∧
      ∀ n, n ≠ c → t.ctx n = s.ctx n := by
  have keeps : ∀ u : State, (u.decide ring index wsOk 0).ctx = u.ctx := fun _ => rfl
  unfold State.commitStep
  dsimp only
  rw [keeps]
  exact ⟨State.ctx_modCtx_live live, fun _ other => State.ctx_modCtx_other _ _ other⟩

/-- R196 to R198: what a STEP_COMMIT on its commit ring does once its fence is met. -/
theorem AtFence.execStepCommit {s : State} {ring : Fin 4096} {index : W32} {f : Flight}
    (h : AtFence s ring.val index f 0x43) (commits : (s.ctx f.ctx).commitRing = ring.val) :
    exec (.stepCommit ring index) s = .next (
      let c := s.ctx f.ctx
      if tkExpect f.bits ≠ c.step + 1 then s.decide ring.val index wsStepMismatch 0
      else if f.fence.getD c.stepInvalid then s.decide ring.val index wsStepInvalid 0
      else if c.regions = [] then s.commitStep ring.val index f.ctx
      else (s.modFlight ring.val index (fun x => { x with stage := .waiting })).beginMirror ring.val index f.ctx) := by
  show Host.Outcome.next (s.onFenced 0x43 ring.val index _) = _
  rw [h.onFenced]
  dsimp only
  rw [if_neg (not_not_intro commits)]

/-- Settles O15: one branch of the commit for each clause. -/
theorem stepCommits : Obligations.StepCommits := by
  intro s ring x f there clock here good opcode met commits c invalid
  have h : AtFence s ring.val x f 0x43 := ⟨there, clock, here, good, opcode, met⟩
  rw [h.execStepCommit commits]
  refine ⟨fun other => ?_, fun next broken => ?_, fun next valid live => ?_⟩
  · rw [if_pos other]
  · rw [if_neg (not_not_intro next), if_pos broken]
  · have whole : ¬ invalid = true := by simp [valid]
    rw [if_neg (not_not_intro next), if_neg whole]
    constructor
    · intro uncoupled
      rw [if_pos uncoupled]
      exact ⟨_, rfl, rfl, State.commitStep_ctx live ..⟩
    · intro p coupled buddy node forms routed
      rw [if_neg coupled]
      obtain ⟨mirror, step, o, sent, packet⟩ := State.sendOpen_sends
        (s := s.modFlight ring.val x (fun g => { g with stage := .waiting })) live buddy node forms routed _
      exact ⟨_, _, o, rfl, mirror, rfl, rfl, rfl, rfl, rfl, step, sent, packet⟩

end Sys2Proof.Machine
end

section
/-! CONTEXT_HALT over a context table that lists its context twice: refutes O5 (R152, R206, R211, R246, R611). -/

namespace Sys2Proof.Machine

/-- A reply leaves every context. -/
theorem State.ok_ctx (s : State) (r : Request) (payload : List Byte) (c : Nat) : (s.ok r payload).ctx c = s.ctx c := by
  rw [show s.ok r payload = _ from s.ok_only r payload]
  rfl

/-- R206: a CONTEXT_HALT that no check refuses halts every ring of its context and answers the generation reached. -/
theorem execContextHalt_asked {s : State} {r : Request} {rest : List Request} {ch : Chan} {c : Nat}
    (asked : Asked s ch 0x0202 r rest) (power : s.power.state ≠ .holdUp) (names : Naming s r c)
    (shaped : Shaped r 8 [(6, 2)]) :
    exec (.contextHalt ch) s = .next (
      let u := (s.started ch r rest).haltAll c .context
      u.ok r (leBytes 2 (u.ctx c).gen.toNat ++ leBytes 2 0)) := by
  obtain ⟨rfl, inTable, live, gen⟩ := names
  have passes : (s.started ch r rest).ctxRefusal r = none := by
    unfold State.ctxRefusal
    rw [if_neg (by omega)]
    rcases live with h | h <;> simp [h, gen]
  have unrefused : (s.started ch r rest).refusal r
      { lenOk := lenIs 8, reserved := [(6, 2)], ctx := true } false = none :=
    State.refusal_none asked.whole asked.noBlock asked.noHost (by simp [power]) (fun _ => rfl) rfl shaped.lenOk shaped.2
      (fun _ => passes)
  show Host.Outcome.next (s.onRequest ch _ _ _) = _
  rw [State.onRequest_asked asked rfl unrefused]

/-- An ACTIVE context of generation 1 with one writable page. -/
def pagedContext : Context :=
  { Context.reset with state := .active, pages := [{ vbase := 0, big := false, addr := 0, write := true }] }

/-- A CONTEXT_CREATE that waits for the zeroing of frame 0. -/
def waitingGrant : Grant :=
  { ctx := 0, frames := [0], payload := [], pages := [{ vbase := 0, big := false, addr := 0, write := true }]
    req := { chan := .pcie, opcode := 0x0200, flags := 0, client := 1, tag := 0, ack := 0, payload := [], broken := false } }

/-- A NOP of ring 0 under context 0. -/
def dispatchedNop : Flight :=
  { ring := 0, index := 0, ctx := 0, gen := 1, bits := 1, unit := .token 0, stage := .queued, tile := 0, status := 0
    flags := 0, causes := [], plane := 0, row := 0, col := 0, issuedAll := false, peer := none, tags := []
    cutShort := false, fence := none, list := [] }

/-- CONTEXT_HALT of context 0 under generation 1. -/
def haltRequest : Request :=
  { chan := .pcie, opcode := 0x0202, flags := 0, client := 1, tag := 0, ack := 0
    payload := [0, 0, 0, 0, 1, 0, 0, 0], broken := false }

/-- Context 0 is listed twice, the second entry of generation 7; its NOP's record goes into a line left
uncorrectable, and a grant waits for the frame of that line. -/
def twiceListed : State :=
  { State.reset with
    ctxs := [(0, pagedContext), (0, { Context.reset with gen := 7 })]
    rings := [(0, { Ring.reset with state := .running, logSize := 6 })]
    marsh.flights := [dispatchedNop]
    mem.damaged := [0]
    mem.grants := [waitingGrant]
    book.fwState := 3
    book.pcie.received := [haltRequest]
    power.state := .run }

theorem twiceListed_asked : Asked twiceListed .pcie 0x0202 haltRequest [] :=
  ⟨rfl, rfl, rfl, rfl, by decide +kernel, rfl, rfl, rfl⟩

theorem twiceListed_naming : Naming twiceListed haltRequest 0 :=
  ⟨by decide +kernel, by decide, .inl rfl, by decide +kernel⟩

/-- The record retires frame 0, the grant is dropped with its shortfall, and the entry reset to generation 1, which is
what an unlisted context reads as, leaves the table: the second one shows, and the halt raises its generation. -/
theorem twiceListed_halted_gen :
    (((twiceListed.started .pcie haltRequest []).haltAll 0 .context).ctx 0).gen = 8 := by decide +kernel

/-- Refutes O5: no hypothesis says that the context table lists a context once, and where it lists context 0 twice, the
halt that resets the first entry (R211) raises the generation of the second: 8 follows 1. -/
theorem not_contextHaltAndResume : ¬ Obligations.ContextHaltAndResume := by
  intro h
  have power : twiceListed.power.state ≠ .holdUp := by decide
  have shaped : Shaped haltRequest 8 [(6, 2)] := ⟨rfl, by decide +kernel⟩
  obtain ⟨t, ran, -, -, gen, -⟩ :=
    (h twiceListed haltRequest [] .pcie 0 power twiceListed_naming).1 twiceListed_asked shaped
  rw [execContextHalt_asked twiceListed_asked power twiceListed_naming shaped] at ran
  obtain rfl := Host.Outcome.next.inj ran
  rw [State.ok_ctx, twiceListed_halted_gen] at gen
  exact absurd gen (by decide +kernel)

end Sys2Proof.Machine
end

section
/-! The scrubs of module memory and of the Yard: what a retirement leaves, and O12 (R241 to R247, R251). -/

namespace Sys2Proof.Machine

/-! ### Reports and the descriptor -/

@[simp] theorem State.report_memory (s : State) (src : W32) (code : Nat) (ctx : Option (Nat × W16)) (info : W32) :
    (s.report src code ctx info).mem = s.mem := by
  obtain ⟨g, h⟩ := s.report_eq src code ctx info
  rw [h]

@[simp] theorem State.report_yard (s : State) (src : W32) (code : Nat) (ctx : Option (Nat × W16)) (info : W32) :
    (s.report src code ctx info).yard = s.yard := by
  obtain ⟨g, h⟩ := s.report_eq src code ctx info
  rw [h]

@[simp] theorem State.report_deaf (s : State) (src : W32) (code : Nat) (ctx : Option (Nat × W16)) (info : W32) :
    (s.report src code ctx info).sbx.deaf = s.sbx.deaf := by
  unfold State.report
  split <;> rfl

/-- R476, R479: a report of a source that is heard stands among the reports with the INFO that it carries. -/
theorem State.report_heard {s : State} {src : W32} (heard : src ∉ s.sbx.deaf) (code : Nat) (ctx : Option (Nat × W16))
    (info : W32) :
    ∃ e ∈ (s.report src code ctx info).sbx.reports, e.source = src ∧ e.code = code ∧ e.info = info := by
  unfold State.report
  rw [if_neg heard]
  exact ⟨_, List.mem_append_right _ (List.mem_singleton_self _), rfl, rfl, rfl⟩

@[simp] theorem State.recap_memory (f : State → State) (s : State) : (s.recap f).mem = (f s).mem := by
  obtain ⟨n, h⟩ := State.recap_eq f s
  rw [h]

@[simp] theorem State.recap_yard (f : State → State) (s : State) : (s.recap f).yard = (f s).yard := by
  obtain ⟨n, h⟩ := State.recap_eq f s
  rw [h]

@[simp] theorem State.recap_sbx (f : State → State) (s : State) : (s.recap f).sbx = (f s).sbx := by
  obtain ⟨n, h⟩ := State.recap_eq f s
  rw [h]

theorem mem_addTo_self {α : Type} [DecidableEq α] (x : α) (l : List α) : x ∈ addTo x l := by
  unfold addTo
  split
  · assumption
  · simp

/-! ### Grants placed anew -/

/-- What differs is what grants change: those that wait, the frames that await zeroing, contexts, tokens, and what a
reply changes. -/
def OnlyGrants (s t : State) : Prop :=
  t = { s with
    mem.grants := t.mem.grants, mem.zeroing := t.mem.zeroing, ctxs := t.ctxs, tokens := t.tokens
    book := t.book, trg := t.trg, out := t.out }

theorem OnlyGrants.trans {s t u : State} (h : OnlyGrants s t) (k : OnlyGrants t u) : OnlyGrants s u := by
  unfold OnlyGrants at *
  rw [k, h]

theorem OnlyBook.onlyGrants {s t : State} (h : OnlyBook s t) : OnlyGrants s t := by
  unfold OnlyGrants
  rw [show t = _ from h]

theorem State.grantPages_only (s : State) (ctx : Nat) (ps : List Page) (r : Request) (payload : List Byte) :
    OnlyGrants s (s.grantPages ctx ps r payload) := by
  unfold State.grantPages
  dsimp only
  split
  · exact OnlyGrants.trans (t := s.modCtx ctx (fun c => { c with pages := addPages c.pages ps })) rfl
      (State.ok_only ..).onlyGrants
  · rfl

theorem State.dropGrant_only (s : State) (g : Grant) (short : Nat) : OnlyGrants s (s.dropGrant g short) := by
  unfold State.dropGrant
  have replied := (State.reply_only s g.req stShort 0 (leBytes 8 short ++ leBytes 20 0)).onlyGrants
  dsimp only
  split
  · exact replied.trans rfl
  · exact replied

theorem State.placeAgain_only (s : State) (g : Grant) : OnlyGrants s (s.placeAgain g) := by
  obtain ⟨short, h⟩ | ⟨ps, h⟩ := s.placeAgain_cases g
  · rw [h]; exact s.dropGrant_only g short
  · rw [h]; exact s.grantPages_only ..

/-- R248: grants placed anew after a retirement change what grants change. -/
theorem State.mendGrants_only (s : State) : OnlyGrants s s.mendGrants := by
  unfold State.mendGrants
  exact List.foldlRecOn _ State.placeAgain rfl (fun t h g _ => h.trans (t.placeAgain_only g))

@[simp] theorem State.mendGrants_damaged (s : State) : s.mendGrants.mem.damaged = s.mem.damaged := by
  rw [show s.mendGrants = _ from s.mendGrants_only]

@[simp] theorem State.mendGrants_retired (s : State) : s.mendGrants.mem.retired = s.mem.retired := by
  rw [show s.mendGrants = _ from s.mendGrants_only]

@[simp] theorem State.mendGrants_sbx (s : State) : s.mendGrants.sbx = s.sbx := by
  rw [show s.mendGrants = _ from s.mendGrants_only]

/-! ### Module memory -/

/-- R247, R251: a retirement enters the frame, and leaves the uncorrectable lines and what the Signal Box hears. -/
theorem State.retireFrame_enters (s : State) (f dev : Nat) :
    let t := s.retireFrame f dev
    f ∈ t.mem.retired ∧ t.mem.damaged = s.mem.damaged ∧ t.sbx.deaf = s.sbx.deaf := by
  unfold State.retireFrame
  split
  case isTrue already => exact ⟨already, rfl, rfl⟩
  case isFalse =>
    dsimp only
    split <;> simp

/-- R243, R246, R247: an uncorrectable read marks its line and retires its frame. -/
theorem State.memBad_retires (s : State) (addr : Nat) :
    let t := s.memBad addr
    addr / 64 ∈ t.mem.damaged ∧ addr / 2 ^ 21 ∈ t.mem.retired ∧ t.sbx.deaf = s.sbx.deaf := by
  obtain ⟨b, ticket⟩ : ∃ b, State.memTicket { s with mem.damaged := addTo (addr / 64) s.mem.damaged } addr =
      { s with mem.damaged := addTo (addr / 64) s.mem.damaged, book := b } := State.event_eq ..
  unfold State.memBad
  rw [ticket]
  obtain ⟨retired, damaged, deaf⟩ := State.retireFrame_enters
    { s with mem.damaged := addTo (addr / 64) s.mem.damaged, book := b } (addr / 2 ^ 21) (s.mem.locate addr).1
  exact ⟨damaged ▸ mem_addTo_self .., retired, deaf⟩

/-- The corrected reads of the last 24 h at a place, with one more of them now. -/
theorem length_corrected_again (s : State) (place : Nat) (l : List Corrected) :
    ((l.filter (fun e => s.within e.sec 86400) ++ [⟨place, s.trg.seconds⟩] : List Corrected).filter
      (fun e => e.place = place)).length =
    (l.filter (fun e => s.within e.sec 86400 ∧ e.place = place)).length + 1 := by
  simp [List.filter_filter, Bool.and_comm]

theorem State.memCorrected_damaged (s : State) (addr : Nat) :
    (s.memCorrected addr).mem.damaged = s.mem.damaged := by
  unfold State.memCorrected
  dsimp only
  split
  · rw [(State.retireFrame_enters ..).2.1, State.report_memory]
  · rw [State.report_memory]

/-- R247: the third corrected read of a line within 24 h retires its frame. -/
theorem State.memCorrected_retires (s : State) (addr : Nat)
    (twice : 2 ≤ (s.mem.corrected.filter (fun e => s.within e.sec 86400 ∧ e.place = addr / 64)).length) :
    addr / 2 ^ 21 ∈ (s.memCorrected addr).mem.retired := by
  unfold State.memCorrected
  dsimp only
  rw [if_pos (.inl (by rw [length_corrected_again]; omega))]
  exact (State.retireFrame_enters ..).1

/-- The lines of module memory are 64 bytes, 2^15 of them to a frame. -/
theorem line_of_addr (line : Nat) : 64 * line / 64 = line ∧ 64 * line / 2 ^ 21 = line / 2 ^ 15 := by omega

/-- R246: a read that comes out uncorrectable, whether or not the line was left so. -/
theorem State.lineRead_bad (s : State) (addr : Nat) : s.lineRead addr .bad = (true, s.memBad addr) := by
  simp [State.lineRead, State.lineOutcome]

/-- R241, R246: a line that is not left uncorrectable reads as it comes out. -/
theorem State.lineRead_sound {s : State} {addr : Nat} (sound : addr / 64 ∉ s.mem.damaged) :
    s.lineRead addr .clean = (false, s) ∧ s.lineRead addr .corrected = (false, s.memCorrected addr) := by
  simp [State.lineRead, State.lineOutcome, sound]

/-- R244, R246: a scrub read of module memory is a read of the line, reported with its frame where uncorrectable. -/
theorem execPatrolScrubRead_inside {s : State} {line : Nat} (inside : 64 * line < s.mem.total) (ecc : Ecc) :
    ∃ ctx, exec (.patrolScrubRead line ecc) s = .next (
      let t := s.lineRead (64 * line) ecc
      if t.1 then
        t.2.report (s.memSource (64 * line)) 0x0309 ctx (BitVec.ofNat 32 (64 * line / 2 ^ 21))
      else t.2) :=
  ⟨_, congrArg Host.Outcome.next (if_neg (by omega))⟩

/-- R246, R247: the scrub of a line that comes out uncorrectable. -/
theorem execPatrolScrubRead_bad {s : State} {line : Nat} (inside : 64 * line < s.mem.total) :
    ∃ t, exec (.patrolScrubRead line .bad) s = .next t ∧ line ∈ t.mem.damaged ∧ line / 2 ^ 15 ∈ t.mem.retired ∧
      t.mem.bytes = s.mem.bytes ∧ (s.memSource (64 * line) ∉ s.sbx.deaf →
        ∃ e ∈ t.sbx.reports, e.source = s.memSource (64 * line) ∧ e.code = 0x0309 ∧
          e.info = BitVec.ofNat 32 (line / 2 ^ 15)) := by
  obtain ⟨ofLine, ofFrame⟩ := line_of_addr line
  obtain ⟨ctx, ran⟩ := execPatrolScrubRead_inside inside .bad
  obtain ⟨damaged, retired, deaf⟩ := s.memBad_retires (64 * line)
  simp only [State.lineRead_bad, if_true, ofFrame] at ran
  rw [ofLine] at damaged
  rw [ofFrame] at retired
  refine ⟨_, ran, ?_, ?_, ?_, fun heard => State.report_heard (by rwa [deaf]) ..⟩
  · rwa [State.report_memory]
  · rwa [State.report_memory]
  · rw [State.report_memory, (s.memBad_same _).mem]

/-- R244, R247: the scrub of a line that is not left uncorrectable, where it comes out clean and where corrected. -/
theorem execPatrolScrubRead_sound {s : State} {line : Nat} (inside : 64 * line < s.mem.total)
    (sound : line ∉ s.mem.damaged) :
    exec (.patrolScrubRead line .clean) s = .next s ∧
      ∃ t, exec (.patrolScrubRead line .corrected) s = .next t ∧ t.mem.damaged = s.mem.damaged ∧
        (2 ≤ (s.mem.corrected.filter (fun e => s.within e.sec 86400 ∧ e.place = line)).length →
          line / 2 ^ 15 ∈ t.mem.retired) := by
  obtain ⟨ofLine, ofFrame⟩ := line_of_addr line
  rw [← ofLine] at sound
  obtain ⟨_, clean⟩ := execPatrolScrubRead_inside inside .clean
  obtain ⟨_, corrected⟩ := execPatrolScrubRead_inside inside .corrected
  rw [(State.lineRead_sound sound).1] at clean
  rw [(State.lineRead_sound sound).2] at corrected
  refine ⟨clean, _, corrected, s.memCorrected_damaged _, fun twice => ?_⟩
  rw [← ofFrame]
  exact s.memCorrected_retires _ (by rwa [ofLine])

/-! ### The Yard -/

/-- R225: a reserved region that moves on leaves the retired blocks, the uncorrectable words and the Signal Box. -/
theorem State.moveReserved_keeps (s : State) (k : Nat) :
    let t := s.moveReserved k
    t.yard.retired = s.yard.retired ∧ t.yard.damaged = s.yard.damaged ∧ t.sbx = s.sbx := by
  unfold State.moveReserved
  split <;> exact ⟨rfl, rfl, rfl⟩

/-- R225, R247: a retirement enters the block, and leaves the uncorrectable words and the Signal Box. -/
theorem State.retireBlock_enters (s : State) (k : Nat) :
    let t := s.retireBlock k
    k ∈ t.yard.retired ∧ t.yard.damaged = s.yard.damaged ∧ t.sbx = s.sbx := by
  unfold State.retireBlock
  split
  case isTrue already => exact ⟨already, rfl, rfl⟩
  case isFalse =>
    simp only [State.recap_yard, State.recap_sbx]
    split
    · simp [State.moveReserved_keeps]
    · split <;> simp [State.moveReserved_keeps]

/-- R246, R247: an uncorrectable read marks its word and retires its block. -/
theorem State.yardBad_retires (s : State) (w : Nat) :
    let t := s.yardBad w
    w ∈ t.yard.damaged ∧ w / 8192 ∈ t.yard.retired ∧ t.sbx = s.sbx := by
  obtain ⟨retired, damaged, signals⟩ :=
    State.retireBlock_enters { s with yard.damaged := addTo w s.yard.damaged } (w / 8192)
  exact ⟨damaged ▸ mem_addTo_self .., retired, signals⟩

theorem State.yardCorrected_damaged (s : State) (w : Nat) : (s.yardCorrected w).yard.damaged = s.yard.damaged := by
  unfold State.yardCorrected
  dsimp only
  split
  · rw [(State.retireBlock_enters ..).2.1, State.report_yard]
  · rw [State.report_yard]

/-- R247: the third corrected read of a word within 24 h retires its block. -/
theorem State.yardCorrected_retires (s : State) (w : Nat)
    (twice : 2 ≤ (s.yard.corrected.filter (fun e => s.within e.sec 86400 ∧ e.place = w)).length) :
    w / 8192 ∈ (s.yardCorrected w).yard.retired := by
  unfold State.yardCorrected
  dsimp only
  rw [if_pos (.inl (by rw [length_corrected_again]; omega))]
  exact (State.retireBlock_enters ..).1

/-- A word that the Yard's scrub reads: one of a partition in service or held (R245). -/
def State.scrubs (s : State) (p : Fin 8) (word : Nat) : Prop :=
  word < yardWordCount ∧ ((s.part p.val).unit = .inService ∨ (s.part p.val).unit = .held)

section YardScrub
variable {s : State} {p : Fin 8} {word : Nat} (h : s.scrubs p word)
include h

/-- R245, R246: what a scrub read of the Yard does, once the place of the pass has moved on. -/
theorem State.scrubs.exec_eq (ecc : Ecc) :
    let w := p.val * 2 ^ 24 + word
    exec (.yardScrubRead p word ecc) s = .next (
      if w ∈ s.yard.damaged ∨ ecc = .bad then
        ((s.scrubbed w).yardBad w).report (source 7 p.val 0) 0x0309 ((s.scrubbed w).blockHolder p.val (word / 8192))
          (yardInfo w)
      else if ecc = .corrected then (s.scrubbed w).yardCorrected w
      else s.scrubbed w) := by
  obtain ⟨inside, works⟩ := h
  refine congrArg Host.Outcome.next (if_neg ?_)
  rintro (beyond | ⟨outOfService, released⟩)
  · omega
  · exact works.elim outOfService released

/-- R246, R247: the scrub of a word that comes out uncorrectable. -/
theorem State.scrubs.bad :
    let w := p.val * 2 ^ 24 + word
    ∃ t, exec (.yardScrubRead p word .bad) s = .next t ∧ w ∈ t.yard.damaged ∧ w / 8192 ∈ t.yard.retired ∧
      t.yard.bytes = s.yard.bytes ∧ (source 7 p.val 0 ∉ s.sbx.deaf →
        ∃ e ∈ t.sbx.reports, e.source = source 7 p.val 0 ∧ e.code = 0x0309 ∧ e.info = yardInfo w) := by
  intro w
  obtain ⟨damaged, retired, signals⟩ := (s.scrubbed w).yardBad_retires w
  refine ⟨_, (h.exec_eq .bad).trans (congrArg _ (if_pos (.inr rfl))), ?_, ?_, ?_,
    fun heard => State.report_heard (by rwa [signals]) ..⟩
  · rwa [State.report_yard]
  · rwa [State.report_yard]
  · rw [State.report_yard, ((s.scrubbed w).yardBad_same w).yard]
    rfl

/-- R245, R247: the scrub of a word that is not left uncorrectable, where it comes out clean and where corrected. -/
theorem State.scrubs.sound :
    let w := p.val * 2 ^ 24 + word
    w ∉ s.yard.damaged →
      exec (.yardScrubRead p word .clean) s = .next (s.scrubbed w) ∧
      ∃ t, exec (.yardScrubRead p word .corrected) s = .next t ∧ t.yard.damaged = s.yard.damaged ∧
        (2 ≤ (s.yard.corrected.filter (fun e => s.within e.sec 86400 ∧ e.place = w)).length →
          w / 8192 ∈ t.yard.retired) := by
  intro w sound
  have runs (ecc : Ecc) (readable : ecc ≠ .bad) : exec (.yardScrubRead p word ecc) s =
      .next (if ecc = .corrected then (s.scrubbed w).yardCorrected w else s.scrubbed w) :=
    (h.exec_eq ecc).trans (congrArg _ (if_neg (not_or.mpr ⟨sound, readable⟩)))
  exact ⟨runs .clean (by decide), _, runs .corrected (by decide), (s.scrubbed w).yardCorrected_damaged w,
    (s.scrubbed w).yardCorrected_retires w⟩

end YardScrub

/-- Settles O12: module memory and the Yard, each by what an uncorrectable read does and what another one does. -/
theorem scrubsRetire : Obligations.ScrubsRetire := by
  intro s
  constructor
  · exact fun line inside => ⟨execPatrolScrubRead_bad inside, execPatrolScrubRead_sound inside⟩
  · intro p word inside works
    have h : s.scrubs p word := ⟨inside, works⟩
    exact ⟨h.bad, h.sound⟩

end Sys2Proof.Machine
end

section
/-! SUPPORT. The links of the ports under the sending and the loss of packets: a port changes in the flits queued on it alone
(R193, R263, R265, R288, R293, R297, R304, R315). -/

namespace Sys2Proof.Machine

/-- A port without the flits that are queued on it. -/
@[simps]
def Port.link (p : Port) : Port := { p with txq := [] }

/-- The ports without the flits that are queued on them. -/
def State.links (s : State) : List Port := s.rails.ports.map Port.link

theorem State.links_of_rails {s t : State} (h : t.rails = s.rails) : t.links = s.links := by rw [State.links, h, State.links]

/-- Where the links are the same, each port is, but for the flits queued on it. -/
theorem State.link_port {s t : State} (h : t.links = s.links) (n : Nat) : (t.port n).link = (s.port n).link := by
  have reads (u : State) : (u.port n).link = nth Port.reset.link u.links n := by
    simp [State.port, State.links, nth, Option.getD_map]
  rw [reads, reads, h]

theorem State.ports_length {s t : State} (h : t.links = s.links) : t.rails.ports.length = s.rails.ports.length := by
  simpa [State.links] using congrArg List.length h

/-- A change of one element that a projection does not see. -/
theorem map_setNth {α β : Type} {f : α → α} {g : α → β} (h : ∀ a, g (f a) = g a) (l : List α) (i : Nat) :
    (setNth l i f).map g = l.map g := by
  induction l generalizing i with
  | nil => rfl
  | cons a t ih => cases i <;> simp [setNth, h, ih]

theorem State.modPort_links {s : State} {n : Nat} {f : Port → Port} (h : ∀ p, (f p).link = p.link) :
    (s.modPort n f).links = s.links := map_setNth h ..

/-! ### Packets -/

@[simp] theorem State.place_links (s : State) (o : OutPacket) : (s.place_ o).links = s.links := by
  have queued (i : Nat) : (s.queueOn i o.packet).links = s.links := State.modPort_links fun _ => rfl
  unfold State.place_ State.takePort
  split
  · dsimp only
    split <;> exact queued _
  · rfl

@[simp] theorem State.sendWaiting_links (s : State) : s.sendWaiting.links = s.links :=
  foldl_keeps State.links State.place_links _ _

theorem State.launch_links {s t : State} {p : Packet} {ctx : Nat} {w : Waiter} (h : s.launch p ctx w = some t) :
    t.links = s.links := by
  unfold State.launch at h
  split at h
  · cases h
  · cases h
    exact s.place_links _

@[simp] theorem State.launch_getD_links (s : State) (p : Packet) (ctx : Nat) (w : Waiter) :
    ((s.launch p ctx w).getD s).links = s.links := by
  cases h : s.launch p ctx w with
  | none => rfl
  | some t => exact State.launch_links h

theorem State.sendTo_links {s u : State} {kind arg pflags ctx tag : Nat} {peer : Peer} {data : List Byte} {w : Waiter}
    (h : s.sendTo kind peer arg pflags data ctx w = some (tag, u)) : u.links = s.links := by
  unfold State.sendTo at h
  dsimp only at h
  split at h
  · cases h
  · split at h
    · cases h
    · rename_i launched
      cases h
      exact (State.launch_links launched :)

@[simp] theorem State.dack_links (s : State) (dst tag : W32) (result : Nat) : (s.dack dst tag result).links = s.links :=
  s.launch_getD_links ..

@[simp] theorem State.noticeFor_links (s : State) (x : Packet) : (s.noticeFor x).links = s.links := by
  unfold State.noticeFor State.notice
  split
  · split
    · rfl
    · exact s.launch_getD_links ..
  · rfl

/-! ### What leaves the rails -/

@[simp] theorem State.report_rails (s : State) (src : W32) (code : Nat) (ctx : Option (Nat × W16)) (info : W32) :
    (s.report src code ctx info).rails = s.rails := by
  obtain ⟨g, h⟩ := s.report_eq src code ctx info
  rw [h]

@[simp] theorem State.event_rails (s : State) (op : Nat) (payload : List Byte) : (s.event op payload).rails = s.rails := by
  obtain ⟨b, h⟩ := s.event_eq op payload
  rw [h]

@[simp] theorem State.reply_rails (s : State) (r : Request) (code detail : Nat) (payload : List Byte) :
    (s.reply r code detail payload).rails = s.rails := by
  rw [show s.reply r code detail payload = _ from s.reply_only r code detail payload]

@[simp] theorem State.ok_rails (s : State) (r : Request) (payload : List Byte) : (s.ok r payload).rails = s.rails :=
  s.reply_rails ..

@[simp] theorem State.settle_rails (s : State) (u : UnitRef) : (s.settle u).rails = s.rails := by
  unfold State.settle
  split
  · cases u <;> rfl
  · rfl

@[simp] theorem State.takeFeed_rails (s : State) (u : UnitRef) (w : Wagon) : (s.takeFeed u w).2.rails = s.rails := by
  unfold State.takeFeed
  split
  · rfl
  · cases u <;> rfl

@[simp] theorem State.noteMove_rails (s : State) (src : W32) (f : Flight) (code : Byte) :
    (s.noteMove src f code).rails = s.rails := by
  unfold State.noteMove
  split <;> simp

@[simp] theorem State.tryMove_rails (s : State) (ring : Nat) (index : W32) : (s.tryMove ring index).rails = s.rails := by
  have finished (f : Flight) : (s.finishMove f).rails = s.rails := by
    simp only [State.finishMove, State.finish, State.settle_rails, State.decide_rails, State.takeFeed_rails]
    exact foldl_keeps State.rails (fun _ _ => State.noteMove_rails ..) _ _
  unfold State.tryMove
  split
  · rfl
  · dsimp only
    split <;> simp [finished]

@[simp] theorem State.mirrorFail_rails (s : State) (ctx : Nat) : (s.mirrorFail ctx).rails = s.rails := by
  unfold State.mirrorFail
  split <;> rfl

@[simp] theorem State.mirrorLost_rails (s : State) (c tag : Nat) : (s.mirrorLost c tag).rails = s.rails := by
  unfold State.mirrorLost
  split
  · rfl
  · split <;> simp

@[simp] theorem State.restoreAnswered_rails (s : State) (c tag : Nat) (applied : Bool) :
    (s.restoreAnswered c tag applied).rails = s.rails := by
  have failed : (s.restoreFail c).rails = s.rails := by
    unfold State.restoreFail
    split <;> simp [State.modStore]
  unfold State.restoreAnswered
  split
  · rfl
  · split
    · rfl
    · split
      · exact failed
      · dsimp only
        split <;> simp [State.modStore]

/-! ### Collectives -/

@[simp] theorem State.collAbortTo_links (s : State) (ctx group : Nat) (opseq : W32) (peers : List Nat) :
    (s.collAbortTo ctx group opseq peers).links = s.links := by
  refine foldl_keeps State.links ?_ _ _
  intro t i
  split
  · rfl
  · split
    · rename_i sent
      exact State.sendTo_links sent
    · rfl

@[simp] theorem State.collFinish_links (s : State) (f : Flight) (status : Byte) (except : List Nat) :
    (s.collFinish f status except).links = s.links := by
  show (if status = wsOk ∨ status = wsData then s else s.collAbortTo ..).links = s.links
  split
  · rfl
  · exact s.collAbortTo_links ..

@[simp] theorem State.collTry_links (s : State) (ring : Nat) (index : W32) : (s.collTry ring index).links = s.links := by
  unfold State.collTry
  split
  · rfl
  · split
    · rfl
    · split
      · simp
      · split <;> simp

/-! ### Nodes lost -/

@[simp] theorem State.cause_links (s : State) (f : Flight) (code : Byte) : (s.cause f code).links = s.links := rfl

@[simp] theorem State.wagonAnswered_links (s : State) (ring : Nat) (index : W32) (tag : Nat) (applied : Bool) :
    (s.wagonAnswered ring index tag applied).links = s.links := by
  unfold State.wagonAnswered
  split
  · rfl
  · dsimp only
    split
    · rfl
    · split
      · rw [State.links_of_rails (State.tryMove_rails ..)]
        split <;> rfl
      · split
        · rw [State.collTry_links]
          split <;> rfl
        · rfl

/-- A packet given up leaves the links. -/
theorem State.answered_none_links (s : State) (o : OutPacket) (lines : LineEcc) :
    (s.answered o none lines).links = s.links := by
  unfold State.answered
  cases o.waiter with
  | wagon ring index => exact s.wagonAnswered_links ..
  | restore c => exact State.links_of_rails (s.restoreAnswered_rails ..)
  | nobody => rfl
  | _ => exact State.links_of_rails (s.mirrorLost_rails ..)

/-- R263, R288, R315: the loss of nodes leaves the links. -/
@[simp] theorem State.loseNodes_links (s : State) (p : W32 → Bool) : (s.loseNodes p).links = s.links := by
  have givenUp : (s.giveUp p).links = s.links := foldl_keeps State.links (fun t o => t.answered_none_links o _) _ _
  have lost (t : State) : (t.collLost p).links = t.links :=
    foldl_keeps State.links (fun t f => (State.collTry_links ..).trans (t.cause_links f _)) _ _
  have mirrors (t : State) : (t.mirrorsLost p).links = t.links :=
    foldl_keeps State.links (fun t _ => State.links_of_rails (t.mirrorFail_rails _)) _ _
  rw [State.loseNodes, mirrors, lost, givenUp]

end Sys2Proof.Machine
end

section
/-! A port's link down, its replays and the packets sent again: settles O26 (R269, R278, R284, R287, R288, R297, R304). -/

namespace Sys2Proof.Machine

/-! ### Link down -/

/-- R288: a port that leaves the links starts anew in a state, and its link downs of that cause go up by one. -/
theorem State.portGone_link {s : State} {n : Nat} (here : n < s.rails.ports.length) (st : PortState) (cause : Nat) :
    ((s.portGone n st cause).port n).link =
      { (s.port n).restart st with linkDown := setNth (s.port n).linkDown cause (fun k => k + 1), txq := [] } := by
  have gone : (s.modPort n (fun p => { p.restart st with linkDown := setNth p.linkDown cause (fun k => k + 1) })).port n =
      { (s.port n).restart st with linkDown := setNth (s.port n).linkDown cause (fun k => k + 1) } :=
    s.port_modPort_same _ here
  unfold State.portGone
  rw [State.link_port (State.loseNodes_links ..)]
  exact congrArg Port.link gone

/-- R287: a link declared down. -/
theorem State.linkDown_link {s : State} {n : Nat} (here : n < s.rails.ports.length) (cause : Nat) :
    ((s.linkDown n cause).port n).link =
      { (s.port n).restart .training with linkDown := setNth (s.port n).linkDown cause (fun k => k + 1), txq := [] } := by
  unfold State.linkDown
  dsimp only
  rw [State.port, State.event_rails, State.report_rails]
  exact State.portGone_link here ..

/-! ### Replay -/

theorem sub32_self (a : W32) : sub32 a a = 0 := by simp [sub32]

/-- R319, R320: a replay is counted, and the window that judges the rate may start anew. -/
theorem State.noteReplay_rails (s : State) (n : Nat) :
    ∃ rate, (s.noteReplay n).rails = (s.modPort n (fun q => { q with replays := q.replays + 1, rate := rate })).rails := by
  have reported (c : Prop) [Decidable c] (t : State) (src : W32) :
      (if c then t.report src 0x0308 none 0 else t).rails = t.rails := by split <;> simp
  exact ⟨_, reported ..⟩

/-- R278: the first replay from the oldest flit held. -/
theorem State.startReplay_first {s : State} {n : Nat} {f : Flit} {rest : List Flit} (here : n < s.rails.ports.length)
    (held : (s.port n).replayBuf = f :: rest) (first : (s.port n).lastReplay = none) :
    ∃ rate last, (s.startReplay n f.seq).port n = { s.port n with
      replays := (s.port n).replays + 1, rate := rate, replayAt := some f.seq, lastReplay := last } := by
  obtain ⟨rate, noted⟩ := s.noteReplay_rails n
  have counted : (s.noteReplay n).port n = { s.port n with replays := (s.port n).replays + 1, rate := rate } := by
    rw [State.port, noted]
    exact s.port_modPort_same _ here
  have there : n < (s.noteReplay n).rails.ports.length := by simpa [noted] using here
  have holds : (s.port n).replayBuf.any (fun g => sub32 g.seq f.seq < 2 ^ 31) = true := by
    rw [held, List.any_cons, sub32_self, decide_eq_true (by decide), Bool.true_or]
  have ran : s.startReplay n f.seq = (s.noteReplay n).modPort n (fun q =>
      { q with replayAt := some f.seq, lastReplay := some (f.seq, 1, q.frame) }) := by
    unfold State.startReplay
    dsimp only
    rw [if_neg (not_not_intro holds), first]
    exact if_neg (show ¬ 8 ≤ 1 by decide)
  refine ⟨rate, some (f.seq, 1, (s.port n).frame), ?_⟩
  rw [ran, State.port_modPort_same _ _ there, counted]

/-! ### Packets sent again -/

/-- R304: a port picked for a packet is not the one to avoid where its route has another. -/
theorem State.pickPort_avoids {s : State} {node : W32} {vl avoided i : Nat} (h : s.pickPort node vl avoided = some i)
    (other : ∃ j ∈ s.route node, j ≠ avoided) : i ≠ avoided := by
  have turn := List.mem_of_find?_eq_some h
  have tried : i ∈ s.portsFor node avoided := by
    rcases List.mem_append.mp turn with k | k <;> exact (List.mem_filter.mp k).1
  obtain ⟨j, routed, apart⟩ := other
  have others : (s.route node).filter (fun k => k ≠ avoided) ≠ [] :=
    List.ne_nil_of_mem (List.mem_filter.mpr ⟨routed, by simpa using apart⟩)
  unfold State.portsFor at tried
  dsimp only at tried
  rw [if_neg others] at tried
  simpa using (List.mem_filter.mp tried).2

/-- R297, R304: a packet placed takes a port of its route, another than the one to avoid where there is one, or waits. -/
theorem State.place_again (s : State) (o : OutPacket) (answered : kindAnswered o.packet.kind = true) :
    ∃ i, (i ∈ s.route o.packet.dst ∧ ((∃ j ∈ s.route o.packet.dst, j ≠ o.port) → i ≠ o.port) ∧
        (s.place_ o).rails.out = s.rails.out ++ [{ o with port := i }] ∧ (s.place_ o).rails.waiting = s.rails.waiting) ∨
      ((s.place_ o).rails.out = s.rails.out ∧ (s.place_ o).rails.waiting = s.rails.waiting ++ [o]) := by
  unfold State.place_
  split
  · rename_i i picked
    split at picked
    · cases picked
    · refine ⟨i, .inl ⟨s.pickPort_route picked, s.pickPort_avoids picked, ?_, ?_⟩⟩ <;>
        simp [State.takePort, answered, State.queueOn]
  · exact ⟨0, .inr ⟨rfl, rfl⟩⟩

theorem State.place_resend (s : State) (o : OutPacket) : (s.place_ o).rails.resend = s.rails.resend := by
  unfold State.place_ State.takePort
  split
  · dsimp only
    split <;> rfl
  · rfl

/-- R319: a packet sent again counts at the port that went down. -/
theorem State.resendOne_resent {s : State} {n : Nat} (here : n < s.rails.ports.length) (o : OutPacket) :
    ((s.resendOne n o).port n).resent = (s.port n).resent + 1 := by
  have links := s.place_links { o with port := n }
  have same : ((s.place_ { o with port := n }).port n).resent = (s.port n).resent :=
    by simpa using congrArg Port.resent (State.link_port links n)
  unfold State.resendOne
  rw [State.port_modPort_same _ _ (by rwa [State.ports_length links]), same]

/-- R304: 1 ms after its port went down, a WRITE toward a node with a route is sent again. -/
theorem execResendWaitExpiry_write {s : State} {n : Fin 20} {o : OutPacket} (waits : s.rails.resend = [(n.val, [o])])
    (write : o.packet.kind = 1) (routed : s.route o.packet.dst ≠ []) :
    exec (.resendWaitExpiry n) s = .next (({ s with rails.resend := [] } : State).resendOne n.val o) := by
  have reached : s.unreachable o.packet.dst = false := by simpa [State.unreachable] using routed
  have still : ({ s with rails.resend := [] } : State).unreachable o.packet.dst = false := reached
  show execResendWaitExpiry n s = _
  unfold execResendWaitExpiry
  simp [waits, State.resettlePacket, still, write]

/-! ### The clauses of O26 -/

section
variable {s : State} {n : Fin 20} (here : n.val < s.rails.ports.length)
include here

/-- R287, R288. -/
theorem execTrailerTimeout_up (up : (s.port n.val).state = .up) :
    ∃ t, exec (.trailerTimeout n) s = .next t ∧ (t.port n.val).state = .training ∧
      (t.port n.val).linkDown = setNth (s.port n.val).linkDown 0 (fun x => x + 1) ∧ (t.port n.val).txNext = 0 := by
  have down := State.linkDown_link here ldTimeout
  exact ⟨_, congrArg Host.Outcome.next (if_pos up), by simpa [Port.restart] using congrArg Port.state down,
    by simpa [ldTimeout] using congrArg Port.linkDown down, by simpa [Port.restart] using congrArg Port.txNext down⟩

/-- R284. -/
theorem execQuietEnd_quiet (quiet : (s.port n.val).state = .quiet) :
    ∃ t, exec (.quietEnd n) s = .next t ∧ (t.port n.val).state = .down ∧
      (t.port n.val).linkDown = setNth (s.port n.val).linkDown 1 (fun x => x + 1) := by
  have gone := State.portGone_link here .down ldQuiet
  exact ⟨_, congrArg Host.Outcome.next (if_pos quiet), by simpa [Port.restart] using congrArg Port.state gone,
    by simpa [ldQuiet] using congrArg Port.linkDown gone⟩

/-- R278. -/
theorem execReplayTimeout_first {f : Flit} {rest : List Flit} (up : (s.port n.val).state = .up)
    (held : (s.port n.val).replayBuf = f :: rest) (first : (s.port n.val).lastReplay = none) :
    ∃ t, exec (.replayTimeout n) s = .next t ∧ (t.port n.val).replayAt = some f.seq ∧
      (t.port n.val).replays = (s.port n.val).replays + 1 ∧ (t.port n.val).replayBuf = (s.port n.val).replayBuf ∧
      (t.port n.val).state = .up := by
  obtain ⟨rate, last, replayed⟩ := State.startReplay_first here held first
  have ran : exec (.replayTimeout n) s = .next (s.startReplay n.val f.seq) := by
    show execReplayTimeout n s = _
    simp [execReplayTimeout, up, held]
  exact ⟨_, ran, by rw [replayed], by rw [replayed], by rw [replayed], by rw [replayed]; exact up⟩

/-- R297, R304. -/
theorem execResendWaitExpiry_again {o : OutPacket} (waits : s.rails.resend = [(n.val, [o])]) (write : o.packet.kind = 1)
    (routed : s.route o.packet.dst ≠ []) :
    ∃ t i, exec (.resendWaitExpiry n) s = .next t ∧ t.rails.resend = [] ∧
      (t.port n.val).resent = (s.port n.val).resent + 1 ∧
      ((i ∈ s.route o.packet.dst ∧ ((∃ j ∈ s.route o.packet.dst, j ≠ n.val) → i ≠ n.val) ∧
          t.rails.out = s.rails.out ++ [{ o with port := i }] ∧ t.rails.waiting = s.rails.waiting) ∨
        (t.rails.out = s.rails.out ∧ t.rails.waiting = s.rails.waiting ++ [{ o with port := n.val }])) := by
  obtain ⟨i, placed⟩ := State.place_again { s with rails.resend := [] } { o with port := n.val } (by simp [write, kindAnswered])
  have counted := State.resendOne_resent (s := { s with rails.resend := [] }) here o
  exact ⟨_, i, execResendWaitExpiry_write waits write routed, State.place_resend .., counted, placed⟩

end

/-- Settles O26: one command for each clause. -/
theorem linkStatesAndTimers : Obligations.LinkStatesAndTimers := by
  intro s n here p
  refine ⟨fun training fitted => ⟨?_, ?_⟩, execTrailerTimeout_up here, execQuietEnd_quiet here,
    fun f rest => execReplayTimeout_first here, fun o => execResendWaitExpiry_again here⟩
  · exact congrArg Host.Outcome.next (if_pos ⟨training, fitted⟩)
  · exact congrArg Host.Outcome.next (if_pos training)

end Sys2Proof.Machine
end

section
/-! A frame received: its trailer, its flits and the link; settles O25 (R271, R274, R275, R281, R284, R287, R319). -/

namespace Sys2Proof.Machine

/-- A port without the flits queued on it, the packets received and the buffer places freed. -/
@[simps]
def Port.line (p : Port) : Port := { p with txq := [], rxq := [], freed := [], withheld := [] }

/-- The ports without the flits queued on them, the packets received and the buffer places freed. -/
def State.lines (s : State) : List Port := s.rails.ports.map Port.line

theorem State.lines_of_links {s t : State} (h : t.links = s.links) : t.lines = s.lines := by
  have seen (u : State) : u.lines = u.links.map Port.line := by
    rw [State.lines, State.links, List.map_map]
    rfl
  rw [seen, seen, h]

/-- Where the lines are the same, each port is, but for what a line leaves out. -/
theorem State.line_port {s t : State} (h : t.lines = s.lines) (n : Nat) : (t.port n).line = (s.port n).line := by
  have reads (u : State) : (u.port n).line = nth Port.reset.line u.lines n := by
    simp [State.port, State.lines, nth, Option.getD_map]
  rw [reads, reads, h]

theorem State.modPort_lines {s : State} {n : Nat} {f : Port → Port} (h : ∀ p, (f p).line = p.line) :
    (s.modPort n f).lines = s.lines := map_setNth h ..

/-- What holds of every element, and of a change of one of which it holds, holds after the change of one. -/
theorem forall_mem_setNth {α : Type} {P : α → Prop} {f : α → α} {l : List α} {i : Nat} (all : ∀ a ∈ l, P a)
    (changed : ∀ a, P a → P (f a)) : ∀ a ∈ setNth l i f, P a := by
  induction l generalizing i with
  | nil => exact all
  | cons b t ih =>
    obtain ⟨head, tail⟩ := List.forall_mem_cons.mp all
    cases i with
    | zero => exact List.forall_mem_cons.mpr ⟨changed b head, tail⟩
    | succ i => exact List.forall_mem_cons.mpr ⟨head, ih tail⟩

/-! ### Packets of a reserved kind -/

/-- R290, R294: the refusal of reserved kinds leaves the lines. -/
theorem State.refuseReserved_lines (s : State) (n : Nat) : (s.refuseReserved n).lines = s.lines := by
  have freed (t : State) (vl k : Nat) : (t.modPort n (fun p => p.free t.computeReset vl k)).lines = t.lines :=
    State.modPort_lines fun p => by unfold Port.free; dsimp only; split <;> rfl
  unfold State.refuseReserved
  refine (foldl_keeps State.lines ?_ _ _).trans (State.modPort_lines fun _ => rfl)
  rintro t ⟨x, k, vl⟩
  dsimp only
  split
  · exact freed t vl k
  · rw [State.lines_of_links (State.noticeFor_links ..), State.lines_of_links (State.dack_links ..), freed]

/-- Where every packet received is of a defined kind, none is refused. -/
theorem State.refuseReserved_defined {s : State} {n : Nat} (here : n < s.rails.ports.length)
    (defined : ∀ l ∈ (s.port n).rxq, ∀ y ∈ l, kindDefined y.1.kind = true) : (s.refuseReserved n).port n = s.port n := by
  have kept : (s.port n).rxq.map (fun l => l.filter (fun x => kindDefined x.1.kind)) = (s.port n).rxq :=
    (List.map_congr_left fun l h => List.filter_eq_self.mpr (defined l h)).trans (List.map_id _)
  have unrefused : (s.port n).rxq.zipIdx.flatMap (fun (l, vl) =>
      (l.filter (fun x => !kindDefined x.1.kind)).map (fun x => (x.1, x.2, vl))) = [] := by
    refine List.flatMap_eq_nil_iff.mpr ?_
    rintro ⟨l, vl⟩ there
    have lane : l ∈ (s.port n).rxq := (List.mem_zipIdx' there).2 ▸ List.getElem_mem _
    simpa [List.filter_eq_nil_iff] using defined l lane
  unfold State.refuseReserved
  dsimp only
  rw [unrefused, List.foldl_nil, s.port_modPort_same _ here, kept]

/-! ### Receipt -/

/-- R275, R283: a packet of one flit that arrives whole and in order joins its lane. -/
theorem Port.receive_packet {p : Port} {f : Flit} (order : f.seq = p.next) (first : f.first = true) (last : f.last = true)
    (part : nth [] p.rxPart f.vl = []) (whole : nth false p.rxCut f.vl = false)
    (one : flitCount (field (getLE f.bytes 0 8) 63 42) = 1) (reset inj : Bool) :
    p.receive reset inj [(f, true)] = some { p with
      next := p.next + 1, discarding := false
      rxPart := setNth p.rxPart f.vl (fun _ => []), rxCut := setNth p.rxCut f.vl (fun _ => false)
      rxq := setNth p.rxq f.vl (fun l => l ++ [(Packet.parse f.bytes, 1)]) } := by
  simp [Port.receive, Port.acceptFlit, sub32, order, first, last, part, whole, one]

/-- The flits that an acknowledgement leaves to be sent again (R277). -/
def Port.unacked (p : Port) (t : Trailer) : List Flit := p.replayBuf.filter (fun f => sub32 f.seq (t.ack + 1) < 2 ^ 31)

/-- R277, R281: a trailer that asks for no replay releases what it acknowledges, and sets the credits. -/
theorem State.takeTrailer_link {s : State} {n : Nat} {t : Trailer} (here : n < s.rails.ports.length)
    (plain : t.replayReq = false) :
    ∃ last, ((s.takeTrailer n t).port n).link =
        { s.port n with replayBuf := (s.port n).unacked t, cred := t.cred, lastReplay := last, txq := [] } ∧
      (s.takeTrailer n t).rails.ports.length = s.rails.ports.length := by
  have miled (c : Prop) [Decidable c] (u : State) (src : W32) :
      (if c then u.mile src 1 else u).sendWaiting.links = u.links := by
    rw [State.sendWaiting_links]
    split <;> rfl
  unfold State.takeTrailer
  dsimp only
  rw [if_neg (by simp [plain]), State.link_port (miled ..), State.ports_length (miled ..), s.port_modPort_same _ here]
  exact ⟨_, rfl, by simp⟩

/-- R284: RAIL_UP starts the link of a port with its far node. -/
theorem State.railUp_link {s : State} {n : Nat} (here : n < s.rails.ports.length) (node : W32) :
    ((s.railUp n node).port n).link = { (s.port n).restart .up with peerNode := node, txq := [] } ∧
      (s.railUp n node).rails.ports.length = s.rails.ports.length := by
  unfold State.railUp
  rw [State.link_port (State.sendWaiting_links _), State.ports_length (State.sendWaiting_links _), State.port,
    State.event_rails]
  refine ⟨?_, by simp⟩
  show ((s.modPort n _).port n).link = _
  rw [s.port_modPort_same _ here]
  rfl

/-! ### A valid frame -/

/-- What a valid frame does at a port that is UP: its trailer, then its flits (R275, R277, R281). -/
def State.takeFrame (s : State) (n : Nat) (frame : List Byte) (t : Trailer) : State :=
  let u := s.takeTrailer n t
  if (u.port n).state ≠ .up then u
  else
    match (u.port n).receive u.computeReset t.inj (dataSlots frame t.seqBase) with
    | none => u.linkDown n ldProtocol
    | some p => (u.modPort n (fun _ => p)).refuseReserved n

/-- R284, R287: a valid frame in state UP, and one in state QUIET. -/
theorem State.validFrame_up (s : State) (n : Nat) (frame : List Byte) {t : Trailer} (up : t.state = 1) :
    s.validFrame n frame t =
      let v := s.modPort n (fun p => { p with peerNode := t.node })
      (if (v.port n).state = .init then v.railUp n t.node else v).takeFrame n frame t := by
  exact (if_neg (by omega)).trans (if_neg (by omega))

theorem State.validFrame_quiet (s : State) (n : Nat) (frame : List Byte) {t : Trailer} (quiet : t.state = 2) :
    s.validFrame n frame t = (s.modPort n (fun p => { p with peerNode := t.node })).linkDown n ldQuiet :=
  if_pos quiet

section
variable {s : State} {n : Nat} {frame : List Byte} {t : Trailer} (here : n < s.rails.ports.length)
  (up : (s.port n).state = .up) (plain : t.replayReq = false)
include here up plain

/-- R277, R281: a frame without data flits. -/
theorem State.takeFrame_idle (idle : dataSlots frame t.seqBase = []) :
    ∃ last, ((s.takeFrame n frame t).port n).line =
      { s.port n with
        replayBuf := (s.port n).unacked t, cred := t.cred, lastReplay := last, txq := [], rxq := [], freed := []
        withheld := [] } := by
  obtain ⟨last, link, length⟩ := State.takeTrailer_link here plain
  have still : ((s.takeTrailer n t).port n).state = .up := by simpa [up] using congrArg Port.state link
  refine ⟨last, ?_⟩
  unfold State.takeFrame
  dsimp only
  rw [if_neg (not_not_intro still), idle]
  show (((State.modPort _ n _).refuseReserved n).port n).line = _
  rw [State.line_port (State.refuseReserved_lines ..), State.port_modPort_same _ _ (by rwa [length])]
  exact congrArg Port.line link

/-- R275, R283: a frame whose one data flit is a whole packet in order. -/
theorem State.takeFrame_packet {f : Flit} (data : dataSlots frame t.seqBase = [(f, true)]) (order : f.seq = (s.port n).next)
    (first : f.first = true) (last : f.last = true) (lane : f.vl < (s.port n).rxq.length)
    (part : nth [] (s.port n).rxPart f.vl = []) (whole : nth false (s.port n).rxCut f.vl = false)
    (one : flitCount (field (getLE f.bytes 0 8) 63 42) = 1)
    (defined : ∀ l ∈ (s.port n).rxq, ∀ y ∈ l, kindDefined y.1.kind = true)
    (kind : kindDefined (Packet.parse f.bytes).kind = true) :
    let q := (s.takeFrame n frame t).port n
    q.next = (s.port n).next + 1 ∧ q.discarding = false ∧
      nth [] q.rxq f.vl = nth [] (s.port n).rxq f.vl ++ [(Packet.parse f.bytes, 1)] := by
  obtain ⟨_, link, length⟩ := State.takeTrailer_link here plain
  have there : n < (s.takeTrailer n t).rails.ports.length := by rwa [length]
  have still : ((s.takeTrailer n t).port n).state = .up := by simpa [up] using congrArg Port.state link
  have next : ((s.takeTrailer n t).port n).next = (s.port n).next := by simpa using congrArg Port.next link
  have rxq : ((s.takeTrailer n t).port n).rxq = (s.port n).rxq := by simpa using congrArg Port.rxq link
  have rxPart : ((s.takeTrailer n t).port n).rxPart = (s.port n).rxPart := by simpa using congrArg Port.rxPart link
  have rxCut : ((s.takeTrailer n t).port n).rxCut = (s.port n).rxCut := by simpa using congrArg Port.rxCut link
  unfold State.takeFrame
  dsimp only
  rw [if_neg (not_not_intro still), data, Port.receive_packet (by rw [next, order]) first last (by rw [rxPart, part])
    (by rw [rxCut, whole]) one]
  dsimp only
  rw [State.refuseReserved_defined (by simpa using there), State.port_modPort_same _ _ there]
  · simp only [next, rxq, true_and]
    exact nth_setNth_same _ _ _ lane
  · rw [State.port_modPort_same _ _ there, rxq]
    exact forall_mem_setNth defined fun l h y there => by
      rcases List.mem_append.mp there with k | k
      · exact h y k
      · rw [List.mem_singleton.mp k]; exact kind
end

section
variable {s : State} {n : Nat} {frame : List Byte} {t : Trailer} (here : n < s.rails.ports.length)
include here

/-- R287: a QUIET trailer takes the link down. -/
theorem State.validFrame_down (quiet : t.state = 2) :
    let q := (s.validFrame n frame t).port n
    q.state = .training ∧ q.linkDown = setNth (s.port n).linkDown 1 (fun x => x + 1) := by
  have down := State.linkDown_link (s := s.modPort n (fun p => { p with peerNode := t.node })) (by simpa using here) ldQuiet
  rw [← State.validFrame_quiet s n frame quiet, s.port_modPort_same _ here] at down
  exact ⟨by simpa [Port.restart] using congrArg Port.state down, by simpa [ldQuiet] using congrArg Port.linkDown down⟩

variable (heard : t.state = 1) (plain : t.replayReq = false)
include heard plain

/-- R284: the first trailer in state UP brings a port in INIT up. -/
theorem State.validFrame_first (waits : (s.port n).state = .init) (idle : dataSlots frame t.seqBase = []) :
    let q := (s.validFrame n frame t).port n
    q.state = .up ∧ q.peerNode = t.node ∧ q.cred = t.cred ∧ q.next = 0 := by
  let v := s.modPort n (fun p => { p with peerNode := t.node })
  have there : n < v.rails.ports.length := by simpa [v] using here
  have port : v.port n = { s.port n with peerNode := t.node } := s.port_modPort_same _ here
  obtain ⟨started, length⟩ := State.railUp_link there t.node
  have up : ((v.railUp n t.node).port n).state = .up := by simpa [Port.restart] using congrArg Port.state started
  have node : ((v.railUp n t.node).port n).peerNode = t.node := by simpa using congrArg Port.peerNode started
  have next : ((v.railUp n t.node).port n).next = 0 := by simpa [Port.restart] using congrArg Port.next started
  obtain ⟨_, line⟩ := State.takeFrame_idle (by rwa [length]) up plain idle
  rw [State.validFrame_up s n frame heard]
  dsimp only
  rw [if_pos (by rw [port]; exact waits)]
  exact ⟨by simpa [up] using congrArg Port.state line, by simpa [node] using congrArg Port.peerNode line,
    by simpa using congrArg Port.cred line, by simpa [next] using congrArg Port.next line⟩

variable (up : (s.port n).state = .up)
include up

omit plain in
/-- At a port that is UP a valid frame is taken with its far node's name. -/
theorem State.validFrame_takes :
    let v := s.modPort n (fun p => { p with peerNode := t.node })
    n < v.rails.ports.length ∧ v.port n = { s.port n with peerNode := t.node } ∧
      s.validFrame n frame t = v.takeFrame n frame t := by
  have port : (s.modPort n (fun p => { p with peerNode := t.node })).port n = { s.port n with peerNode := t.node } :=
    s.port_modPort_same _ here
  refine ⟨by simpa using here, port, ?_⟩
  rw [State.validFrame_up s n frame heard]
  dsimp only
  rw [if_neg (by rw [port, up]; decide)]

/-- R277, R281: a trailer at a port that is UP, without data flits. -/
theorem State.validFrame_idle (idle : dataSlots frame t.seqBase = []) :
    let q := (s.validFrame n frame t).port n
    q.cred = t.cred ∧ q.next = (s.port n).next ∧ q.replayBuf = (s.port n).unacked t := by
  obtain ⟨there, port, takes⟩ := State.validFrame_takes (frame := frame) here heard up
  obtain ⟨_, line⟩ := State.takeFrame_idle there (by rw [port]; exact up) plain idle
  rw [takes]
  exact ⟨by simpa using congrArg Port.cred line, by simpa [port] using congrArg Port.next line,
    by simpa [port, Port.unacked] using congrArg Port.replayBuf line⟩

/-- R275, R283: a whole packet of one flit in order at a port that is UP. -/
theorem State.validFrame_packet {f : Flit} (data : dataSlots frame t.seqBase = [(f, true)])
    (order : f.seq = (s.port n).next) (first : f.first = true) (last : f.last = true)
    (lane : f.vl < (s.port n).rxq.length) (part : nth [] (s.port n).rxPart f.vl = [])
    (whole : nth false (s.port n).rxCut f.vl = false) (one : flitCount (field (getLE f.bytes 0 8) 63 42) = 1)
    (defined : ∀ l ∈ (s.port n).rxq, ∀ y ∈ l, kindDefined y.1.kind = true)
    (kind : kindDefined (Packet.parse f.bytes).kind = true) :
    let q := (s.validFrame n frame t).port n
    q.next = (s.port n).next + 1 ∧ q.discarding = false ∧
      nth [] q.rxq f.vl = nth [] (s.port n).rxq f.vl ++ [(Packet.parse f.bytes, 1)] := by
  obtain ⟨there, port, takes⟩ := State.validFrame_takes (frame := frame) here heard up
  have packet := State.takeFrame_packet (f := f) there (by rw [port]; exact up) plain data
  rw [port] at packet
  rw [takes]
  exact packet order first last lane part whole one defined kind

end

/-! ### The clauses of O25 -/

/-- The bytes of a frame's trailer (R271). -/
def trailerOf (frame : List Byte) : List Byte := slice frame 7936 256

/-- The check of a frame's trailer holds (R271). -/
def trailerRight (frame : List Byte) : Prop :=
  crc32c ((trailerOf frame).take 252) = BitVec.ofNat 32 (getLE (trailerOf frame) 252 4)

/-- A port with the symbols and codewords of a frame counted (R319). -/
def Port.counting (p : Port) (c u : Nat) : Port :=
  { p with fecCorrected := p.fecCorrected + BitVec.ofNat 64 c, fecUncorrectable := p.fecUncorrectable + BitVec.ofNat 64 u }

section
variable {s : State} {n : Fin 20} {frame : List Byte} (whole : frame.length = 8192)
  (works : (s.port n.val).state = .up ∨ (s.port n.val).state = .init) (fitted : (s.port n.val).unit ≠ .absent)
include whole works fitted

/-- What a port in INIT or UP makes of a frame, by its trailer's check. -/
theorem execFrameReceive_works (c u : Nat) :
    let v := s.modPort n.val (fun p => p.counting c u)
    let t := Trailer.parse (trailerOf frame)
    (trailerRight frame → exec (.frameReceive n frame c u) s = .next (v.validFrame n.val frame t)) ∧
    (¬ trailerRight frame → exec (.frameReceive n frame c u) s = .next (v.modPort n.val (fun p =>
      let p := { p with discarding := true, replayFrom := p.next }
      if t.inj then { p with trailerFailInj := p.trailerFailInj + 1 } else { p with trailerFail := p.trailerFail + 1 }))) := by
  have framed : ¬ ¬ frameOk frame = true := by simp [frameOk, whole]
  have taken : ¬ (((s.port n.val).state ≠ .init ∧ (s.port n.val).state ≠ .up) ∨ (s.port n.val).unit = .absent) := by
    rcases works with h | h <;> simp [h, fitted]
  have ran : exec (.frameReceive n frame c u) s = execFrameReceive n frame c u s := rfl
  rw [ran, execFrameReceive, if_neg framed]
  dsimp only
  rw [if_neg taken]
  exact ⟨fun right => congrArg Host.Outcome.next (if_pos right), fun wrong => congrArg Host.Outcome.next (if_neg wrong)⟩

end

/-- Settles O25: by the check of the trailer, then by its state and the port's. -/
theorem frameReceiveActs : Obligations.FrameReceiveActs := by
  intro s n frame c u
  refine ⟨fun short => if_pos (by simp [frameOk, short]), ?_⟩
  intro whole here p bs tr right works fitted
  let v := s.modPort n.val (fun p => p.counting c u)
  have there : n.val < v.rails.ports.length := by simpa [v] using here
  have port : v.port n.val = p.counting c u := s.port_modPort_same _ here
  obtain ⟨valid, failed⟩ := execFrameReceive_works whole works fitted c u
  by_cases check : right
  · refine ⟨_, valid check, absurd check, fun _ quiet => ?_, fun _ heard waits idle plain => ?_,
      fun _ heard up plain => ⟨fun idle => ?_, fun f data => ?_⟩⟩
    · have down := State.validFrame_down (frame := frame) there quiet
      rw [port] at down
      exact down
    · exact State.validFrame_first there heard plain (by rw [port]; exact waits) idle
    · have taken := State.validFrame_idle there heard plain (by rw [port]; exact up) idle
      rw [port] at taken
      exact taken
    · have packet := State.validFrame_packet there heard plain (by rw [port]; exact up) data
      rw [port] at packet
      exact packet
  · refine ⟨_, failed check, fun _ => ?_, fun k => absurd k check, fun k => absurd k check, fun k => absurd k check⟩
    rw [State.port_modPort_same _ _ there, port, show tr = Trailer.parse (trailerOf frame) from rfl]
    cases (Trailer.parse (trailerOf frame)).inj <;> simp [Port.counting]

end Sys2Proof.Machine
end

section
/-! The epoch notice over a grant that waits for a context under teardown: refutes O30 (R203, R211, R246, R248, R301, R510). -/

namespace Sys2Proof.Machine

/-- A notice from node 2 to node 1 that epoch 5 was revoked and epoch 6 is current (R300). -/
def revokedNotice : Packet :=
  { epoch := 6, dst := 1, src := 2, tag := 0, arg := 0x600000005, length := 0, ctx := 0, gen := 0, kind := 0xC, pflags := 0
    data := [] }

/-- Contexts 0 and 1 are ACTIVE in epoch 5, and the notice waits at port 0. The record of the wagon of context 1 goes into a
line left uncorrectable, and a CONTEXT_CREATE of context 0 waits for the frame of that line. -/
def noticeWaits : State :=
  { State.reset with
    ctxs := [(0, pagedContext), (1, pagedContext)]
    rings := [(0, { Ring.reset with state := .running, ctx := 1, logSize := 6 })]
    marsh.flights := [{ dispatchedNop with ctx := 1 }]
    mem.damaged := [0]
    mem.grants := [waitingGrant]
    rails.node := 1
    rails.epoch := 5
    rails.ports := [{ Port.reset with rxq := [[], [], [], [(revokedNotice, 1)]] }] }

/-- The teardown of context 1 retires the frame, the grant is dropped with its shortfall, and context 0, whose teardown
had begun, is FREE. -/
theorem epochNotice_frees : ∃ t, exec (.epochNotice 0) noticeWaits = .next t ∧ (t.ctx 0).state = .free :=
  ⟨_, rfl, by decide +kernel⟩

/-- Refutes O30: no hypothesis keeps a frame that a context maps from being one that the CONTEXT_CREATE of another waits
for, and where the teardown of the first drops that grant, the other one is FREE and not in TEARDOWN. -/
theorem not_collectiveAndEpochPackets : ¬ Obligations.CollectiveAndEpochPackets := by
  intro h
  obtain ⟨-, -, -, noticed⟩ := h noticeWaits 0 3 revokedNotice
  obtain ⟨t, ran, -, -, -, torn⟩ := noticed (by decide +kernel) rfl rfl (by decide) (by decide +kernel) (by decide +kernel)
  obtain ⟨u, freed, free⟩ := epochNotice_frees
  obtain rfl := Host.Outcome.next.inj (ran.symm.trans freed)
  rw [torn 0 rfl] at free
  cases free

end Sys2Proof.Machine
end

section
/-! The operations of the Booking Office's channels: what a ticket put, an acknowledgement, a reply and an event write and
leave (R321, R337 to R343, R386). -/

namespace Sys2Proof.Machine

/-! ### Tickets put -/

/-- R337: a ticket on PCIe goes into the outbound window and changes nothing else. -/
theorem State.putTicket_pcie (s : State) (t : SentTicket) :
    s.putTicket .pcie t =
      { s with book.outWin := s.book.outWin.write (512 * (t.seq.toNat % 32)) (t.bytes s.book.pcie.ackOut) } := rfl

/-- R342: a ticket on MCTP is a message sent to the tray controller. -/
theorem State.putTicket_mctp {s : State} {dst : Byte} (peer : s.book.peer = some dst) (t : SentTicket) :
    s.putTicket .mctp t = s.emit (.mctp dst (s.blockWrites dst (ticketMessage (t.bytes s.book.mctp.ackOut)))) := by
  unfold State.putTicket
  simp only [peer]
  rfl

@[simp] theorem State.putTicket_mctp_book (s : State) (t : SentTicket) : (s.putTicket .mctp t).book = s.book := by
  unfold State.putTicket
  dsimp only
  split <;> rfl

@[simp] theorem State.putTicket_chan (s : State) (ch dh : Chan) (t : SentTicket) :
    (s.putTicket ch t).chan dh = s.chan dh := by
  cases ch with
  | pcie => cases dh <;> rfl
  | mctp => cases dh <;> simp [State.chan]

@[simp] theorem State.putTicket_session (s : State) (ch : Chan) (t : SentTicket) :
    (s.putTicket ch t).book.session = s.book.session := by
  cases ch with
  | pcie => rfl
  | mctp => simp

/-! ### Vectors and channels -/

@[simp] theorem State.raiseVector_book (s : State) (v : Nat) : (s.raiseVector v).book = s.book := by
  unfold State.raiseVector State.msixNow
  split
  · rfl
  · dsimp only
    split <;> rfl

@[simp] theorem State.raiseVector_chan (s : State) (v : Nat) (ch : Chan) : (s.raiseVector v).chan ch = s.chan ch := by
  cases ch <;> simp [State.chan]

@[simp] theorem State.pending_chan (s : State) (p : Bool) (ch : Chan) :
    ({ s with book.pending := p } : State).chan ch = s.chan ch := by cases ch <;> rfl

@[simp] theorem State.pending_outWin (s : State) (p : Bool) :
    ({ s with book.pending := p } : State).book.outWin = s.book.outWin := rfl

@[simp] theorem State.modChan_outWin (s : State) (ch : Chan) (f : Channel → Channel) :
    (s.modChan ch f).book.outWin = s.book.outWin := by cases ch <;> rfl

@[simp] theorem State.modChan_session (s : State) (ch : Chan) (f : Channel → Channel) :
    (s.modChan ch f).book.session = s.book.session := by cases ch <;> rfl

/-- R338: an acknowledgement moves OUT_ACK alone. -/
theorem Channel.takeAck_eq (c : Channel) (ack : W32) :
    c.takeAck ack = { c with outAck := if c.ackInRange ack then ack else c.outAck } := by
  unfold Channel.takeAck
  split <;> rfl

/-- R339: an event changes the queue of its channel, or the count of those lost. -/
theorem Channel.addEvent_eq (c : Channel) (t : OutTicket) :
    ∃ queue lost, c.addEvent t = { c with queue := queue, lost := lost } := by
  unfold Channel.addEvent
  split <;> exact ⟨_, _, rfl⟩

/-- R321: an event changes the two queues of outbound tickets and the counts of events lost. -/
theorem State.event_queues (s : State) (op : Nat) (payload : List Byte) : ∃ pq pl mq ml,
    s.event op payload = { s with
      book.pcie := { s.book.pcie with queue := pq, lost := pl }
      book.mctp := { s.book.mctp with queue := mq, lost := ml } } := by
  unfold State.event
  split
  · exact ⟨_, _, _, _, rfl⟩
  · obtain ⟨pq, pl, pcie⟩ := s.book.pcie.addEvent_eq (eventTicket op payload)
    obtain ⟨mq, ml, mctp⟩ := s.book.mctp.addEvent_eq (eventTicket op payload)
    refine ⟨pq, pl, mq, ml, ?_⟩
    rw [← pcie, ← mctp]
    rfl

/-- A reply leaves its channel but for the running requests and the queue. -/
theorem State.ok_chan_same (s : State) (r : Request) (payload : List Byte) :
    ((s.ok r payload).chan r.chan).outAck = (s.chan r.chan).outAck ∧
      ((s.ok r payload).chan r.chan).outSeq = (s.chan r.chan).outSeq ∧
      ((s.ok r payload).chan r.chan).sent = (s.chan r.chan).sent := by
  obtain ⟨g, replied⟩ := s.reply_eq r stOk 0 payload
  have same : ({ s with trg := g } : State).chan r.chan = s.chan r.chan := by cases r.chan <;> rfl
  unfold State.ok
  rw [replied, State.chan_modChan_same, same]
  exact ⟨rfl, rfl, rfl⟩

/-! ### Tickets sent again -/

theorem OnlyBook.foldl {β : Type} {f : State → β → State} (h : ∀ s b, OnlyBook s (f s b)) (l : List β) :
    ∀ s, OnlyBook s (l.foldl f s) := by
  induction l with
  | nil => exact OnlyBook.refl
  | cons b l ih => exact fun s => (h s b).trans (ih _)

theorem State.resendTickets_only (s : State) (ch : Chan) : OnlyBook s (s.resendTickets ch) := by
  unfold State.resendTickets
  exact (OnlyBook.foldl (fun t _ => t.putTicket_only ch _) _ s).trans (State.modChan_only ..)

/-- R343, R348: a resend marks the unacknowledged tickets of its channel and leaves the rest of it. -/
theorem State.resendTickets_chan (s : State) (ch : Chan) :
    (s.resendTickets ch).chan ch = { s.chan ch with
      sent := (s.chan ch).sent.map (fun x => if x ∈ (s.chan ch).unacked then { x with replayed := true } else x) } := by
  unfold State.resendTickets
  rw [State.chan_modChan_same,
    foldl_keeps (fun t : State => t.chan ch) (fun t (x : SentTicket) => t.putTicket_chan ch ch { x with replayed := true })]

@[simp] theorem State.resendTickets_session (s : State) (ch : Chan) :
    (s.resendTickets ch).book.session = s.book.session := by
  unfold State.resendTickets
  rw [State.modChan_session, foldl_keeps (fun t : State => t.book.session)
    (fun t (x : SentTicket) => t.putTicket_session ch { x with replayed := true })]

/-- Tickets sent again on MCTP leave one after another, each marked REPLAYED. -/
theorem State.foldl_putTicket_mctp_out {dst : Byte} (l : List SentTicket) : ∀ {s : State}, s.book.peer = some dst →
    (l.foldl (fun t x => t.putTicket .mctp { x with replayed := true }) s).out =
      s.out ++ l.map (fun x =>
        .mctp dst (s.blockWrites dst (ticketMessage ({ x with replayed := true }.bytes s.book.mctp.ackOut)))) := by
  induction l with
  | nil => simp
  | cons x l ih =>
    intro s peer
    rw [List.foldl_cons, State.putTicket_mctp peer, ih (by simpa using peer), State.emit_out, List.append_assoc]
    rfl

end Sys2Proof.Machine
end

section
/-! How requests come in: slots of the inbound window and messages of the tray controller, and which doorbells set ERR
(R327, R328, R332, R335, R336, R339, R342). -/

namespace Sys2Proof.Machine

/-! ### Receipt into a channel -/

/-- R328: a one-part ticket outside a chain is a request of its own, and its ACK is taken. -/
theorem Channel.receive_alone {c : Channel} {t : Ticket} (ch : Chan) (arrival : Nat) (idle : c.chain = [])
    (whole : t.more = false) : ∃ ack, c.receive ch arrival t = { c with
      inSeq := c.inSeq + 1, outAck := ack, received := c.received ++ [{ t.alone ch with arrival := arrival }] } := by
  refine ⟨if Channel.ackInRange { c with inSeq := c.inSeq + 1 } t.ack then t.ack else c.outAck, ?_⟩
  simp [Channel.receive, Channel.takeAck_eq, idle, whole, Ticket.alone]

/-- A one-part ticket whose header keeps R327's rules asks for a request that is not MALFORMED. -/
theorem Ticket.alone_good {t : Ticket} (ch : Chan) (whole : t.more = false) (good : t.headerBad = false) :
    t.alone ch = { chan := ch, opcode := t.opcode, flags := t.flags, client := t.client, tag := t.tag, ack := t.ack
                   payload := t.payload, broken := false, seq := t.seq } := by
  simp [Ticket.alone, whole, good]

/-! ### The slots of the inbound window -/

/-- Receipt that has reached TAIL ends. -/
theorem State.receiveUpTo_reached {s : State} {tail : W32} (n : Nat) (reached : s.book.pcie.inSeq = tail) :
    s.receiveUpTo tail (n + 1) = { s with book.pcie.tail := none } := if_pos reached

section
variable {s : State} {tail : W32} (ahead : s.book.pcie.inSeq ≠ tail) (place : s.book.pcie.hasPlace = true)
include ahead place

/-- R335: a slot that frames is received, and receipt goes on. -/
theorem State.receiveUpTo_framed (n : Nat)
    (framed : frameError (s.book.inWin.read (512 * (s.book.pcie.inSeq.toNat % 32)) 512) s.book.pcie.inSeq = 0) :
    s.receiveUpTo tail (n + 1) =
      State.receiveUpTo { s.receiveTicket .pcie
        (ticketOf (s.book.inWin.read (512 * (s.book.pcie.inSeq.toNat % 32)) 512)) with
          book.err := 0, book.errSlot := 0 } tail n := by
  rw [State.receiveUpTo]
  simp only [ahead, place, framed, if_false, not_true_eq_false, ne_eq]

/-- R335, R336: a slot that does not frame sets ERR and ends receipt. -/
theorem State.receiveUpTo_unframed (n : Nat)
    (unframed : frameError (s.book.inWin.read (512 * (s.book.pcie.inSeq.toNat % 32)) 512) s.book.pcie.inSeq ≠ 0) :
    s.receiveUpTo tail (n + 1) =
      State.reject { s with book.pcie.tail := none } (s.book.pcie.inSeq.toNat % 32)
        (frameError (s.book.inWin.read (512 * (s.book.pcie.inSeq.toNat % 32)) 512) s.book.pcie.inSeq) := by
  rw [State.receiveUpTo]
  simp only [ahead, place, unframed, if_false, if_true, not_true_eq_false, ne_eq, not_false_eq_true]

end

/-- IN_SEQ never equals its successor. -/
theorem inSeq_ne_next (a : W32) : a ≠ a + 1 := by bv_omega

theorem sub32_next (a : W32) : sub32 (a + 1) a = 1 := by
  unfold sub32
  rw [add_sub_cancel_left]
  rfl

/-- R327: within the length, a wrong CRC is what ERR names. -/
theorem frameError_crc {bs : List Byte} (expected : W32) (fits : (ticketOf bs).length ≤ 480)
    (bad : ticketCrc bs ≠ (ticketOf bs).crc) : frameError bs expected = 1 := by
  unfold frameError
  rw [if_neg (by omega), if_pos bad]

/-- R335: receipt up to one ahead of IN_SEQ takes the one-part request of its slot, and ends. -/
theorem State.receiveUpTo_next {s : State} {k : Ticket} (n : Nat) (place : s.book.pcie.hasPlace = true)
    (framed : frameError (s.book.inWin.read (512 * (s.book.pcie.inSeq.toNat % 32)) 512) s.book.pcie.inSeq = 0)
    (slot : ticketOf (s.book.inWin.read (512 * (s.book.pcie.inSeq.toNat % 32)) 512) = k)
    (idle : s.book.pcie.chain = []) (whole : k.more = false) : ∃ ack,
    s.receiveUpTo (s.book.pcie.inSeq + 1) (n + 2) = { s with
      book.pcie := { s.book.pcie with
        inSeq := s.book.pcie.inSeq + 1, outAck := ack, tail := none
        received := s.book.pcie.received ++ [{ k.alone .pcie with arrival := s.book.arrivals }] }
      book.arrivals := s.book.arrivals + 1, book.err := 0, book.errSlot := 0 } := by
  obtain ⟨ack, received⟩ := Channel.receive_alone .pcie s.book.arrivals idle whole
  have taken : s.receiveTicket .pcie k = { s with
      book.pcie := { s.book.pcie with
        inSeq := s.book.pcie.inSeq + 1, outAck := ack
        received := s.book.pcie.received ++ [{ k.alone .pcie with arrival := s.book.arrivals }] }
      book.arrivals := s.book.arrivals + 1 } := by
    rw [← received]
    rfl
  refine ⟨ack, ?_⟩
  rw [State.receiveUpTo_framed (inSeq_ne_next _) place (n + 1) framed, slot, taken]
  exact State.receiveUpTo_reached n rfl

/-- R336: a rejection sets ERR with its slot and leaves what was received. -/
theorem State.reject_book (s : State) (slot err : Nat) : (s.reject slot err).book.err = err ∧
    (s.reject slot err).book.errSlot = slot ∧ (s.reject slot err).book.pcie.inSeq = s.book.pcie.inSeq ∧
    (s.reject slot err).book.pcie.received = s.book.pcie.received := by
  obtain ⟨_, _, _, _, raised⟩ := State.event_queues { s with book.err := err, book.errSlot := slot } 0x0183
    (leBytes 4 s.book.pcie.inSeq.toNat ++ leBytes 1 slot ++ leBytes 1 err ++ leBytes 2 0)
  unfold State.reject
  rw [raised]
  exact ⟨rfl, rfl, rfl, rfl⟩

/-! ### The commands of the PCIe channel -/

theorem State.onBar_up {s : State} (up : s.hostUp = true) (act : State → State) : s.onBar act = act s := if_pos up

/-- R332, R335: a doorbell one ahead of IN_SEQ starts receipt. -/
theorem execMbxInDoorbell_next {s : State} {tail : W32} (firmware : s.book.fwState = 3) (up : s.hostUp = true)
    (one : sub32 tail s.book.pcie.inSeq = 1) : exec (.mbxInDoorbell tail) s = .next (s.receiveUpTo tail 33) := by
  show execMbxInDoorbell _ s = _
  simp [execMbxInDoorbell, State.onBar_up up, State.receiveTail, firmware, one]

/-- R336: a doorbell more than 32 ahead of IN_SEQ is an overrun. -/
theorem execMbxInDoorbell_overrun {s : State} {tail : W32} (firmware : s.book.fwState = 3) (up : s.hostUp = true)
    (far : 32 < sub32 tail s.book.pcie.inSeq) :
    exec (.mbxInDoorbell tail) s = .next (s.reject (s.book.pcie.inSeq.toNat % 32) 4) := by
  have ahead : sub32 tail s.book.pcie.inSeq ≠ 0 := by omega
  show execMbxInDoorbell _ s = _
  simp [execMbxInDoorbell, State.onBar_up up, firmware, far, ahead]

/-- R335, R339: receipt that was held back goes on to its TAIL. -/
theorem execMailboxRequestReceive_tail {s : State} {tail : W32} (firmware : s.book.fwState = 3)
    (held : s.book.pcie.tail = some tail) :
    exec .mailboxRequestReceive s = .next (s.receiveUpTo tail 33) := by
  show execMailboxRequestReceive s = _
  simp [execMailboxRequestReceive, held, State.receiveTail, firmware]

/-! ### Messages of the tray controller -/

/-- R342: a message that carries a ticket of good length and CRC, from the endpoint that assigned the ID, is taken. -/
theorem execVendorDefinedMessage_framed {s : State} {own src : Byte} {packets : List (List Byte)} {message : List Byte}
    (firmware : s.book.fwState = 3) (eid : s.book.eid = some own) (peer : s.book.peer = some src)
    (hears : s.mctpHears src false = true) (sent : assemble own none packets = some (src, message))
    (long : 37 ≤ message.length) (head : message.take 5 = ticketMessage [])
    (fits : (ticketOf (message.drop 5)).length ≤ 480)
    (crc : ticketCrc (message.drop 5) = (ticketOf (message.drop 5)).crc) :
    exec (.vendorDefinedMessage packets) s = .next (s.mctpTicket (ticketOf (message.drop 5))) := by
  show execVendorDefinedMessage packets s = _
  simp only [execVendorDefinedMessage, eid, Option.bind_some, sent, State.takeMessage]
  rw [if_neg (by simp [firmware, peer, hears, head, long]), if_neg (by simp [fits, crc])]

/-- R342: a ticket in sequence, of another opcode than SESSION_QUERY, is received while a reply place is free. -/
theorem State.mctpTicket_next {s : State} {t : Ticket} (op : t.opcode ≠ 0x0100) (next : t.seq = s.book.mctp.inSeq)
    (place : s.book.mctp.hasPlace = true) : s.mctpTicket t = s.receiveTicket .mctp t := by
  unfold State.mctpTicket
  rw [if_neg op, if_pos next, if_pos place]

/-- R347: a SESSION_QUERY is received whatever its SEQ and ACK, and no sequence moves. -/
theorem State.mctpTicket_query {s : State} {t : Ticket} (op : t.opcode = 0x0100) :
    s.mctpTicket t = { s with
      book.mctp.received := s.book.mctp.received ++ [{ t.alone .mctp with arrival := s.book.arrivals }]
      book.arrivals := s.book.arrivals + 1 } := if_pos op

/-- Settles O34: receipt up to one ahead of IN_SEQ, a rejection of a doorbell and of a slot, and a message in sequence. -/
theorem requestsAreReceived : Obligations.RequestsAreReceived := by
  intro s firmware c bs k got
  refine ⟨?taken, ?overrun, ?wrongCrc, ?message⟩
  case taken =>
    intro framed place idle whole good
    obtain ⟨ack, received⟩ := State.receiveUpTo_next 31 place framed rfl idle whole
    have arrived : got (s.receiveUpTo (c.inSeq + 1) 33) := by
      rw [received, Ticket.alone_good _ whole good]
      exact ⟨rfl, rfl, rfl, rfl⟩
    exact ⟨fun up => ⟨_, execMbxInDoorbell_next firmware up (sub32_next _), arrived⟩,
      fun held => ⟨_, execMailboxRequestReceive_tail firmware held, arrived⟩⟩
  case overrun =>
    intro tail up far
    exact ⟨_, execMbxInDoorbell_overrun firmware up far, State.reject_book ..⟩
  case wrongCrc =>
    intro up fits bad place
    have err : frameError bs c.inSeq = 1 := frameError_crc _ fits bad
    have rejected := State.receiveUpTo_unframed (inSeq_ne_next _) place 32 (err ▸ Nat.one_ne_zero)
    refine ⟨_, (execMbxInDoorbell_next firmware up (sub32_next _)).trans (congrArg Host.Outcome.next rejected), ?_⟩
    rw [err]
    exact State.reject_book ..
  case message =>
    intro own src packets message eid peer hears sent long head m fits crc op next place idle whole good
    obtain ⟨ack, received⟩ := Channel.receive_alone .mctp s.book.arrivals idle whole
    have framed := execVendorDefinedMessage_framed firmware eid peer hears sent long head fits crc
    rw [State.mctpTicket_next op next place] at framed
    have chan : (s.receiveTicket .mctp m).book.mctp = s.book.mctp.receive .mctp s.book.arrivals m := rfl
    refine ⟨_, framed, ?_⟩
    rw [chan, received, Ticket.alone_good _ whole good]
    exact ⟨rfl, rfl⟩

end Sys2Proof.Machine
end

section
/-! How outbound tickets go out, are acknowledged and are sent again (R323, R337, R338, R342, R343). -/

namespace Sys2Proof.Machine

/-- A range of a memory that was stored reads back. -/
theorem Bytes.read_write {m : Bytes} (a : Nat) (bs : List Byte) (form : m.wf = true) :
    (m.write a bs).read a bs.length = bs :=
  Bytes.read_of_get (fun i => Bytes.get_write_inside m a i bs form)

/-- R331, R337: a ticket put on PCIe stands in its slot of the window. -/
theorem State.putTicket_pcie_read {s : State} (form : s.book.outWin.wf = true) (t : SentTicket) :
    (s.putTicket .pcie t).book.outWin.read (512 * (t.seq.toNat % 32)) (t.bytes s.book.pcie.ackOut).length =
      t.bytes s.book.pcie.ackOut := by
  rw [State.putTicket_pcie]
  dsimp only
  exact Bytes.read_write _ _ form

/-- R322: a ticket of at most 480 bytes goes out in one part. -/
theorem Channel.nextPart_short {c : Channel} {q : OutTicket} {rest : List OutTicket} (queue : c.queue = q :: rest)
    (short : q.payload.length ≤ 480) :
    c.nextPart = some ({ seq := c.outSeq, more := false, replayed := false, ticket := q }, rest) := by
  unfold Channel.nextPart
  simp [queue, List.take_of_length_le short, short]

/-- A channel that lost no event has no EVENTS_LOST to queue (R339). -/
theorem Channel.addLost_none {c : Channel} (noneLost : c.lost = 0) : c.addLost = c := by
  simp [Channel.addLost, noneLost]

/-- The last ticket written is held, however many are dropped before it (R331, R342). -/
theorem getLast?_held (l : List SentTicket) (x : SentTicket) (ch : Chan) :
    ((l ++ [x]).drop (l.length + 1 - heldTickets ch)).getLast? = some x := by
  have held : l.length + 1 - heldTickets ch ≤ l.length := by cases ch <;> simp [heldTickets]
  rw [List.drop_append_of_le_length held, List.getLast?_append]
  rfl

/-- The channel after a ticket was written: OUT_SEQ goes up, and the ticket leaves the queue and is held (R337, R342). -/
def Channel.wrote (c : Channel) (ch : Chan) (x : SentTicket) (rest : List OutTicket) : Channel :=
  { c with outSeq := c.outSeq + 1, queue := rest, sent := (c.sent ++ [x]).drop (c.sent.length + 1 - heldTickets ch) }

/-- The state after a ticket was put and its channel moved on. -/
def State.wrote (s : State) (ch : Chan) (x : SentTicket) (rest : List OutTicket) : State :=
  (s.putTicket ch x).modChan ch (fun c => (c.wrote ch x rest).addLost)

/-- R337: what the writing of a ticket of one part does: on PCIe, PENDING and vector 0 follow. -/
theorem State.writeTicket_part {s : State} {ch : Chan} {x : SentTicket} {rest : List OutTicket} (up : s.chanUp ch = true)
    (may : (s.chan ch).mayWrite = true) (part : (s.chan ch).nextPart = some (x, rest)) :
    (ch = .pcie → s.writeTicket ch = State.raiseVector { s.wrote ch x rest with book.pending := true } 0) ∧
      (ch = .mctp → s.writeTicket ch = s.wrote ch x rest) := by
  constructor <;> rintro rfl <;> simp only [State.writeTicket, up, may, part, not_true_eq_false, or_self, if_false] <;> rfl

theorem State.wrote_chan {s : State} {ch : Chan} (noneLost : (s.chan ch).lost = 0) (x : SentTicket) (rest : List OutTicket) :
    (s.wrote ch x rest).chan ch = (s.chan ch).wrote ch x rest := by
  unfold State.wrote
  rw [State.chan_modChan_same, State.putTicket_chan]
  exact Channel.addLost_none noneLost

theorem State.wrote_outWin (s : State) (ch : Chan) (x : SentTicket) (rest : List OutTicket) :
    (s.wrote ch x rest).book.outWin = (s.putTicket ch x).book.outWin := State.modChan_outWin ..

theorem State.wrote_out (s : State) (ch : Chan) (x : SentTicket) (rest : List OutTicket) :
    (s.wrote ch x rest).out = (s.putTicket ch x).out := State.modChan_out ..

/-- R337, R342: a ticket of one part is written, and its channel moves on. -/
theorem execOutboundTicketWrite_part {s : State} {ch : Chan} {x : SentTicket} {rest : List OutTicket}
    (up : s.chanUp ch = true) (may : (s.chan ch).mayWrite = true) (part : (s.chan ch).nextPart = some (x, rest))
    (noneLost : (s.chan ch).lost = 0) :
    ∃ t, exec (.outboundTicketWrite ch) s = .next t ∧ t.chan ch = (s.chan ch).wrote ch x rest ∧
      (ch = .pcie → t.book.pending = true ∧ t.book.outWin = (s.putTicket ch x).book.outWin) ∧
      (ch = .mctp → t.out = (s.putTicket ch x).out) := by
  have chan := State.wrote_chan noneLost x rest
  obtain ⟨pcie, mctp⟩ := State.writeTicket_part up may part
  refine ⟨s.writeTicket ch, rfl, ?_⟩
  cases ch with
  | pcie =>
    rw [pcie rfl, State.raiseVector_chan, State.pending_chan, State.raiseVector_book, State.pending_outWin,
      State.wrote_outWin]
    exact ⟨chan, fun _ => ⟨rfl, rfl⟩, nofun⟩
  | mctp =>
    rw [mctp rfl]
    exact ⟨chan, nofun, fun _ => s.wrote_out .mctp x rest⟩

/-- R343: the resend time-out sends every unacknowledged ticket again. -/
theorem execMctpResendTimeout_up {s : State} (up : s.chanUp .mctp = true) :
    exec .mctpResendTimeout s = .next (s.resendTickets .mctp) := congrArg Host.Outcome.next (if_pos up)

theorem State.resendTickets_mctp_out {s : State} {dst : Byte} (peer : s.book.peer = some dst) :
    (s.resendTickets .mctp).out = s.out ++ s.book.mctp.unacked.map (fun x =>
      .mctp dst (s.blockWrites dst (ticketMessage ({ x with replayed := true }.bytes s.book.mctp.ackOut)))) :=
  (State.modChan_out ..).trans (State.foldl_putTicket_mctp_out _ peer)

/-- R338. -/
theorem execMbxOutAck_up {s : State} (ack : W32) (up : s.hostUp = true) : exec (.mbxOutAck ack) s = .next { s with
    book.pcie.outAck := if s.book.pcie.ackInRange ack then ack else s.book.pcie.outAck } := by
  show execMbxOutAck ack s = _
  simp [execMbxOutAck, State.onBar_up up, State.modChan, Channel.takeAck_eq]

/-- Settles O35: one command for each clause, the first by its channel. -/
theorem ticketsGoOut : Obligations.TicketsGoOut := by
  intro s
  refine ⟨?written, fun ack up => execMbxOutAck_up ack up,
    fun v up => congrArg Host.Outcome.next (State.onBar_up up _), ?resent⟩
  case written =>
    intro ch q rest up may queue short noneLost form x bs
    obtain ⟨t, ran, chan, window, message⟩ :=
      execOutboundTicketWrite_part up may (Channel.nextPart_short queue short) noneLost
    refine ⟨t, ran, ?_⟩
    rw [chan]
    refine ⟨rfl, rfl, getLast?_held .., rfl, ?_, ?_⟩
    · rintro rfl
      obtain ⟨pending, stored⟩ := window rfl
      rw [stored]
      exact ⟨pending, State.putTicket_pcie_read form x⟩
    · rintro dst rfl peer
      rw [message rfl, State.putTicket_mctp peer]
      rfl
  case resent =>
    intro dst up peer
    have seq : ((s.resendTickets .mctp).chan .mctp).outSeq = (s.chan .mctp).outSeq := by rw [State.resendTickets_chan]
    exact ⟨_, execMctpResendTimeout_up up, State.resendTickets_mctp_out peer, seq⟩

end Sys2Proof.Machine
end

section
/-! SESSION_QUERY, SESSION_RESUME and SESSION_ACK (R322, R338, R347, R348, R351). -/

namespace Sys2Proof.Machine

/-- The turn of the oldest request of a channel. -/
theorem State.takeReq_first {s : State} {ch : Chan} {r : Request} {rest : List Request} {p : Nat → Bool}
    (first : (s.chan ch).received = r :: rest) (firmware : s.book.fwState = 3) (op : p r.opcode = true)
    (turn : s.mayStart r = true) : s.takeReq ch p = some (r, s.started ch r rest) := by
  unfold State.takeReq
  simp only [first]
  rw [if_pos ⟨firmware, op, turn⟩]
  rfl

/-- A request without a payload, allowed in Hold-up and named by no letter, is refused by no check. -/
theorem Asked.empty_unrefused {s : State} {ch : Chan} {op : Nat} {r : Request} {rest : List Request}
    (asked : Asked s ch op r rest) (shaped : Shaped r 0 []) :
    (s.started ch r rest).refusal r { holdup := true, lenOk := lenIs 0 } false = none :=
  State.refusal_none asked.whole asked.noBlock asked.noHost (fun _ => rfl) (fun _ => rfl) rfl shaped.lenOk shaped.2 nofun

/-- R351: OPEN leaves the request that runs out. -/
theorem State.started_open (s : State) (ch : Chan) (r : Request) (rest : List Request) :
    ((s.started ch r rest).chan ch).openCount - 1 = rest.length + (s.chan ch).running.length := by
  simp [Channel.openCount]

@[simp] theorem State.started_session (s : State) (ch : Chan) (r : Request) (rest : List Request) :
    (s.started ch r rest).book.session = s.book.session := State.modChan_session ..

/-- R351. -/
theorem State.started_sessionReply (s : State) (ch : Chan) (r : Request) (rest : List Request) :
    (s.started ch r rest).sessionReply ch =
      leBytes 4 (s.chan ch).inSeq.toNat ++ leBytes 4 (s.chan ch).outSeq.toNat ++ leBytes 4 (s.chan ch).outAck.toNat ++
        leBytes 4 s.book.session.toNat ++ leBytes 4 (rest.length + (s.chan ch).running.length) := by
  unfold State.sessionReply
  dsimp only
  rw [State.started_open, State.started_chan, State.started_session]

/-! ### SESSION_QUERY -/

theorem State.queryReply_only (s : State) (r : Request) (code detail : Nat) (payload : List Byte) :
    OnlyBook s (s.queryReply r code detail payload) := by
  unfold State.queryReply
  exact (State.putTicket_only ..).trans (State.modChan_only ..)

/-- R347: the reply on MCTP is not held, and no sequence moves. -/
theorem State.queryReply_mctp (s : State) (r : Request) (rest : List Request) (code detail : Nat) (payload : List Byte) :
    let c := ((s.started .mctp r rest).queryReply r code detail payload).chan .mctp
    c.sent = (s.chan .mctp).sent ∧ c.inSeq = (s.chan .mctp).inSeq ∧ c.outSeq = (s.chan .mctp).outSeq ∧
      c.outAck = (s.chan .mctp).outAck := by
  have left : ((s.started .mctp r rest).queryReply r code detail payload).chan .mctp =
      { (s.started .mctp r rest).chan .mctp with running := ((s.started .mctp r rest).chan .mctp).running.erase r } := by
    unfold State.queryReply
    rw [State.chan_modChan_same, State.putTicket_chan]
  rw [State.started_chan] at left
  exact ⟨by rw [left], by rw [left], by rw [left], by rw [left]⟩

/-- R347: the reply on MCTP goes out at once with SEQ 0xFFFF_FFFF. -/
theorem State.queryReply_out {s : State} {dst : Byte} (peer : s.book.peer = some dst) (r : Request) (code detail : Nat)
    (payload : List Byte) : (s.queryReply r code detail payload).out = s.out ++ [.mctp dst (s.blockWrites dst (ticketMessage
      (SentTicket.bytes { seq := 0xFFFFFFFF, more := false, replayed := false, ticket := r.answer code detail payload }
        s.book.mctp.ackOut)))] := by
  unfold State.queryReply
  rw [State.modChan_out, State.putTicket_mctp peer]
  rfl

/-- R347: a SESSION_QUERY on MCTP is answered outside the queue, OK with the session's numbers where no check refuses it. -/
theorem execSessionQuery_mctp {s : State} {r : Request} {rest : List Request}
    (taken : s.takeReq .mctp (opIs 0x0100) = some (r, s.started .mctp r rest)) : ∃ code detail body,
    exec (.sessionQuery .mctp) s = .next ((s.started .mctp r rest).queryReply r code detail body) ∧
      ((s.started .mctp r rest).refusal r queryRule false = none →
        code = stOk ∧ detail = 0 ∧ body = (s.started .mctp r rest).sessionReply .mctp) := by
  cases check : (s.started .mctp r rest).refusal r queryRule false with
  | none => exact ⟨_, _, _, by simp [exec, execSessionQuery, taken, check], fun _ => ⟨rfl, rfl, rfl⟩⟩
  | some refused => exact ⟨refused.1, refused.2, [], by simp [exec, execSessionQuery, taken, check], nofun⟩

/-- R351: a SESSION_QUERY on PCIe is answered in the queue. -/
theorem execSessionQuery_pcie {s : State} {r : Request} {rest : List Request} (asked : Asked s .pcie 0x0100 r rest)
    (shaped : Shaped r 0 []) : exec (.sessionQuery .pcie) s =
      .next ((s.started .pcie r rest).ok r ((s.started .pcie r rest).sessionReply .pcie)) :=
  congrArg Host.Outcome.next (State.onRequest_asked asked rfl (asked.empty_unrefused shaped))

/-! ### SESSION_RESUME and SESSION_ACK -/

/-- R338: an acknowledgement in range becomes OUT_ACK. -/
theorem Channel.takeAck_inRange {c : Channel} {ack : W32} (range : c.ackInRange ack = true) :
    c.takeAck ack = { c with outAck := ack } := if_pos range

/-- The state in which a SESSION_RESUME whose ACK is in range sends its channel's tickets again. -/
def State.resumed (s : State) (ch : Chan) (r : Request) (rest : List Request) : State :=
  (s.started ch r rest).modChan ch (fun c => c.takeAck r.ack)

section
variable {s : State} {ch : Chan} {r : Request} {rest : List Request} (range : (s.chan ch).ackInRange r.ack = true)
include range

theorem State.resumed_chan : (s.resumed ch r rest).chan ch =
    { s.chan ch with received := rest, running := (s.chan ch).running ++ [r], outAck := r.ack } := by
  unfold State.resumed
  rw [State.chan_modChan_same, State.started_chan]
  exact Channel.takeAck_inRange range

theorem State.resumed_unacked :
    ((s.resumed ch r rest).chan ch).unacked = Channel.unacked { s.chan ch with outAck := r.ack } := by
  rw [State.resumed_chan range]
  rfl

/-- R348. -/
theorem execSessionResume_inRange (asked : Asked s ch 0x0101 r rest) (shaped : Shaped r 0 []) :
    exec (.sessionResume ch) s = .next (((s.resumed ch r rest).resendTickets ch).ok r
      (leBytes 4 (r.ack + 1).toNat ++ leBytes 4 (Channel.unacked { s.chan ch with outAck := r.ack }).length ++
        leBytes 4 s.book.session.toNat ++ leBytes 4 (rest.length + (s.chan ch).running.length))) := by
  have inRange : ((s.started ch r rest).chan ch).ackInRange r.ack = true := by
    rw [State.started_chan]
    exact range
  have opened : ((s.resumed ch r rest).chan ch).openCount - 1 = rest.length + (s.chan ch).running.length := by
    rw [← State.started_open s ch r rest, State.resumed_chan range, State.started_chan]
    rfl
  have acked : ((s.resumed ch r rest).chan ch).outAck = r.ack := by rw [State.resumed_chan range]
  have session : (s.resumed ch r rest).book.session = s.book.session := by simp [State.resumed]
  show Host.Outcome.next (s.onRequest ch _ _ _) = _
  rw [State.onRequest_asked asked rfl (asked.empty_unrefused shaped), if_neg (fun h => h.2 inRange)]
  show Host.Outcome.next (((s.resumed ch r rest).resendTickets ch).ok r
    (leBytes 4 (((s.resumed ch r rest).chan ch).outAck + 1).toNat ++
      leBytes 4 ((s.resumed ch r rest).chan ch).unacked.length ++ leBytes 4 (s.resumed ch r rest).book.session.toNat ++
      leBytes 4 (((s.resumed ch r rest).chan ch).openCount - 1))) = _
  rw [acked, State.resumed_unacked range, session, opened]

/-- R322, R338: SESSION_ACK takes its ACK and is answered with nothing. -/
theorem execSessionAck_inRange (asked : Asked s ch 0x0102 r rest) :
    ∃ t, exec (.sessionAck ch) s = .next t ∧ OnlyBook s t ∧ t.trg = s.trg ∧ t.out = s.out ∧
      (t.chan ch).outAck = r.ack ∧ (t.chan ch).queue = (s.chan ch).queue := by
  have ran : exec (.sessionAck ch) s = .next ((s.started ch r rest).modChan ch
      (fun c => { c.takeAck r.ack with running := c.running.erase r })) := by
    show execSessionAck ch s = _
    simp only [execSessionAck, State.takeReq_asked asked (p := opIs 0x0102) rfl]
  have acked : ((s.started ch r rest).chan ch).takeAck r.ack =
      { s.chan ch with received := rest, running := (s.chan ch).running ++ [r], outAck := r.ack } := by
    rw [State.started_chan]
    exact Channel.takeAck_inRange range
  refine ⟨_, ran, (State.started_only ..).trans (State.modChan_only ..), (State.modChan_trg ..).trans (State.modChan_trg ..),
    (State.modChan_out ..).trans (State.modChan_out ..), ?_⟩
  rw [State.chan_modChan_same, acked]
  exact ⟨rfl, rfl⟩

end

/-- Settles O1: SESSION_QUERY by its channel, the other two with an ACK in range, and a message that carries a query. -/
theorem sessionRequests : Obligations.SessionRequests := by
  refine ⟨?query, fun s r rest ch range => ⟨?resume, execSessionAck_inRange range⟩, ?message, ?outside⟩
  case query =>
    intro s r rest ch asked shaped c body
    have reply := s.started_sessionReply ch r rest
    cases ch with
    | pcie =>
      refine ⟨_, execSessionQuery_pcie asked shaped, (State.started_only ..).trans (State.ok_only ..), fun _ => ?_, nofun⟩
      rw [reply]
      exact State.ok_answered ..
    | mctp =>
      obtain ⟨code, detail, answer, ran, passed⟩ := execSessionQuery_mctp (State.takeReq_asked asked rfl)
      obtain ⟨rfl, rfl, rfl⟩ := passed (asked.empty_unrefused shaped)
      refine ⟨_, ran, (State.started_only ..).trans (State.queryReply_only ..), nofun, fun _ dst peer => ?_⟩
      have out := State.queryReply_out (s := s.started .mctp r rest) peer r stOk 0
        ((s.started .mctp r rest).sessionReply .mctp)
      obtain ⟨sent, -, seq, -⟩ := s.queryReply_mctp r rest stOk 0 ((s.started .mctp r rest).sessionReply .mctp)
      exact ⟨by rw [out, reply]; rfl, seq, sent⟩
  case resume =>
    intro asked shaped u
    obtain rfl := asked.chan
    obtain ⟨ack, seq, sent⟩ := State.ok_chan_same ((s.resumed r.chan r rest).resendTickets r.chan) r
      (leBytes 4 (r.ack + 1).toNat ++ leBytes 4 u.length ++ leBytes 4 s.book.session.toNat ++
        leBytes 4 (rest.length + (s.chan r.chan).running.length))
    rw [State.resendTickets_chan, State.resumed_unacked range, State.resumed_chan range] at ack seq sent
    exact ⟨_, execSessionResume_inRange range asked shaped,
      (((State.started_only ..).trans (State.modChan_only ..)).trans (State.resendTickets_only ..)).trans
        (State.ok_only ..), ack, seq, sent, State.ok_answered ..⟩
  case message =>
    intro s own src packets message firmware eid sent peer hears long head m fits crc op
    exact (execVendorDefinedMessage_framed firmware eid peer hears sent long head fits crc).trans
      (congrArg Host.Outcome.next (State.mctpTicket_query op))
  case outside =>
    intro s r rest dst first chan op firmware turn peer
    have taken : s.takeReq .mctp (opIs 0x0100) = some (r, s.started .mctp r rest) :=
      State.takeReq_first first firmware (decide_eq_true op) turn
    obtain ⟨code, detail, body, ran, -⟩ := execSessionQuery_mctp taken
    exact ⟨_, code, detail, body, ran, State.queryReply_out (s := s.started .mctp r rest) peer r code detail body,
      s.queryReply_mctp r rest code detail body⟩

end Sys2Proof.Machine
end

section
/-! SUPPORT. The learned-value record (R428 to R431): its 64 bytes hold it, and a write that reads back as written is the
valid copy. -/

namespace Sys2Proof.Machine

/-! ### Numbers in bytes, least-significant byte first (R13) -/

@[simp] theorem length_leBytes (n v : Nat) : (leBytes n v).length = n := by
  induction n generalizing v with
  | zero => rfl
  | succ n ih => simp [leBytes, ih]

theorem leNat_leBytes (n v : Nat) : leNat (leBytes n v) = v % 256 ^ n := by
  induction n generalizing v with
  | zero => simp [leBytes, leNat, Nat.mod_one]
  | succ n ih =>
    have split : v % 256 ^ (n + 1) = v % 256 + 256 * (v / 256 % 256 ^ n) := by
      rw [Nat.pow_succ', Nat.mod_mul]
    simp [leBytes, leNat, ih, split]

theorem getLE_append_right {a : List Byte} {off : Nat} (h : a.length ≤ off) (b : List Byte) (n : Nat) :
    getLE (a ++ b) off n = getLE b (off - a.length) n := by
  simp [getLE, slice, List.drop_append, List.drop_eq_nil_of_le h]

theorem slice_of_length {bs : List Byte} {n : Nat} (h : bs.length = n) : slice bs 0 n = bs := by
  subst h
  simp [slice]

theorem getLE_append_left {a : List Byte} {n : Nat} (h : a.length = n) (b : List Byte) : getLE (a ++ b) 0 n = leNat a := by
  subst h
  simp [getLE, slice]

theorem getLE_leBytes (n v : Nat) : getLE (leBytes n v) 0 n = v % 256 ^ n := by
  rw [getLE, slice_of_length (length_leBytes n v), leNat_leBytes]

/-- A register of whole bytes reads back from where it was written. -/
theorem ofNat_getLE_leBytes {w n : Nat} (bytes : w = 8 * n) (x : BitVec w) (rest : List Byte) :
    BitVec.ofNat w (getLE (leBytes n x.toNat ++ rest) 0 n) = x := by
  have pow : 256 ^ n = 2 ^ w := by rw [bytes, Nat.pow_mul]
  rw [getLE_append_left (length_leBytes n _), leNat_leBytes, pow, BitVec.toNat_mod_cancel, BitVec.ofNat_toNat,
    BitVec.setWidth_eq]

/-! ### The bytes of a record (R428) -/

/-- The 60 bytes before the CRC of a record. -/
def EstRecord.body (r : EstRecord) (seq : Nat) : List Byte :=
  leBytes 8 seq ++ leBytes 8 r.cartId.toNat ++ leBytes 4 r.capacity.toNat ++ leBytes 2 r.learnCount.toNat
    ++ leBytes 2 (b2n r.learned + 2 * b2n r.closed) ++ leBytes 4 r.offset.toNat ++ leBytes 4 0 ++ leBytes 8 r.lastFull.toNat
    ++ leBytes 8 r.lastEmpty.toNat ++ leBytes 8 r.lastLearn.toNat ++ leBytes 4 r.throughput.toNat

theorem EstRecord.bytes_eq (r : EstRecord) (seq : Nat) :
    r.bytes seq = r.body seq ++ leBytes 4 (crc32c (r.body seq)).toNat := rfl

@[simp] theorem EstRecord.length_body (r : EstRecord) (seq : Nat) : (r.body seq).length = 60 := by simp [EstRecord.body]

@[simp] theorem EstRecord.length_bytes (r : EstRecord) (seq : Nat) : (r.bytes seq).length = 64 := by
  simp [EstRecord.bytes_eq]

theorem EstRecord.ofBytes_bytes (r : EstRecord) (seq : Nat) : EstRecord.ofBytes (r.bytes seq) = r := by
  have flags (rest : List Byte) : getLE (leBytes 2 (b2n r.learned + 2 * b2n r.closed) ++ rest) 0 2 =
      b2n r.learned + 2 * b2n r.closed := by
    rw [getLE_append_left (length_leBytes 2 _), leNat_leBytes]
    cases r.learned <;> cases r.closed <;> rfl
  have learned : decide (b2n r.learned % 2 = 1) = r.learned := by cases r.learned <;> rfl
  have closed : decide ((b2n r.learned + 2 * b2n r.closed) / 2 % 2 = 1) = r.closed := by
    cases r.learned <;> cases r.closed <;> rfl
  simp only [EstRecord.ofBytes, EstRecord.bytes_eq, EstRecord.body, List.append_assoc]
  simp [getLE_append_right, ofNat_getLE_leBytes, flags, learned, closed]

/-- A record carries its sequence number, under a correct CRC. -/
theorem EstRecord.estSeq_bytes (r : EstRecord) {seq : Nat} (fits : seq < 2 ^ 64) : estSeq (r.bytes seq) = some seq := by
  have crc : getLE (r.bytes seq) 60 4 = (crc32c (r.body seq)).toNat := by
    rw [EstRecord.bytes_eq, getLE_append_right (by simp), EstRecord.length_body, getLE_leBytes]
    exact Nat.mod_eq_of_lt (crc32c (r.body seq)).isLt
  have number : getLE (r.bytes seq) 0 8 = seq := by
    simp only [EstRecord.bytes_eq, EstRecord.body, List.append_assoc]
    rw [getLE_append_left (length_leBytes 8 seq), leNat_leBytes]
    exact Nat.mod_eq_of_lt fits
  have covered : (r.bytes seq).take 60 = r.body seq := by
    rw [EstRecord.bytes_eq, ← r.length_body seq, List.take_left]
  rw [estSeq, if_pos (by rw [covered, crc]), number]

/-! ### Writes (R430, R431) -/

/-- The copies of the record, each with the sequence number of a valid one. -/
def Mram.est (m : Mram) : TwoCopy (List Byte) :=
  { seq0 := estSeq m.est0, val0 := m.est0, seq1 := estSeq m.est1, val1 := m.est1 }

theorem Mram.readEst_eq (m : Mram) : m.readEst = m.est.read.map EstRecord.ofBytes := rfl

/-- R431: bytes under the next sequence number, in the copy that a write goes to, leave both copies as a store does. -/
theorem Mram.est_write (m : Mram) {v : List Byte} (seq : estSeq v = some (m.est.high + 1)) :
    Mram.est (if m.est.target then { m with est1 := v } else { m with est0 := v }) = m.est.store v true := by
  simp only [TwoCopy.store, if_true, ← seq]
  split <;> rfl

/-- R431: a write that reads back as written at the first or the second attempt does not fail, and is what is read. -/
theorem Mram.writeEst_written (m : Mram) (r : EstRecord) {back : ReadBacks} (good : back.first = none ∨ back.second = none)
    (fits : m.est.high + 1 < 2 ^ 64) : (m.writeEst r back).1 = false ∧ (m.writeEst r back).2.readEst = some r := by
  have held : (if back.first.all (fun b => b = r.bytes (m.est.high + 1)) then r.bytes (m.est.high + 1)
      else slice (back.second.getD (r.bytes (m.est.high + 1))) 0 64) = r.bytes (m.est.high + 1) := by
    rcases good with first | second
    · simp [first]
    · simp [second, slice_of_length]
  have write : m.writeEst r back = (false, if m.est.target then { m with est1 := r.bytes (m.est.high + 1) }
      else { m with est0 := r.bytes (m.est.high + 1) }) := by
    unfold Mram.writeEst
    simp only [show TwoCopy.mk (estSeq m.est0) m.est0 (estSeq m.est1) m.est1 = m.est from rfl, held, ne_eq, not_true_eq_false,
      decide_false]
  rw [write]
  refine ⟨rfl, ?_⟩
  rw [Mram.readEst_eq, Mram.est_write m (r.estSeq_bytes fits), TwoCopy.read_store, Option.map_some,
    EstRecord.ofBytes_bytes]

end Sys2Proof.Machine
end

section
/-! SUPPORT. What the shared operations of the reservoir change: the unit entry, reports, the end of a walk, the record
written, the fence and the loss of a cartridge (R398 to R408, R425, R430). -/

namespace Sys2Proof.Machine

/-! ### The unit entry (R408) -/

/-- R456, R526: a watched change adds at most a recording. -/
theorem State.flatWatch_eq (f : State → State) (s : State) : ∃ g, s.flatWatch f = { f s with trg := g } := by
  unfold State.flatWatch
  dsimp only
  split
  · exact ⟨(f s).trg, rfl⟩
  · split
    · exact State.note_eq ..
    · exact ⟨(f s).trg, rfl⟩

/-- R395, R502: the end of start-up changes the descriptor, the timer and the recovery history. -/
theorem State.startDone_eq (s : State) :
    ∃ c b h, s.startDone = { s with cap := c, sbx.resetTimer := b, mram.history := h } := by
  unfold State.startDone
  split
  · obtain ⟨n, recapped⟩ := State.recap_eq (fun s => { s with cap.starting := false }) s
    dsimp only
    rw [recapped]
    split
    · obtain ⟨h, past⟩ := State.modPast_eq
        { s with cap := { s.cap with starting := false, changeCount := n }, sbx.resetTimer := false } _
      exact ⟨_, _, h, past⟩
    · exact ⟨_, _, _, rfl⟩
  · exact ⟨s.cap, s.sbx.resetTimer, s.mram.history, rfl⟩

theorem State.hayIn_entry {s : State} (serves : s.hayIn = true) : s.hay.entry = .inService := by
  simpa [State.hayIn] using serves

/-- What a change of the unit entry can change besides it. -/
theorem State.setEntry_eq (s : State) (u : UnitState) : ∃ c g k b h, s.setEntry u =
    { s with hay.entry := u, cap := c, trg := g, book := k, sbx.resetTimer := b, mram.history := h } := by
  unfold State.setEntry
  split
  case isTrue same =>
    subst same
    exact ⟨s.cap, s.trg, s.book, s.sbx.resetTimer, s.mram.history, rfl⟩
  case isFalse =>
    obtain ⟨g, watched⟩ := State.flatWatch_eq (fun s => s.recap (fun s => { s with hay.entry := u })) s
    obtain ⟨n, recapped⟩ := State.recap_eq (fun s => { s with hay.entry := u }) s
    dsimp only
    rw [watched, recapped]
    split
    · exact ⟨_, _, s.book, s.sbx.resetTimer, s.mram.history, rfl⟩
    · obtain ⟨k, raised⟩ := State.event_eq
        { s with hay.entry := u, cap.changeCount := n, trg := g } 0x0381 (leBytes 1 (unitCode u) ++ leBytes 3 0)
      rw [raised]
      obtain ⟨c, b, h, done⟩ := State.startDone_eq { s with hay.entry := u, cap.changeCount := n, trg := g, book := k }
      exact ⟨c, g, k, b, h, done⟩

section
variable (s : State) (u : UnitState)

@[simp] theorem State.setEntry_hay : (s.setEntry u).hay = { s.hay with entry := u } := by
  obtain ⟨_, _, _, _, _, h⟩ := s.setEntry_eq u
  rw [h]

@[simp] theorem State.setEntry_power : (s.setEntry u).power = s.power := by
  obtain ⟨_, _, _, _, _, h⟩ := s.setEntry_eq u
  rw [h]

@[simp] theorem State.setEntry_deaf : (s.setEntry u).sbx.deaf = s.sbx.deaf := by
  obtain ⟨_, _, _, _, _, h⟩ := s.setEntry_eq u
  rw [h]

@[simp] theorem State.setEntry_est0 : (s.setEntry u).mram.est0 = s.mram.est0 := by
  obtain ⟨_, _, _, _, _, h⟩ := s.setEntry_eq u
  rw [h]

@[simp] theorem State.setEntry_est1 : (s.setEntry u).mram.est1 = s.mram.est1 := by
  obtain ⟨_, _, _, _, _, h⟩ := s.setEntry_eq u
  rw [h]

end

/-! ### Reports and the end of a walk (R400, R425) -/

section
variable (s : State) (src : W32) (code : Nat) (ctx : Option (Nat × W16)) (info : W32)

@[simp] theorem State.report_hay : (s.report src code ctx info).hay = s.hay := by
  obtain ⟨_, h⟩ := s.report_eq src code ctx info
  rw [h]

@[simp] theorem State.report_mram : (s.report src code ctx info).mram = s.mram := by
  obtain ⟨_, h⟩ := s.report_eq src code ctx info
  rw [h]

end

/-- R400: limits and stops that set in are reported, and nothing else. -/
theorem State.hayNotes_eq (onset : List Bool) : ∀ s : State, ∃ g, s.hayNotes onset = { s with sbx := g } := by
  induction onset with
  | nil => exact fun s => ⟨s.sbx, rfl⟩
  | cons b l ih =>
    intro s
    have first : ∃ g, (if b then s.hayNote else s) = { s with sbx := g } := by
      cases b
      · exact ⟨s.sbx, rfl⟩
      · exact s.report_eq ..
    obtain ⟨g, noted⟩ := first
    obtain ⟨k, rest⟩ := ih { s with sbx := g }
    refine ⟨k, ?_⟩
    rw [← rest, ← noted]
    rfl

@[simp] theorem State.hayNote_hay (s : State) : s.hayNote.hay = s.hay := State.report_hay ..

@[simp] theorem State.hayNotes_hay (s : State) (onset : List Bool) : (s.hayNotes onset).hay = s.hay := by
  obtain ⟨_, h⟩ := State.hayNotes_eq onset s
  rw [h]

theorem State.endWalk_eq (s : State) (outcome : Nat) :
    ∃ b, s.endWalk outcome = { s with hay.walk := none, book := b } := by
  unfold State.endWalk
  split
  case h_1 idle =>
    refine ⟨s.book, ?_⟩
    rw [← idle]
  case h_2 => exact State.event_eq ..

@[simp] theorem State.endWalk_hay (s : State) (outcome : Nat) :
    (s.endWalk outcome).hay = { s.hay with walk := none } := by
  obtain ⟨_, h⟩ := s.endWalk_eq outcome
  rw [h]

@[simp] theorem State.endWalk_mram (s : State) (outcome : Nat) : (s.endWalk outcome).mram = s.mram := by
  obtain ⟨_, h⟩ := s.endWalk_eq outcome
  rw [h]

@[simp] theorem State.endWalk_deaf (s : State) (outcome : Nat) : (s.endWalk outcome).sbx.deaf = s.sbx.deaf := by
  obtain ⟨_, h⟩ := s.endWalk_eq outcome
  rw [h]

/-- Where a walk ends under a condition, no more than the walk and its event differ. -/
theorem State.ite_endWalk_eq (s : State) (p : Prop) [Decidable p] (outcome : Nat) :
    ∃ w b, (if p then s.endWalk outcome else s) = { s with hay.walk := w, book := b } := by
  split
  · exact ⟨none, s.endWalk_eq outcome⟩
  · exact ⟨s.hay.walk, s.book, rfl⟩

/-- R321, R425: a walk that ends is raised on both channels, where firmware runs and both have room. -/
theorem State.endWalk_raised {s : State} {w : Walk} (walk : s.hay.walk = some w) (firmware : 2 ≤ s.book.fwState)
    (room : ∀ ch, ((s.chan ch).queue.filter (fun q => q.event)).length < 1024) (outcome : Nat) :
    (s.endWalk outcome).raised 0x0380 (leBytes 4 w.id.toNat ++ leBytes 1 outcome ++ leBytes 3 0) := by
  have pcie : (s.book.pcie.queue.filter (fun q => q.event)).length < 1024 := room .pcie
  have mctp : (s.book.mctp.queue.filter (fun q => q.event)).length < 1024 := room .mctp
  unfold State.endWalk State.event
  simp only [walk]
  rw [if_neg (Nat.not_lt.mpr firmware)]
  constructor <;> simp [State.modChan, Channel.addEvent, eventTicket, pcie, mctp]

/-! ### The record written (R430 to R433) -/

/-- The values that a write puts in the record. -/
def Hay.noted (h : Hay) (closed : Bool) : EstRecord := { h.record with capacity := h.capMc, closed := closed }

/-- What a write of the record can change: of the record no more than CAPACITY and CLOSED. -/
theorem State.writeEst_eq (s : State) (closed : Bool) (back : ReadBacks) : ∃ n b m g, s.writeEst closed back =
    { s with hay.record := { s.hay.record with capacity := n, closed := b }, mram := m, sbx := g } := by
  unfold State.writeEst State.putEst
  split
  · exact ⟨s.hay.record.capacity, s.hay.record.closed, s.mram, s.sbx, rfl⟩
  · dsimp only
    split
    · obtain ⟨g, noted⟩ := State.report_eq
        { s with hay.record := s.hay.noted closed, mram := (s.mram.writeEst (s.hay.noted closed) back).2 } haySource
        0x0501 none 0
      exact ⟨_, _, _, g, noted⟩
    · exact ⟨_, _, _, s.sbx, rfl⟩

theorem State.shutEst_eq (s : State) (closed : Bool) (back : ReadBacks) :
    ∃ r m g, s.shutEst closed back = { s with hay.record := r, mram := m, sbx := g } := by
  unfold State.shutEst
  split
  · obtain ⟨n, b, m, g, wrote⟩ := s.writeEst_eq closed back
    exact ⟨_, m, g, wrote⟩
  · exact ⟨s.hay.record, s.mram, s.sbx, rfl⟩

/-- R430, R431: a write that reads back as written changes the record and its copies alone. -/
theorem State.writeEst_written {s : State} (may : s.mayRecord) (closed : Bool) {back : ReadBacks}
    (good : back.first = none ∨ back.second = none) :
    ∃ m, s.writeEst closed back = { s with hay.record := s.hay.noted closed, mram := m } ∧
      m.readEst = some (s.hay.noted closed) := by
  obtain ⟨awake, room⟩ := may
  have fits : s.mram.est.high + 1 < 2 ^ 64 := by
    have copy (x : Option Nat) (h : ∀ n, x = some n → n + 1 < 2 ^ 64) : x.getD 0 + 1 < 2 ^ 64 := by
      cases x with
      | none => decide
      | some n => exact h n rfl
    have copy0 := copy (estSeq s.mram.est0) fun n h => room n (.inl h)
    have copy1 := copy (estSeq s.mram.est1) fun n h => room n (.inr h)
    show max _ _ + 1 < _
    rw [← Nat.succ_eq_add_one, ← Nat.succ_max_succ]
    exact max_lt copy0 copy1
  obtain ⟨held, reads⟩ := s.mram.writeEst_written (s.hay.noted closed) good fits
  refine ⟨_, ?_, reads⟩
  rw [State.writeEst, if_neg awake]
  exact if_neg (by rw [Hay.noted] at held; simp [held])

/-- R430: once written, the valid copy is the record. -/
theorem State.writeEst_reads {s : State} (may : s.mayRecord) (closed : Bool) {back : ReadBacks} (good : back = written) :
    (s.writeEst closed back).mram.readEst = some (s.writeEst closed back).hay.record := by
  obtain ⟨m, wrote, reads⟩ := State.writeEst_written may closed (back := back) (.inl (by rw [good]; rfl))
  rw [wrote]
  exact reads

/-- R433: a write that fails twice is reported. -/
theorem State.writeEst_fails {s : State} (awake : s.power.state ≠ .holdUp) {closed : Bool} {back : ReadBacks}
    (fails : (s.mram.writeEst (s.hay.noted closed) back).1 = true) (heard : haySource ∉ s.sbx.deaf) :
    ∃ e ∈ (s.writeEst closed back).sbx.reports, e.source = haySource ∧ e.code = 0x0501 := by
  obtain ⟨e, there, src, code, -⟩ := State.report_heard
    (s := { s with hay.record := s.hay.noted closed, mram := (s.mram.writeEst (s.hay.noted closed) back).2 }) heard
    0x0501 none 0
  refine ⟨e, ?_, src, code⟩
  rw [State.writeEst, if_neg awake]
  have put : s.putEst closed back =
      { s with hay.record := s.hay.noted closed, mram := (s.mram.writeEst (s.hay.noted closed) back).2 }.hayNote :=
    if_pos fails
  rwa [put]

/-! ### The fence and the loss of a cartridge (R399, R401, R407) -/

/-- A cartridge that is fenced: stopped, without a run or a walk. -/
def Hay.fence (h : Hay) : Hay := { h.halt with phase := .none, entry := .fenced, walk := none }

theorem State.fenceCart_eq {s : State} (here : s.hay.entry ≠ .absent) (standing : s.hay.entry ≠ .fenced) :
    s.fenceCart = ({ s with hay := { s.hay.halt with phase := .none } }.setEntry .fenced).endWalk 3 :=
  if_neg (by simp [here, standing])

section
variable {s : State} (here : s.hay.entry ≠ .absent) (standing : s.hay.entry ≠ .fenced)
include here standing

theorem State.fenceCart_hay : s.fenceCart.hay = s.hay.fence := by
  rw [State.fenceCart_eq here standing, State.endWalk_hay, State.setEntry_hay]
  rfl

theorem State.fenceCart_est : s.fenceCart.mram.est0 = s.mram.est0 ∧ s.fenceCart.mram.est1 = s.mram.est1 := by
  simp [State.fenceCart_eq here standing]

theorem State.faultCart_hay : s.faultCart.hay = s.hay.fence := by
  rw [State.faultCart, State.report_hay, State.fenceCart_hay here standing]

/-- R399, R484: a fault of the cartridge is reported. -/
theorem State.faultCart_reports (heard : haySource ∉ s.sbx.deaf) :
    ∃ e ∈ s.faultCart.sbx.reports, e.source = haySource ∧ e.code = 0x0503 := by
  obtain ⟨e, there, src, code, -⟩ := State.report_heard (s := s.fenceCart)
    (by simpa [State.fenceCart_eq here standing] using heard) 0x0503 none 0
  exact ⟨e, there, src, code⟩

end

/-- R407: what the loss of a cartridge leaves of the reservoir; the record holds what was written last. -/
theorem State.loseCart_hay {s : State} (here : s.hay.entry ≠ .absent) (back : ReadBacks) :
    ∃ r, (s.loseCart back).hay = { s.hay.halt with
      phase := .none, goodSamples := 0, badSamples := 0, entry := .absent, walk := none, record := r } := by
  unfold State.loseCart
  rw [if_neg here]
  dsimp only
  rw [State.endWalk_hay, State.setEntry_hay]
  split
  · exact ⟨s.hay.record, rfl⟩
  · obtain ⟨r, m, g, shut⟩ := s.shutEst_eq false back
    rw [shut]
    exact ⟨r, rfl⟩

end Sys2Proof.Machine
end

section
/-! The cartridge: settles O44 (R54, R399 to R401, R404, R406, R407). -/

namespace Sys2Proof.Machine

/-! ### Insertion (R54, R404) -/

theorem unitEntry_inj {u v : UnitState} (h : unitEntry u 0 = unitEntry v 0) : u = v := by
  revert h
  cases u <;> cases v <;> decide

/-- R389: byte 80 of the descriptor, 76 after its change count, is the entry of the reservoir. -/
theorem State.capBody_entry (s : State) : s.capBody[76]? = some (unitEntry s.hay.entry 0) := by
  have yards : ((List.range 8).map (fun p => leBytes 4 (s.yardBytes p))).flatten.length = 32 := by
    simp [List.length_flatten, Function.comp_def]
  unfold State.capBody
  generalize ((List.range 8).map (fun p => leBytes 4 (s.yardBytes p))).flatten = y at yards ⊢
  simp only [List.append_assoc]
  iterate 16 rw [List.getElem?_append_right (by simp only [length_leBytes, yards]; decide)]
  simp only [length_leBytes, yards]
  rfl

/-- R54: another unit entry in a descriptor that is published moves its change count to the next even value. -/
theorem State.recap_entry {s : State} (published : s.cap.published = true) {u : UnitState} (other : s.hay.entry ≠ u) :
    (s.recap (fun s => { s with hay.entry := u })).cap.changeCount = s.cap.changeCount + 2 := by
  have changed : ({ s with hay.entry := u } : State).capBody ≠ s.capBody := fun same => by
    have entry := State.capBody_entry { s with hay.entry := u }
    rw [same, State.capBody_entry] at entry
    exact other (unitEntry_inj (Option.some.inj entry))
  unfold State.recap
  exact congrArg (fun t : State => t.cap.changeCount) (if_pos ⟨published, changed⟩)

theorem State.setEntry_pending_count {s : State} (absent : s.hay.entry = .absent) (published : s.cap.published = true) :
    (s.setEntry .pending).cap.changeCount = s.cap.changeCount + 2 := by
  obtain ⟨g, watched⟩ := State.flatWatch_eq (fun s => s.recap (fun s => { s with hay.entry := .pending })) s
  rw [State.setEntry, if_neg (by simp [absent])]
  dsimp only
  rw [if_pos rfl, watched]
  exact State.recap_entry published (by simp [absent])

section
variable {s : State} (absent : s.hay.entry = .absent)
include absent

theorem execCartridgeInsert_powered (powered : s.start.phase = .rom) :
    exec .cartridgeInsert s = .next ({ s with hay := s.hay.check }.setEntry .pending) := by
  show Host.Outcome.next _ = _
  rw [if_neg (by simp [absent]), if_pos powered]

theorem execCartridgeInsert_unpowered (unpowered : s.start.phase ≠ .rom) :
    exec .cartridgeInsert s = .next (s.setEntry .pending) := by
  show Host.Outcome.next _ = _
  rw [if_neg (by simp [absent]), if_neg unpowered]

theorem execCartridgeInsert_count (published : s.cap.published = true) {t : State}
    (ran : exec .cartridgeInsert s = .next t) : t.cap.changeCount = s.cap.changeCount + 2 := by
  by_cases powered : s.start.phase = .rom
  · rw [execCartridgeInsert_powered absent powered] at ran
    obtain rfl := Host.Outcome.next.inj ran
    exact State.setEntry_pending_count (s := { s with hay := s.hay.check }) absent published
  · rw [execCartridgeInsert_unpowered absent powered] at ran
    obtain rfl := Host.Outcome.next.inj ran
    exact State.setEntry_pending_count absent published

end

/-! ### The zero measurement (R404, R411, R416) -/

theorem execZeroMeasurementDone_illFormed {m : CartMeas} (cells : cellsOk m.cellsMv = false) (s : State) :
    exec (.zeroMeasurementDone m) s = .fault .illFormed := if_pos (by simp [cells])

/-- A cartridge that no check fences has an identity. -/
theorem cartRecord_of_good {m : CartMeas} (good : badCart m = false) : ∃ x, cartRecord m.reads = some x := by
  cases read : cartRecord m.reads with
  | some x => exact ⟨x, rfl⟩
  | none => simp [badCart, read] at good

/-- The state before the record of a cartridge taken into service is written (R404, R408, R437). -/
def State.takeCart (s : State) (m : CartMeas) (id : W64) : State :=
  let t : State := { s with hay := s.hay.accept m id s.mram.readEst }
  (if s.power.state = .standby ∨ s.power.state = .holdUp then { t with hay := t.hay.stop } else t).setEntry .inService

/-- R404, R437: the disconnect closes and the converter runs with a cartridge just taken into service, but for Standby
and Hold-up. -/
theorem State.takeCart_hay (s : State) (m : CartMeas) (id : W64) :
    let runs : Bool := s.power.state ≠ .holdUp ∧ s.power.state ≠ .standby
    (s.takeCart m id).hay =
      { s.hay.accept m id s.mram.readEst with entry := .inService, converter := runs, closed := runs } := by
  unfold State.takeCart
  dsimp only
  rw [State.setEntry_hay]
  split
  case isTrue idle => rcases idle with standby | hold <;> simp [Hay.stop, Hay.accept, *]
  case isFalse working =>
    rw [not_or] at working
    simp [Hay.accept, working]

theorem State.takeCart_mayRecord {s : State} (may : s.mayRecord) (m : CartMeas) (id : W64) :
    (s.takeCart m id).mayRecord := by
  unfold State.takeCart State.mayRecord
  rw [State.setEntry_power, State.setEntry_est0, State.setEntry_est1]
  split <;> exact may

section
variable {s : State} {m : CartMeas} (cells : cellsOk m.cellsMv = true) (checking : s.hay.phase = .checking)
  (ten : 10 ≤ s.hay.goodSamples) (powered : s.start.phase = .rom)
include cells checking ten powered

/-- R404: a cartridge that fails a check is fenced, and its record stays. -/
theorem execZeroMeasurementDone_fences (pending : s.hay.entry = .pending) (bad : badCart m = true) :
    ∃ t, exec (.zeroMeasurementDone m) s = .next t ∧ t.hay.entry = .fenced ∧ t.hay.phase = .none ∧
      t.hay.converter = false ∧ t.mram.est0 = s.mram.est0 ∧ t.mram.est1 = s.mram.est1 := by
  let u : State := { s with hay.cartId := (cartRecord m.reads).map cartIdOf }
  have ran : exec (.zeroMeasurementDone m) s = .next (u.fenceCart.report haySource 0x0503 none 0) := by
    show (if _ then _ else Host.Outcome.next _) = _
    rw [if_neg (by simp [cells]), if_neg (by simp [checking, ten, powered]), if_pos bad]
  have here : u.hay.entry ≠ .absent := by simp [u, pending]
  have standing : u.hay.entry ≠ .fenced := by simp [u, pending]
  refine ⟨_, ran, ?_⟩
  rw [State.report_hay, State.report_mram, State.fenceCart_hay here standing]
  exact ⟨rfl, rfl, rfl, State.fenceCart_est here standing⟩

theorem execZeroMeasurementDone_takes (good : badCart m = false) {x : List Byte} (read : cartRecord m.reads = some x) :
    exec (.zeroMeasurementDone m) s = .next ((s.takeCart m (cartIdOf x)).writeEst false m.readBacks) := by
  show (if _ then _ else Host.Outcome.next _) = _
  rw [if_neg (by simp [cells]), if_neg (by simp [checking, ten, powered]), if_neg (by simp [good]), read]
  rfl

/-- R404, R416: a cartridge that passes is in service with its identity, temperature and charge. -/
theorem execZeroMeasurementDone_serves (good : badCart m = false) :
    ∃ t, exec (.zeroMeasurementDone m) s = .next t ∧ t.hay.entry = .inService ∧
      t.hay.phase = .serving ∧ t.hay.cartId = (cartRecord m.reads).map cartIdOf ∧ t.hay.tempMc = m.tempMc ∧
      t.hay.c = 0 ∧ t.hay.run = none ∧ (t.hay.converter = true ↔ s.working) ∧
      (s.mayRecord → m.readBacks = written → t.mram.readEst = some t.hay.record) ∧
      (s.mram.readEst = none → t.hay.cap = 428572 / 1000 ∧ t.hay.u = 10 / 100 * (428572 / 1000)) := by
  obtain ⟨x, read⟩ := cartRecord_of_good good
  have reads (may : s.mayRecord) (back : m.readBacks = written) :=
    State.writeEst_reads (State.takeCart_mayRecord may m (cartIdOf x)) false back
  obtain ⟨n, b, _, _, wrote⟩ := (s.takeCart m (cartIdOf x)).writeEst_eq false m.readBacks
  have hay : ((s.takeCart m (cartIdOf x)).writeEst false m.readBacks).hay =
      { (s.takeCart m (cartIdOf x)).hay with
        record := { (s.takeCart m (cartIdOf x)).hay.record with capacity := n, closed := b } } := by rw [wrote]
  refine ⟨_, execZeroMeasurementDone_takes cells checking ten powered good read, ?_⟩
  rw [hay, State.takeCart_hay] at reads ⊢
  rw [read]
  refine ⟨rfl, rfl, rfl, rfl, rfl, rfl, decide_eq_true_iff, reads, fun blank => ?_⟩
  rw [blank]
  exact ⟨rfl, rfl⟩

end

/-! ### Loss and the temperature (R399, R406, R407) -/

section
variable {s : State} (here : s.hay.entry ≠ .absent) (on : s.start.phase ≠ .off)
include here on

theorem execThermistorSample_implausible {milliC : Int} (implausible : milliC < -40000 ∨ 150000 < milliC)
    (back : ReadBacks) : exec (.thermistorSample milliC back) s =
      .next (if 1 ≤ s.hay.badSamples then s.loseCart back
        else { s with hay := { s.hay with badSamples := 1, goodSamples := 0 } }) := by
  show Host.Outcome.next _ = _
  rw [if_neg (by simp [here, on]), if_pos implausible]

theorem execThermistorSample_plausible {milliC : Int} (low : -40000 ≤ milliC) (high : milliC ≤ 150000)
    (back : ReadBacks) : exec (.thermistorSample milliC back) s = .next (s.tempSample milliC) := by
  show Host.Outcome.next _ = _
  rw [if_neg (by simp [here, on]), if_neg (by omega)]

theorem execIdentityPeriodicRead_unread {reads : List (List Byte)} (unread : cartRecord reads = none) (back : ReadBacks) :
    exec (.identityPeriodicRead reads back) s = .next (s.loseCart back) := by
  show Host.Outcome.next _ = _
  rw [if_neg (by simp [here, on]), unread]

theorem execIdentityPeriodicRead_read {reads : List (List Byte)} {x : List Byte} {id : W64}
    (read : cartRecord reads = some x) (known : s.hay.cartId = some id) (back : ReadBacks) :
    exec (.identityPeriodicRead reads back) s = .next (if cartIdOf x = id then s
      else { s.loseCart back with hay := (s.loseCart back).hay.check }.setEntry .pending) := by
  show Host.Outcome.next _ = _
  rw [if_neg (by simp [here, on]), read, known]
  simp [eq_comm]

end

/-- R399, R400: what a plausible sample sets of a reservoir in service. -/
theorem State.tempSample_serving {s : State} (serving : s.hay.phase = .serving) (milliC : Int) :
    let t := s.tempSample milliC
    t.hay.tempMc = milliC ∧ t.hay.badSamples = 0 ∧
      (t.hay.stopCold = true ↔ milliC < 0 ∨ s.hay.stopCold = true ∧ milliC < 2000) ∧
      (t.hay.stopHot = true ↔ 65000 ≤ milliC ∨ s.hay.stopHot = true ∧ 60000 ≤ milliC) ∧
      (t.hay.stopHot = true → t.hay.converter = false ∧ t.hay.closed = false) ∧
      t.hay.q = s.hay.q ∧ t.hay.cap = s.hay.cap := by
  unfold State.tempSample
  rw [if_neg (by simp [serving])]
  dsimp only
  simp only [apply_ite State.hay, apply_ite Hay.tempMc, apply_ite Hay.badSamples, apply_ite Hay.stopCold,
    apply_ite Hay.stopHot, apply_ite Hay.q, apply_ite Hay.cap, apply_ite Hay.converter, apply_ite Hay.closed,
    State.endWalk_hay, State.hayNotes_hay, Hay.halt, Hay.stop, ite_self]
  refine ⟨trivial, trivial, by simp, by simp, fun hot => ?_, trivial, trivial⟩
  rw [if_pos hot, if_pos hot]
  exact ⟨rfl, rfl⟩

theorem State.tempSample_checking {s : State} (checking : s.hay.phase = .checking) (milliC : Int) :
    s.tempSample milliC = { s with hay := { s.hay with
      tempMc := milliC, badSamples := 0, goodSamples := min 10 (s.hay.goodSamples + 1) } } :=
  if_pos (by simp [checking])

/-! ### Hardware trips (R399, R468) -/

section
variable {s : State} (serves : s.hayIn = true)
include serves

/-- R399, R468: the trip at 70 degrees stops the converter of a cartridge that stays in service. -/
theorem execCartridgeHwTrip_hot : ∃ t, exec (.cartridgeHwTrip .hot) s = .next t ∧ t.hay.stopHot = true ∧
    t.hay.converter = false ∧ t.hay.closed = false ∧ t.hay.entry = .inService := by
  have ran : exec (.cartridgeHwTrip .hot) s = .next (
      if s.hay.walking then { s with hay := { s.hay.halt with stopHot := true } }.hayNote.endWalk 4
      else { s with hay := { s.hay.halt with stopHot := true } }.hayNote) :=
    congrArg Host.Outcome.next (if_neg (by simp [serves]))
  obtain ⟨w, b, ends⟩ := State.ite_endWalk_eq { s with hay := { s.hay.halt with stopHot := true } }.hayNote
    (s.hay.walking = true) 4
  refine ⟨_, ran, ?_⟩
  rw [ends, State.hayNote, State.report_hay]
  exact ⟨rfl, rfl, rfl, State.hayIn_entry serves⟩

theorem execCartridgeHwTrip_faults {k : HwTrip} (fault : k ≠ .hot) :
    exec (.cartridgeHwTrip k) s = .next s.faultCart := by
  show Host.Outcome.next _ = _
  rw [if_neg (by simp [serves])]
  cases k with
  | hot => exact absurd rfl fault
  | cellOut | converterFault | overcurrent => rfl

end

/-- Settles O44: by the command, and for each by the state of the cartridge that it meets. -/
theorem cartridgeComesAndGoes : Obligations.CartridgeComesAndGoes := by
  refine fun s => ⟨fun absent => ⟨?powered, ?unpowered, ?count⟩, fun m cells => execZeroMeasurementDone_illFormed cells s,
    ?zero, ?thermistor, ?identity, ?trip⟩
  case powered =>
    intro powered
    refine ⟨_, execCartridgeInsert_powered absent powered, ?_⟩
    rw [State.setEntry_hay]
    exact ⟨rfl, rfl, rfl, rfl, rfl⟩
  case unpowered =>
    intro unpowered
    exact ⟨_, execCartridgeInsert_unpowered absent unpowered, State.setEntry_hay ..⟩
  case count => exact fun published t ran => execCartridgeInsert_count absent published ran
  case zero =>
    intro m cells pending checking ten powered
    exact ⟨execZeroMeasurementDone_fences cells checking ten powered pending,
      execZeroMeasurementDone_serves cells checking ten powered⟩
  case thermistor =>
    intro milliC back here on
    refine ⟨fun implausible => ⟨fun second => ?_, fun first => ?_⟩, fun low high => ⟨fun checking => ?_, fun serving => ?_⟩⟩
    · obtain ⟨r, lost⟩ := State.loseCart_hay here back
      refine ⟨_, execThermistorSample_implausible here on implausible back, ?_⟩
      rw [if_pos second, lost]
      exact ⟨rfl, rfl, rfl, rfl, rfl⟩
    · refine ⟨_, execThermistorSample_implausible here on implausible back, ?_⟩
      rw [if_neg (by omega)]
    · refine ⟨_, execThermistorSample_plausible here on low high back, ?_⟩
      rw [State.tempSample_checking checking]
      exact ⟨rfl, rfl, rfl, rfl⟩
    · obtain ⟨temp, bad, cold, hot, stops, q, cap⟩ := State.tempSample_serving serving milliC
      refine ⟨_, execThermistorSample_plausible here on low high back, temp, bad, fun above => ?_, fun below => ?_,
        fun below => cold.2 (.inl below), fun above => ?_, q, cap⟩
      · have stopped := hot.2 (.inl above)
        exact ⟨stopped, stops stopped⟩
      · exact Bool.eq_false_iff.2 fun stopped => by rcases hot.1 stopped with _ | ⟨_, _⟩ <;> omega
      · exact Bool.eq_false_iff.2 fun stopped => by rcases cold.1 stopped with _ | ⟨_, _⟩ <;> omega
  case identity =>
    intro reads back here on
    refine ⟨fun unread => ?_, fun x id read known => ⟨fun same => ?_, fun other => ?_⟩⟩
    · obtain ⟨r, lost⟩ := State.loseCart_hay here back
      refine ⟨_, execIdentityPeriodicRead_unread here on unread back, ?_⟩
      rw [lost]
      exact ⟨rfl, rfl⟩
    · rw [execIdentityPeriodicRead_read here on read known, if_pos same]
    · refine ⟨_, execIdentityPeriodicRead_read here on read known back, ?_⟩
      rw [if_neg other, State.setEntry_hay]
      exact ⟨rfl, rfl, rfl⟩
  case trip =>
    intro serves
    have here : s.hay.entry ≠ .absent ∧ s.hay.entry ≠ .fenced := by simp [State.hayIn_entry serves]
    refine ⟨execCartridgeHwTrip_hot serves, fun k fault => ⟨_, execCartridgeHwTrip_faults serves fault, ?_⟩⟩
    rw [State.faultCart_hay here.1 here.2]
    exact ⟨rfl, rfl, rfl, State.faultCart_reports here.1 here.2⟩

end Sys2Proof.Machine
end

section
/-! The charge estimator: settles O45 (R399, R401, R409, R412 to R415, R420, R423, R425, R428 to R433). -/

namespace Sys2Proof.Machine

/-! ### A sample (R409, R412, R419) -/

/-- The reservoir after a sample is counted, its rate chosen and its cells judged, before an anchor or a fence. -/
def Hay.sample (h : Hay) (m : EstMeas) : Hay :=
  let ua := m.code.toInt * 20
  let dt : Rat := (m.dtUs : Rat) / 1000000
  ((h.count dt ((ua : Rat) / 1000000 * dt)).rate ua).cells m.dtUs m.cellsMv ua

/-- R410, R420: the sample rate ends at most the run. -/
theorem Hay.rate_eq (h : Hay) (ua : Int) :
    ∃ fast quiet run, h.rate ua = { h with currentUa := ua, fast := fast, quiet := quiet, run := run } ∧
      (h.run = none → run = none) := by
  unfold Hay.rate
  dsimp only
  split
  · exact ⟨_, _, none, rfl, fun _ => rfl⟩
  · exact ⟨_, _, h.run, rfl, id⟩

/-- R412: a sample adds its charge, less the offset, to q, and u grows with time, up to cap. -/
theorem Hay.sample_counts (h : Hay) (m : EstMeas) :
    let dt : Rat := (m.dtUs : Rat) / 1000000
    let ua := m.code.toInt * 20
    (h.sample m).q = h.q + ((ua : Rat) / 1000000 * dt - h.offset * dt) ∧
      (h.sample m).u = min (h.u + 5 / 10000 * h.cap * dt / 3600) h.cap ∧ (h.sample m).cap = h.cap ∧
      (h.sample m).currentUa = ua ∧ (h.sample m).entry = h.entry ∧
      (h.sample m).stopLow = (lowCell m.cellsMv ≤ 2200 || (h.stopLow && lowCell m.cellsMv < 2250)) ∧
      (h.run = none → (h.sample m).run = none) := by
  intro dt ua
  obtain ⟨fast, quiet, run, rated, closed⟩ := (h.count dt ((ua : Rat) / 1000000 * dt)).rate_eq ua
  rw [show h.sample m = Hay.cells _ m.dtUs m.cellsMv ua from congrArg (Hay.cells · m.dtUs m.cellsMv ua) rated]
  refine ⟨rfl, rfl, rfl, rfl, rfl, rfl, fun idle => ?_⟩
  simp [Hay.cells, closed (by simp [Hay.count, idle])]

/-- R419: the watch of u over cap changes its own flag and reports. -/
theorem State.watchU_eq (s : State) : ∃ b g, s.watchU = { s with hay.over5 := b, sbx := g } := by
  unfold State.watchU
  dsimp only
  split
  · obtain ⟨g, noted⟩ := State.report_eq { s with hay.over5 := 5 / 100 * s.hay.cap < s.hay.u } haySource 0x0501 none 0
    exact ⟨_, g, noted⟩
  · exact ⟨_, s.sbx, rfl⟩

/-- A sample reaches the empty anchor (R414): the lowest cell at 2.20 V while discharging, the first time. -/
def Hay.empties (h : Hay) (m : EstMeas) : Prop :=
  lowCell m.cellsMv ≤ 2200 ∧ m.code.toInt * 20 < 0 ∧ ¬ h.stopLow = true

/-- A sample fences the cartridge (R399, R401). -/
def tripSample (m : EstMeas) : Prop :=
  lowCell m.cellsMv ≤ 2000 ∨ 3850 ≤ highCell m.cellsMv ∨ 150000000 ≤ (m.code.toInt * 20).natAbs

theorem execEstimatorSample_illFormed {m : EstMeas} (cells : cellsOk m.cellsMv = false) (s : State) :
    exec (.estimatorSample m) s = .fault .illFormed := if_pos (by simp [cells])

/-- What a sample does, but for the flag of R419 and what is reported: the count, the empty anchor and the fence. -/
theorem execEstimatorSample_eq {s : State} (serves : s.hayIn = true) {m : EstMeas} (cells : cellsOk m.cellsMv = true) :
    ∃ b g, let c : State := { s with hay := { s.hay.sample m with over5 := b }, sbx := g }
      (s.hay.empties m → ¬ tripSample m → exec (.estimatorSample m) s = .next (c.emptyAnchor m.readBacks)) ∧
      (¬ s.hay.empties m → ¬ tripSample m → exec (.estimatorSample m) s = .next c) ∧
      (tripSample m → ∃ t, (t = c ∨ t = c.emptyAnchor m.readBacks) ∧ exec (.estimatorSample m) s = .next t.faultCart) := by
  let h := s.hay.sample m
  obtain ⟨g, noted⟩ := State.hayNotes_eq
    [h.slowCharge && !s.hay.slowCharge, h.stopHigh && !s.hay.stopHigh, h.stopLow && !s.hay.stopLow] { s with hay := h }
  obtain ⟨b, k, watched⟩ := State.watchU_eq { s with hay := h, sbx := g }
  have ran : exec (.estimatorSample m) s = .next (
      let c : State := { s with hay := { h with over5 := b }, sbx := k }
      let t := if lowCell m.cellsMv ≤ 2200 ∧ m.code.toInt * 20 < 0 ∧ ¬ s.hay.stopLow then c.emptyAnchor m.readBacks else c
      if lowCell m.cellsMv ≤ 2000 ∨ 3850 ≤ highCell m.cellsMv ∨ 150000000 ≤ (m.code.toInt * 20).natAbs then t.faultCart
      else t) := by
    show (if _ then _ else Host.Outcome.next (if _ then _ else _)) = _
    rw [if_neg (by simp [cells]), if_neg (by simp [serves])]
    dsimp only
    rw [← watched, ← noted]
    rfl
  refine ⟨b, k, fun anchor calm => ran.trans (congrArg _ ((if_neg calm).trans (if_pos anchor))),
    fun away calm => ran.trans (congrArg _ ((if_neg calm).trans (if_neg away))),
    fun trips => ⟨_, ?_, ran.trans (congrArg _ (if_pos trips))⟩⟩
  split
  · exact .inr rfl
  · exact .inl rfl

/-! ### Anchors (R413 to R415, R421) -/

/-- R421, R422: a run that is measured leaves the unit entry. -/
theorem State.learn_entry (s : State) (out : Rat) : (s.learn out).2.hay.entry = s.hay.entry := by
  simp only [State.learn, apply_ite Prod.snd, apply_ite State.hay, apply_ite Hay.entry, State.hayNote_hay, ite_self]

/-- What ends an anchor (R425, R430): the record is written, and the walk to the anchor ends. -/
def State.anchored (s : State) (back : ReadBacks) (reached : Bool) (outcome : Nat) : State :=
  if reached then (s.writeEst false back).endWalk outcome else s.writeEst false back

section
variable (s : State) (back : ReadBacks) (reached : Bool) (outcome : Nat)

theorem State.anchored_hay : ∃ n b, (s.anchored back reached outcome).hay = { s.hay with
    record := { s.hay.record with capacity := n, closed := b }, walk := if reached then none else s.hay.walk } := by
  obtain ⟨n, b, m, g, wrote⟩ := s.writeEst_eq false back
  refine ⟨n, b, ?_⟩
  unfold State.anchored
  split
  · rw [State.endWalk_hay, wrote]
  · rw [wrote]

theorem State.anchored_entry : (s.anchored back reached outcome).hay.entry = s.hay.entry := by
  obtain ⟨_, _, anchored⟩ := s.anchored_hay back reached outcome
  rw [anchored]

variable {s back} in
theorem State.anchored_reads (may : s.mayRecord) (good : back = written) :
    (s.anchored back reached outcome).mram.readEst = some (s.anchored back reached outcome).hay.record := by
  have reads := State.writeEst_reads may false good
  unfold State.anchored
  split
  · rw [State.endWalk_mram, State.endWalk_hay, reads]
  · exact reads

end

/-- The reservoir at the empty anchor of no run (R414, R415), before the record is written. -/
def Hay.emptied (h : Hay) (stamp : W64) : Hay :=
  { h.anchor false with run := none, record := { h.record with lastEmpty := stamp } }

/-- The reservoir at the full anchor (R413, R415, R420), before the record is written. -/
def Hay.filled (h : Hay) (stamp : W64) : Hay :=
  { h.anchor true with
    fullUs := 0, run := some { out := 0, pauseUs := 0 }, record := { h.record with lastFull := stamp } }

theorem State.emptyAnchor_idle {s : State} (idle : s.hay.run = none) (back : ReadBacks) : s.emptyAnchor back =
    ({ s with hay := s.hay.emptied s.stamp } : State).anchored back (s.hay.walk.any (fun w => w.running ∧ w.empty)) 0 := by
  unfold State.emptyAnchor
  rw [idle]
  rfl

/-- R414: the empty anchor leaves the unit entry, whether a run is measured there or not. -/
theorem State.emptyAnchor_entry (s : State) (back : ReadBacks) : (s.emptyAnchor back).hay.entry = s.hay.entry := by
  refine (State.anchored_entry _ back _ _).trans ?_
  cases run : s.hay.run with
  | none => rfl
  | some r => exact s.learn_entry r.out

theorem execFullAnchor_early {s : State} (early : s.hay.fullUs < 30000000) (back : ReadBacks) :
    exec (.fullAnchor back) s = .next s := congrArg Host.Outcome.next (if_pos (.inr early))

theorem execFullAnchor_full {s : State} (serves : s.hayIn = true) (full : 30000000 ≤ s.hay.fullUs) (back : ReadBacks) :
    exec (.fullAnchor back) s = .next (({ s with hay := s.hay.filled s.stamp } : State).anchored back
      (s.hay.walk.any (fun w => w.running ∧ ¬ w.empty)) 0) :=
  congrArg Host.Outcome.next (if_neg (by simp [serves, full]))

/-! ### The clauses of O45 -/

section
variable {s : State} (serves : s.hayIn = true)
include serves

section
variable {m : EstMeas} (cells : cellsOk m.cellsMv = true)
include cells

/-- R412: a sample away from the anchor and the limits is counted. -/
theorem execEstimatorSample_counts (away : ¬ s.hay.empties m) (calm : ¬ tripSample m) :
    let dt : Rat := (m.dtUs : Rat) / 1000000
    let ua := m.code.toInt * 20
    ∃ t, exec (.estimatorSample m) s = .next t ∧
      t.hay.q = s.hay.q + ((ua : Rat) / 1000000 * dt - s.hay.offset * dt) ∧
      t.hay.u = min (s.hay.u + 5 / 10000 * s.hay.cap * dt / 3600) s.hay.cap ∧ t.hay.cap = s.hay.cap ∧
      t.hay.currentUa = ua ∧ t.hay.entry = .inService ∧ t.mram = s.mram := by
  obtain ⟨b, g, -, counted, -⟩ := execEstimatorSample_eq serves cells
  obtain ⟨q, u, cap, current, entry, -⟩ := s.hay.sample_counts m
  exact ⟨_, counted away calm, q, u, cap, current, entry.trans (State.hayIn_entry serves), rfl⟩

/-- R414, R415: the empty anchor without a run. -/
theorem execEstimatorSample_empties (anchor : s.hay.empties m) (calm : ¬ tripSample m) (idle : s.hay.run = none) :
    ∃ t, exec (.estimatorSample m) s = .next t ∧ t.hay.q = 0 ∧ t.hay.u = 5 / 1000 * s.hay.cap ∧
      t.hay.stopLow = true ∧ t.hay.record.lastEmpty = s.stamp ∧
      (s.mayRecord → m.readBacks = written → t.mram.readEst = some t.hay.record) := by
  obtain ⟨b, g, empties, -⟩ := execEstimatorSample_eq serves cells
  obtain ⟨-, -, cap, -, -, stop, closed⟩ := s.hay.sample_counts m
  let c : State := { s with hay := { s.hay.sample m with over5 := b }, sbx := g }
  let d : State := { c with hay := c.hay.emptied c.stamp }
  let reached : Bool := c.hay.walk.any (fun w => w.running ∧ w.empty)
  have reads (may : s.mayRecord) (good : m.readBacks = written) := State.anchored_reads (s := d) reached 0 may good
  obtain ⟨_, _, hay⟩ := d.anchored_hay m.readBacks reached 0
  refine ⟨_, (empties anchor calm).trans (congrArg _ (State.emptyAnchor_idle (closed idle) _)), ?_⟩
  rw [hay] at reads ⊢
  refine ⟨rfl, congrArg (5 / 1000 * ·) cap, ?_, rfl, reads⟩
  show (s.hay.sample m).stopLow = true
  simp [stop, anchor.1]

/-- R399, R401: a sample beyond a limit fences the cartridge. -/
theorem execEstimatorSample_trips (trips : tripSample m) : ∃ t, exec (.estimatorSample m) s = .next t ∧
    t.hay.entry = .fenced ∧ t.hay.converter = false ∧ t.hay.run = none := by
  obtain ⟨b, g, -, -, fences⟩ := execEstimatorSample_eq serves cells
  obtain ⟨t, reached, ran⟩ := fences trips
  obtain ⟨-, -, -, -, entry, -⟩ := s.hay.sample_counts m
  have inService : t.hay.entry = .inService := by
    have counted := entry.trans (State.hayIn_entry serves)
    rcases reached with rfl | rfl
    · exact counted
    · exact (State.emptyAnchor_entry ..).trans counted
  refine ⟨_, ran, ?_⟩
  rw [State.faultCart_hay (by simp [inService]) (by simp [inService])]
  exact ⟨rfl, rfl, rfl⟩

end

/-- R413, R415, R420: the full anchor. -/
theorem execFullAnchor_fills (full : 30000000 ≤ s.hay.fullUs) (back : ReadBacks) :
    ∃ t, exec (.fullAnchor back) s = .next t ∧ t.hay.q = s.hay.cap ∧
      t.hay.cap = s.hay.cap ∧ t.hay.u = 5 / 1000 * s.hay.cap ∧ t.hay.run = some { out := 0, pauseUs := 0 } ∧
      t.hay.record.lastFull = s.stamp ∧ (s.mayRecord → back = written → t.mram.readEst = some t.hay.record) ∧
      ∀ w, s.hay.walk = some w → t.hay.walk = if w.running = true ∧ w.empty = false then none else some w := by
  let d : State := { s with hay := s.hay.filled s.stamp }
  let reached : Bool := s.hay.walk.any (fun w => w.running ∧ ¬ w.empty)
  have reads (may : s.mayRecord) (good : back = written) := State.anchored_reads (s := d) reached 0 may good
  obtain ⟨_, _, hay⟩ := d.anchored_hay back reached 0
  refine ⟨_, execFullAnchor_full serves full back, ?_⟩
  rw [hay] at reads ⊢
  refine ⟨rfl, rfl, rfl, rfl, rfl, reads, fun w walk => ?_⟩
  show (if reached then none else s.hay.walk) = _
  simp [reached, walk]

theorem execAnchorWalkStart_starts {w : Walk} (walk : s.hay.walk = some w) :
    exec .anchorWalkStart s = .next { s with hay := { s.hay with walk := some { w with running := true } } } := by
  show Host.Outcome.next _ = _
  rw [if_neg (by simp [serves]), walk]
  rfl

theorem execRecordWriteTimer_writes (back : ReadBacks) :
    exec (.recordWriteTimer back) s = .next (s.writeEst false back) := congrArg Host.Outcome.next (if_pos serves)

end

theorem execLearningPauseTimeout_run {s : State} {r : LearnRun} (run : s.hay.run = some r) :
    exec .learningPauseTimeout s =
      .next { s with hay.run := if r.pauseUs ≤ 60000000 then some r else none } := by
  show Host.Outcome.next _ = _
  rw [run]
  simp [Option.filter]

theorem execAnchorWalkTimeout_running {s : State} {w : Walk} (walk : s.hay.walk = some w) (running : w.running = true) :
    exec .anchorWalkTimeout s = .next (s.endWalk 6) :=
  congrArg Host.Outcome.next (if_pos (by simp [Hay.walking, walk, running]))

/-- Settles O45: a sample by where it leads, then the anchors, the walks, the record and the pause of a run. -/
theorem estimatorCounts : Obligations.EstimatorCounts := by
  refine fun s => ⟨fun m cells => execEstimatorSample_illFormed cells s,
    fun serves => ⟨?sample, fun back early => execFullAnchor_early early back,
      fun back full => execFullAnchor_fills serves full back, fun w walk => execAnchorWalkStart_starts serves walk, ?record⟩,
    ?pause, ?timeout⟩
  case sample =>
    intro m cells _
    refine ⟨fun low high current => ?_, execEstimatorSample_trips serves cells⟩
    have calm : ¬ tripSample m := by
      unfold tripSample
      omega
    refine ⟨fun away => execEstimatorSample_counts serves cells ?_ calm,
      fun atLow out first idle => execEstimatorSample_empties serves cells ⟨atLow, out, by simp [first]⟩ calm idle⟩
    rintro ⟨atLow, out, first⟩
    rcases away with above | charging | stopped
    · omega
    · omega
    · exact first stopped
  case record =>
    intro back may
    refine ⟨_, execRecordWriteTimer_writes serves back, fun good => ?_, fun fails heard => ?_⟩
    · obtain ⟨m, wrote, reads⟩ := State.writeEst_written may false good
      rw [wrote]
      exact ⟨reads, rfl⟩
    · exact State.writeEst_fails may.1 fails heard
  case pause =>
    intro r run
    refine ⟨fun long => ?_, fun short => ?_⟩
    · rw [execLearningPauseTimeout_run run, if_neg (by omega)]
    · rw [execLearningPauseTimeout_run run, if_pos short, ← run]
  case timeout =>
    intro w walk running firmware room
    obtain ⟨b, ended⟩ := s.endWalk_eq 6
    refine ⟨_, execAnchorWalkTimeout_running walk running, ?_, State.endWalk_raised walk firmware room 6⟩
    rw [ended]

end Sys2Proof.Machine
end

section
/-! The inner and the outer loop of the power-control engine and the overrun fallback: settles O42 (R436, R443, R444, R448,
R449, R451, R452, R454 to R456). -/

namespace Sys2Proof.Machine

/-! ### Q2.14 (R447, R449) -/

theorem fixOf_range (v : Int) : -32768 ≤ (fixOf v).v ∧ (fixOf v).v ≤ 32767 := by
  unfold fixOf
  split
  · decide
  · split
    · decide
    · dsimp only
      omega

theorem fixOf_v {v : Int} (low : -32768 ≤ v) (high : v ≤ 32767) : (fixOf v).v = v := by
  rw [fixOf, if_neg (by omega), if_neg (by omega)]

theorem gain_zero_mul (a : Fix) : ((gain 0).mul a).v = 0 := by
  simp [gain, Fix.mul, roundEven, fixOf]

/-- A term with a gain of zero leaves a sum as it was. -/
theorem Fix.bits_add_gain_zero (a b c : Fix) : ((a.add b).add ((gain 0).mul c)).bits = (a.add b).bits := by
  obtain ⟨low, high⟩ := fixOf_range (a.v + b.v)
  have sum : ((a.add b).add ((gain 0).mul c)).v = (a.add b).v := by
    show (fixOf ((fixOf (a.v + b.v)).v + ((gain 0).mul c).v)).v = (fixOf (a.v + b.v)).v
    rw [gain_zero_mul, add_zero, fixOf_v low high]
  rw [Fix.bits, sum, Fix.bits]

/-- A value of the range is stored without loss. -/
theorem fixBits_bits {v : Int} (low : -32768 ≤ v) (high : v ≤ 32767) :
    fixBits (Fix.bits { v := v, sat := false }) = { v := v, sat := false } := by
  rw [fixBits, Fix.bits, BitVec.toInt_ofInt_eq_self (by decide) low (Int.lt_add_one_of_le high)]

/-! ### The command limits (R451, R456) -/

/-- R456: both directions are stopped in flat-follow mode. -/
theorem State.limits_flat {s : State} (flat : s.flat = true) (m : TickMeas) : s.limits m = (0, 0) := by
  simp [State.limits, State.stopped, State.barred, flat]

/-- R451: 0 lies between the limits, and each is a value of Q2.14. -/
theorem State.limits_range (s : State) (m : TickMeas) :
    -32767 ≤ (s.limits m).1 ∧ (s.limits m).1 ≤ 0 ∧ 0 ≤ (s.limits m).2 ∧ (s.limits m).2 ≤ 32767 := by
  unfold State.limits
  dsimp only
  split <;> split <;> omega

/-- The command applied for a command u of the controller (R449, R451): 0 while commands are discarded (R455). -/
def State.applied (s : State) (m : TickMeas) (live : Bool) (u : Int) : Int :=
  if live then max (s.limits m).1 (min (s.limits m).2 u) else 0

theorem State.applied_range (s : State) (m : TickMeas) (live : Bool) (u : Int) :
    -32768 ≤ s.applied m live u ∧ s.applied m live u ≤ 32767 := by
  have limits := s.limits_range m
  unfold State.applied
  split <;> omega

theorem State.applied_flat {s : State} (flat : s.flat = true) (m : TickMeas) (live : Bool) (u : Int) :
    s.applied m live u = 0 := by
  rw [State.applied, State.limits_flat flat]
  split <;> omega

/-! ### The engine's part of a tick (R448, R449, R454) -/

/-- R449: the step of the engine, with the observer's terms that R448 gives a gain of zero. -/
theorem State.innerStep_command (s : State) (m : TickMeas) (live : Bool) :
    let t := s.innerStep m live
    let x1 := fixBits s.power.xh1
    let x2 := fixBits s.power.xh2
    let e1 := (fixQ m.convMa 62500).plain.sub x1
    let e2 := (fixQ (m.busMv - 48000) 12000).plain.sub x2
    ∃ u, let uc : Fix := { v := s.applied m live u, sat := false }
      t.power.uc = uc.bits ∧
      t.power.xh1 = ((((gA11.mul x1).add (gB1.mul uc)).add (gL11.mul e1)).add (gL12.mul e2)).bits ∧
      t.power.xh2 = ((((gA21.mul x1).add (gA22.mul x2)).add (gL21.mul e1)).add (gL22.mul e2)).bits :=
  ⟨_, rfl, rfl, rfl⟩

/-- R454: an overrun counts, and command and estimates stay. -/
theorem State.engineTick_late {s : State} {m : TickMeas} (on : s.loopOn = true) (late : m.late = true) :
    s.engineTick m =
      { s with power.overruns := s.power.overruns + 1, power.overrunRow := s.power.overrunRow + 1 } := by
  rw [State.engineTick, if_neg (by simp [on]), if_pos late]

theorem State.engineTick_onTime {s : State} {m : TickMeas} (on : s.loopOn = true) (onTime : m.late = false) :
    s.engineTick m = s.innerStep m (!s.power.fallback) := by
  rw [State.engineTick, if_neg (by simp [on]), if_neg (by simp [onTime])]

/-- What the engine of t, on time in a tick from s, holds: no overrun, no command in flat-follow mode, and the estimates
that R449 forms from its command, with the terms that R448 does not list left out. -/
def Estimated (s t : State) (m : TickMeas) : Prop :=
  let x1 := fixBits s.power.xh1
  let x2 := fixBits s.power.xh2
  let e1 := (fixQ m.convMa 62500).plain.sub x1
  let e2 := (fixQ (m.busMv - 48000) 12000).plain.sub x2
  t.power.overrunRow = 0 ∧ t.power.overruns = s.power.overruns ∧ (s.flat = true → t.power.uc = 0) ∧
    t.power.xh1 = (((gA11.mul x1).add (gB1.mul (fixBits t.power.uc))).add (gL11.mul e1)).bits ∧
    t.power.xh2 = ((((gA21.mul x1).add (gA22.mul x2)).add (gL21.mul e1)).add (gL22.mul e2)).bits ∧
    t.power.xh3 = (fixQ (m.stackMv - 42000) 11200).bits

/-- R448, R449, R456: the estimates of a tick on time, formed from the command it applies. -/
theorem State.engineTick_estimates {s : State} {m : TickMeas} (on : s.loopOn = true) (onTime : m.late = false) :
    Estimated s (s.engineTick m) m := by
  rw [State.engineTick_onTime on onTime]
  obtain ⟨u, command, estimate1, estimate2⟩ := s.innerStep_command m (!s.power.fallback)
  obtain ⟨low, high⟩ := s.applied_range m (!s.power.fallback) u
  refine ⟨rfl, rfl, fun flat => ?_, ?_, estimate2, rfl⟩
  · rw [command, State.applied_flat flat]
    rfl
  · rw [command, fixBits_bits low high, estimate1]
    exact Fix.bits_add_gain_zero ..

/-- R450: flags that are set stay set. -/
theorem and_or_self_flags (x y : BitVec 7) : (x ||| y) &&& x = x := by
  ext i
  simpa using Or.inl

/-- What the engine's part of a tick can write: its command and estimates, its overrun counters, and its sticky flags. -/
theorem State.engineTick_eq (s : State) (m : TickMeas) : ∃ x1 x2 x3 x4 uc transfer flags overruns row,
    s.engineTick m = { s with power := { s.power with
      xh1 := x1, xh2 := x2, xh3 := x3, xh4 := x4, uc := uc, transfer := transfer, satFlags := flags
      overruns := overruns, overrunRow := row } } ∧ flags &&& s.power.satFlags = s.power.satFlags := by
  unfold State.engineTick
  split
  · exact ⟨_, _, _, _, _, _, _, _, _, rfl, BitVec.and_self⟩
  · split
    · exact ⟨_, _, _, _, _, _, _, _, _, rfl, BitVec.and_self⟩
    · exact ⟨_, _, _, _, _, _, _, _, _, rfl, and_or_self_flags ..⟩

/-! ### The inner tick (R436, R443, R444) -/

/-- What the engine's part of a tick begins from: the ramp moved, the measurements held and summed. -/
def State.measured (s : State) (m : TickMeas) : State :=
  let t := s.moveRamp
  { t with power := { t.power with
    inputMw := m.inputMw, convMw := m.convMw, ticks := t.power.ticks + 1
    recent := ((m.inputMw, (m.inputMw : Int) + m.convMw) :: t.power.recent).take 20
    sumRamp := t.power.sumRamp + t.power.ramp
    sumInput := t.power.sumInput + m.inputMw, sumDraw := t.power.sumDraw + ((m.inputMw : Int) + m.convMw) } }

/-- The ramp after a tick (R443): moved toward the setpoint by at most the slew. -/
def Power.nextRamp (p : Power) : Nat :=
  if p.ramp < p.setpoint * 1000000 then min (p.setpoint * 1000000) (p.ramp + p.slew * 50)
  else max (p.setpoint * 1000000) (p.ramp - p.slew * 50)

/-- In natural numbers, a value moved toward a target by at most a step. -/
theorem toNat_toward (x goal step : Nat) :
    (toward x goal step).toNat = if x < goal then min goal (x + step) else max goal (x - step) := by
  unfold toward
  split <;> split <;> omega

/-- R443, R471: a tick moves the ramp and a walk's offset. -/
theorem State.moveRamp_eq (s : State) : ∃ ramp walk, s.moveRamp = { s with power.ramp := ramp, hay.walkNw := walk } ∧
    ramp = s.power.nextRamp :=
  ⟨_, _, rfl, toNat_toward ..⟩

/-- What is written before the engine's part of a tick: the ramp, by R443, and a walk's offset, and the measurements. -/
theorem State.measured_eq (s : State) (m : TickMeas) :
    ∃ ramp walk input conv recent sumInput sumDraw sumRamp ticks, s.measured m = { s with
      hay.walkNw := walk
      power := { s.power with
        ramp := ramp, inputMw := input, convMw := conv, recent := recent, sumInput := sumInput, sumDraw := sumDraw
        sumRamp := sumRamp, ticks := ticks } } ∧
      ramp = s.power.nextRamp := by
  obtain ⟨ramp, walk, moved, next⟩ := s.moveRamp_eq
  unfold State.measured
  rw [moved]
  exact ⟨_, _, _, _, _, _, _, _, _, rfl, next⟩

section
variable (s : State) (m : TickMeas)

/-- R443, R450: the ramp, the engine and its measurements are all that a tick writes; flags that are set stay set. -/
theorem State.tick_eq : ∃ p walk, (s.measured m).engineTick m = { s with power := p, hay.walkNw := walk } ∧
    p.setpoint = s.power.setpoint ∧ p.slew = s.power.slew ∧ p.manual = s.power.manual ∧ p.duty = s.power.duty ∧
    p.small = s.power.small ∧ p.pendingSet = s.power.pendingSet ∧
    p.ramp = s.power.nextRamp ∧ p.satFlags &&& s.power.satFlags = s.power.satFlags := by
  obtain ⟨ramp, walk, _, _, _, _, _, _, _, measured, moved⟩ := s.measured_eq m
  obtain ⟨_, _, _, _, _, _, flags, _, _, ticked, sticky⟩ := (s.measured m).engineTick_eq m
  rw [ticked]
  rw [measured] at sticky ⊢
  exact ⟨_, _, rfl, rfl, rfl, rfl, rfl, rfl, rfl, moved, sticky⟩

variable {s m} (on : s.loopOn = true)
include on

/-- R454: a tick that the engine overruns. -/
theorem State.tick_late (late : m.late = true) : let t := (s.measured m).engineTick m
    t.power.overruns = s.power.overruns + 1 ∧ t.power.overrunRow = s.power.overrunRow + 1 ∧ t.power.uc = s.power.uc ∧
      t.power.xh1 = s.power.xh1 ∧ t.power.xh2 = s.power.xh2 ∧ t.power.xh3 = s.power.xh3 ∧ t.power.xh4 = s.power.xh4 := by
  obtain ⟨_, _, _, _, _, _, _, _, _, measured, -⟩ := s.measured_eq m
  intro t
  have ticked := State.engineTick_late (s := s.measured m) (by rwa [measured]) late
  rw [show t = _ from ticked, measured]
  exact ⟨rfl, rfl, rfl, rfl, rfl, rfl, rfl⟩

/-- R448, R449, R456: a tick on time. -/
theorem State.tick_estimates (onTime : m.late = false) : Estimated s ((s.measured m).engineTick m) m := by
  obtain ⟨_, _, _, _, _, _, _, _, _, measured, -⟩ := s.measured_eq m
  rw [measured]
  exact State.engineTick_estimates on onTime

end

theorem execInnerLoopTick_unpowered {s : State} (dead : s.start.phase = .off ∨ s.start.phase = .held) (m : TickMeas) :
    exec (.innerLoopTick m) s = .next s := congrArg Host.Outcome.next (if_pos dead)

section
variable {s : State} (rom : s.start.phase = .rom) (firmware : 2 ≤ s.book.fwState)
include rom firmware

/-- R444: with firmware running, the requests that wait are put in force, and the engine's part follows. -/
theorem execInnerLoopTick_runs (m : TickMeas) :
    exec (.innerLoopTick m) s = .next ((s.passTick.applySets.measured m).engineTick m) :=
  congrArg Host.Outcome.next ((if_neg (by simp [rom])).trans (if_neg (by simp [rom, Nat.not_lt.mpr firmware])))

/-- R443: a tick to which no TIMETABLE_SET waits. -/
theorem execInnerLoopTick_idle (idle : s.power.pendingSet = []) (m : TickMeas) : exec (.innerLoopTick m) s =
    .next ((({ s.passTick with power.pendingSet := [] } : State).measured m).engineTick m) := by
  rw [execInnerLoopTick_runs rom firmware, State.applySets, show s.passTick.power.pendingSet = [] from idle]
  rfl

/-- R444: a tick for which one TIMETABLE_SET waits. -/
theorem execInnerLoopTick_set {r : Request} (waits : s.power.pendingSet = [r]) (m : TickMeas) :
    exec (.innerLoopTick m) s =
      .next (((({ s.passTick with power.pendingSet := [] } : State).applySet r).measured m).engineTick m) := by
  rw [execInnerLoopTick_runs rom firmware, State.applySets, show s.passTick.power.pendingSet = [r] from waits]
  rfl

end

/-- R444: a TIMETABLE_SET put in force gives the Timetable its fields. -/
theorem State.applySet_power (s : State) (r : Request) : ∃ transfer, (s.applySet r).power = { s.power with
    setpoint := r.get 0 4, slew := r.get 4 4, manual := r.get 8 1 = 1, duty := BitVec.ofNat 16 (r.get 10 2)
    small := false, transfer := transfer } := ⟨_, State.ok_power ..⟩

/-! ### The outer loop (R437, R452) -/

/-- R436, R445, R452: the outer loop, with firmware running. -/
theorem execOuterLoopTick_runs {s : State} (rom : s.start.phase = .rom) (firmware : 2 ≤ s.book.fwState) :
    ∃ t, exec .outerLoopTick s = .next t ∧ t = { s with power := t.power } ∧
      t.power.meanInput = s.power.sumInput / max 1 s.power.ticks ∧ t.power.ticks = 0 ∧
      t.power.setpoint = (if s.power.small ∧ s.regulating then
        (max 0 (min 2600000 (meanInt t.power.draws))).toNat else s.power.setpoint) ∧
      t.power.delta = (if s.power.manual || s.flat || s.hay.walking || !s.loopOn then 0
        else max (-((s.power.ramp * 8 / 1000 : Nat) : Int)) (min ((s.power.ramp * 8 / 1000 : Nat) : Int) s.hay.deltaNw)) :=
  ⟨_, congrArg Host.Outcome.next (if_neg (by simp [rom, Nat.not_lt.mpr firmware])), rfl, rfl, rfl, rfl, rfl⟩

/-- R452: the correction is clamped, and 0 where the outer loop stands still. -/
theorem unlessStill_range (still : Bool) (clamp : Nat) (d : Int) :
    -(clamp : Int) ≤ (if still then 0 else max (-(clamp : Int)) (min (clamp : Int) d)) ∧
      (if still then 0 else max (-(clamp : Int)) (min (clamp : Int) d)) ≤ (clamp : Int) := by
  split <;> omega

/-- R437: in Standby and Hold-up neither loop runs. -/
theorem State.asleep_suspends {s : State} (asleep : s.power.state = .standby ∨ s.power.state = .holdUp) :
    s.loopOn = false ∧ s.regulating = false := by
  rcases asleep with h | h <;> simp [State.loopOn, State.regulating, h]

/-! ### The overrun fallback (R455) -/

theorem State.flat_of_fallback {s : State} (fallback : s.power.fallback = true) : s.flat = true := by
  simp [State.flat, State.flatCause, fallback]

/-- R455: a fallback writes the power block, and its entry to flat-follow mode may be recorded. -/
theorem State.fallBack_eq {s : State} (calm : s.power.fallback = false) : ∃ g, s.fallBack = { s with
    power.uc := 0, power.fallback := true, power.trial := ¬ s.power.lastFallback.any (fun t => s.within t 600)
    power.lastFallback := some s.trg.seconds, trg := g } := by
  rw [State.fallBack, if_neg (by simp [calm])]
  exact State.flatWatch_eq ..

/-- R455: no fallback lies within 600 s. -/
theorem State.not_fallbackWithin_iff (s : State) : (¬ s.power.lastFallback.any (fun t => s.within t 600) = true) ↔
    ∀ n, s.power.lastFallback = some n → n + 600 ≤ s.trg.seconds := by
  cases s.power.lastFallback <;> simp [State.within]

/-- R455: three overruns in a row bring the fallback. -/
theorem execOverrunFallback_falls {s : State} (calm : s.power.fallback = false) (third : 3 ≤ s.power.overrunRow) :
    ∃ t, exec .overrunFallback s = .next t ∧ t.power.uc = 0 ∧ t.power.fallback = true ∧ t.flat = true ∧
      (t.power.trial = true ↔ ∀ n, s.power.lastFallback = some n → n + 600 ≤ s.trg.seconds) ∧
      t.power.overrunRow = 0 ∧ (source 0xE 0 0 ∉ s.sbx.deaf →
        ∃ e ∈ t.sbx.reports, e.source = source 0xE 0 0 ∧ e.code = 0x0502) := by
  obtain ⟨g, fell⟩ := State.fallBack_eq (s := { s with power.overrunRow := 0 }) calm
  refine ⟨_, congrArg Host.Outcome.next (if_neg (by simp [calm, third])), ?_⟩
  have flat : (({ s with power.overrunRow := 0 } : State).fallBack.report (source 0xE 0 0) 0x0502 none 0).flat = true :=
    State.flat_of_fallback (by rw [State.report_power, fell])
  refine ⟨?_, ?_, flat, ?_, ?_, fun heard => State.report_mem (by rwa [fell]) ..⟩ <;> rw [State.report_power, fell]
  exact decide_eq_true_iff.trans s.not_fallbackWithin_iff

theorem execOverrunFallback_early {s : State} (early : s.power.overrunRow < 3) : exec .overrunFallback s = .next s :=
  congrArg Host.Outcome.next (if_pos (.inl early))

/-- R455: the end of a trial, on time or not. -/
theorem execEngineTrialDone_trial {s : State} (fallback : s.power.fallback = true) (trial : s.power.trial = true) :
    exec (.engineTrialDone true) s = .next { s with power := { s.power with
      fallback := false, trial := false, transfer := !s.power.manual, uc := 0 } } ∧
    exec (.engineTrialDone false) s = .next { s with power.trial := false } := by
  have tried : ¬ ¬ (s.power.fallback = true ∧ s.power.trial = true) := by simp [fallback, trial]
  exact ⟨congrArg Host.Outcome.next (if_neg tried), congrArg Host.Outcome.next (if_neg tried)⟩

/-- Settles O42: a tick with no request and with one, the outer loop, and the fallback with its trial. -/
theorem controlLoopTicks : Obligations.ControlLoopTicks := by
  refine fun s => ⟨fun m dead => execInnerLoopTick_unpowered dead m,
    fun rom firmware => ⟨?idle, ?set, ?outer⟩, execOverrunFallback_falls, execOverrunFallback_early, ?trial⟩
  case idle =>
    intro m idle goal step
    let b : State := { s.passTick with power.pendingSet := [] }
    obtain ⟨p, walk, ticked, setpoint, -, -, -, -, -, ramp, sticky⟩ := b.tick_eq m
    have late := State.tick_late (s := b) (m := m)
    have estimates := State.tick_estimates (s := b) (m := m)
    rw [ticked] at late estimates
    exact ⟨_, (execInnerLoopTick_idle rom firmware idle m).trans (congrArg _ ticked), rfl, setpoint, ramp, sticky, late,
      estimates, rfl, rfl, rfl⟩
  case set =>
    intro m r waits
    let b : State := { s.passTick with power.pendingSet := [] }
    obtain ⟨p, walk, ticked, setpoint, slew, manual, duty, small, pending, -⟩ := (b.applySet r).tick_eq m
    obtain ⟨_, set⟩ := b.applySet_power r
    rw [set] at setpoint slew manual duty small pending
    refine ⟨_, (execInnerLoopTick_set rom firmware waits m).trans (congrArg _ ticked), pending, setpoint, slew, small, ?_,
      duty, State.ok_answered ..⟩
    exact (congrArg (· = true) manual).to_iff.trans decide_eq_true_iff
  case outer =>
    obtain ⟨t, ran, frame, mean, ticks, setpoint, delta⟩ := execOuterLoopTick_runs rom firmware
    obtain ⟨low, high⟩ := unlessStill_range (s.power.manual || s.flat || s.hay.walking || !s.loopOn)
      (s.power.ramp * 8 / 1000) s.hay.deltaNw
    rw [← delta] at low high
    refine ⟨t, ran, frame, mean, ticks, fun large => ?_, low, high, fun still => ?_, fun asleep => ?_⟩
    · rw [setpoint, if_neg (by simp [large])]
    · rw [delta, if_pos (by rcases still with h | h | h <;> simp [h])]
    · obtain ⟨off, suspended⟩ := State.asleep_suspends asleep
      rw [delta, setpoint, if_pos (by simp [off]), if_neg (by simp [suspended])]
      exact ⟨rfl, rfl⟩
  case trial =>
    intro fallback trial
    obtain ⟨lifted, kept⟩ := execEngineTrialDone_trial fallback trial
    exact ⟨⟨_, lifted, rfl, rfl, rfl, rfl⟩, kept⟩

end Sys2Proof.Machine
end

section
/-! TRG_SUMMARY, TRG_READ, TRG_ANNOTATE, FAULT_LIST, FAULT_ACK, EVENT_AUTO_ACK and STALL_READ: settles O46 (R360, R361, R483,
R487, R489, R495, R528, R530, R535, R537). -/

namespace Sys2Proof.Machine

/-! ### The turn of a request and its reply -/

@[simp] theorem State.started_trg (s : State) (ch : Chan) (r : Request) (rest : List Request) :
    (s.started ch r rest).trg = s.trg := State.modChan_trg ..

@[simp] theorem State.started_sbx (s : State) (ch : Chan) (r : Request) (rest : List Request) :
    (s.started ch r rest).sbx = s.sbx := State.modChan_sbx ..

@[simp] theorem State.started_mem (s : State) (ch : Chan) (r : Request) (rest : List Request) :
    (s.started ch r rest).mem = s.mem := State.modChan_mem ..

@[simp] theorem State.started_stamp (s : State) (ch : Chan) (r : Request) (rest : List Request) :
    (s.started ch r rest).stamp = s.stamp := by
  simp [State.stamp]

/-- The rules of a request run where its opcode has no letter in R572, needs no block and names no context, and its length
and its reserved bytes are right. -/
theorem Asked.runs {s : State} {ch : Chan} {op : Nat} {r : Request} {rest : List Request} {p : Nat → Bool} {rule : Rule}
    {act : Request → State → State} (asked : Asked s ch op r rest) (mine : p op = true)
    (power : s.power.state = .holdUp → rule.holdup = true) (long : rule.lenOk r.payload = true)
    (plain : firstSet r.payload rule.reserved = none) (letter : rule.letter = .none := by rfl)
    (unkeyed : rule.authNeed (s.started ch r rest) r = false := by rfl) (nameless : rule.ctx = false := by rfl) :
    s.onRequest ch p rule act = act r (s.started ch r rest) :=
  State.onRequest_asked asked mine (State.refusal_none asked.whole asked.noBlock asked.noHost
    (by rwa [State.started_power]) (fun _ => by rw [letter]; rfl) unkeyed long plain (by simp [nameless]))

/-- R350: a reply without a payload. -/
theorem State.reply_answered_nil (s : State) (r : Request) (code detail : Nat) :
    Answered (s.reply r code detail []) r code detail [] := by
  simpa using s.reply_answered r code detail []

theorem State.started_reply_only (s : State) (ch : Chan) (r : Request) (rest : List Request) (code detail : Nat)
    (payload : List Byte) : OnlyBook s ((s.started ch r rest).reply r code detail payload) :=
  (State.started_only ..).trans (State.reply_only ..)

theorem OnlyBook.sbx {s t : State} (h : OnlyBook s t) : t.sbx = s.sbx := by
  rw [show t = _ from h]

/-! ### The recorder under recordings and replies -/

/-- R522, R537: a recording leaves the annotations and BANK0_BAD. -/
theorem State.note_keeps (s : State) (code : Nat) (src : W32) (x : Recorded) :
    (s.note code src x).trg.live.notes = s.trg.live.notes ∧ (s.note code src x).trg.bad = s.trg.bad := by
  unfold State.note
  split
  · exact ⟨rfl, rfl⟩
  · split <;> split <;> exact ⟨rfl, rfl⟩

/-- A reply records its request, and leaves the annotations and BANK0_BAD (R526). -/
theorem State.reply_keeps (s : State) (r : Request) (code detail : Nat) (payload : List Byte) :
    (s.reply r code detail payload).trg.live.notes = s.trg.live.notes ∧
      (s.reply r code detail payload).trg.bad = s.trg.bad := by
  rw [show (s.reply r code detail payload).trg = (s.noteRequest r code).trg from State.modChan_trg ..]
  unfold State.noteRequest
  split
  · exact s.note_keeps ..
  · exact ⟨rfl, rfl⟩

theorem State.degrade_only (s : State) (offset : Nat) : OnlyBook s (s.degrade offset) := by
  unfold State.degrade
  split
  · exact OnlyBook.refl s
  · obtain ⟨g, noted⟩ := State.note_eq { s with trg.bad := true } 0x7F01 0 (.value offset)
    dsimp only
    rw [noted]
    exact OnlyBook.trans (t := { s with trg := { g with live.generation := _ } }) rfl (State.event_only ..)

/-- R535: an uncorrectable read of bank 0 leaves it marked bad. -/
theorem State.degrade_bad (s : State) (offset : Nat) : (s.degrade offset).trg.bad = true := by
  unfold State.degrade
  split
  · assumption
  · dsimp only
    generalize marked : ({ s with trg.bad := true } : State).note 0x7F01 0 (.value offset) = t
    have kept : t.trg.bad = true := marked ▸ (State.note_keeps ..).2
    obtain ⟨b, told⟩ := State.event_eq { t with trg.live.generation := (t.trg.live.generation + 1) % 2 ^ 32 } 0x0480 []
    rw [told]
    exact kept

/-- R360: outside the summary form and before it stopped, the recorder shows bank 0 (log entry 17). -/
theorem Trg.view_good {t : Trg} (good : t.bad = false) : t.view = t.bank0 := by
  simp [Trg.view, good]

/-- R530: a slot of bank 0, with the cursor of the next or 0xFFFF_FFFF. -/
theorem Trg.readAt_slot {t : Trg} {cursor : Nat} {x : Slot} (there : t.bank0.slots[cursor]? = some x) :
    t.readAt 0 cursor = some (if cursor + 1 < t.bank0.slots.length then cursor + 1 else 0xFFFFFFFF, x.bytes) := by
  simp [Trg.readAt, readEntry, there]

/-- R530, R535: a slot of bank 0 is answered, or found uncorrectable, which degrades the recorder. -/
theorem State.readRecord_slot {s : State} {cursor : Nat} {x : Slot} (there : s.trg.bank0.slots[cursor]? = some x)
    (r : Request) (ecc : Ecc) : s.readRecord r ecc 0 cursor =
      if ecc = .bad then (s.degrade (bank0Offset 0 cursor)).reply r stState 1 []
      else s.ok r (leBytes 4 s.trg.view.generation ++
        leBytes 4 (if cursor + 1 < s.trg.bank0.slots.length then cursor + 1 else 0xFFFFFFFF) ++ x.bytes) := by
  simp [State.readRecord, Trg.readAt_slot there]

section
variable {s : State} {ch : Chan} {r : Request} {rest : List Request}

/-! ### TRG_SUMMARY, TRG_READ and TRG_ANNOTATE -/

/-- R360. -/
theorem execTrgSummary_asked (asked : Asked s ch 0x0400 r rest) (shaped : Shaped r 0 []) :
    exec (.trgSummary ch) s = .next ((s.started ch r rest).ok r
      (leBytes 4 s.trg.view.generation ++ leBytes 4 s.trg.view.overflow ++ leBytes 2 s.trg.view.slots.length ++
        leBytes 2 s.trg.view.firsts.length ++ leBytes 4 (b2n (s.trg.bad || s.trg.stopped)) ++
        leBytes 8 s.stamp.toNat)) := by
  show Host.Outcome.next (s.onRequest ch _ _ _) = _
  rw [asked.runs rfl (fun _ => rfl) shaped.lenOk shaped.2]
  simp only [State.started_trg, State.started_stamp]

/-- R530, R537: TRG_READ of bank 0, once the recorder has not stopped. -/
theorem execTrgRead_bank0 (asked : Asked s ch 0x0401 r rest) (shaped : Shaped r 8 [(5, 3)]) (ecc : Ecc)
    (runs : s.trg.stopped = false) (bank : r.get 4 1 < 2) : exec (.trgRead ch ecc) s = .next (
      if s.trg.bad then (s.started ch r rest).reply r stState 1 []
      else (s.started ch r rest).readRecord r ecc (r.get 4 1) (r.get 0 4)) := by
  show Host.Outcome.next (s.onRequest ch _ _ _) = _
  rw [asked.runs rfl (fun _ => rfl) shaped.lenOk shaped.2]
  simp only [State.started_trg, runs, if_neg (show ¬ 2 < r.get 4 1 by omega), Bool.false_eq_true, false_and, if_false,
    bank, and_true]

/-- The annotation that a request writes (R528). -/
def State.annotation (s : State) (r : Request) : Annotation :=
  { stamp := s.stamp, wall := BitVec.ofNat 64 (r.get 0 8), client := r.client, text := r.payload.drop 16 }

/-- R528. -/
theorem execTrgAnnotate_asked (asked : Asked s ch 0x0402 r rest) (shaped : Shaped r (16 + r.get 8 1) [(9, 7)])
    (short : r.get 8 1 ≤ 64) (power : s.power.state ≠ .holdUp) (good : s.trg.bad = false) (runs : s.trg.stopped = false)
    (room : s.trg.live.notes.length < 256) : exec (.trgAnnotate ch) s = .next (
      { s.started ch r rest with trg.live.notes := s.trg.live.notes ++ [s.annotation r] }.ok r
        (leBytes 8 s.stamp.toNat)) := by
  obtain ⟨long, plain⟩ := shaped
  show Host.Outcome.next (s.onRequest ch _ _ _) = _
  rw [asked.runs rfl (fun hold => absurd hold power) (decide_eq_true ⟨by omega, by omega, long⟩) plain]
  simp [good, runs, Nat.not_le.mpr room, State.annotation]

/-! ### FAULT_LIST, FAULT_ACK and STALL_READ -/

/-- R361: the entries from an id on, in ascending order. -/
def State.listedFrom (s : State) (id : Nat) : List Event :=
  (s.sbx.log.foldl (fun l e => insertEvent e l) []).filter (fun e => id ≤ e.id)

/-- R361: FAULT_LIST answers at most 14 entries, and the id from which the next request goes on. -/
theorem execFaultList_asked (asked : Asked s ch 0x0500 r rest) (shaped : Shaped r 4 []) :
    let l := (s.listedFrom (r.get 0 4)).take 14
    exec (.faultList ch) s = .next ((s.started ch r rest).ok r (
      leBytes 4 (if (s.listedFrom (r.get 0 4)).length ≤ 14 then 0xFFFFFFFF
        else (l.getLast?.map (fun e => e.id + 1)).getD 0) ++
      leBytes 2 l.length ++ leBytes 2 0 ++ (l.map Event.bytes).flatten)) := by
  show Host.Outcome.next (s.onRequest ch _ _ _) = _
  rw [asked.runs rfl (fun _ => rfl) shaped.lenOk shaped.2]
  simp only [State.started_sbx]
  rfl

/-- R487: the events of an id acknowledged in a log. -/
def acknowledged (id : Nat) (log : List Event) : List Event :=
  log.map (fun x => if x.id = id then { x with state := 2 } else x)

/-- R489: FAULT_ACK acknowledges an event that waits for it, and refuses one in another state. -/
theorem execFaultAck_found (asked : Asked s ch 0x0501 r rest) (shaped : Shaped r 4 []) (power : s.power.state ≠ .holdUp)
    {e : Event} (found : s.sbx.log.find? (fun x => x.id = r.get 0 4) = some e) : exec (.faultAck ch) s = .next (
      if e.state ≠ 1 then (s.started ch r rest).reply r stState e.state []
      else { s.started ch r rest with sbx.log := acknowledged (r.get 0 4) s.sbx.log }.ok r []) := by
  have named : e.id = r.get 0 4 := by simpa using List.find?_some found
  show Host.Outcome.next (s.onRequest ch _ _ _) = _
  rw [asked.runs rfl (fun hold => absurd hold power) shaped.lenOk shaped.2]
  simp only [State.started_sbx, found, named, acknowledged]

/-- R489: an EVENT_ID that is not in the log. -/
theorem execFaultAck_absent (asked : Asked s ch 0x0501 r rest) (shaped : Shaped r 4 []) (power : s.power.state ≠ .holdUp)
    (absent : ∀ x ∈ s.sbx.log, x.id ≠ r.get 0 4) :
    exec (.faultAck ch) s = .next ((s.started ch r rest).reply r stRange 0 []) := by
  have missed : s.sbx.log.find? (fun x => x.id = r.get 0 4) = none := List.find?_eq_none.mpr (by simpa using absent)
  show Host.Outcome.next (s.onRequest ch _ _ _) = _
  rw [asked.runs rfl (fun hold => absurd hold power) shaped.lenOk shaped.2]
  simp only [State.started_sbx, missed]

/-- R361, R495: STALL_READ of bytes that lie within the save area of a partition. -/
theorem execStallRead_within (asked : Asked s ch 0x0503 r rest) (shaped : Shaped r 8 [(1, 1)]) (part : r.get 0 1 ≤ 7)
    (nonempty : 0 < r.get 2 2) (fits : r.get 2 2 ≤ 472) (within : r.get 4 4 + r.get 2 2 ≤ 2 ^ 20) :
    exec (.stallRead ch) s = .next (
      if s.power.state = .holdUp then
        ((s.started ch r rest).take (r.get 2 2)).ok r ((s.started ch r rest).freeBytes (r.get 2 2))
      else (s.started ch r rest).ok r (s.mem.saveArea.read (r.get 0 1 * 2 ^ 20 + r.get 4 4) (r.get 2 2))) := by
  show Host.Outcome.next (s.onRequest ch _ _ _) = _
  rw [asked.runs rfl (fun _ => rfl) shaped.lenOk shaped.2]
  simp only [State.started_power, State.started_mem]
  rw [if_neg (by omega), if_neg (by omega), if_neg (by omega)]

end

/-- Settles O46: each request by what it answers, and EVENT_AUTO_ACK. -/
theorem recorderAndLogRequests : Obligations.RecorderAndLogRequests := by
  refine fun s r rest ch => ⟨?summary, ?read, ?annotate, ?list, ?ack, ?unknown, ?auto, ?stall⟩
  case summary =>
    intro asked shaped
    refine ⟨_, execTrgSummary_asked asked shaped, State.started_reply_only .., fun good runs => ?_, _,
      State.ok_answered .., by simp⟩
    rw [Trg.view_good good, good, runs]
    exact State.ok_answered ..
  case read =>
    intro asked shaped cursor
    refine ⟨fun runs good area x there => ?_, fun ecc runs bad bank => ?_⟩
    · have slot : (s.started ch r rest).trg.bank0.slots[r.get 0 4]? = some x := by rwa [State.started_trg]
      have ran (ecc : Ecc) := execTrgRead_bank0 asked shaped ecc runs (by omega)
      simp only [good, Bool.false_eq_true, if_false, area, State.readRecord_slot slot, State.started_trg,
        Trg.view_good good] at ran
      refine ⟨⟨_, ran .clean, State.started_reply_only .., State.ok_answered ..⟩, _, ran .bad,
        ((State.started_only ..).trans (State.degrade_only ..)).trans (State.reply_only ..), ?_,
        State.reply_answered_nil ..⟩
      exact (State.reply_keeps ..).2.trans (State.degrade_bad ..)
    · have ran := execTrgRead_bank0 asked shaped ecc runs bank
      rw [if_pos bad] at ran
      exact ⟨_, ran, State.started_reply_only .., State.reply_answered_nil ..⟩
  case annotate =>
    intro asked shaped short power good runs room
    refine ⟨_, execTrgAnnotate_asked asked shaped short power good runs room, ?_, State.ok_answered ..,
      (State.reply_keeps ..).1⟩
    have noted : OnlyBook (s.started ch r rest) { s.started ch r rest with
      trg.live.notes := s.trg.live.notes ++ [s.annotation r] } := rfl
    exact ((State.started_only ..).trans noted).trans (State.ok_only ..)
  case list =>
    intro asked shaped all
    have ran := execFaultList_asked asked shaped
    rw [show s.listedFrom (r.get 0 4) = all from rfl] at ran
    refine ⟨_, ran, State.started_reply_only .., fun few => ?_, fun e many last => ?_⟩
    · rw [if_pos few, List.take_of_length_le few]
      exact State.ok_answered ..
    · have final : (all.take 14).getLast? = some e := by simp [List.getLast?_take, last]
      rw [if_neg (by omega), final, List.length_take, Nat.min_eq_left (by omega)]
      exact State.ok_answered ..
  case ack =>
    intro e asked shaped power found
    have ran := execFaultAck_found asked shaped power found
    refine ⟨fun waits => ?_, fun settled => ?_⟩
    · rw [if_neg (not_not.mpr waits)] at ran
      have only : OnlyBook { s with sbx.log := acknowledged (r.get 0 4) s.sbx.log }
          { s.started ch r rest with sbx.log := acknowledged (r.get 0 4) s.sbx.log } := by cases ch <;> rfl
      have replied := only.trans (State.ok_only _ r [])
      refine ⟨_, ran, ?_, State.ok_answered .., congrArg Sbx.log replied.sbx⟩
      rw [replied.sbx]
      exact replied
    · rw [if_pos settled] at ran
      exact ⟨_, ran, State.started_reply_only .., State.reply_answered_nil ..⟩
  case unknown =>
    intro asked shaped power absent
    exact ⟨_, execFaultAck_absent asked shaped power absent, State.started_reply_only .., State.reply_answered_nil ..⟩
  case auto =>
    intro id
    refine ⟨_, rfl, rfl, ?_⟩
    simp only [ite_and]
    rfl
  case stall =>
    intro asked shaped p n off part nonempty fits within
    refine ⟨_, execStallRead_within asked shaped part nonempty fits within, fun power => ?_, fun power => ?_⟩
    · rw [if_neg power]
      exact ⟨State.started_reply_only .., State.ok_answered ..⟩
    · rw [if_pos power]
      exact ⟨_, by simp [State.freeBytes, n], State.ok_answered ..⟩

end Sys2Proof.Machine
end

section
/-! The halt that event 0x0203 brings, over a context table that lists its context twice: refutes O51 (R206, R211, R246,
R484, R485). -/

namespace Sys2Proof.Machine

/-- The machine of `twiceListed`, its firmware at work. -/
def listedTwiceAtWork : State := { twiceListed with start.phase := .rom }

/-- The halt retires the frame into which the record of the aborted NOP goes, and the grant that waits for it frees the first
entry of context 0: the generation of the second, 7, goes up. -/
theorem signalBoxReport_halted_gen :
    ∃ t, exec (.signalBoxReport (source 9 0 0) 0x0203 (some 0) 0) listedTwiceAtWork = .next t ∧ (t.ctx 0).gen = 8 :=
  ⟨_, rfl, by decide +kernel⟩

/-- Refutes O51: as for O5, no hypothesis says that the context table lists a context once. A core reports 0x0203, of level
1, for context 0 of generation 1, which the table lists twice, and the halted context reads as generation 8. -/
theorem not_signalBoxActs : ¬ Obligations.SignalBoxActs := by
  intro h
  have calm : listedTwiceAtWork.calm 0x0203 := ⟨by decide +kernel, rfl, by decide⟩
  obtain ⟨reports, -⟩ := h listedTwiceAtWork rfl
  obtain ⟨-, -, level1⟩ := reports (source 9 0 0) 0x0203 (some 0) 0 (by decide +kernel) (by decide) (by decide)
    (by decide +kernel) calm
  obtain ⟨t, ran, -, gen, -⟩ := level1 0 (by decide +kernel) rfl rfl
  obtain ⟨u, halted, reached⟩ := signalBoxReport_halted_gen
  obtain rfl := Host.Outcome.next.inj (ran.symm.trans halted)
  exact absurd (reached.symm.trans gen) (by decide +kernel)

end Sys2Proof.Machine
end

section
/-! COMPUTE_DOMAIN_RESET_DONE where a partition leaves service: refutes O52 (R8, R25, R28, R174, R206, R498). -/

namespace Sys2Proof.Machine

/-- The reset of the compute domain, with no event, request or fence. -/
def computeReset : Recovery := { level := 4, scope := computeScope, events := [], reqs := [], fence := [] }

/-- A partition in service. -/
def servingPart : Partition := { Partition.reset with unit := .inService }

/-- Four partitions are in service, and the vector engine of the first is fenced. Context 0, granted the other three, became
ACTIVE after the reset of the compute domain began, and an ALLREDUCE of its ring waits at the collective engine, which lies
outside that domain (R486). -/
def createdInReset : State :=
  { State.reset with
    start.phase := .rom
    parts := [{ servingPart with vec := { VectorEngine.reset with unit := .fenced } }, servingPart, servingPart, servingPart]
    ctxs := [(0, { Context.reset with
      state := .active, yard := [1, 2, 3].map (fun p => { phys := p, base := 0, size := 1 }) })]
    rings := [(0, { Ring.reset with state := .running, logSize := 6 })]
    marsh.flights := [{ dispatchedNop with bits := 0x38, unit := .coll 0 }]
    sbx.recoveries := [computeReset] }

/-- Partition 0 leaves service, the profile of two holds partition 3, and context 0 is stranded: its ALLREDUCE is aborted,
and the place that it frees stands in the dispatch state of the collective engine. -/
theorem computeDomainResetDone_units :
    ∃ t, exec (.computeDomainResetDone (List.replicate 8 cleanTest)) createdInReset = .next t ∧ t.marsh.units ≠ [] :=
  ⟨_, rfl, by decide +kernel⟩

/-- Refutes O52: the dispatch states are reset before the partitions that are not serviceable leave service, and where that
strands an ACTIVE context with a wagon at a unit, not every dispatch state is at its reset value at the end. -/
theorem not_resetsComplete : ¬ Obligations.ResetsComplete := by
  intro h
  have power : createdInReset.power.state ≠ .holdUp := by decide
  obtain ⟨-, -, recoveries, -⟩ := h createdInReset
  obtain ⟨-, -, -, level4⟩ := recoveries computeReset rfl rfl power
  obtain ⟨t, ran, -, -, -, units, -⟩ := level4 rfl rfl rfl
  obtain ⟨u, done, busy⟩ := computeDomainResetDone_units
  obtain rfl := Host.Outcome.next.inj (ran.symm.trans done)
  exact busy units

end Sys2Proof.Machine
end

section
/-! TRG_FLUSH and TRG_PERIODIC_SAMPLE: settles O47 (R450, R454, R522 to R526, R535 to R538). -/

namespace Sys2Proof.Machine

/-! ### What differs is the recorder -/

/-- Nothing but the recorder differs. -/
def OnlyRecorder (s t : State) : Prop := t = { s with trg := t.trg }

theorem OnlyRecorder.refl (s : State) : OnlyRecorder s s := rfl

theorem OnlyRecorder.trans {s t u : State} (h : OnlyRecorder s t) (k : OnlyRecorder t u) : OnlyRecorder s u := by
  unfold OnlyRecorder at *
  rw [k, h]

theorem State.note_onlyRecorder (s : State) (code : Nat) (src : W32) (r : Recorded) :
    OnlyRecorder s (s.note code src r) := by
  obtain ⟨g, noted⟩ := s.note_eq code src r
  rw [noted]
  rfl

/-- A reflexive and transitive relation that holds across each step of a fold holds across the fold. -/
theorem foldl_related {σ β : Type} {rel : σ → σ → Prop} (refl : ∀ s, rel s s)
    (trans : ∀ {s t u}, rel s t → rel t u → rel s u) {f : σ → β → σ} (step : ∀ s b, rel s (f s b)) (l : List β) :
    ∀ s, rel s (l.foldl f s) := by
  induction l with
  | nil => exact refl
  | cons b l ih => exact fun s => trans (step s b) (ih _)

/-! ### The flush -/

theorem flushSlots_length (live old : List Slot) : (flushSlots live old).length = live.length := by
  simp [flushSlots]

/-- R522, R537: a recording leaves GENERATION, bank 0 and the counters as last recorded. -/
theorem State.note_leaves (s : State) (code : Nat) (src : W32) (r : Recorded) :
    (s.note code src r).trg.live.generation = s.trg.live.generation ∧ (s.note code src r).trg.bank0 = s.trg.bank0 ∧
      (s.note code src r).trg.lastCounters = s.trg.lastCounters := by
  unfold State.note
  split
  · exact ⟨rfl, rfl, rfl⟩
  · split <;> split <;> exact ⟨rfl, rfl, rfl⟩

/-- R535, R537: the move to the summary form takes GENERATION up by one and leaves bank 0. -/
theorem State.degrade_good {s : State} (good : s.trg.bad = false) (offset : Nat) :
    (s.degrade offset).trg.live.generation = (s.trg.live.generation + 1) % 2 ^ 32 ∧
      (s.degrade offset).trg.bank0 = s.trg.bank0 := by
  unfold State.degrade
  rw [if_neg (by simp [good])]
  obtain ⟨generation, bank0, -⟩ := State.note_leaves { s with trg.bad := true } 0x7F01 0 (.value offset)
  dsimp only
  generalize ({ s with trg.bad := true } : State).note 0x7F01 0 (.value offset) = t at generation bank0 ⊢
  obtain ⟨b, told⟩ := State.event_eq { t with trg.live.generation := (t.trg.live.generation + 1) % 2 ^ 32 } 0x0480 []
  rw [told]
  exact ⟨by rw [generation], bank0⟩

/-! ### Recordings in the code slots -/

/-- A slot in which nothing was recorded, with a first value recorded that lies in 32 bits signed (R522). -/
theorem Slot.fresh_hit (code : Nat) (src : W32) (stamp : W64) (ms : Nat) {v : Int} (low : -0x80000000 ≤ v)
    (high : v ≤ 0x7FFFFFFF) :
    let x := (Slot.fresh code src stamp ms).hit (max (-0x80000000) (min v 0x7FFFFFFF)) stamp true true ms
    x.code = code ∧ x.source = src ∧ x.total = 1 ∧ x.low = v ∧ x.high = v ∧ x.firstStamp = stamp ∧
      x.lastStamp = stamp := by
  refine ⟨rfl, rfl, rfl, ?_, ?_, rfl, rfl⟩
  · show min 0x7FFFFFFF (max (-0x80000000) (min v 0x7FFFFFFF)) = v
    omega
  · show max (-0x80000000) (max (-0x80000000) (min v 0x7FFFFFFF)) = v
    omega

/-- R522, R526: the first value of a key, where a slot is free, goes into a slot of its own after the others. -/
theorem State.note_new {s : State} (runs : s.trg.stopped = false) (good : s.trg.bad = false)
    (room : s.trg.live.slots.length < 4096) {code : Nat} {src : W32}
    (new : ∀ x ∈ s.trg.live.slots, ¬ (x.code = code ∧ x.source = src)) {v : Int} (low : -0x80000000 ≤ v)
    (high : v ≤ 0x7FFFFFFF) :
    ∃ x, (s.note code src (.value v)).trg.live.slots = s.trg.live.slots ++ [x] ∧ x.code = code ∧ x.source = src ∧
      x.total = 1 ∧ x.low = v ∧ x.high = v ∧ x.firstStamp = s.stamp ∧ x.lastStamp = s.stamp := by
  have unfound : s.trg.live.slots.findIdx? (fun x => x.code = code ∧ x.source = src) = none :=
    List.findIdx?_eq_none_iff.mpr fun x slot => decide_eq_false (new x slot)
  refine ⟨_, ?_, Slot.fresh_hit code src s.stamp s.ms low high⟩
  simp only [State.note, Slot.recordIn, Recorded.on, runs, good, unfound, if_neg (Nat.not_le.mpr room),
    Bool.false_eq_true, if_false]

theorem mem_setNth_of_ne {α : Type} {f : α → α} {x : α} {l : List α} (there : x ∈ l) :
    ∀ {i : Nat}, l[i]? ≠ some x → x ∈ setNth l i f := by
  induction l with
  | nil => exact absurd there List.not_mem_nil
  | cons a l ih =>
    intro i other
    cases i with
    | zero =>
      have rest : x ∈ l := (List.mem_cons.mp there).resolve_left fun same => other (by simp [same])
      exact List.mem_cons_of_mem _ rest
    | succ i =>
      rcases List.mem_cons.mp there with same | rest
      · exact same ▸ List.mem_cons_self
      · exact List.mem_cons_of_mem _ (ih rest (by simpa using other))

/-- A recording leaves every slot of another code (R522). -/
theorem Slot.recordIn_keeps {slots l : List Slot} {limit code : Nat} {withBins : Bool} {src : W32} {r : Recorded}
    {stamp : W64} {ms : Nat} (made : Slot.recordIn slots limit withBins code src r stamp ms = some l) {x : Slot}
    (there : x ∈ slots) (other : x.code ≠ code) : x ∈ l := by
  unfold Slot.recordIn at made
  split at made
  next i found =>
    obtain ⟨inside, hit, -⟩ := List.findIdx?_eq_some_iff_getElem.mp found
    obtain ⟨coded, -⟩ := of_decide_eq_true hit
    have elsewhere : slots[i]? ≠ some x := by
      rw [List.getElem?_eq_getElem inside]
      exact fun same => other (Option.some.inj same ▸ coded)
    exact Option.some.inj made ▸ mem_setNth_of_ne there elsewhere
  next =>
    split at made
    · cases made
    · exact Option.some.inj made ▸ List.mem_append_left _ there

/-- R522, R537: a recording leaves every slot of another code, wherever it goes. -/
theorem State.note_keeps_slot {s : State} {code : Nat} {x : Slot} (there : x ∈ s.trg.live.slots) (other : x.code ≠ code)
    (src : W32) (r : Recorded) : x ∈ (s.note code src r).trg.live.slots := by
  unfold State.note
  split
  · exact there
  · split
    · split <;> exact there
    · split
      next made => exact Slot.recordIn_keeps made there other
      next => exact there

/-! ### Counters -/

/-- The key of the overruns among the counters as last recorded (R454, R526). -/
def overrunKey : Nat := 0x9001 * 2 ^ 16

/-- Nothing but the recorder differs, and what it holds of the overruns is kept: their count and every slot of theirs. -/
def KeepsOverruns (s t : State) : Prop :=
  OnlyRecorder s t ∧ Table.get 0 t.trg.lastCounters overrunKey = Table.get 0 s.trg.lastCounters overrunKey ∧
    ∀ x ∈ s.trg.live.slots, x.code = 0x9001 → x ∈ t.trg.live.slots

theorem KeepsOverruns.refl (s : State) : KeepsOverruns s s := ⟨rfl, rfl, fun _ there _ => there⟩

theorem KeepsOverruns.trans {s t u : State} (h : KeepsOverruns s t) (k : KeepsOverruns t u) : KeepsOverruns s u :=
  let ⟨only, count, slots⟩ := h
  let ⟨only', count', slots'⟩ := k
  ⟨only.trans only', count'.trans count, fun x there coded => slots' x (slots x there coded) coded⟩

theorem KeepsOverruns.foldl {β : Type} {f : State → β → State} (step : ∀ s b, KeepsOverruns s (f s b)) (l : List β)
    (s : State) : KeepsOverruns s (l.foldl f s) :=
  foldl_related KeepsOverruns.refl KeepsOverruns.trans step l s

/-- A counter's count kept as last recorded (R526). -/
def State.counted (s : State) (code idx count : Nat) : State :=
  { s with trg.lastCounters := Table.put 0 (code * 2 ^ 16 + idx) count s.trg.lastCounters }

/-- R526: a counter that rose has its increase recorded. -/
theorem State.noteCounter_rose {s : State} {code idx count : Nat}
    (rose : Table.get 0 s.trg.lastCounters (code * 2 ^ 16 + idx) < count) :
    s.noteCounter code idx count = (s.counted code idx count).note code (BitVec.ofNat 32 idx)
      (.value ((count - Table.get 0 s.trg.lastCounters (code * 2 ^ 16 + idx) : Nat) : Int)) :=
  if_pos rose

/-- R522, R526: the increase of a counter whose key has no slot, where one is free, goes into a slot of its own. -/
theorem State.noteCounter_new {s : State} {code idx count : Nat} (runs : s.trg.stopped = false)
    (good : s.trg.bad = false) (room : s.trg.live.slots.length < 4096)
    (new : ∀ x ∈ s.trg.live.slots, ¬ (x.code = code ∧ x.source = BitVec.ofNat 32 idx)) {n : Nat}
    (increase : count - Table.get 0 s.trg.lastCounters (code * 2 ^ 16 + idx) = n) (rose : 0 < n) (small : n ≤ 0x7FFFFFFF) :
    ∃ x ∈ (s.noteCounter code idx count).trg.live.slots,
      x.code = code ∧ x.source = BitVec.ofNat 32 idx ∧ x.total = 1 ∧ x.low = n ∧ x.high = n := by
  obtain ⟨x, slots, coded, source, total, low, high, -⟩ := State.note_new (s := s.counted code idx count) runs good room
    new (v := (n : Int)) (by omega) (by omega)
  have there : x ∈ s.trg.live.slots ++ [x] := List.mem_append_right _ List.mem_cons_self
  rw [State.noteCounter_rose (by omega), increase, slots]
  exact ⟨x, there, coded, source, total, low, high⟩

/-- R526: a counter's count is kept, and a recording of its own key may follow. -/
theorem State.noteCounter_cases (s : State) (code idx count : Nat) :
    s.noteCounter code idx count = s.counted code idx count ∨
      ∃ r, s.noteCounter code idx count = (s.counted code idx count).note code (BitVec.ofNat 32 idx) r := by
  rcases Nat.lt_or_ge (Table.get 0 s.trg.lastCounters (code * 2 ^ 16 + idx)) count with rose | steady
  · exact .inr ⟨_, State.noteCounter_rose rose⟩
  · exact .inl (if_neg (Nat.not_lt.mpr steady))

theorem State.noteCounter_lastCounters (s : State) (code idx count : Nat) :
    (s.noteCounter code idx count).trg.lastCounters = Table.put 0 (code * 2 ^ 16 + idx) count s.trg.lastCounters := by
  rcases s.noteCounter_cases code idx count with kept | ⟨r, noted⟩
  · exact kept ▸ rfl
  · exact noted ▸ (State.note_leaves ..).2.2

theorem State.noteCounter_onlyRecorder (s : State) (code idx count : Nat) :
    OnlyRecorder s (s.noteCounter code idx count) := by
  have counted : OnlyRecorder s (s.counted code idx count) := rfl
  rcases s.noteCounter_cases code idx count with kept | ⟨r, noted⟩
  · exact kept ▸ counted
  · exact noted ▸ counted.trans (State.note_onlyRecorder ..)

/-- R526: counters of the codes above 0x9001, those of dropped frames and of the rails, leave what is recorded of the
overruns. -/
theorem State.noteCounter_keepsOverruns (s : State) {code : Nat} (above : 0x9001 < code) (idx count : Nat) :
    KeepsOverruns s (s.noteCounter code idx count) := by
  refine ⟨s.noteCounter_onlyRecorder code idx count, ?_, fun x there coded => ?_⟩
  · rw [State.noteCounter_lastCounters]
    exact Table.get_put_other _ _ _ (by unfold overrunKey; omega)
  · have other : x.code ≠ code := by omega
    rcases s.noteCounter_cases code idx count with kept | ⟨r, noted⟩
    · exact kept ▸ there
    · exact noted ▸ State.note_keeps_slot (s := s.counted code idx count) there other ..

/-- The overruns are the first counter recorded, and the others leave what was recorded of them (R526). -/
theorem State.noteCounters_keepsOverruns (s : State) :
    KeepsOverruns (s.noteCounter 0x9001 0 s.power.overruns.toNat) s.noteCounters := by
  have drop : 0x9001 < 0x9002 := by decide
  have rail : 0x9001 < 0x9003 := by decide
  unfold State.noteCounters
  dsimp only
  refine KeepsOverruns.trans ?_ (KeepsOverruns.foldl (fun t _ =>
    KeepsOverruns.foldl (fun u _ => u.noteCounter_keepsOverruns rail ..) _ t) ..)
  exact KeepsOverruns.foldl (fun t _ => t.noteCounter_keepsOverruns drop ..) ..

/-! ### The saturation flags -/

/-- R450: the flags are recorded, and read 0 afterwards. -/
theorem State.noteSaturation_eq (s : State) :
    s.noteSaturation = { s with trg := s.noteSaturation.trg, power.satFlags := 0 } := by
  have recorded := foldl_related (rel := OnlyRecorder) OnlyRecorder.refl OnlyRecorder.trans
    (f := fun t i => if s.power.satFlags.getLsbD i then t.note 0x8009 (BitVec.ofNat 32 i) .occurrence else t)
    (fun t i => by
      split
      · exact t.note_onlyRecorder ..
      · exact OnlyRecorder.refl t) (List.range 7) s
  unfold State.noteSaturation
  dsimp only
  rw [recorded]

/-! ### The commands -/

/-- Settles O47: each end of a flush, and the three recordings. -/
theorem recorderWrites : Obligations.RecorderWrites := by
  intro s control power runs
  have firmware : ¬ (¬ s.start.control ∨ s.power.state = .holdUp ∨ s.trg.stopped) := by simp [control, power, runs]
  refine ⟨fun good => ⟨?whole, ?cutInPlace, fun offset => ?badLocation, fun rom ready => ?periodic⟩,
    congrArg Host.Outcome.next (if_neg firmware), fun bad => ?summaryFails⟩
  case whole =>
    have flushed : s.flush = { s with
        trg.live := s.trg.flushed, trg.bank0 := s.trg.flushed, trg.journal := none, trg.stored := s.trg.seconds } := by
      simp [State.flush, runs, good]
    refine ⟨_, congrArg Host.Outcome.next ((if_neg firmware).trans flushed), rfl, rfl, rfl, rfl, rfl, ?_, rfl, rfl⟩
    exact flushSlots_length ..
  case cutInPlace =>
    have cut : s.flushCut = { s with trg.journal := some s.trg.flushed, trg.stored := s.trg.seconds } := by
      simp [State.flushCut, runs, good]
    exact ⟨_, congrArg Host.Outcome.next ((if_neg firmware).trans cut), rfl, rfl, rfl, rfl⟩
  case badLocation =>
    obtain ⟨generation, bank0⟩ := State.degrade_good good offset
    exact ⟨_, congrArg Host.Outcome.next (if_neg firmware), s.degrade_bad offset, generation, bank0,
      s.degrade_only offset⟩
  case summaryFails =>
    have lost : s.summaryLost = { s with trg.stopped := true } := if_pos bad
    exact congrArg Host.Outcome.next ((if_neg firmware).trans lost)
  case periodic =>
    have awake : ¬ (s.start.phase ≠ .rom ∨ s.book.fwState < 2) := by simp [rom, Nat.not_lt.mpr ready]
    refine ⟨fun room small new => ?_, ?_, fun rose small wf room new => ?_⟩
    · obtain ⟨x, slots, slot⟩ := State.note_new runs good room new (by omega) small
      exact ⟨_, x, congrArg Host.Outcome.next (if_neg awake), s.note_onlyRecorder .., slots, slot⟩
    · refine ⟨_, congrArg Host.Outcome.next (if_neg awake), ?_, s.noteSaturation_eq⟩
      rw [State.noteSaturation_eq]
    · obtain ⟨only, count, kept⟩ := s.noteCounters_keepsOverruns
      refine ⟨_, congrArg Host.Outcome.next (if_neg awake), (s.noteCounter_onlyRecorder ..).trans only, ?_, ?_⟩
      · rw [show 0x9001 * 2 ^ 16 = overrunKey from rfl, count, State.noteCounter_lastCounters]
        exact Table.get_put_same _ _ none _ _ wf
      · obtain ⟨x, there, coded, slot⟩ := State.noteCounter_new runs good room new rfl rose small
        exact ⟨x, kept x there coded, coded, slot⟩

end Sys2Proof.Machine
end

section
/-! The PLDM firmware update in Roundhouse, command by command: settles O39 (R563, R564). -/

namespace Sys2Proof.Machine

/-! ### What an answer and a request for data leave -/

@[simp] theorem State.modRh_sec (s : State) (f : Roundhouse → Roundhouse) :
    (s.modRh f).sec = { s.sec with rh := f s.sec.rh } := rfl

@[simp] theorem State.mctpAnswer_sec (s : State) (dst : Byte) (name : String) (code : Nat) (bytes : List Byte) :
    (s.mctpAnswer dst name code bytes).sec = s.sec := rfl

@[simp] theorem State.askData_sec (s : State) (dst : Byte) : (s.askData dst).sec = s.sec := by
  unfold State.askData
  dsimp only
  split
  · rfl
  · rfl

/-- R563: while bytes are missing, the Update Agent is asked for up to 512 from the first not taken. -/
theorem State.askData_missing {s : State} (dst : Byte) (missing : s.sec.rh.taken < s.sec.rh.size) :
    s.askData dst = s.emit (.control dst "RequestFirmwareData"
      (leBytes 4 s.sec.rh.taken ++ leBytes 4 (min 512 (s.sec.rh.size - s.sec.rh.taken)))) := if_pos missing

/-! ### The commands, each in the state that allows it -/

section
variable {s : State} {src : Byte}
  (heard : s.book.fwState = 1 ∧ s.book.peer = some src ∧ s.mctpHears src false = true)
include heard

/-- R563: in Roundhouse a PLDM message of the peer is acted on. -/
theorem State.onPldm_heard (act : State → State) : s.onPldm src act = act s := if_pos heard

/-- R599, R601: out of Hold-up, one that writes the NOR is too. -/
theorem State.onNorWrite_heard (powered : s.power.state ≠ .holdUp) (act : State → State) :
    s.onNorWrite src act = act s := (State.onPldm_heard heard _).trans (if_neg powered)

theorem execRequestUpdate_idle (idle : s.sec.rh.state = .idle) : exec (.requestUpdate src) s =
    .next ((s.modRh (fun r => { r with state := .learn })).mctpAnswer src "RequestUpdate" 0 [0, 0, 0]) :=
  congrArg Host.Outcome.next ((State.onPldm_heard heard _).trans (if_pos idle))

theorem execPassComponentTable_learn (component : W16) (learn : s.sec.rh.state = .learn) :
    exec (.passComponentTable src component) s = .next ((s.modRh (fun r => { r with state := .ready })).mctpAnswer src
      "PassComponentTable" 0 (componentBytes component)) :=
  congrArg Host.Outcome.next ((State.onPldm_heard heard _).trans (if_pos learn))

/-- R563: UpdateComponent of the one component, of a size an image may have. -/
theorem execUpdateComponent_ready {size : W32} (powered : s.power.state ≠ .holdUp) (ready : s.sec.rh.state = .ready)
    (low : 4096 ≤ size.toNat) (high : size.toNat ≤ imageMax) : exec (.updateComponent src 1 size) s =
    .next (({ s.modRh (fun r => { r with
        state := .download, size := size.toNat, header := [], taken := 0, verified := false }) with
      sec.nor := [] }.mctpAnswer src "UpdateComponent" 0 [0, 0]).askData src) := by
  have allowed : ¬ ((1 : W16) ≠ 1 ∨ size.toNat < 4096 ∨ imageMax < size.toNat) := by simp [low, high]
  exact congrArg Host.Outcome.next
    ((State.onNorWrite_heard heard powered _).trans ((if_neg (not_not.mpr ready)).trans (if_neg allowed)))

/-- R564: bytes beyond the header go to the NOR, where they stand in the image. -/
theorem execRequestFirmwareData_body {data : List Byte} (powered : s.power.state ≠ .holdUp)
    (download : s.sec.rh.state = .download) (missing : s.sec.rh.taken < s.sec.rh.size)
    (asked : data.length = min 512 (s.sec.rh.size - s.sec.rh.taken)) (beyond : 128 ≤ s.sec.rh.taken) :
    exec (.requestFirmwareData src data) s = .next (({ s with
      sec.nor := norWrite s.sec.nor s.sec.rh.taken data }.modRh
        (fun r => { r with taken := r.taken + data.length })).askData src) := by
  have taken : ¬ (s.sec.rh.state ≠ .download ∨ s.sec.rh.size ≤ s.sec.rh.taken ∨
      data.length ≠ min 512 (s.sec.rh.size - s.sec.rh.taken)) := by simp [download, missing, asked]
  have noHead : data.take (128 - s.sec.rh.taken) = [] := by simp [Nat.sub_eq_zero_of_le beyond]
  refine congrArg Host.Outcome.next ((State.onNorWrite_heard heard powered _).trans ((if_neg taken).trans ?_))
  simp [noHead]

/-- R564: the check is of the NOR with the header programmed; a valid image keeps it and clears START_FAIL, another
leaves the NOR without it. -/
theorem execTransferComplete_whole (powered : s.power.state ≠ .holdUp) (download : s.sec.rh.state = .download)
    (whole : s.sec.rh.size ≤ s.sec.rh.taken) : exec (.transferComplete src) s =
    .next (if { s with sec.nor := norWrite s.sec.nor 0 s.sec.rh.header }.norValid then
        (({ s with sec.nor := norWrite s.sec.nor 0 s.sec.rh.header }.modRh
          (fun r => { r with state := .apply, verified := true })).setStartFail 0).emit
            (.control src "VerifyComplete" [0])
      else (s.modRh (fun r => { r with state := .verify })).emit (.control src "VerifyComplete" [1])) := by
  have done : ¬ (s.sec.rh.state ≠ .download ∨ s.sec.rh.taken < s.sec.rh.size) := by simp [download, whole]
  exact congrArg Host.Outcome.next ((State.onNorWrite_heard heard powered _).trans (if_neg done))

theorem execApplyComplete_apply (apply : s.sec.rh.state = .apply) : exec (.applyComplete src) s =
    .next ((s.modRh (fun r => { r with state := .ready })).emit (.control src "ApplyComplete" [0])) :=
  congrArg Host.Outcome.next ((State.onPldm_heard heard _).trans (if_neg (not_not.mpr apply)))

/-- R564: ActivateFirmware takes a full module reset, CAUSE 3. -/
theorem execActivateFirmware_verified (ready : s.sec.rh.state = .ready) (verified : s.sec.rh.verified = true) :
    exec (.activateFirmware src) s = .next
      (((s.modRh (fun _ => { Roundhouse.reset with tid := s.sec.rh.tid, state := .activate })).mctpAnswer src
        "ActivateFirmware" 0 [0, 0]).beginModuleReset 3 false) :=
  congrArg Host.Outcome.next ((State.onPldm_heard heard _).trans (if_pos ⟨ready, verified⟩))

theorem execCancelUpdateComponent_download (download : s.sec.rh.state = .download) :
    exec (.cancelUpdateComponent src) s =
      .next ((s.modRh (fun r => { r with state := .ready, verified := false })).mctpAnswer
        src "CancelUpdateComponent" 0 []) :=
  congrArg Host.Outcome.next ((State.onPldm_heard heard _).trans (if_pos (.inl download)))

theorem execCancelUpdate_updating (updating : s.sec.rh.state ≠ .idle) : exec (.cancelUpdate src) s = .next
    ((s.modRh (fun r => { Roundhouse.reset with tid := r.tid })).mctpAnswer src "CancelUpdate" 0 (leBytes 9 0)) :=
  congrArg Host.Outcome.next ((State.onPldm_heard heard _).trans (if_neg updating))

end

/-! ### The update -/

/-- Settles O39: each command in the state that allows it. -/
theorem pldmUpdateRuns : Obligations.PldmUpdateRuns := by
  intro s src fw peer hears powered
  have heard := And.intro fw (And.intro peer hears)
  refine ⟨fun idle => ?request, fun learn => ?pass, fun size ready low high => ?update,
    fun data download missing asked beyond => ?piece, fun download whole => ?transfer, fun apply => ?apply,
    fun ready verified => ?activate, fun download => ?cancelComponent, fun updating => ?cancel⟩
  case request => exact ⟨_, execRequestUpdate_idle heard idle, rfl, rfl, rfl⟩
  case pass => exact ⟨_, execPassComponentTable_learn heard 1 learn, rfl, rfl, rfl⟩
  case update =>
    refine ⟨_, execUpdateComponent_ready heard powered ready low high, ?_⟩
    rw [State.askData_missing src (show 0 < size.toNat by omega)]
    exact ⟨rfl, rfl, rfl, rfl, by simp [Nat.min_eq_left (show 512 ≤ size.toNat by omega)]⟩
  case piece =>
    refine ⟨_, execRequestFirmwareData_body heard powered download missing asked beyond, ?_⟩
    simp [download]
  case transfer =>
    refine ⟨_, execTransferComplete_whole heard powered download whole, fun valid => ?valid, fun bad => ?bad⟩
    case valid =>
      rw [if_pos valid]
      exact ⟨rfl, rfl, rfl⟩
    case bad =>
      rw [if_neg (by simp [bad])]
      exact ⟨rfl, rfl, rfl⟩
  case apply => exact ⟨_, execApplyComplete_apply heard apply, rfl, rfl, rfl⟩
  case activate => exact ⟨_, execActivateFirmware_verified heard ready verified, rfl, rfl⟩
  case cancelComponent => exact ⟨_, execCancelUpdateComponent_download heard download, rfl, rfl, rfl⟩
  case cancel => exact ⟨_, execCancelUpdate_updating heard updating, rfl, rfl, rfl⟩

end Sys2Proof.Machine
end

section
/-! POWER_GOOD and FULL_MODULE_RESET_RELEASE: settles O53 (R44, R250, R502, R505, R518, R525, R534, R542 to R546, R554). -/

namespace Sys2Proof.Machine

/-! ### The recorder under a flush -/

/-- Of the recorder what a flush keeps: the clocks, the clear records, GENERATION and the keys of the slots (R517, R518). -/
def Trg.kept (t : Trg) : Nat × Nat × List ClearRecord × Nat × List (Nat × W32) :=
  (t.seconds, t.powerCycles, t.clears, t.live.generation, t.live.slots.map (fun x => (x.code, x.source)))

theorem Trg.kept_iff {t u : Trg} : t.kept = u.kept ↔ t.seconds = u.seconds ∧ t.powerCycles = u.powerCycles ∧
    t.clears = u.clears ∧ t.live.generation = u.live.generation ∧
    t.live.slots.map (fun x => (x.code, x.source)) = u.live.slots.map (fun x => (x.code, x.source)) := by
  simp [Trg.kept]

/-- R523, R524: slots as a flush writes them keep their keys. -/
theorem flushSlots_keys (live old : List Slot) :
    (flushSlots live old).map (fun x => (x.code, x.source)) = live.map (fun x => (x.code, x.source)) := by
  unfold flushSlots
  rw [List.map_map]
  conv_rhs => rw [← List.zipIdx_map_fst 0 live, List.map_map]
  refine List.map_congr_left fun (x, i) _ => ?_
  dsimp only [Function.comp]
  split
  · split
    next same => rw [← same]
    next => rfl
  · rfl

theorem State.flush_keeps (s : State) : OnlyRecorder s s.flush ∧ s.flush.trg.kept = s.trg.kept := by
  unfold State.flush
  split
  · exact ⟨rfl, rfl⟩
  · split
    · exact ⟨rfl, rfl⟩
    · exact ⟨rfl, by simp [Trg.kept, Trg.flushed, flushSlots_keys]⟩

/-! ### What the ROM leaves -/

/-- What the ROM leaves of the state from which it starts, whatever it finds (R542 to R545, R593). -/
structure RomKeeps (s t : State) : Prop where
  only : t = { s with
    mram.start := t.mram.start, mram.history := t.mram.history, rails := t.rails, book := t.book, power := t.power
    sbx := t.sbx, trg := t.trg, sec := { t.sec with nor := s.sec.nor, level := s.sec.level, idSealed := s.sec.idSealed }
    start := { s.start with phase := t.start.phase, alert := t.start.alert }, out := t.out }
  fences : t.past.fences = s.past.fences
  recorder : t.trg.kept = s.trg.kept

theorem RomKeeps.refl (s : State) : RomKeeps s s := ⟨rfl, rfl, rfl⟩

theorem RomKeeps.trans {s t u : State} (h : RomKeeps s t) (k : RomKeeps t u) : RomKeeps s u :=
  ⟨by rw [k.only, h.only], k.fences.trans h.fences, k.recorder.trans h.recorder⟩

theorem State.roundhouse_keeps (s : State) : RomKeeps s s.roundhouse := ⟨rfl, rfl, rfl⟩

/-- A write of the history that leaves the fence list leaves it as it reads (R502). -/
theorem State.modPast_fences (s : State) {f : History → History} (same : ∀ h, (f h).fences = h.fences) :
    (s.modPast f).past.fences = s.past.fences := by
  rw [State.past_modPast]
  split
  · rfl
  · exact same _

/-- The module about to request a power cycle: the recorder flushed, the ports quiet, the clock stopped (R506, R507). -/
def State.cycling (s : State) : State :=
  { s.flush.quietPorts with power.clockStopped := true, start.phase := .cycle, start.alert := true }

/-- R506, R507: what the request of a power cycle changes. -/
theorem State.requestCycle_eq (s : State) : ∃ g h, s.requestCycle = { s with
      trg := g, rails := s.quietPorts.rails, power.clockStopped := true, start.phase := .cycle, start.alert := true
      mram.history := h, out := s.out ++ [.alertLow] } ∧
    g.kept = s.trg.kept ∧ s.requestCycle.past.fences = s.past.fences := by
  obtain ⟨flushed, kept⟩ := s.flush_keeps
  have cycling : s.cycling = { s with trg := s.flush.trg, rails := s.quietPorts.rails, power.clockStopped := true
                                      start.phase := .cycle, start.alert := true } := by
    unfold State.cycling
    rw [flushed]
    rfl
  have requested : s.requestCycle = (s.cycling.modPast (fun h =>
      { h with powerCycles := h.powerCycles ++ [s.cycling.trg.seconds] })).emit .alertLow := rfl
  obtain ⟨h, past⟩ := s.cycling.modPast_eq (fun h => { h with powerCycles := h.powerCycles ++ [s.cycling.trg.seconds] })
  refine ⟨s.flush.trg, h, ?_, kept, ?_⟩
  · rw [requested, past, cycling]
    rfl
  · rw [requested]
    refine Eq.trans (State.modPast_fences s.cycling (f := fun h => { h with powerCycles := _ }) fun _ => rfl) ?_
    rw [cycling]
    rfl

theorem State.requestCycle_keeps (s : State) : RomKeeps s s.requestCycle := by
  obtain ⟨g, h, requested, kept, fences⟩ := s.requestCycle_eq
  exact ⟨by rw [requested], fences, by rw [requested]; exact kept⟩

/-- R321, R339: an event where firmware runs. -/
theorem State.event_runs {s : State} (firmware : 2 ≤ s.book.fwState) (op : Nat) (payload : List Byte) :
    s.event op payload = { s with
      book.pcie := s.book.pcie.addEvent (eventTicket op payload)
      book.mctp := s.book.mctp.addEvent (eventTicket op payload) } := if_neg (Nat.not_lt.mpr firmware)

/-- FIRMWARE_START of the start that the ROM makes (R370, R545). -/
def State.startTicket (s : State) : OutTicket :=
  eventTicket 0x0180
    (leBytes 4 (BitVec.ofNat 32 (s.mram.startRecord.1 + 1)).toNat ++ leBytes 1 s.start.cause ++ leBytes 3 0)

theorem State.romMeasures_eq (s : State) : ∃ l, s.romMeasures = { s with sec.measures := l } := ⟨_, rfl⟩

/-- R370, R545, R552, R554: what the start of the firmware changes. -/
theorem State.startFirmware_eq (s : State) : ∃ sec : Sec, s.startFirmware = { s with
      sec := sec, mram.start := s.mram.start.store (s.mram.startRecord.1 + 1, s.mram.startRecord.2 + 1) true
      sbx.watchdog := true, book.fwState := 2, book.mctpUp := true
      book.session := BitVec.ofNat 32 (s.mram.startRecord.1 + 1), book.pcie := s.book.pcie.addEvent s.startTicket
      book.mctp := s.book.mctp.addEvent s.startTicket } ∧
    sec.nor = s.sec.nor ∧ sec.level = s.sec.level ∧ sec.idSealed = s.sec.idSealed := by
  obtain ⟨l, measured⟩ := s.romMeasures_eq
  unfold State.startFirmware State.remeasureDebug State.setMeasure
  rw [measured]
  dsimp only
  generalize imgVersion s.norImage = version
  generalize imgSvn s.norImage = svn
  rw [State.event_runs (Nat.le_refl 2)]
  exact ⟨_, rfl, rfl, rfl, rfl⟩

theorem State.startFirmware_keeps (s : State) : RomKeeps s s.startFirmware := by
  obtain ⟨sec, started, nor, level, idSealed⟩ := s.startFirmware_eq
  rw [started]
  exact ⟨by rw [← nor, ← level, ← idSealed], rfl, rfl⟩

/-- R542 to R545, R593: whatever the ROM finds, it keeps what it keeps. -/
theorem State.rom_keeps (s : State) : RomKeeps s s.rom := by
  unfold State.rom
  split
  · exact RomKeeps.refl s
  · split
    · exact s.roundhouse_keeps
    · dsimp only
      split
      · exact s.startFirmware_keeps.trans s.startFirmware.requestCycle_keeps
      · exact s.startFirmware_keeps

/-! ### What the ROM does -/

section
variable {s : State}

/-- R542: with a bad fuse field the ROM does nothing. -/
theorem State.rom_bad (bad : s.fuses.bad = true) : s.rom = s := if_pos bad

/-- R545: after three failed starts or without a valid image, Roundhouse. -/
theorem State.rom_roundhouse (good : s.fuses.bad = false) (barred : 3 ≤ s.mram.startRecord.2 ∨ s.norValid = false) :
    s.rom = s.roundhouse := by
  unfold State.rom
  rw [if_neg (by simp [good]), if_pos (by simpa using barred)]

variable (good : s.fuses.bad = false) (few : s.mram.startRecord.2 < 3) (valid : s.norValid = true)
include good few valid

/-- R545, R593: else the firmware, which asks for a power cycle where no partition can pass. -/
theorem State.rom_firmware : s.rom = if s.startFirmware.hopeless then s.startFirmware.requestCycle else s.startFirmware := by
  unfold State.rom
  rw [if_neg (by simp [good]), if_neg (by simp [valid, few])]

/-- R545: the firmware runs under a new session, its start counted, the watchdog on. -/
theorem State.rom_starts : s.rom.book.fwState = 2 ∧ s.rom.book.session = BitVec.ofNat 32 (s.mram.startRecord.1 + 1) ∧
    s.rom.mram.start.read = some (s.mram.startRecord.1 + 1, s.mram.startRecord.2 + 1) ∧ s.rom.sbx.watchdog = true := by
  have started : s.startFirmware.book.fwState = 2 ∧
      s.startFirmware.book.session = BitVec.ofNat 32 (s.mram.startRecord.1 + 1) ∧
      s.startFirmware.mram.start.read = some (s.mram.startRecord.1 + 1, s.mram.startRecord.2 + 1) ∧
      s.startFirmware.sbx.watchdog = true := by
    obtain ⟨sec, started, -⟩ := s.startFirmware_eq
    rw [started]
    exact ⟨rfl, rfl, TwoCopy.read_store .., rfl⟩
  rw [State.rom_firmware good few valid]
  split
  · obtain ⟨g, h, requested, -⟩ := s.startFirmware.requestCycle_eq
    rw [requested]
    exact started
  · exact started

/-- R370, R545: with a partition that may pass and empty queues, FIRMWARE_START stands among the tickets to be written. -/
theorem State.rom_raises (unpublished : s.cap.published = false) (hope : ∃ p ∈ s.parts, p.unit = .pending)
    (empty : s.book.pcie.queue = [] ∧ s.book.mctp.queue = []) :
    s.rom.start = s.start ∧ s.startTicket ∈ s.rom.book.pcie.queue ∧ s.startTicket ∈ s.rom.book.mctp.queue := by
  obtain ⟨sec, started, -⟩ := s.startFirmware_eq
  have hopeful : s.startFirmware.hopeless = false := by
    rw [started]
    simpa [State.hopeless, unpublished] using hope
  rw [State.rom_firmware good few valid, hopeful, started]
  simp [Channel.addEvent, empty]

end

/-! ### The module at power-good and at reset release -/

/-- R2: a part with a partition that its fuses leave has one that is not disabled. -/
theorem Fuses.part_left {f : Fuses} (left : f.partDisable ≠ 0xFF) : ∃ p < 8, f.partGone p = false := by
  have enabled : ∃ p, p < 8 ∧ f.partDisable.getLsbD p = false := by
    by_contra none_
    refine left (BitVec.eq_of_getLsbD_eq fun p low => ?_)
    have on : f.partDisable.getLsbD p = true := by
      by_contra off
      exact none_ ⟨p, low, by simpa using off⟩
    have full : ∀ q < 8, (0xFF : BitVec 8).getLsbD q = true := by decide
    rw [on, full p low]
  obtain ⟨low, on⟩ := Nat.find_spec enabled
  have none_below : (List.range (Nat.find enabled)).filter (fun q => !f.partDisable.getLsbD q) = [] := by
    refine List.filter_eq_nil_iff.mpr fun q below => ?_
    have below := List.mem_range.mp below
    have off := Nat.find_min enabled below
    simpa [Nat.lt_trans below low] using off
  refine ⟨Nat.find enabled, low, ?_⟩
  have some_enabled : ¬ profileMax f.part ≤ 0 := by cases f.part <;> decide
  simp [Fuses.partGone, on, none_below, some_enabled]

/-- Of a module at power-good or reset release: what is at its reset value, and what is kept (R44, R250, R502, R505). -/
structure Released (s t : State) : Prop where
  ctxs : t.ctxs = []
  rings : t.rings = []
  tokens : t.tokens = []
  mem : t.mem.bytes = []
  yard : t.yard.bytes = []
  level : t.sec.level = 0
  control : t.start.control = true
  linkUp : t.pcie.linkUp = s.start.perst
  pending : t.pending = s.pending
  fuses : t.fuses = s.fuses
  nor : t.sec.nor = s.sec.nor
  idSealed : t.sec.idSealed = s.sec.idSealed
  identityKey : t.mram.identityKey = s.mram.identityKey
  fences : t.past.fences = s.past.fences
  fast : t.start.fast = s.start.fast

/-- R374: the endpoint alone tells that PERST_L is high. -/
theorem State.trainLink_eq (s : State) (link : LinkResult) : ∃ p, s.trainLink link = { s with pcie := p } ∧
    p.linkUp = (s.start.perst && s.start.control) := by
  unfold State.trainLink
  split
  case isTrue up => exact ⟨_, rfl, up.symm⟩
  case isFalse down => exact ⟨_, rfl, by simpa using down⟩

theorem State.released_released (s : State) (link : LinkResult) : Released s (s.released link) := by
  unfold State.released
  dsimp only
  obtain ⟨p, trained, linkUp⟩ := State.trainLink_eq _ link
  rw [trained]
  constructor
  case linkUp => simpa using linkUp
  all_goals rfl

theorem Released.recorded {s t u : State} (h : Released s t) (only : OnlyRecorder t u) : Released s u := by
  rw [show u = _ from only]
  exact { h with }

/-- What is so of a module at reset release is so after its ROM. -/
theorem Released.rom {s t : State} (h : Released s t) : Released s t.rom := by
  obtain ⟨only, fences, -⟩ := t.rom_keeps
  rw [only]
  exact { h with fences := fences.trans h.fences }

/-- What the firmware and the ROM find besides: the records, no ticket and no descriptor, and the parts untested. -/
theorem State.released_finds (s : State) (link : LinkResult) : let t := s.released link
    t.mram = s.mram ∧ t.book = Book.reset ∧ t.cap.published = false ∧ t.start.phase = .rom ∧
      t.start.cause = s.start.cause ∧ t.parts = (List.range 8).map (partAtStart s.fuses s.past.fences) ∧
      t.trg = s.trg.atStart := by
  unfold State.released
  dsimp only
  obtain ⟨p, trained, -⟩ := State.trainLink_eq _ link
  rw [trained]
  exact ⟨rfl, rfl, rfl, rfl, rfl, rfl, rfl⟩

/-- R2, R591: with an empty fence list, a part with a partition that its fuses leave has one to test. -/
theorem partAtStart_pending {f : Fuses} (left : f.partDisable ≠ 0xFF) :
    ∃ p ∈ (List.range 8).map (partAtStart f []), p.unit = .pending := by
  obtain ⟨p, low, enabled⟩ := f.part_left left
  refine ⟨_, List.mem_map_of_mem (List.mem_range.mpr low), ?_⟩
  simp [partAtStart, unitAtStart, enabled]

/-! ### The recorder at power-good -/

theorem State.note_time (s : State) (code : Nat) (src : W32) (r : Recorded) :
    (s.note code src r).trg.seconds = s.trg.seconds ∧ (s.note code src r).trg.powerCycles = s.trg.powerCycles := by
  unfold State.note
  split
  · exact ⟨rfl, rfl⟩
  · split <;> split <;> exact ⟨rfl, rfl⟩

/-- R525: an unfinished journal batch changes the recorder, and not its clocks. -/
theorem State.reapply_only (s : State) (whole : Bool) : OnlyRecorder s (s.reapply whole) ∧
    (s.reapply whole).trg.seconds = s.trg.seconds ∧ (s.reapply whole).trg.powerCycles = s.trg.powerCycles := by
  unfold State.reapply
  split
  · exact ⟨rfl, rfl, rfl⟩
  · split
    · exact ⟨rfl, rfl, rfl⟩
    · refine ⟨OnlyRecorder.trans ?_ (State.note_onlyRecorder ..), State.note_time ..⟩
      rfl

theorem Trg.finishClear_time (t : Trg) : t.finishClear.seconds = t.seconds ∧ t.finishClear.powerCycles = t.powerCycles := by
  unfold Trg.finishClear Trg.cleared
  dsimp only
  split <;> exact ⟨rfl, rfl⟩

/-- R534: so does a clear that power cut short. -/
theorem State.mendClear_only (s : State) : OnlyRecorder s s.mendClear ∧
    s.mendClear.trg.seconds = s.trg.seconds ∧ s.mendClear.trg.powerCycles = s.trg.powerCycles := by
  unfold State.mendClear
  split
  · obtain ⟨seconds, cycles⟩ := State.note_time { s with trg := s.trg.finishClear } 0x7F04 0 .occurrence
    obtain ⟨seconds', cycles'⟩ := s.trg.finishClear_time
    refine ⟨OnlyRecorder.trans ?_ (State.note_onlyRecorder ..), seconds.trans seconds', cycles.trans cycles'⟩
    rfl
  · exact ⟨rfl, rfl, rfl⟩

/-- R534: it is completed, in the next generation, and recorded. -/
theorem State.mendClear_completes {s : State} (good : s.trg.bad = false) (runs : s.trg.stopped = false)
    (cut : s.trg.clears.any (fun c => !c.done) = true) : let t := s.mendClear
    (∀ c ∈ t.trg.clears, c.done = true) ∧ t.trg.live.generation = (s.trg.live.generation + 1) % 2 ^ 32 ∧
      (0x7F04, 0) ∈ t.trg.live.slots.map (fun x => (x.code, x.source)) := by
  have cleared : s.trg.finishClear = { s.trg with
      live := { TrgData.empty with generation := (s.trg.live.generation + 1) % 2 ^ 32 }
      bank0 := { TrgData.empty with generation := (s.trg.live.generation + 1) % 2 ^ 32 }, journal := none
      clears := s.trg.clears.map (fun c => { c with done := true }) } := by
    simp [Trg.finishClear, Trg.cleared, good]
  unfold State.mendClear
  rw [if_pos cut, cleared]
  simp [State.note, runs, good, Slot.recordIn, TrgData.empty, Slot.hit, Slot.fresh]

/-! ### The commands -/

/-- R502, R518, R570, R586: the module at power-good, before its release. -/
def State.poweredUp (s : State) : State :=
  { s.modPast (fun h => { h with fences := [] }) with
    sec.idSealed := false, sbx.resetTimer := false, cap.profileBefore := 0
    start := { s.start with cause := 0, fast := false, alert := false, earlyBreak := false }
    trg.powerCycles := min (s.trg.powerCycles + 1) (2 ^ 24 - 1), trg.seconds := s.trg.stored + 1 }

theorem execPowerGood_off {s : State} (off : s.start.phase = .off) (tray : s.start.trayReset = true) (whole : Bool)
    (link : LinkResult) : exec (.powerGood whole link) s =
      .next ((s.poweredUp.released link).reapply whole).mendClear.rom :=
  congrArg Host.Outcome.next (if_neg (by simp [off, tray]))

theorem execFullModuleResetRelease_resetting {s : State} (resetting : s.start.phase = .resetting) (link : LinkResult) :
    exec (.fullModuleResetRelease link) s = .next (State.released { s with start.fast := true } link).rom :=
  congrArg Host.Outcome.next (if_neg (by simp [resetting]))

/-- What the start of a module reads is the same in two states. -/
structure SameStart (s u : State) : Prop where
  pending : u.pending = s.pending
  fuses : u.fuses = s.fuses
  nor : u.sec.nor = s.sec.nor
  perst : u.start.perst = s.start.perst
  identityKey : u.mram.identityKey = s.mram.identityKey
  record : u.mram.start = s.mram.start

/-- R502, R586: power-good leaves what the start reads, and clears the fence list. -/
theorem State.poweredUp_same {s : State} (power : s.power.state ≠ .holdUp) :
    SameStart s s.poweredUp ∧ s.poweredUp.past.fences = [] := by
  obtain ⟨h, past⟩ := s.modPast_eq (fun h => { h with fences := [] })
  constructor
  · unfold State.poweredUp
    rw [past]
    constructor <;> rfl
  · refine Eq.trans (b := (s.modPast (fun h => { h with fences := [] })).past.fences) rfl ?_
    rw [State.past_modPast, if_neg power]

section
variable {s u r : State} {link : LinkResult} (same : SameStart s u) (only : OnlyRecorder (u.released link) r)
include same only

theorem SameStart.released_reads : r.fuses = s.fuses ∧ r.mram.startRecord = s.mram.startRecord ∧ r.norValid = s.norValid := by
  have rel := (u.released_released link).recorded only
  have fuses := rel.fuses.trans same.fuses
  have nor := rel.nor.trans same.nor
  have mram : r.mram = u.mram := (congrArg State.mram only).trans (u.released_finds link).1
  refine ⟨fuses, by rw [Mram.startRecord, mram, same.record, Mram.startRecord], ?_⟩
  rw [State.norValid, State.norImage, fuses, nor, State.norValid, State.norImage]

/-- R542 to R545: which way the ROM takes. -/
theorem SameStart.rom_takes :
    (s.fuses.bad = true → r.rom.book.fwState = 0 ∧ r.rom.start.phase = .rom) ∧
    (s.fuses.bad = false → 3 ≤ s.mram.startRecord.2 ∨ s.norValid = false →
      r.rom.book.fwState = 1 ∧ r.rom.start.phase = .rom) ∧
    (s.fuses.bad = false → s.mram.startRecord.2 < 3 → s.norValid = true →
      r.rom.book.fwState = 2 ∧ r.rom.book.session = BitVec.ofNat 32 (s.mram.startRecord.1 + 1) ∧
      r.rom.mram.start.read = some (s.mram.startRecord.1 + 1, s.mram.startRecord.2 + 1) ∧ r.rom.sbx.watchdog = true) := by
  obtain ⟨fuses, record, valid⟩ := same.released_reads only
  obtain ⟨-, book, -, phase, -⟩ := u.released_finds link
  rw [← fuses, ← record, ← valid]
  refine ⟨fun bad => ?_, fun good barred => ?_, fun good few valid => State.rom_starts good few valid⟩
  · rw [State.rom_bad bad]
    exact ⟨(congrArg (fun t : State => t.book.fwState) only).trans (congrArg Book.fwState book),
      (congrArg (fun t : State => t.start.phase) only).trans phase⟩
  · rw [State.rom_roundhouse good barred]
    exact ⟨rfl, (congrArg (fun t : State => t.start.phase) only).trans phase⟩

/-- R370, R545: after power-on FIRMWARE_START is raised where a partition may pass. -/
theorem SameStart.rom_raises (cleared : u.past.fences = []) (cause : u.start.cause = 0) (good : s.fuses.bad = false)
    (few : s.mram.startRecord.2 < 3) (valid : s.norValid = true) (left : s.fuses.partDisable ≠ 0xFF) :
    r.rom.start.phase = .rom ∧ r.rom.raised 0x0180 (leBytes 4 r.rom.book.session.toNat ++ leBytes 4 0) := by
  obtain ⟨fuses, record, valid'⟩ := same.released_reads only
  obtain ⟨-, -, firmware⟩ := same.rom_takes only
  obtain ⟨-, session, -⟩ := firmware good few valid
  obtain ⟨-, book, unpublished, phase, caused, parts, -⟩ := u.released_finds link
  have hope : ∃ p ∈ r.parts, p.unit = .pending := by
    rw [show r.parts = _ from (congrArg State.parts only).trans parts, cleared]
    exact partAtStart_pending (by rwa [same.fuses])
  have empty : r.book = Book.reset := (congrArg State.book only).trans book
  have unpublished : r.cap.published = false := (congrArg (fun t : State => t.cap.published) only).trans unpublished
  have queues : r.book.pcie.queue = [] ∧ r.book.mctp.queue = [] := by rw [empty]; exact ⟨rfl, rfl⟩
  rw [← fuses] at good
  rw [← record] at few
  rw [← valid'] at valid
  obtain ⟨start, pcie, mctp⟩ := State.rom_raises good few valid unpublished hope queues
  have ticket : r.startTicket = eventTicket 0x0180 (leBytes 4 r.rom.book.session.toNat ++ leBytes 4 0) := by
    have caused : r.start.cause = 0 := (congrArg (fun t : State => t.start.cause) only).trans (caused.trans cause)
    have zeros : leBytes 1 0 ++ leBytes 3 0 = leBytes 4 0 := rfl
    rw [State.startTicket, session, caused, record, List.append_assoc, zeros]
  rw [ticket] at pcie mctp
  refine ⟨?_, pcie, mctp⟩
  rw [start]
  exact (congrArg (fun t : State => t.start.phase) only).trans phase

end

/-- What differs at power-good (R502, R518, R534, R570, R586). -/
structure AtPowerGood (s u r : State) : Prop where
  fences : u.past.fences = []
  idSealed : u.sec.idSealed = false
  fast : u.start.fast = false
  cause : u.start.cause = 0
  seconds : r.trg.seconds = s.trg.stored + 1
  powerCycles : r.trg.powerCycles = min (s.trg.powerCycles + 1) (2 ^ 24 - 1)
  clear : s.trg.journal = none → s.trg.bad = false → s.trg.stopped = false →
    s.trg.clears.any (fun c => !c.done) = true → (∀ c ∈ r.trg.clears, c.done = true) ∧
      r.trg.live.generation = (s.trg.bank0.generation + 1) % 2 ^ 32 ∧
      (0x7F04, 0) ∈ r.trg.live.slots.map (fun x => (x.code, x.source))

/-- What differs at the release of a full module reset (R502, R505). -/
structure AtRelease (s u r : State) : Prop where
  fences : u.past.fences = s.past.fences
  idSealed : u.sec.idSealed = s.sec.idSealed
  fast : u.start.fast = true
  seconds : r.trg.seconds = s.trg.seconds

theorem execPowerGood_starts {s : State} (off : s.start.phase = .off) (tray : s.start.trayReset = true)
    (power : s.power.state ≠ .holdUp) (whole : Bool) (link : LinkResult) : ∃ r,
    exec (.powerGood whole link) s = .next r.rom ∧ SameStart s s.poweredUp ∧
      OnlyRecorder (s.poweredUp.released link) r ∧ AtPowerGood s s.poweredUp r := by
  obtain ⟨same, fences⟩ := State.poweredUp_same power
  obtain ⟨applied, applySeconds, applyCycles⟩ := (s.poweredUp.released link).reapply_only whole
  obtain ⟨mended, mendSeconds, mendCycles⟩ := ((s.poweredUp.released link).reapply whole).mendClear_only
  obtain ⟨-, -, -, -, -, -, trg⟩ := s.poweredUp.released_finds link
  refine ⟨_, execPowerGood_off off tray whole link, same, applied.trans mended, fences, rfl, rfl, rfl, ?_, ?_, ?_⟩
  · rw [mendSeconds, applySeconds, trg]
    rfl
  · rw [mendCycles, applyCycles, trg]
    rfl
  · intro idle good runs cut
    have started : s.poweredUp.trg.atStart = { s.trg with
        live := s.trg.bank0, lastCounters := [], powerCycles := min (s.trg.powerCycles + 1) (2 ^ 24 - 1)
        seconds := s.trg.stored + 1 } := by
      obtain ⟨h, past⟩ := s.modPast_eq (fun h => { h with fences := [] })
      have trg : s.poweredUp.trg = { s.trg with
          powerCycles := min (s.trg.powerCycles + 1) (2 ^ 24 - 1), seconds := s.trg.stored + 1 } := by
        unfold State.poweredUp
        rw [past]
      simp [Trg.atStart, trg, good, runs]
    have journal : (s.poweredUp.released link).trg.journal = none := by rw [trg, started]; exact idle
    have kept : (s.poweredUp.released link).reapply whole = s.poweredUp.released link := by
      unfold State.reapply
      rw [journal]
    rw [kept]
    have completed := State.mendClear_completes (s := s.poweredUp.released link)
      (by rw [trg, started]; exact good) (by rw [trg, started]; exact runs) (by rw [trg, started]; exact cut)
    rw [trg, started] at completed
    exact completed

theorem execFullModuleResetRelease_starts {s : State} (resetting : s.start.phase = .resetting) (link : LinkResult) :
    ∃ u r, exec (.fullModuleResetRelease link) s = .next r.rom ∧ SameStart s u ∧ OnlyRecorder (u.released link) r ∧
      AtRelease s u r := by
  refine ⟨{ s with start.fast := true }, _, execFullModuleResetRelease_resetting resetting link,
    ⟨rfl, rfl, rfl, rfl, rfl, rfl⟩, OnlyRecorder.refl _, rfl, rfl, rfl, ?_⟩
  obtain ⟨-, -, -, -, -, -, trg⟩ := State.released_finds { s with start.fast := true } link
  rw [trg]
  rfl

/-- Settles O53: both commands hand the ROM a module at reset release, and the ROM keeps what it keeps. -/
theorem moduleStarts : Obligations.ModuleStarts := by
  intro s cmd which power
  obtain ⟨u, link, r, ran, same, only, powered, released⟩ : ∃ u link r, exec cmd s = .next r.rom ∧ SameStart s u ∧
      OnlyRecorder (u.released link) r ∧ (s.start.phase = .off → AtPowerGood s u r) ∧
      (s.start.phase = .resetting → AtRelease s u r) := by
    rcases which with ⟨whole, link, rfl, off, tray⟩ | ⟨link, rfl, resetting⟩
    · obtain ⟨r, ran, same, only, powered⟩ := execPowerGood_starts off tray power whole link
      exact ⟨_, link, r, ran, same, only, fun _ => powered, fun resetting => by simp [off] at resetting⟩
    · obtain ⟨u, r, ran, same, only, released⟩ := execFullModuleResetRelease_starts resetting link
      exact ⟨u, link, r, ran, same, only, fun off => by simp [off] at resetting, fun _ => released⟩
  have at_ := ((u.released_released link).recorded only).rom
  obtain ⟨seconds, cycles, clears, generation, keys⟩ := Trg.kept_iff.mp r.rom_keeps.recorder
  obtain ⟨bad, barred, firmware⟩ := same.rom_takes only
  refine ⟨_, ran, at_.ctxs, at_.rings, at_.tokens, at_.mem, at_.yard, at_.fuses.trans same.fuses, at_.nor.trans same.nor,
    at_.level, at_.control, at_.identityKey.trans same.identityKey, at_.linkUp.trans same.perst,
    at_.pending.trans same.pending, fun off idle good runs cut => ?clear, fun off => ?powered, fun resetting => ?released,
    bad, barred, fun good few valid => ?firmware⟩
  case clear =>
    obtain ⟨done, next, recorded⟩ := (powered off).clear idle good runs cut
    rw [clears, generation]
    rw [← keys] at recorded
    obtain ⟨x, there, key⟩ := List.mem_map.mp recorded
    exact ⟨done, next, x, there, congrArg Prod.fst key, congrArg Prod.snd key⟩
  case powered =>
    obtain ⟨fences, idSealed, fast, -, stored, counted, -⟩ := powered off
    exact ⟨at_.fences.trans fences, at_.idSealed.trans idSealed, at_.fast.trans fast, seconds.trans stored,
      cycles.trans counted⟩
  case released =>
    obtain ⟨fences, idSealed, fast, same⟩ := released resetting
    exact ⟨at_.fences.trans fences, at_.idSealed.trans idSealed, at_.fast.trans fast, seconds.trans same⟩
  case firmware =>
    obtain ⟨running, session, counted, watchdog⟩ := firmware good few valid
    refine ⟨running, session, counted, watchdog, fun off left => ?_⟩
    exact same.rom_raises only (powered off).fences (powered off).cause good few valid left

end Sys2Proof.Machine
end

section
/-! SUPPORT. What the halt of a context and a change of the profile leave of the units and of the start of the module
(R7 to R9, R206, R460, R498). -/

namespace Sys2Proof.Machine

/-! ### What a halt leaves -/

/-- Of a partition its unit state, and whether its self-test is over. -/
def Partition.standing (p : Partition) : UnitState × Bool := (p.unit, p.tested)

/-- Of the module what the work of contexts does not touch: fuses, MRAM, power, the start, the units and the links. -/
structure Standing where
  fuses : Fuses
  mram : Mram
  cores : List ControlCore
  power : Power
  start : Start
  published : Bool
  fwState : Nat
  links : List Port
  parts : List (UnitState × Bool)

def State.standing (s : State) : Standing :=
  { fuses := s.fuses, mram := s.mram, cores := s.cores, power := s.power, start := s.start, published := s.cap.published
    fwState := s.book.fwState, links := s.links, parts := s.parts.map Partition.standing }

theorem State.standing_part {s t : State} (h : t.standing = s.standing) (p : Nat) :
    (t.part p).standing = (s.part p).standing := by
  have reads (u : State) : (u.part p).standing = nth Partition.reset.standing u.standing.parts p := by
    simp [State.part, State.standing, nth, Option.getD_map]
  rw [reads, reads, h]

theorem State.modPart_standing {s : State} {p : Nat} {f : Partition → Partition} (h : ∀ q, (f q).standing = q.standing) :
    (s.modPart p f).standing = s.standing := by
  simp only [State.standing, State.modPart_parts, map_setNth h]
  rfl

/-! ### Reports, events, replies, the descriptor -/

@[simp] theorem State.report_standing (s : State) (src : W32) (code : Nat) (ctx : Option (Nat × W16)) (info : W32) :
    (s.report src code ctx info).standing = s.standing := by
  obtain ⟨x, h⟩ := s.report_eq src code ctx info
  rw [h]
  rfl

@[simp] theorem State.event_standing (s : State) (op : Nat) (payload : List Byte) :
    (s.event op payload).standing = s.standing := by
  obtain ⟨pq, pl, mq, ml, h⟩ := s.event_queues op payload
  rw [h]
  rfl

@[simp] theorem State.modChan_standing (s : State) (ch : Chan) (f : Channel → Channel) :
    (s.modChan ch f).standing = s.standing := by cases ch <;> rfl

@[simp] theorem State.reply_standing (s : State) (r : Request) (code detail : Nat) (payload : List Byte) :
    (s.reply r code detail payload).standing = s.standing := by
  obtain ⟨g, h⟩ := s.reply_eq r code detail payload
  rw [h, State.modChan_standing]
  rfl

@[simp] theorem State.ok_standing (s : State) (r : Request) (payload : List Byte) :
    (s.ok r payload).standing = s.standing := s.reply_standing ..

@[simp] theorem State.recap_standing (f : State → State) (s : State) : (s.recap f).standing = (f s).standing := by
  obtain ⟨n, h⟩ := State.recap_eq f s
  rw [h]
  rfl

@[simp] theorem State.modCtx_standing (s : State) (c : Nat) (f : Context → Context) :
    (s.modCtx c f).standing = s.standing := rfl

@[simp] theorem State.modRing_standing (s : State) (r : Nat) (f : Ring → Ring) : (s.modRing r f).standing = s.standing := rfl

@[simp] theorem State.emit_standing (s : State) (o : Out) : (s.emit o).standing = s.standing := rfl

@[simp] theorem State.raiseRing_standing (s : State) (r : Nat) : (s.raiseRing r).standing = s.standing := by
  unfold State.raiseRing State.raiseVector State.msixNow
  split
  · rfl
  · dsimp only
    split <;> rfl

/-! ### Module memory -/

@[simp] theorem State.grantPages_standing (s : State) (ctx : Nat) (ps : List Page) (r : Request) (payload : List Byte) :
    (s.grantPages ctx ps r payload).standing = s.standing := by
  unfold State.grantPages
  dsimp only
  split
  · simp
  · rfl

@[simp] theorem State.dropGrant_standing (s : State) (g : Grant) (short : Nat) :
    (s.dropGrant g short).standing = s.standing := by
  unfold State.dropGrant
  dsimp only
  split
  · exact s.reply_standing ..
  · exact s.reply_standing ..

@[simp] theorem State.mendGrants_standing (s : State) : s.mendGrants.standing = s.standing := by
  have again (t : State) (g : Grant) : (t.placeAgain g).standing = t.standing := by
    obtain ⟨short, h⟩ | ⟨ps, h⟩ := t.placeAgain_cases g <;> simp [h]
  exact foldl_keeps State.standing again _ _

@[simp] theorem State.retireFrame_standing (s : State) (f dev : Nat) : (s.retireFrame f dev).standing = s.standing := by
  unfold State.retireFrame
  dsimp only
  split
  · rfl
  · split
    · simp only [State.mendGrants_standing, State.report_standing, State.recap_standing]
      rfl
    · simp only [State.mendGrants_standing, State.recap_standing]
      rfl

@[simp] theorem State.lineRead_standing (s : State) (addr : Nat) (ecc : Ecc) :
    (s.lineRead addr ecc).2.standing = s.standing := by
  unfold State.lineRead
  split
  · rfl
  · unfold State.memCorrected
    dsimp only
    split
    · rw [State.retireFrame_standing, State.report_standing]
      rfl
    · rw [State.report_standing]
      rfl
  · unfold State.memBad State.memTicket
    rw [State.retireFrame_standing, State.event_standing]
    rfl

@[simp] theorem State.lineStore_standing (s : State) (addr : Nat) (bs : List Byte) (ecc : Ecc) :
    (s.lineStore addr bs ecc).2.standing = s.standing := by
  unfold State.lineStore
  dsimp only
  split
  · rfl
  · split
    · exact s.lineRead_standing ..
    · exact s.lineRead_standing ..

@[simp] theorem State.memStore_standing (lines : LineEcc) (fuel : Nat) : ∀ (s : State) (addr : Nat) (bs : List Byte),
    (s.memStore addr bs lines fuel).2.standing = s.standing := by
  induction fuel with
  | zero => intro s addr bs; rfl
  | succ k ih =>
    intro s addr bs
    unfold State.memStore
    split
    · rfl
    · simp [ih]

@[simp] theorem State.writeRecord_standing (s : State) (ring : Nat) (index : W32) (bs : List Byte) (ecc : Ecc) :
    (s.writeRecord ring index bs ecc).2.standing = s.standing := by
  unfold State.writeRecord
  dsimp only
  split
  · split <;> rfl
  · split
    · rfl
    · simp

/-! ### Packets and collectives -/

/-- What changes the rails alone, and leaves the links. -/
theorem State.standing_of_links {s t : State} (only : t = { s with rails := t.rails }) (links : t.links = s.links) :
    t.standing = s.standing := by
  have same : t.standing = { s.standing with links := t.links } := by
    conv_lhs => rw [only]
    rfl
  rw [same, links]
  rfl

@[simp] theorem State.place_standing (s : State) (o : OutPacket) : (s.place_ o).standing = s.standing := by
  refine State.standing_of_links ?_ (s.place_links o)
  unfold State.place_ State.takePort
  split
  · dsimp only
    split <;> rfl
  · rfl

theorem State.sendTo_standing {s u : State} {kind arg pflags ctx tag : Nat} {peer : Peer} {data : List Byte} {w : Waiter}
    (h : s.sendTo kind peer arg pflags data ctx w = some (tag, u)) : u.standing = s.standing := by
  unfold State.sendTo State.launch at h
  dsimp only at h
  split at h
  · cases h
  · split at h <;> rename_i hl <;> split at hl <;> cases hl
    · cases h
    · cases h
      exact State.place_standing ..

@[simp] theorem State.collAbortTo_standing (s : State) (ctx group : Nat) (opseq : W32) (peers : List Nat) :
    (s.collAbortTo ctx group opseq peers).standing = s.standing := by
  refine foldl_keeps State.standing ?_ _ _
  intro t i
  split
  · rfl
  · split
    · rename_i sent
      exact State.sendTo_standing sent
    · rfl

@[simp] theorem State.collEnd_standing (s : State) (f : Flight) (status : Byte) (except : List Nat) :
    (s.collEnd f status except).standing = s.standing := by
  have ended (t : State) (accums : List Accum) (c : Nat) (g : Context → Context) :
      (State.modCtx { t with rails.accums := accums } c g).standing = t.standing := rfl
  unfold State.collEnd
  dsimp only
  rw [ended]
  split
  · rfl
  · exact s.collAbortTo_standing ..

/-! ### Wagons, rings and contexts -/

@[simp] theorem State.noteMove_standing (s : State) (src : W32) (f : Flight) (code : Byte) :
    (s.noteMove src f code).standing = s.standing := by
  unfold State.noteMove
  split <;> simp

@[simp] theorem State.takeFeed_standing (s : State) (u : UnitRef) (w : Wagon) :
    (s.takeFeed u w).2.standing = s.standing := by
  unfold State.takeFeed
  split
  · rfl
  · cases u with
    | matrix p e => exact State.modPart_standing fun _ => rfl
    | vector p => exact State.modPart_standing fun _ => rfl
    | _ => rfl

@[simp] theorem State.settle_standing (s : State) (u : UnitRef) : (s.settle u).standing = s.standing := by
  unfold State.settle
  split
  · cases u with
    | matrix p e => exact State.modPart_standing fun _ => rfl
    | vector p => exact State.modPart_standing fun _ => rfl
    | _ => rfl
  · rfl

@[simp] theorem State.closeBanks_standing (s : State) (p : Nat → Bool) : (s.closeBanks p).standing = s.standing := by
  simp only [State.standing, State.closeBanks, List.map_map]
  rfl

@[simp] theorem State.haltWith_standing (s : State) (r : Nat) (cause : HaltCause) :
    (s.haltWith r cause).standing = s.standing := by
  unfold State.haltWith
  dsimp only
  split <;> simp

@[simp] theorem State.haltRing_standing (s : State) (r : Nat) (cause : HaltCause) :
    (s.haltRing r cause).standing = s.standing := by
  unfold State.haltRing
  split <;> simp

@[simp] theorem State.haltRecord_standing (s : State) (f : Flight) : (s.haltRecord f).standing = s.standing := by
  unfold State.haltRecord
  dsimp only
  split <;> split <;> simp

@[simp] theorem State.signalDone_standing (s : State) (f : Flight) : (s.signalDone f).standing = s.standing := by
  unfold State.signalDone
  split <;> rfl

@[simp] theorem State.freePlace_standing (s : State) (u : UnitRef) : (s.freePlace u).standing = s.standing := rfl

@[simp] theorem State.abortFlight_standing (s : State) (f : Flight) : (s.abortFlight f).standing = s.standing := by
  have ended (t : State) : (if opColl (wOpcode f.bits) then t.collEnd f wsAborted []
      else if opMover (wOpcode f.bits) then t.noteMove (unitSource f.unit) f wsAborted else t).standing = t.standing := by
    split
    · simp
    · split <;> simp
  unfold State.abortFlight
  split
  · rfl
  · rw [ended, State.signalDone_standing, State.freePlace_standing]
    split <;> simp

/-- R206: the stop of a context's work. -/
@[simp] theorem State.stopWork_standing (s : State) (c : Nat) : (s.stopWork c).standing = s.standing := by
  unfold State.stopWork
  dsimp only
  rw [State.modCtx_standing, foldl_keeps State.standing (fun t (f : Flight) => t.settle_standing f.unit),
    foldl_keeps State.standing (fun t (r : Nat) => t.modRing_standing r _), State.closeBanks_standing]
  exact foldl_keeps State.standing State.abortFlight_standing _ s

/-- R206: the halt of a context. -/
@[simp] theorem State.haltAll_standing (s : State) (c : Nat) (cause : HaltCause) :
    (s.haltAll c cause).standing = s.standing := by
  unfold State.haltAll State.haltTicket
  rw [State.event_standing, State.modCtx_standing]
  exact (foldl_keeps State.standing (fun t r => t.haltRing_standing r cause) _ _).trans (s.stopWork_standing c)

/-! ### What a change of the profile leaves (R7 to R9, R460) -/

/-- What a change of the profile leaves: it takes partitions into service and out of it, and ends trimming. -/
structure Settled (s t : State) : Prop where
  fuses : t.fuses = s.fuses
  mram : t.mram = s.mram
  cores : t.cores = s.cores
  start : t.start = s.start
  published : t.cap.published = s.cap.published
  fwState : t.book.fwState = s.book.fwState
  links : t.links = s.links
  power : t.power.state = s.power.state ∨ s.power.state = .trimmed ∧ t.power.state = .run
  tested : ∀ p, (t.part p).tested = (s.part p).tested
  unit : ∀ p, (t.part p).unit = (s.part p).unit ∨ (t.part p).unit = .inService ∨ (t.part p).unit = .held

theorem Settled.refl (s : State) : Settled s s :=
  ⟨rfl, rfl, rfl, rfl, rfl, rfl, rfl, .inl rfl, fun _ => rfl, fun _ => .inl rfl⟩

theorem Settled.trans {s t u : State} (h : Settled s t) (k : Settled t u) : Settled s u where
  fuses := k.fuses.trans h.fuses
  mram := k.mram.trans h.mram
  cores := k.cores.trans h.cores
  start := k.start.trans h.start
  published := k.published.trans h.published
  fwState := k.fwState.trans h.fwState
  links := k.links.trans h.links
  power := by
    rcases k.power with same | ⟨trimmed, run⟩
    · rw [same]
      exact h.power
    · rcases h.power with same | ⟨-, ran⟩
      · exact .inr ⟨same ▸ trimmed, run⟩
      · simp [ran] at trimmed
  tested p := (k.tested p).trans (h.tested p)
  unit p := by
    rcases k.unit p with same | settled
    · rw [same]
      exact h.unit p
    · exact .inr settled

theorem Settled.of_standing {s t : State} (h : t.standing = s.standing) : Settled s t where
  fuses := congrArg Standing.fuses h
  mram := congrArg Standing.mram h
  cores := congrArg Standing.cores h
  start := congrArg Standing.start h
  published := congrArg Standing.published h
  fwState := congrArg Standing.fwState h
  links := congrArg Standing.links h
  power := .inl (congrArg (fun x : Standing => x.power.state) h)
  tested p := congrArg Prod.snd (State.standing_part h p)
  unit p := .inl (congrArg Prod.fst (State.standing_part h p))

theorem State.setPart_settled (s : State) (p : Nat) {u : UnitState} (settled : u = .inService ∨ u = .held) :
    Settled s (s.setPart p u) := by
  have reads (q : Nat) : (s.setPart p u).part q = if q = p ∧ p < s.parts.length then { s.part p with unit := u } else s.part q :=
    s.part_modPart p q _
  refine { Settled.refl s with tested := fun q => ?_, unit := fun q => ?_ }
  · rw [reads]
    split
    next same => rw [same.1]
    next => rfl
  · rw [reads]
    split
    · exact .inr settled
    · exact .inl rfl

theorem State.holdPart_settled (s : State) (p : Nat) : Settled s (s.holdPart p) := by
  have stranded (t : State) (c : Nat) : (t.strand c).standing = t.standing := by
    unfold State.strand
    rw [State.modCtx_standing]
    split <;> simp
  exact (s.setPart_settled p (.inr rfl)).trans (.of_standing (foldl_keeps State.standing stranded _ _))

theorem State.trimEnd_settled (s : State) : Settled s s.trimEnd := by
  unfold State.trimEnd
  split
  · refine { Settled.refl s with power := ?_ }
    dsimp only
    split
    next trimmed => exact .inr ⟨trimmed, rfl⟩
    next => exact .inl rfl
  · exact Settled.refl s

@[simp] theorem State.markHeld_standing (s : State) : s.markHeld.standing = s.standing := by
  have units (g : Partition × Nat → Bool) : (s.parts.zipIdx.map (fun x => { x.1 with heldForPower := g x })).map
      Partition.standing = s.parts.map Partition.standing := by
    conv_rhs => rw [← List.zipIdx_map_fst 0 s.parts]
    simp only [List.map_map]
    rfl
  unfold State.markHeld
  simp only [State.standing, units]
  rfl

/-- R7, R8, R460. -/
theorem State.settleParts_settled (s : State) : Settled s s.settleParts := by
  have served (l : List Nat) (t : State) : Settled t (l.foldl (fun t p => t.setPart p .inService) t) :=
    foldl_related Settled.refl Settled.trans (fun t p => t.setPart_settled p (.inl rfl)) l t
  have held (l : List Nat) (t : State) : Settled t (l.foldl State.holdPart t) :=
    foldl_related Settled.refl Settled.trans State.holdPart_settled l t
  have marked (t : State) (n : Nat) : Settled t ({ t with cap.profile := n } : State).markHeld :=
    .of_standing (State.markHeld_standing _)
  exact s.trimEnd_settled.trans ((served _ _).trans ((held _ _).trans (marked _ _)))

/-- R9: a change of units, and of the profile after it. -/
theorem State.reprofile_settled (s : State) (f : State → State) : Settled (f s) (s.reprofile f) := by
  have recapped : Settled (f s) (s.recap (fun s => (f s).settleParts)) :=
    (f s).settleParts_settled.trans (.of_standing (State.recap_standing ..))
  unfold State.reprofile
  dsimp only
  split
  · exact recapped
  · exact recapped.trans (.of_standing (State.event_standing ..))

theorem Settled.powered {s t : State} (h : Settled s t) (power : s.power.state ≠ .holdUp) : t.power.state ≠ .holdUp := by
  rcases h.power with same | ⟨-, run⟩
  · rwa [same]
  · simp [run]

theorem Settled.past {s t : State} (h : Settled s t) : t.past = s.past := by
  rw [State.past, h.mram, State.past]

end Sys2Proof.Machine
end

section
/-! The self-tests of partitions, memory, cores and ports at start: settles O54 (R53, R214, R217, R250, R546, R590 to R594). -/

namespace Sys2Proof.Machine

/-! ### The end of start-up, and units that fail their tests -/

/-- R395, R502: the end of start-up leaves the descriptor published as it was, and the fence list. -/
theorem State.startDone_keeps (s : State) : (∃ n b x h, s.startDone = { s with
      cap.changeCount := n, cap.starting := b, sbx.resetTimer := x, mram.history := h }) ∧
    s.startDone.past.fences = s.past.fences := by
  unfold State.startDone
  split
  · obtain ⟨n, recapped⟩ := State.recap_eq (fun s => { s with cap.starting := false }) s
    dsimp only
    rw [recapped]
    split
    · have noted (t : State) : (∃ h, t.noteDone (source 0x12 0 0) = { t with mram.history := h }) ∧
          (t.noteDone (source 0x12 0 0)).past.fences = t.past.fences := ⟨t.modPast_eq _, t.modPast_fences fun _ => rfl⟩
      obtain ⟨⟨h, eq⟩, fences⟩ := noted { s with
        cap := { s.cap with starting := false, changeCount := n }, sbx.resetTimer := false }
      exact ⟨⟨n, false, false, h, eq⟩, fences⟩
    · exact ⟨⟨_, _, _, _, rfl⟩, rfl⟩
  · exact ⟨⟨_, _, _, _, rfl⟩, rfl⟩

theorem State.logEvent_eq (s : State) (e : Event) : ∃ g x, s.logEvent e = { s with trg := g, sbx := x } := by
  unfold State.logEvent
  split
  · exact ⟨_, _, rfl⟩
  · split
    · exact ⟨_, _, rfl⟩
    · obtain ⟨g, noted⟩ := State.note_eq { s with sbx.unlogged := s.sbx.unlogged ++ [e] } 0x7F05 e.source .occurrence
      exact ⟨_, _, noted⟩

/-- Event 0x030B of a unit (R484, R591): no level, acknowledged at once. -/
def State.failure (s : State) (src : W32) : Event :=
  { id := s.sbx.nextId, code := 0x030B, cls := 2, level := 0, taken := 0, escalated := false, absorbed := false
    injected := false, state := 2, ctx := none, source := src, stamp := s.stamp, info := 0 }

theorem State.raiseEvent_failure (s : State) (src : W32) :
    let t := (s.note 0x030B src .occurrence).noteFirst (s.failure src)
    s.raiseEvent 0x030B src none 0 false 0 [] =
      State.logEvent { t with sbx.nextId := t.sbx.nextId + 1 } (s.failure src) := by
  have taken : s.rung 0 src = 0 := by simp [State.rung]
  have alone (l : List Recovery) : l.find? (fun _ => false) = none := by simp
  have level : Nat.blt 0 0 = false := rfl
  unfold State.raiseEvent
  simp only [scopedLevel, codeClass, true_or, if_true, not_true, false_and, decide_false, taken]
  simp [alone, level, State.react, State.failure]

/-- It changes the recorder and the Signal Box. -/
theorem State.raiseEvent_failed (s : State) (src : W32) :
    ∃ g x, s.raiseEvent 0x030B src none 0 false 0 [] = { s with trg := g, sbx := x } := by
  obtain ⟨g, noted⟩ := s.note_eq 0x030B src .occurrence
  obtain ⟨k, first⟩ := State.noteFirst_eq { s with trg := g } (s.failure src)
  rw [State.raiseEvent_failure, noted, first]
  exact State.logEvent_eq ..

/-- What neither the end of start-up nor the record of a failure touches: memory, Yard, cores, rails and the fence list. -/
def State.testView (s : State) : Memory × Yard × List ControlCore × Rails × List W32 :=
  (s.mem, s.yard, s.cores, s.rails, s.past.fences)

theorem State.startDone_view (s : State) : s.startDone.testView = s.testView := by
  obtain ⟨⟨n, b, x, h, done⟩, fences⟩ := s.startDone_keeps
  unfold State.testView
  rw [fences, done]

theorem State.raiseEvent_view (s : State) (src : W32) :
    (s.raiseEvent 0x030B src none 0 false 0 []).testView = s.testView := by
  obtain ⟨g, x, raised⟩ := s.raiseEvent_failed src
  rw [raised]
  rfl

theorem State.recap_view (f : State → State) (s : State) : (s.recap f).testView = (f s).testView := by
  obtain ⟨n, recapped⟩ := State.recap_eq f s
  rw [recapped]
  rfl

/-- R502: what enters the fence list leaves the rest. -/
theorem State.listFence_view {s : State} (src : W32) (power : s.power.state ≠ .holdUp) :
    (s.listFence src).testView = (s.mem, s.yard, s.cores, s.rails, addTo src s.past.fences) := by
  have fences : (s.listFence src).past.fences = addTo src s.past.fences := by
    rw [State.listFence, State.past_modPast, if_neg power]
  obtain ⟨h, listed⟩ := s.modPast_eq (fun h => { h with fences := addTo src h.fences })
  unfold State.testView
  rw [fences, State.listFence, listed]

/-! ### Partitions (R546, R590, R591) -/

/-- R437, R546, R551, R590: what the first partition that passes opens. -/
theorem State.openModule_eq (s : State) : ∃ f x h, s.openModule = { s with
      mram.start := s.mram.start.store ((s.mram.start.read.map (fun x => x.1)).getD 0, 0) true
      book.fwState := 3, power.state := .run, hay := h, fuses := f, sec := x } ∧ s.fuses.svn ≤ f.svn := by
  unfold State.openModule State.setStartFail State.remeasureFuses State.setMeasure
  dsimp only
  split
  case isTrue raised => exact ⟨_, _, _, rfl, Nat.le_of_lt raised⟩
  case isFalse => exact ⟨_, _, _, rfl, Nat.le_refl _⟩

theorem State.testOver_clean (s : State) (p : Nat) : s.testOver p cleanTest = s.modPart p (fun q => { q with tested := true }) :=
  rfl

/-- R591: the descriptor published with the first partition. -/
def State.publish (s : State) (p : Nat) : State := { s.placePart p with cap.published := true, cap.starting := true }

/-- R591: the rung reached, and the partitions tested. -/
def State.climbed (s : State) (p : Nat) : State :=
  { s with start.rung := s.cap.profile, start.testedParts := s.start.testedParts ++ [p] }

theorem State.climb_first {s : State} {p : Nat} (unpublished : s.cap.published = false)
    (passes : (s.part p).placed.unit = .held) :
    let t := (s.openModule.reprofile (fun u => u.publish p)).climbed p
    s.climb p = if t.hopeless then t.requestCycle else t.startDone := by
  have first : (!s.cap.published && Decidable.decide ((s.part p).placed.unit = .held)) = true := by simp [unpublished, passes]
  unfold State.climb State.publish State.climbed
  simp only [first, if_true]

theorem State.publish_passes {s : State} {p : Nat} (passes : (s.part p).placed.unit = .held) (here : p < s.parts.length) :
    s.publish p = { s.modPart p Partition.placed with cap.published := true, cap.starting := true } ∧
      (s.publish p).part p = (s.part p).placed := by
  have placed := s.part_modPart_same Partition.placed here
  have unfenced : ((s.modPart p Partition.placed).part p).unit ≠ .fenced := by simp [placed, passes]
  have kept : s.placePart p = s.modPart p Partition.placed := if_neg unfenced
  exact ⟨by rw [State.publish, kept], by rw [State.publish, kept]; exact placed⟩

@[simp] theorem Partition.placed_tested (p : Partition) : p.placed.tested = true :=
  (apply_ite Partition.tested ..).trans (ite_self _)

/-- R546, R590, R591: the first partition that passes publishes the descriptor, accepts tickets and enters Run. -/
theorem State.climb_opens {s : State} {p : Nat} (unpublished : s.cap.published = false)
    (passes : (s.part p).placed.unit = .held) (here : p < s.parts.length) : let t := s.climb p
    t.cap.published = true ∧ t.book.fwState = 3 ∧ t.power.state = .run ∧ (t.part p).unit ≠ .pending ∧
      (t.part p).tested = true ∧ p ∈ t.start.testedParts ∧ t.mram.start.read.map (fun x => x.2) = some 0 ∧
      s.fuses.svn ≤ t.fuses.svn ∧ t.start.phase = s.start.phase := by
  obtain ⟨f, x, h, opened, svn⟩ := s.openModule_eq
  obtain ⟨published, placed⟩ := State.publish_passes (s := s.openModule) (p := p) (by rw [opened]; exact passes)
    (by rw [opened]; exact here)
  have part : s.openModule.part p = s.part p := by rw [opened]; rfl
  have settled := s.openModule.reprofile_settled (fun u => u.publish p)
  have first := State.climb_first unpublished passes
  generalize s.openModule.reprofile (fun u => u.publish p) = t at settled first
  dsimp only at settled first
  have shown : t.cap.published = true := settled.published.trans (by rw [published])
  rw [show (t.climbed p).hopeless = false by simp [State.hopeless, State.climbed, shown]] at first
  obtain ⟨⟨n, b, y, m, done⟩, -⟩ := (t.climbed p).startDone_keeps
  rw [if_neg (by simp), done] at first
  rw [first]
  refine ⟨shown, ?fwState, ?power, ?unit, ?tested, ?listed, ?record, ?svn, ?phase⟩
  case fwState => exact settled.fwState.trans (by rw [published, opened]; rfl)
  case power =>
    have run : (s.openModule.publish p).power.state = .run := by rw [published, opened]; rfl
    rcases settled.power with same | ⟨trimmed, -⟩
    · exact same.trans run
    · simp [run] at trimmed
  case unit =>
    have held : ((s.openModule.publish p).part p).unit = .held := by rw [placed, part]; exact passes
    show (t.part p).unit ≠ .pending
    rcases settled.unit p with same | serving | kept
    · simp [same, held]
    · simp [serving]
    · simp [kept]
  case tested => exact (settled.tested p).trans (by rw [placed, Partition.placed_tested])
  case listed => simp [State.climbed]
  case record =>
    show t.mram.start.read.map (fun x => x.2) = some 0
    rw [settled.mram, published, opened]
    simp
  case svn =>
    show s.fuses.svn ≤ t.fuses.svn
    rw [settled.fuses, published, opened]
    exact svn
  case phase =>
    show t.start.phase = s.start.phase
    rw [settled.start, published, opened]
    rfl

theorem execPartitionSelfTestDone_tests {s : State} {p : Fin 8} (starting : s.starting = true)
    (may : s.mayTest p.val = true) (test : SelfTest) :
    exec (.partitionSelfTestDone p test) s = .next ((s.testOver p.val test).climb p.val) :=
  congrArg Host.Outcome.next (if_neg (by simp [starting, may]))

/-- R591: the clause of O54 about the first partition that passes. -/
theorem execPartitionSelfTestDone_opens {s : State} {p : Fin 8} (starting : s.starting = true)
    (may : s.mayTest p.val = true) (unpublished : s.cap.published = false) (here : p.val < s.parts.length)
    (passes : (s.part p.val).placed.unit = .held) :
    ∃ t, exec (.partitionSelfTestDone p cleanTest) s = .next t ∧ t.cap.published = true ∧ t.book.fwState = 3 ∧
      t.power.state = .run ∧ (t.part p.val).unit ≠ .pending ∧ (t.part p.val).tested = true ∧
      p.val ∈ t.start.testedParts ∧ t.mram.start.read.map (fun x => x.2) = some 0 ∧ s.fuses.svn ≤ t.fuses.svn ∧
      t.start.phase = .rom := by
  have phase : s.start.phase = .rom := by
    simp only [State.starting, Bool.and_eq_true, decide_eq_true_eq] at starting
    exact starting.1
  have tested := s.part_modPart_same (fun q => { q with tested := true }) here
  have opens := State.climb_opens (s := s.modPart p.val (fun q => { q with tested := true })) (p := p.val) unpublished
    (by rw [tested]; exact passes) (by simpa using here)
  have tests := execPartitionSelfTestDone_tests starting may cleanTest
  rw [State.testOver_clean] at tests
  rw [← phase]
  exact ⟨_, tests, opens⟩

/-! ### Units that fail at start -/

/-- R502, R591, R592: a unit that fails at start enters the fence list, besides what fencing it does. -/
theorem State.failAtStart_ends {s : State} {src : W32} {f : State → State} (power : (f s).power.state ≠ .holdUp) :
    let t := (s.failAtStart src f).startDone
    src ∈ t.past.fences ∧ t.mem = (f s).mem := by
  have view : (s.failAtStart src f).startDone.testView = ((f s).listFence src).testView := by
    rw [State.startDone_view, State.failAtStart, State.raiseEvent_view, State.recap_view]
  rw [State.listFence_view src power] at view
  simp only [State.testView, Prod.mk.injEq] at view
  obtain ⟨mem, -, -, -, fences⟩ := view
  exact ⟨fences ▸ mem_addTo_self .., mem⟩

/-- R497, R502, R593: so does a unit fenced once its self-test is over. -/
theorem State.fence_ends {s : State} {src : W32} (kept : keptFence src = true)
    (power : (s.markFenced src).power.state ≠ .holdUp) :
    let t := ((s.fence src).raiseEvent 0x030B src none 0 false 0 []).startDone
    src ∈ t.past.fences ∧ t.cores = (s.markFenced src).cores ∧ t.links = (s.markFenced src).links := by
  have settled := s.reprofile_settled fun s =>
    let t := s.markFenced src
    if keptFence src then t.listFence src else t
  have view : ((s.fence src).raiseEvent 0x030B src none 0 false 0 []).startDone.testView = (s.reprofile fun s =>
    let t := s.markFenced src
    if keptFence src then t.listFence src else t).testView := by
    rw [State.startDone_view, State.raiseEvent_view, State.fence, State.startDone_view]
  generalize (s.reprofile fun s =>
    let t := s.markFenced src
    if keptFence src then t.listFence src else t) = r at settled view
  dsimp only at settled
  rw [if_pos kept] at settled
  have listed := (s.markFenced src).listFence_view src power
  simp only [State.testView, Prod.mk.injEq] at view listed
  obtain ⟨-, -, cores, rails, fences⟩ := view
  obtain ⟨-, -, sameCores, sameRails, entered⟩ := listed
  refine ⟨?_, cores.trans (settled.cores.trans sameCores), ?_⟩
  · rw [fences, settled.past, entered]
    exact mem_addTo_self ..
  · rw [State.links_of_rails rails, settled.links, State.links_of_rails sameRails]

/-! ### Memory (R214, R217, R250, R592) -/

theorem State.device_modDevice {s : State} {i : Nat} (here : i < s.mem.devices.length) (f : MemDevice → MemDevice) :
    (s.modDevice i f).device i = f (s.device i) := nth_setNth_same _ _ _ here

section
variable {s : State} {i : Fin 12} (starting : s.starting = true) (pending : (s.device i.val).unit = .pending)
  (untrained : (s.device i.val).trained = false) (here : i.val < s.mem.devices.length)
include starting pending untrained here

/-- R23, R592: the values of a device that trains are kept. -/
theorem execMemoryTrainingDone_trains (values : List Byte) :
    ∃ t, exec (.memoryTrainingDone i true values) s = .next t ∧ (t.device i.val).unit = .pending ∧
      (t.device i.val).trained = true ∧ (s.mram.training.length = 12 →
        (nth (TwoCopy.blank []) t.mram.training i.val).read = some values) := by
  have trained := State.device_modDevice here (fun d => { d with trained := true, attempts := d.attempts + 1 })
  refine ⟨_, congrArg Host.Outcome.next ((if_neg (by simp [starting, pending, untrained])).trans (if_pos rfl)), ?_, ?_, ?_⟩
  · exact (congrArg MemDevice.unit trained).trans pending
  · exact congrArg MemDevice.trained trained
  · intro records
    have stored := nth_setNth_same (TwoCopy.blank []) s.mram.training (fun c => c.store values true)
      (i := i.val) (by simp [records])
    exact (congrArg TwoCopy.read stored).trans (TwoCopy.read_store ..)

/-- R592: a device that fails has another attempt, or is fenced. -/
theorem execMemoryTrainingDone_fails (values : List Byte) :
    let t := s.modDevice i.val (fun d => { d with attempts := d.attempts + 1 })
    exec (.memoryTrainingDone i false values) s = .next (if s.trainLimit i.val ≤ (s.device i.val).attempts + 1 then
      (t.failAtStart (source 6 0 i.val) (fun s => s.modDevice i.val (fun d => { d with unit := .fenced }))).startDone
      else t) := by
  have failed := State.device_modDevice here (fun d => { d with attempts := d.attempts + 1 })
  refine congrArg Host.Outcome.next ((if_neg (by simp [starting, pending, untrained])).trans ((if_neg (by simp)).trans ?_))
  dsimp only
  rw [failed]
  rfl

theorem execMemoryTrainingDone_again (values : List Byte) (few : (s.device i.val).attempts + 1 < s.trainLimit i.val) :
    ∃ t, exec (.memoryTrainingDone i false values) s = .next t ∧ (t.device i.val).unit = .pending ∧
      (t.device i.val).attempts = (s.device i.val).attempts + 1 ∧ t.mram = s.mram := by
  have failed := State.device_modDevice here (fun d => { d with attempts := d.attempts + 1 })
  refine ⟨_, execMemoryTrainingDone_fails starting pending untrained here values, ?_⟩
  rw [if_neg (Nat.not_le.mpr few), failed]
  exact ⟨pending, rfl, rfl⟩

theorem execMemoryTrainingDone_fences (power : s.power.state ≠ .holdUp) (values : List Byte)
    (last : s.trainLimit i.val ≤ (s.device i.val).attempts + 1) :
    ∃ t, exec (.memoryTrainingDone i false values) s = .next t ∧ (t.device i.val).unit = .fenced ∧
      source 6 0 i.val ∈ t.past.fences := by
  refine ⟨_, execMemoryTrainingDone_fails starting pending untrained here values, ?_⟩
  rw [if_pos last]
  obtain ⟨listed, mem⟩ := State.failAtStart_ends
    (s := s.modDevice i.val (fun d => { d with attempts := d.attempts + 1 })) (src := source 6 0 i.val)
    (f := fun s => s.modDevice i.val (fun d => { d with unit := .fenced })) power
  refine ⟨?_, listed⟩
  rw [State.device, mem]
  refine congrArg MemDevice.unit (State.device_modDevice ?_ (fun d => { d with unit := .fenced }))
  simpa [State.modDevice] using here

end

/-- R214, R217, R250: the map over zeroed memory, without the frames in which a line failed. -/
theorem State.buildMap_holds (s : State) (bad : List Nat) : let t := s.buildMap bad
    t.mem.map = s.devicesIn ∧ t.mem.bytes = [] ∧ t.mem.devices = s.mem.devices.map MemDevice.tested ∧
      t.mem.retired = ((bad.filter (fun l => l < 2 ^ 31 * s.devicesIn.length)).map (fun l => l / 2 ^ 15)).eraseDups ∧
      t.yard = s.yard := by
  have named (count : Nat → Nat) (l : List Nat) (t : State) :
      let u := l.foldl (fun t i => if 256 < count i then t.report (source 6 0 i) 0x030A none 0 else t) t
      u.mem = t.mem ∧ u.yard = t.yard := by
    refine Prod.mk.inj (foldl_keeps (fun u : State => (u.mem, u.yard)) (fun u i => ?_) l t)
    split <;> simp
  unfold State.buildMap
  dsimp only
  rw [(named _ _ _).1, (named _ _ _).2]
  simp

/-- A device through training is among those fitted, and in service once memory is tested (R53). -/
theorem MemDevice.tested_trained {l : List MemDevice} {i : Nat} (trained : (nth MemDevice.reset l i).trained = true) :
    (nth MemDevice.reset (l.map MemDevice.tested) i).unit = .inService := by
  unfold nth at trained ⊢
  rw [List.getElem?_map]
  cases fitted : l[i]? with
  | none => simp [fitted, MemDevice.reset] at trained
  | some d =>
    have trained : d.trained = true := by simpa [fitted] using trained
    simp [MemDevice.tested, trained]

theorem execMemoryTestDone_builds {s : State} (starting : s.starting = true) (unbuilt : s.mem.map = [])
    (some_ : s.devicesIn ≠ []) (trained : ∀ d ∈ s.mem.devices, d.unit = .pending → d.trained = true) (bad : List Nat) :
    exec (.memoryTestDone bad []) s = .next (s.buildMap bad).startDone :=
  congrArg Host.Outcome.next (if_neg (by simpa [starting, unbuilt, some_] using trained))

/-- R53, R214, R217, R250: the clause of O54 about the memory test. -/
theorem execMemoryTestDone_serves {s : State} (starting : s.starting = true) (unbuilt : s.mem.map = [])
    (some_ : s.devicesIn ≠ []) (trained : ∀ d ∈ s.mem.devices, d.unit = .pending → d.trained = true) (bad : List Nat) :
    ∃ t, exec (.memoryTestDone bad []) s = .next t ∧ t.mem.map = s.devicesIn ∧ t.mem.bytes = [] ∧
      (∀ f, f ∈ t.mem.retired ↔ ∃ l ∈ bad, l < 2 ^ 31 * s.devicesIn.length ∧ l / 2 ^ 15 = f) ∧ t.yard = s.yard ∧
      ∀ i ∈ s.devicesIn, (t.device i).unit = .inService := by
  obtain ⟨map, bytes, devices, retired, yard⟩ := s.buildMap_holds bad
  have view := (s.buildMap bad).startDone_view
  simp only [State.testView, Prod.mk.injEq] at view
  obtain ⟨mem, sameYard, -⟩ := view
  refine ⟨_, execMemoryTestDone_builds starting unbuilt some_ trained bad, by rw [mem, map], by rw [mem, bytes], ?_,
    sameYard.trans yard, fun i fitted => ?_⟩
  · intro f
    rw [mem, retired]
    simp [and_assoc]
  · have trained : (s.device i).trained = true := by simpa using (List.mem_filter.mp fitted).2
    rw [State.device, mem, devices]
    exact MemDevice.tested_trained trained

/-! ### Control cores and rail ports (R284, R593) -/

theorem State.core_setNth {s : State} {i : Nat} (here : i < s.cores.length) (f : ControlCore → ControlCore) :
    nth ControlCore.reset (setNth s.cores i f) i = f (s.core i) := nth_setNth_same _ _ _ here

/-- A SOURCE value of a control core (R481). -/
theorem source_core (i : Fin 16) : srcKind (source 9 0 i.val) = 9 ∧ srcIdx (source 9 0 i.val) = i.val ∧
    srcValid (source 9 0 i.val) = true ∧ keptFence (source 9 0 i.val) = true := by
  revert i
  decide

/-- A SOURCE value of a rail port (R481). -/
theorem source_port (i : Fin 20) : srcKind (source 5 0 i.val) = 5 ∧ srcIdx (source 5 0 i.val) = i.val ∧
    srcValid (source 5 0 i.val) = true ∧ keptFence (source 5 0 i.val) = true := by
  revert i
  decide

/-- R593: the test of a pending core or port is over. -/
theorem execLocalSelfTestDone_tests {s : State} {src : W32} (starting : s.starting = true) (valid : srcValid src = true)
    (local_ : srcKind src = 9 ∧ (s.core (srcIdx src)).unit = .pending ∨ srcKind src = 5 ∧ (s.port (srcIdx src)).unit = .pending)
    (passed : Bool) : exec (.localSelfTestDone src passed) s = .next (if passed then (s.localPassed src).startDone
      else ((s.fence src).raiseEvent 0x030B src none 0 false 0 []).startDone) := by
  refine congrArg Host.Outcome.next (if_neg ?_)
  rcases local_ with ⟨kind, pending⟩ | ⟨kind, pending⟩
  · simp [starting, valid, kind, pending]
  · simp [starting, valid, kind, pending]

section
variable {s : State} {i : Fin 16} (starting : s.starting = true) (pending : (s.core i.val).unit = .pending)
  (here : i.val < s.cores.length)
include starting pending here

/-- R593: a control core that passes is in service. -/
theorem execLocalSelfTestDone_coreServes :
    ∃ t, exec (.localSelfTestDone (source 9 0 i.val) true) s = .next t ∧ (t.core i.val).unit = .inService ∧
      t.past.fences = s.past.fences := by
  obtain ⟨kind, idx, valid, -⟩ := source_core i
  refine ⟨_, execLocalSelfTestDone_tests starting valid (.inl ⟨kind, by rw [idx]; exact pending⟩) true, ?_⟩
  rw [if_pos rfl]
  have view : (s.localPassed (source 9 0 i.val)).startDone.testView =
      ({ s with cores := setNth s.cores i.val (fun c => { c with unit := .inService }) } : State).testView := by
    unfold State.localPassed
    rw [State.startDone_view, if_pos kind, State.recap_view, idx]
  simp only [State.testView, Prod.mk.injEq] at view
  obtain ⟨-, -, cores, -, fences⟩ := view
  refine ⟨?_, fences⟩
  rw [State.core, cores, State.core_setNth here]

/-- R593: one that fails is fenced. -/
theorem execLocalSelfTestDone_coreFenced (power : s.power.state ≠ .holdUp) :
    ∃ t, exec (.localSelfTestDone (source 9 0 i.val) false) s = .next t ∧ (t.core i.val).unit = .fenced ∧
      source 9 0 i.val ∈ t.past.fences := by
  obtain ⟨kind, idx, valid, kept⟩ := source_core i
  refine ⟨_, execLocalSelfTestDone_tests starting valid (.inl ⟨kind, by rw [idx]; exact pending⟩) false, ?_⟩
  rw [if_neg (by simp)]
  have marked : (s.markFenced (source 9 0 i.val)).standing = ({ s with
      cores := setNth s.cores i.val (fun c => { c with unit := .fenced, halted := false }) } : State).standing := by
    unfold State.markFenced
    simp only [kind, idx, Nat.reduceEqDiff, ↓reduceIte]
    split
    · rfl
    · exact State.report_standing ..
  have steady : (s.markFenced (source 9 0 i.val)).power = s.power := congrArg Standing.power marked
  have marks : (s.markFenced (source 9 0 i.val)).cores =
      setNth s.cores i.val (fun c => { c with unit := .fenced, halted := false }) := congrArg Standing.cores marked
  obtain ⟨listed, cores, -⟩ := State.fence_ends kept (s := s) (by rw [steady]; exact power)
  refine ⟨?_, listed⟩
  rw [State.core, cores, marks]
  exact congrArg ControlCore.unit (State.core_setNth here _)

end

/-! ### The loss of a link leaves the power block -/

@[simp] theorem State.loseNodes_power (s : State) (p : W32 → Bool) : (s.loseNodes p).power = s.power := by
  have givenUp : (s.giveUp p).power = s.power := foldl_keeps State.power (fun t o => t.answered_power o _ _) _ _
  have lost (t : State) : (t.collLost p).power = t.power :=
    foldl_keeps State.power (fun t (f : Flight) => (State.collTry_power ..).trans (t.cause_power f _)) _ _
  have mirrors (t : State) : (t.mirrorsLost p).power = t.power :=
    foldl_keeps State.power (fun t (x : Nat × Context) => t.mirrorFail_power x.1) _ _
  rw [State.loseNodes, mirrors, lost, givenUp]

@[simp] theorem State.linkDown_power (s : State) (n cause : Nat) : (s.linkDown n cause).power = s.power := by
  simp [State.linkDown, State.portGone]

theorem State.linkDown_length (s : State) (n cause : Nat) :
    (s.linkDown n cause).rails.ports.length = s.rails.ports.length := by
  unfold State.linkDown
  dsimp only
  rw [State.event_rails, State.report_rails, State.portGone]
  rw [State.ports_length (State.loseNodes_links ..)]
  simp

theorem Port.link_eq {p q : Port} (h : p.link = q.link) : p.unit = q.unit ∧ p.state = q.state := by
  have unit : p.link.unit = q.link.unit := congrArg Port.unit h
  have state : p.link.state = q.link.state := congrArg Port.state h
  exact ⟨unit, state⟩

/-- R498: a rail port marked fenced, its link declared down first where it was up. -/
theorem State.markFenced_port {s : State} {i : Fin 20} (here : i.val < s.rails.ports.length) :
    (s.markFenced (source 5 0 i.val)).power = s.power ∧
      ((s.markFenced (source 5 0 i.val)).port i.val).unit = .fenced ∧
      ((s.markFenced (source 5 0 i.val)).port i.val).state = .down := by
  obtain ⟨kind, idx, -, -⟩ := source_port i
  have marked (t : State) (power : t.power = s.power) (long : t.rails.ports.length = s.rails.ports.length) :
      let u := t.modPort i.val (fun q => { q.restart .down with unit := .fenced, inject := none })
      u.power = s.power ∧ (u.port i.val).unit = .fenced ∧ (u.port i.val).state = .down := by
    dsimp only
    rw [t.port_modPort_same _ (by rw [long]; exact here)]
    exact ⟨power, rfl, rfl⟩
  unfold State.markFenced
  simp only [kind, idx, Nat.reduceEqDiff, ↓reduceIte]
  split
  · exact marked _ (s.linkDown_power ..) (s.linkDown_length ..)
  · exact marked s rfl rfl

section
variable {s : State} {i : Fin 20} (starting : s.starting = true) (pending : (s.port i.val).unit = .pending)
  (here : i.val < s.rails.ports.length)
include starting pending here

/-- R284, R593: a rail port that passes is in service and trains. -/
theorem execLocalSelfTestDone_portServes :
    ∃ t, exec (.localSelfTestDone (source 5 0 i.val) true) s = .next t ∧ (t.port i.val).unit = .inService ∧
      (t.port i.val).state = .training := by
  obtain ⟨kind, idx, valid, -⟩ := source_port i
  refine ⟨_, execLocalSelfTestDone_tests starting valid (.inr ⟨kind, by rw [idx]; exact pending⟩) true, ?_⟩
  rw [if_pos rfl]
  have view : (s.localPassed (source 5 0 i.val)).startDone.testView =
      (s.modPort i.val (fun p => { p.restart .training with unit := .inService })).testView := by
    unfold State.localPassed
    rw [State.startDone_view, if_neg (by simp [kind]), State.recap_view, idx]
  simp only [State.testView, Prod.mk.injEq] at view
  obtain ⟨-, -, -, rails, -⟩ := view
  have port : (s.localPassed (source 5 0 i.val)).startDone.port i.val =
      { (s.port i.val).restart .training with unit := .inService } := by
    rw [State.port, rails]
    exact s.port_modPort_same _ here
  rw [port]
  exact ⟨rfl, rfl⟩

/-- R593: one that fails is fenced, and its link down. -/
theorem execLocalSelfTestDone_portFenced (power : s.power.state ≠ .holdUp) :
    ∃ t, exec (.localSelfTestDone (source 5 0 i.val) false) s = .next t ∧ (t.port i.val).unit = .fenced ∧
      (t.port i.val).state = .down ∧ source 5 0 i.val ∈ t.past.fences := by
  obtain ⟨kind, idx, valid, kept⟩ := source_port i
  refine ⟨_, execLocalSelfTestDone_tests starting valid (.inr ⟨kind, by rw [idx]; exact pending⟩) false, ?_⟩
  rw [if_neg (by simp)]
  obtain ⟨steady, port⟩ := s.markFenced_port here
  obtain ⟨listed, -, links⟩ := State.fence_ends kept (s := s) (by rw [steady]; exact power)
  obtain ⟨unit, down⟩ := port
  obtain ⟨sameUnit, sameState⟩ := Port.link_eq (State.link_port links i.val)
  exact ⟨sameUnit.trans unit, sameState.trans down, listed⟩

end

/-- Settles O54: each test's event changes the state only by what the clauses above say, and the publication of the
descriptor, the record of a failure and the end of start-up leave memory, Yard, cores, links and the fence list. -/
theorem startUpTests : Obligations.StartUpTests := by
  intro s starting power
  refine ⟨?partitions, ?training, ?memory, ?cores, ?ports⟩
  case partitions =>
    intro p may unpublished all passes
    exact execPartitionSelfTestDone_opens starting may unpublished (by rw [all]; exact p.isLt) passes
  case training =>
    intro i values pending untrained all
    have here : i.val < s.mem.devices.length := by rw [all]; exact i.isLt
    exact ⟨execMemoryTrainingDone_trains starting pending untrained here values,
      execMemoryTrainingDone_again starting pending untrained here values,
      execMemoryTrainingDone_fences starting pending untrained here power values⟩
  case memory =>
    intro bad unbuilt fitted trained
    exact execMemoryTestDone_serves starting unbuilt fitted trained bad
  case cores =>
    intro i pending all
    have here : i.val < s.cores.length := by rw [all]; exact i.isLt
    exact ⟨execLocalSelfTestDone_coreServes starting pending here,
      execLocalSelfTestDone_coreFenced starting pending here power⟩
  case ports =>
    intro i pending all
    have here : i.val < s.rails.ports.length := by rw [all]; exact i.isLt
    exact ⟨execLocalSelfTestDone_portServes starting pending here,
      execLocalSelfTestDone_portFenced starting pending here power⟩

end Sys2Proof.Machine
end

section
/-! SUPPORT. What every step keeps, and the rules by which a command is shown to keep it: a change of fields that hold none
of it, a change of the bytes of a memory, a fold. -/

namespace Sys2Proof.Machine

/-- What a step from `old` keeps: the canonical form of every memory, an even CHANGE_COUNT, and each fuse bit of `old`. -/
structure Sound (old s : State) : Prop where
  memory : old.memoryOk → s.memoryOk
  still : old.capStill → s.capStill
  grown : s.fuses.grewFrom old.fuses

/-- A command that is carried out keeps it. -/
def Safe (old : State) (o : Host.Outcome State Fault Refusal) : Prop := ∀ t, o = .next t → Sound old t

variable {old s : State}

theorem Sound.next (h : Sound old s) : Safe old (.next s) := by
  intro t e
  cases e
  exact h

theorem Safe.fault {r : Fault} : Safe old (.fault r) := by
  intro t e
  cases e

/-- A change of fields that hold none of it. -/
theorem Sound.update {t : State} {pend parts cores ctxs rings tokens marsh drops windows rails hay power sbx trg start fresh out}
    {start' intr est0 est1 ident attest owner itop atop train hist pub prof begun trimmed trimCap before}
    {devs map hurt fixed gone goneOf zeroing grants hurt' fixed' gone' moved scrubbed stall pcie mctp pending session err slot fw
      eid peer slave arrivals up} {linkUp speed width ready bus d3 relaxed msixOn range bars msix pba hold due irq}
    {ver svn level meas sealed nonces ab ib an atp inx it ir ar upd jtag cells rh} (h : Sound old t) :
    Sound old
      ⟨pend, t.fuses, ⟨start', intr, est0, est1, ident, attest, owner, itop, atop, train, hist, t.mram.cells⟩, parts, cores,
        ⟨t.cap.changeCount, pub, prof, begun, trimmed, trimCap, before⟩, ctxs, rings, tokens, marsh, drops,
        ⟨devs, map, t.mem.bytes, hurt, fixed, gone, goneOf, zeroing, grants, t.mem.saveArea⟩,
        ⟨t.yard.bytes, hurt', fixed', gone', moved, scrubbed, stall⟩, windows, rails,
        ⟨pcie, mctp, t.book.inWin, t.book.outWin, pending, session, err, slot, fw, eid, peer, slave, arrivals, up⟩,
        ⟨linkUp, speed, width, ready, bus, d3, relaxed, msixOn, range, bars, t.pcie.config, msix, pba, hold, due, irq⟩, hay,
        power, sbx, trg,
        ⟨t.sec.nor, ver, svn, level, meas, sealed, nonces, ab, ib, an, atp, inx, it, ir, ar, upd, jtag, cells, t.sec.sram, rh⟩,
        start, fresh, out⟩ :=
  ⟨fun o => h.memory o, fun o => h.still o, h.grown⟩

/-- The memories change their bytes and nothing else of what is kept. -/
theorem Sound.memories {t : State} (h : Sound old s) (form : s.memoryOk → t.memoryOk)
    (count : t.cap.changeCount = s.cap.changeCount) (fuses : t.fuses = s.fuses) : Sound old t := by
  refine ⟨fun o => form (h.memory o), fun o => ?_, fuses ▸ h.grown⟩
  have even := h.still o
  unfold State.capStill at *
  rwa [count]

/-- Module memory, the Yard and the save area change their bytes. -/
theorem Sound.formed {t : State} (h : Sound old s) (form : FormOk s → FormOk t)
    (same : (t.book.inWin, t.book.outWin, t.pcie.config, t.sec.nor, t.sec.sram, t.mram.cells, t.cap.changeCount, t.fuses) =
      (s.book.inWin, s.book.outWin, s.pcie.config, s.sec.nor, s.sec.sram, s.mram.cells, s.cap.changeCount, s.fuses)) :
    Sound old t := by
  simp only [Prod.mk.injEq] at same
  obtain ⟨h1, h2, h3, h4, h5, h6, h7, h8⟩ := same
  refine h.memories (fun m => ?_) h7 h8
  obtain ⟨bytes, area, yard, rest⟩ := m
  obtain ⟨bytes', yard', area'⟩ := form ⟨bytes, yard, area⟩
  unfold State.memoryOk
  rw [h1, h2, h3, h4, h5, h6]
  exact ⟨bytes', area', yard', rest⟩

theorem Sound.setNor (h : Sound old s) {nor : Bytes}
    (form : Table.wf (0xFF : Byte) s.sec.nor = true → Table.wf (0xFF : Byte) nor = true) :
    Sound old { s with sec.nor := nor } := by
  refine h.memories (fun m => ?_) rfl rfl
  unfold State.memoryOk at *
  obtain ⟨bytes, area, yard, win, out, config, n, rest⟩ := m
  exact ⟨bytes, area, yard, win, out, config, form n, rest⟩

theorem Sound.setPcie (h : Sound old s) {p : Pcie} (form : s.pcie.config.wf = true → p.config.wf = true) :
    Sound old { s with pcie := p } := by
  refine h.memories (fun m => ?_) rfl rfl
  unfold State.memoryOk at *
  obtain ⟨bytes, area, yard, win, out, config, rest⟩ := m
  exact ⟨bytes, area, yard, win, out, form config, rest⟩

theorem Sound.foldl {α : Type} {f : State → α → State} {l : List α} (h : Sound old s)
    (keeps : ∀ t a, Sound old t → Sound old (f t a)) : Sound old (l.foldl f s) :=
  List.foldlRecOn l f (motive := Sound old) h (fun t k a _ => keeps t a k)

theorem Sound.ite {c : Prop} [Decidable c] {t : State} (h : Sound old s) (k : Sound old t) :
    Sound old (if c then s else t) := by
  split
  · exact h
  · exact k

theorem Sound.foldlSnd {α β : Type} {f : β × State → α → β × State} {l : List α} {b : β} (h : Sound old s)
    (keeps : ∀ x a, Sound old x.2 → Sound old (f x a).2) : Sound old (l.foldl f (b, s)).2 :=
  List.foldlRecOn l f (motive := fun x => Sound old x.2) h (fun x k a _ => keeps x a k)

theorem Sound.getD {o : Option State} (h : Sound old s) (k : ∀ t, o = some t → Sound old t) : Sound old (o.getD s) := by
  cases o with
  | none => exact h
  | some t => exact k t rfl

end Sys2Proof.Machine
end

section
/-! SUPPORT. The operations of the state keep it, in the order in which they build on each other. -/

namespace Sys2Proof.Machine

variable {old s : State}

theorem Sound.modCtx (h : Sound old s) (c : ℕ) (f : Context → Context) : Sound old (s.modCtx c f) := h.update

theorem Sound.modRing (h : Sound old s) (r : ℕ) (f : Ring → Ring) : Sound old (s.modRing r f) := h.update

theorem Sound.modToken (h : Sound old s) (t : ℕ) (f : Token → Token) : Sound old (s.modToken t f) := h.update

theorem Sound.modPart (h : Sound old s) (p : ℕ) (f : Partition → Partition) : Sound old (s.modPart p f) :=
  h.update

theorem Sound.modPort (h : Sound old s) (n : ℕ) (f : Port → Port) : Sound old (s.modPort n f) := h.update

theorem Sound.modChan (h : Sound old s) (ch : Chan) (f : Channel → Channel) : Sound old (s.modChan ch f) := by
  unfold State.modChan
  split
  · exact h.update
  · exact h.update

theorem Sound.drop (h : Sound old s) (f : Drops → Drops) : Sound old (s.drop f) := h.update

theorem Sound.emit (h : Sound old s) (o : Out) : Sound old (s.emit o) := h.update

theorem Sound.modPast (h : Sound old s) (f : History → History) : Sound old (s.modPast f) := Sound.ite h h.update

theorem Sound.noteDone (h : Sound old s) (scope : W32) : Sound old (s.noteDone scope) := h.modPast ..

theorem Sound.listFence (h : Sound old s) (src : W32) : Sound old (s.listFence src) := h.modPast ..

theorem Sound.note (h : Sound old s) (code : ℕ) (src : W32) (r : Recorded) : Sound old (s.note code src r) := by
  unfold State.note
  split
  · exact h
  · split
    · split
      · exact h.update
      · exact h.update
    · split
      · exact h.update
      · exact h.update

theorem Sound.noteFirst (h : Sound old s) (e : Event) : Sound old (s.noteFirst e) :=
  Sound.ite h (Sound.ite h h.update)

theorem Sound.report (h : Sound old s) (src : W32) (code : ℕ) (ctx : Option (ℕ × W16)) (info : W32) :
    Sound old (s.report src code ctx info) := Sound.ite h h.update

theorem Sound.event (h : Sound old s) (op : ℕ) (payload : List Byte) : Sound old (s.event op payload) :=
  Sound.ite h ((h.modChan ..).modChan ..)

theorem Sound.noteRequest (h : Sound old s) (r : Request) (code : ℕ) : Sound old (s.noteRequest r code) :=
  Sound.ite (h.note ..) h

theorem Sound.reply (h : Sound old s) (r : Request) (code : ℕ) (detail : ℕ) (payload : List Byte) :
    Sound old (s.reply r code detail payload) := by
  unfold State.reply
  exact (h.noteRequest ..).modChan ..

theorem Sound.ok (h : Sound old s) (r : Request) (payload : List Byte) : Sound old (s.ok r payload) := h.reply ..

theorem Sound.onBar {act : State → State} (h : Sound old s) (keeps : ∀ t, Sound old t → Sound old (act t)) :
    Sound old (s.onBar act) :=
  Sound.ite (keeps _ h) h.update

theorem Sound.msixNow (h : Sound old s) (v : ℕ) : Sound old (s.msixNow v) := Sound.ite h.update h.update

theorem Sound.raiseVector (h : Sound old s) (v : ℕ) : Sound old (s.raiseVector v) := Sound.ite h.update (h.msixNow ..)

theorem Sound.raiseRing (h : Sound old s) (n : ℕ) : Sound old (s.raiseRing n) := h.update.raiseVector ..

theorem Sound.take (h : Sound old s) (n : ℕ) : Sound old (s.take n) := h.update

/-- R54: CHANGE_COUNT goes up by two, so it stays even. -/
theorem Sound.recap {f : State → State} (h : Sound old s) (keeps : ∀ t, Sound old t → Sound old (f t)) :
    Sound old (s.recap f) := by
  have k := keeps s h
  unfold State.recap
  dsimp only
  split
  · exact { k with
      still := by
        intro o
        have even := k.still o
        unfold State.capStill at *
        rw [BitVec.toNat_add, show (2 : W32).toNat = 2 from rfl]
        omega }
  · exact k

theorem Sound.freePages (h : Sound old s) (ps : List Page) : Sound old (s.freePages ps) := h.update

theorem Sound.grantPages (h : Sound old s) (ctx : ℕ) (ps : List Page) (r : Request) (payload : List Byte) :
    Sound old (s.grantPages ctx ps r payload) := Sound.ite ((h.modCtx ..).ok ..) h.update

theorem Sound.freeTokensOf (h : Sound old s) (c : ℕ) : Sound old (s.freeTokensOf c) := h.update

theorem Sound.dropGrant (h : Sound old s) (g : Grant) (short : ℕ) : Sound old (s.dropGrant g short) :=
  Sound.ite (((h.reply ..).freeTokensOf ..).modCtx ..) (h.reply ..)

theorem Sound.placeAgain (h : Sound old s) (g : Grant) : Sound old (s.placeAgain g) := by
  unfold State.placeAgain
  split
  · exact Sound.ite (h.dropGrant ..) (h.grantPages ..)
  · exact Sound.ite (h.dropGrant ..) (h.grantPages ..)

theorem Sound.mendGrants (h : Sound old s) : Sound old s.mendGrants := h.update.foldl (fun t a k => k.placeAgain ..)

theorem Sound.retireFrame (h : Sound old s) (f : ℕ) (dev : ℕ) : Sound old (s.retireFrame f dev) :=
  Sound.ite h ((Sound.ite ((h.recap (fun t k => k.update)).report ..) (h.recap (fun t k => k.update))).mendGrants ..)

theorem Sound.memTicket (h : Sound old s) (addr : ℕ) : Sound old (s.memTicket addr) := h.event ..

theorem Sound.memCorrected (h : Sound old s) (addr : ℕ) : Sound old (s.memCorrected addr) :=
  Sound.ite ((h.update.report ..).retireFrame ..) (h.update.report ..)

theorem Sound.memBad (h : Sound old s) (addr : ℕ) : Sound old (s.memBad addr) :=
  (h.update.memTicket ..).retireFrame ..

theorem Sound.lineRead (h : Sound old s) (addr : ℕ) (ecc : Ecc) : Sound old (s.lineRead addr ecc).2 := by
  unfold State.lineRead
  split
  · exact h
  · exact h.memCorrected ..
  · exact h.memBad ..

theorem Sound.lineStore (h : Sound old s) (addr : Nat) (bs : List Byte) (ecc : Ecc) :
    Sound old (s.lineStore addr bs ecc).2 := by
  unfold State.lineStore
  split
  · exact h.formed (fun ⟨m, y, a⟩ => ⟨Bytes.wf_write _ _ _ m, y, a⟩) rfl
  · dsimp only
    have k := h.lineRead addr ecc
    split
    · exact k
    · exact k.formed (fun ⟨m, y, a⟩ => ⟨Bytes.wf_write _ _ _ m, y, a⟩) rfl

theorem Sound.memStore (h : Sound old s) (addr : Nat) (bs : List Byte) (lines : LineEcc) (fuel : Nat) :
    Sound old (s.memStore addr bs lines fuel).2 := by
  induction fuel generalizing s addr bs with
  | zero => exact h
  | succ fuel ih =>
    unfold State.memStore
    split
    · exact h
    · exact ih (h.lineStore ..) ..

theorem Sound.memLoad (h : Sound old s) (addr n : Nat) (lines : LineEcc) (fuel : Nat) :
    Sound old (s.memLoad addr n lines fuel).2.2 := by
  induction fuel generalizing s addr n with
  | zero => exact h
  | succ fuel ih =>
    unfold State.memLoad
    split
    · exact h
    · exact ih (h.lineRead ..) ..

theorem Sound.moveReserved (h : Sound old s) (k : ℕ) : Sound old (s.moveReserved k) := by
  unfold State.moveReserved
  split
  · exact h.update
  · exact h

theorem Sound.retireBlock (h : Sound old s) (k : ℕ) : Sound old (s.retireBlock k) := by
  unfold State.retireBlock
  split
  · exact h
  · refine h.recap fun t1 k2 => ?_
    dsimp only
    split
    · exact k2.update.moveReserved ..
    · exact Sound.ite (k2.update.moveReserved ..) k2.update

theorem Sound.yardCorrected (h : Sound old s) (w : ℕ) : Sound old (s.yardCorrected w) :=
  Sound.ite ((h.update.report ..).retireBlock ..) (h.update.report ..)

theorem Sound.yardBad (h : Sound old s) (w : ℕ) : Sound old (s.yardBad w) := h.update.retireBlock ..

theorem Sound.yardStore (h : Sound old s) (key : Nat) (bs : List Byte) : Sound old (s.yardStore key bs).2 := by
  unfold State.yardStore
  refine Sound.foldl ?_ fun _ _ k => k.yardBad ..
  exact h.formed (fun ⟨m, y, a⟩ => ⟨m, Bytes.wf_puts key _ _ y, a⟩) rfl

theorem Sound.yardSense (h : Sound old s) (part : ℕ) (ecc : YardEcc) (range : List ℕ) :
    Sound old (s.yardSense part ecc range).2 :=
  (h.foldl (fun t a k => k.yardCorrected ..)).foldl (fun t a k => k.yardBad ..)

theorem Sound.queueOn (h : Sound old s) (port : ℕ) (p : Packet) : Sound old (s.queueOn port p) := h.modPort ..

theorem Sound.takePort (h : Sound old s) (o : OutPacket) (port : ℕ) :
    Sound old (s.takePort o port) := by
  have k := h.queueOn port o.packet
  exact Sound.ite k.update k.update

theorem Sound.place_ (h : Sound old s) (o : OutPacket) : Sound old (s.place_ o) := by
  unfold State.place_
  split
  · exact h.takePort ..
  · exact h.update

theorem Sound.sendWaiting (h : Sound old s) : Sound old s.sendWaiting := h.update.foldl (fun t a k => k.place_ ..)

theorem Sound.launch {p : Packet} {ctx : Nat} {w : Waiter} {t : State} (h : Sound old s)
    (sent : s.launch p ctx w = some t) : Sound old t := by
  unfold State.launch at sent
  split at sent
  · cases sent
  · cases sent
    exact h.place_ ..

theorem Sound.sendTo {kind : Nat} {peer : Peer} {arg pflags : Nat} {data : List Byte} {ctx : Nat} {w : Waiter} {tag : Nat}
    {t : State} (h : Sound old s) (sent : s.sendTo kind peer arg pflags data ctx w = some (tag, t)) : Sound old t := by
  unfold State.sendTo at sent
  dsimp only at sent
  split at sent
  · cases sent
  · split at sent
    · cases sent
    · rename_i launched
      cases sent
      exact Sound.launch h.update launched
theorem Sound.bindSendTo {o : Option Peer} {kind : Nat} {arg pflags : Nat} {data : List Byte} {ctx : Nat} {w : Waiter}
    {tag : Nat} {t : State} (h : Sound old s)
    (sent : (o.bind fun p => s.sendTo kind p arg pflags data ctx w) = some (tag, t)) : Sound old t := by
  cases o with
  | none => cases sent
  | some p => exact h.sendTo sent

theorem Sound.dack (h : Sound old s) (dst tag : W32) (result : Nat) : Sound old (s.dack dst tag result) :=
  h.getD fun _ sent => h.launch sent

theorem Sound.mirrorReplyTo (h : Sound old s) (dst tag : W32) (arg : W64) (accept : Bool) :
    Sound old (s.mirrorReplyTo dst tag arg accept) :=
  Sound.ite h (h.getD fun _ sent => h.launch sent)

theorem Sound.notice (h : Sound old s) (dst revoked : W32) : Sound old (s.notice dst revoked) :=
  Sound.ite h (h.getD fun _ sent => h.launch sent).update

theorem Sound.revoke (h : Sound old s) (e : W32) : Sound old (s.revoke e) := Sound.ite h h.update

theorem Sound.modUnit (h : Sound old s) (u : UnitRef) (f : Dispatch → Dispatch) : Sound old (s.modUnit u f) :=
  h.update

theorem Sound.modEngine (h : Sound old s) (p : ℕ) (e : ℕ) (f : MatrixEngine → MatrixEngine) :
    Sound old (s.modEngine p e f) := h.modPart ..

theorem Sound.modVec (h : Sound old s) (p : ℕ) (f : VectorEngine → VectorEngine) : Sound old (s.modVec p f) :=
  h.modPart ..

theorem Sound.modMover (h : Sound old s) (p : ℕ) (m : ℕ) (f : Mover → Mover) : Sound old (s.modMover p m f) :=
  h.modPart ..

theorem Sound.mile (h : Sound old s) (src : W32) (n : ℕ) : Sound old (s.mile src n) := h.update

theorem Sound.setPace (h : Sound old s) (u : UnitRef) (pace : Pace) (wants : Option (SlotKind × ℕ)) :
    Sound old (s.setPace u pace wants) := by
  unfold State.setPace
  split
  · exact h.modEngine ..
  · exact h.modVec ..
  · exact h

theorem Sound.wantSlot (h : Sound old s) (u : UnitRef) (k : SlotKind) (cycle : ℕ) : Sound old (s.wantSlot u k cycle) :=
  Sound.ite h (h.setPace ..)

theorem Sound.takeFeed (h : Sound old s) (u : UnitRef) (w : Wagon) : Sound old (s.takeFeed u w).2 := by
  unfold State.takeFeed
  split
  · exact h
  · split
    · exact h.modEngine ..
    · dsimp only
      exact h.modVec ..
    · exact h

theorem Sound.settle (h : Sound old s) (u : UnitRef) : Sound old (s.settle u) := Sound.ite (h.setPace ..) h

theorem Sound.modFlight (h : Sound old s) (ring : ℕ) (index : W32) (f : Flight → Flight) :
    Sound old (s.modFlight ring index f) :=
  h.update

theorem Sound.decide (h : Sound old s) (ring : ℕ) (index : W32) (status : Byte) (flags : Byte) :
    Sound old (s.decide ring index status flags) := h.modFlight ..

theorem Sound.writeRecord (h : Sound old s) (ring : Nat) (index : W32) (bs : List Byte) (ecc : Ecc) :
    Sound old (s.writeRecord ring index bs ecc).2 := by
  unfold State.writeRecord
  dsimp only
  split
  · split
    · exact h.emit ..
    · exact h
  · split
    · exact h
    · exact h.memStore ..

theorem Sound.addToken (h : Sound old s) (tok : ℕ) (n : W32) : Sound old (s.addToken tok n) := h.modToken ..

theorem Sound.signalDone (h : Sound old s) (f : Flight) : Sound old (s.signalDone f) := Sound.ite (h.addToken ..) h

theorem Sound.noteFence (h : Sound old s) (ring : ℕ) : Sound old (s.noteFence ring) := h.update

theorem Sound.noteMove (h : Sound old s) (src : W32) (f : Flight) (code : Byte) : Sound old (s.noteMove src f code) :=
  Sound.ite h (h.report ..)

theorem Sound.freePlace (h : Sound old s) (u : UnitRef) : Sound old (s.freePlace u) := h.modUnit ..

theorem Sound.closeBanks (h : Sound old s) (p : ℕ → Bool) : Sound old (s.closeBanks p) := h.update

theorem Sound.collAbortTo (h : Sound old s) (ctx : ℕ) (group : ℕ) (opseq : W32) (peers : List ℕ) :
    Sound old (s.collAbortTo ctx group opseq peers) := by
  unfold State.collAbortTo
  refine h.foldl fun t1 a2 k3 => ?_
  split
  · exact k3
  · split
    · rename_i _ _ _ v7
      have k8 := k3.sendTo v7
      exact k8
    · exact k3

theorem Sound.collEnd (h : Sound old s) (f : Flight) (status : Byte) (except : List ℕ) :
    Sound old (s.collEnd f status except) := ((Sound.ite h (h.collAbortTo ..)).update).modCtx ..

theorem Sound.haltWith (h : Sound old s) (r : ℕ) (cause : HaltCause) : Sound old (s.haltWith r cause) :=
  Sound.ite ((h.modRing ..).raiseRing ..) (h.modRing ..)

theorem Sound.haltRing (h : Sound old s) (r : ℕ) (cause : HaltCause) : Sound old (s.haltRing r cause) :=
  Sound.ite (h.haltWith ..) h

theorem Sound.haltRecord (h : Sound old s) (f : Flight) : Sound old (s.haltRecord f) :=
  Sound.ite ((Sound.ite (h.modRing ..) h).raiseRing ..) (Sound.ite (h.modRing ..) h)

theorem Sound.abortFlight (h : Sound old s) (f : Flight) : Sound old (s.abortFlight f) :=
  Sound.ite h (Sound.ite ((((Sound.ite ((((h.takeFeed ..).writeRecord ..).modRing ..).haltWith ..) (((h.takeFeed
    ..).writeRecord ..).haltRecord ..)).freePlace ..).signalDone ..).collEnd ..) (Sound.ite ((((Sound.ite ((((h.takeFeed
    ..).writeRecord ..).modRing ..).haltWith ..) (((h.takeFeed ..).writeRecord ..).haltRecord ..)).freePlace ..).signalDone
    ..).noteMove ..) (((Sound.ite ((((h.takeFeed ..).writeRecord ..).modRing ..).haltWith ..) (((h.takeFeed ..).writeRecord
    ..).haltRecord ..)).freePlace ..).signalDone ..)))

theorem Sound.stopWork (h : Sound old s) (c : ℕ) : Sound old (s.stopWork c) :=
  (((((h.foldl (fun t a k => k.abortFlight ..)).update).closeBanks ..).foldl (fun t a k => k.modRing ..)).foldl (fun
    t a k => k.settle ..)).modCtx ..

theorem Sound.haltTicket (h : Sound old s) (c : ℕ) (ring : ℕ) (cause : HaltCause) :
    Sound old (s.haltTicket c ring cause) := h.event ..

theorem Sound.haltByRing (h : Sound old s) (ring : ℕ) (cause : HaltCause) : Sound old (s.haltByRing ring cause) :=
  ((((h.stopWork ..).haltWith ..).foldl (fun t a k => k.haltRing ..)).modCtx ..).haltTicket ..

theorem Sound.haltAll (h : Sound old s) (c : ℕ) (cause : HaltCause) : Sound old (s.haltAll c cause) :=
  (((h.stopWork ..).foldl (fun t a k => k.haltRing ..)).modCtx ..).haltTicket ..

theorem Sound.restoreStart (h : Sound old s) (c : ℕ) : Sound old (s.restoreStart c) := by
  unfold State.restoreStart
  split
  · exact ((h.stopWork ..).foldl (fun t a k => k.haltRing ..)).modCtx ..
  · exact ((h.stopWork ..).foldl (fun t a k => k.haltRing ..)).modCtx ..
  · exact h

theorem Sound.restoreEnd (h : Sound old s) (c : ℕ) : Sound old (s.restoreEnd c) :=
  Sound.ite ((h.modCtx ..).haltTicket ..) h

theorem Sound.beginTeardown (h : Sound old s) (c : ℕ) (req : Option Request) : Sound old (s.beginTeardown c req) :=
  ((h.stopWork ..).foldl (fun t a k => k.haltRing ..)).modCtx ..

theorem Sound.markInvalid (h : Sound old s) (c : ℕ) : Sound old (s.markInvalid c) := h.modCtx ..

theorem Sound.takeReq {ch : Chan} {p : Nat → Bool} {r : Request} {t : State} (h : Sound old s)
    (taken : s.takeReq ch p = some (r, t)) : Sound old t := by
  unfold State.takeReq at taken
  split at taken
  · cases taken
  · split at taken
    · cases taken
      exact h.modChan ..
    · cases taken

theorem Sound.presentNonce (h : Sound old s) (r : Request) : Sound old (s.presentNonce r).2 := by
  unfold State.presentNonce
  split
  · exact h.update
  · exact h

theorem Sound.onRequest {ch : Chan} {p : Nat → Bool} {rule : Rule} {act : Request → State → State} (h : Sound old s)
    (keeps : ∀ r t, Sound old t → Sound old (act r t)) : Sound old (s.onRequest ch p rule act) := by
  unfold State.onRequest
  split
  · exact h
  · rename_i taken
    have k := (h.takeReq taken).presentNonce
    dsimp only
    split
    · exact (k _).reply ..
    · exact keeps _ _ (k _)

theorem Sound.endInjections (h : Sound old s) : Sound old s.endInjections := h.update

theorem Sound.receiveTicket (h : Sound old s) (ch : Chan) (t : Ticket) : Sound old (s.receiveTicket ch t) :=
  (h.modChan ..).update

theorem Sound.putTicket (h : Sound old s) (ch : Chan) (t : SentTicket) : Sound old (s.putTicket ch t) := by
  unfold State.putTicket
  dsimp only
  split
  · refine h.memories (fun k => ?_) rfl rfl
    unfold State.memoryOk at *
    obtain ⟨m, a, y, i, o, rest⟩ := k
    dsimp only
    exact ⟨m, a, y, i, Bytes.wf_write s.book.outWin _ _ o, rest⟩
  · split
    · exact h.emit ..
    · exact h

theorem Sound.writeTicket (h : Sound old s) (ch : Chan) : Sound old (s.writeTicket ch) := by
  unfold State.writeTicket
  dsimp only
  split
  · exact h
  · split
    · exact h
    · rename_i part rest _
      have k := h.putTicket ch part
      split
      · refine Sound.raiseVector ?_ _
        refine Sound.update ?_
        exact k.modChan ..
      · exact k.modChan ..

theorem Sound.resendTickets (h : Sound old s) (ch : Chan) : Sound old (s.resendTickets ch) := by
  unfold State.resendTickets
  exact (h.foldl (fun t a k => k.putTicket ..)).modChan ..

theorem Sound.reject (h : Sound old s) (slot : ℕ) (err : ℕ) : Sound old (s.reject slot err) := h.update.event ..

theorem Sound.receiveUpTo (h : Sound old s) (tail : W32) (fuel : Nat) : Sound old (s.receiveUpTo tail fuel) := by
  induction fuel generalizing s with
  | zero => exact h
  | succ fuel ih =>
    unfold State.receiveUpTo
    dsimp only
    split
    · exact h.update
    · split
      · exact h.update
      · split
        · exact h.update.reject ..
        · apply ih
          refine Sound.update ?_
          exact h.receiveTicket ..

theorem Sound.queryReply (h : Sound old s) (r : Request) (code : ℕ) (detail : ℕ) (payload : List Byte) :
    Sound old (s.queryReply r code detail payload) := by
  unfold State.queryReply
  exact (h.putTicket ..).modChan ..

theorem Sound.allotTokens (h : Sound old s) (ids : List ℕ) (c : ℕ) : Sound old (s.allotTokens ids c) :=
  h.foldl (fun t a k => k.modToken ..)

theorem Sound.dropRing (h : Sound old s) (n : ℕ) : Sound old (s.dropRing n) :=
  Sound.ite ((Sound.ite ((((h.foldl (fun t a k => k.abortFlight ..)).update).closeBanks ..).foldl (fun t a k =>
    k.settle ..)) (((((h.foldl (fun t a k => k.abortFlight ..)).update).closeBanks ..).foldl (fun t a k => k.settle
    ..)).markInvalid ..)).haltByRing ..) (Sound.ite ((((h.foldl (fun t a k => k.abortFlight ..)).update).closeBanks
    ..).foldl (fun t a k => k.settle ..)) (((((h.foldl (fun t a k => k.abortFlight ..)).update).closeBanks ..).foldl (fun t
    a k => k.settle ..)).markInvalid ..))

theorem Sound.fetched (h : Sound old s) (ring : ℕ) (bs : List Byte) : Sound old (s.fetched ring bs) := h.modRing ..

theorem Sound.refused (h : Sound old s) (f : Flight) : Sound old (s.refused f) :=
  Sound.ite (((h.takeFeed ..).modFlight ..).collEnd ..) (Sound.ite (((h.takeFeed ..).modFlight ..).noteMove ..)
    ((h.takeFeed ..).modFlight ..))

theorem Sound.dispatchFrom (h : Sound old s) (u : UnitRef) (ring : ℕ) : Sound old (s.dispatchFrom u ring) := by
  unfold State.dispatchFrom
  dsimp only
  split
  · exact h
  · exact Sound.ite ((((h.modRing ..).update).noteFence ..).refused ..) (((h.modRing ..).update).noteFence ..)

theorem Sound.onFlight {ring : Nat} {index : W32} {ok : Flight → Bool} {act : Flight → State → State} (h : Sound old s)
    (keeps : ∀ f t, Sound old t → Sound old (act f t)) : Sound old (s.onFlight ring index ok act) := by
  unfold State.onFlight
  split
  · exact h
  · exact Sound.ite h (keeps _ _ h)

theorem Sound.finish (h : Sound old s) (f : Flight) (status : Byte) (flags : Flags) :
    Sound old (s.finish f status flags) := ((h.takeFeed ..).decide ..).settle ..

theorem Sound.operands (h : Sound old s) (f : Flight) (y : YardWord) (ecc : YardEcc) (spans : List Span) :
    Sound old (s.operands f y ecc spans).2 := (h.yardSense ..).foldl (fun t a k => k.report ..)

theorem Sound.yardPut (h : Sound old s) (f : Flight) (y : YardWord) (ecc : YardEcc) (puts : List (Nat × List Byte)) :
    Sound old (s.yardPut f y ecc puts).2 := by
  refine h.foldlSnd fun x a k => ?_
  have k := (k.yardSense y.phys ecc (partWords (y.key a.1) a.2.length)).yardStore (y.key a.1) a.2
  dsimp only
  split
  · exact k.report ..
  · exact k

theorem Sound.replay (h : Sound old s) (f : Flight) (y : YardWord) (log : List Wagon) (m : ReplayFaults) :
    Sound old (s.replay f y log m).2.2 :=
  List.foldlRecOn log.zipIdx _ (motive := fun x : Bool × Table Ledger × State => Sound old x.2.2) h fun _ k _ _ => k.operands ..

theorem Sound.rebuilt (h : Sound old s) (f : Flight) (y : YardWord) (b : Bank) (m : ReplayFaults) :
    Sound old (s.rebuilt f y b m).2.2 := by
  unfold State.rebuilt
  split
  · exact h.replay ..
  · exact h

theorem Sound.modBank (h : Sound old s) (p : ℕ) (e : ℕ) (bank : ℕ) (f : Bank → Bank) : Sound old (s.modBank p e bank f) :=
    by
  unfold State.modBank
  exact h.modEngine ..

theorem Sound.ranOn (h : Sound old s) (p : ℕ) (e : ℕ) (f : Flight) : Sound old (s.ranOn p e f) := h.modEngine ..

theorem Sound.onEngine {op ring : Nat} {index : W32} {act : Nat → Nat → Flight → State → State} (h : Sound old s)
    (keeps : ∀ p e f t, Sound old t → Sound old (act p e f t)) : Sound old (s.onEngine op ring index act) := by
  refine h.onFlight fun f t k => ?_
  split
  · exact keeps _ _ _ _ (k.ranOn ..)
  · exact k

theorem Sound.residueHit (h : Sound old s) (p : ℕ) (e : ℕ) : Sound old (s.residueHit p e) :=
  Sound.ite ((h.modEngine ..).report ..) (h.modEngine ..)

theorem Sound.bankFor (h : Sound old s) (p : ℕ) (e : ℕ) (f : Flight) (m : ReplayFaults) :
    Sound old (s.bankFor p e f m).2 := by
  unfold State.bankFor
  split
  · exact h
  · exact Sound.ite ((h.rebuilt ..).residueHit ..) (h.rebuilt ..)

theorem Sound.biasRead (h : Sound old s) (f : Flight) (y : YardWord) (ecc : YardEcc) :
    Sound old (s.biasRead f y ecc).2.2 := h.operands ..

theorem Sound.storeReadout (h : Sound old s) (p : ℕ) (e : ℕ) (k : ℕ) (f : Flight) (y : YardWord) (ecc : YardEcc) (b : Bank)
    (readBad : Bool) (tile : Flags) (o : WagonOut) :
    Sound old (s.storeReadout p e k f y ecc b readBad tile o) := (((h.yardPut ..).modBank ..).mile ..).finish ..

theorem Sound.loseReadout (h : Sound old s) (p : ℕ) (e : ℕ) (f : Flight) (status : Byte) (tile : Flags) :
    Sound old (s.loseReadout p e f status tile) := (h.modBank ..).finish ..

theorem Sound.reexecute (h : Sound old s) (p : ℕ) (e : ℕ) (k : ℕ) (f : Flight) (y : YardWord) (b : Bank) (again :
    Reexecution) :
    Sound old (s.reexecute p e k f y b again) :=
  Sound.ite (((((h.replay ..).biasRead ..).ranOn ..).report ..).storeReadout ..) ((((((h.replay ..).biasRead
    ..).ranOn ..).residueHit ..).report ..).loseReadout ..)

theorem Sound.cause (h : Sound old s) (f : Flight) (code : Byte) : Sound old (s.cause f code) := h.modFlight ..

theorem Sound.noteCause (h : Sound old s) (f : Flight) (code : Byte) : Sound old (s.noteCause f code) := h.noteMove ..

theorem Sound.finishMove (h : Sound old s) (f : Flight) : Sound old (s.finishMove f) :=
  (h.foldl (fun t a k => k.noteCause ..)).finish ..

theorem Sound.tryMove (h : Sound old s) (ring : ℕ) (index : W32) : Sound old (s.tryMove ring index) := by
  unfold State.tryMove
  split
  · exact h
  · exact Sound.ite (h.finishMove ..) h

theorem Sound.noteLine (h : Sound old s) (addr : ℕ) (who : Option (ℕ × W16)) : Sound old (s.noteLine addr who) :=
  h.report ..

theorem Sound.toMemory (h : Sound old s) (f : Flight) (lines : LineEcc) (va : ℕ) (bs : List Byte) :
    Sound old (s.toMemory f lines va bs) := by
  unfold State.toMemory
  split
  · exact h.cause ..
  · exact Sound.ite (((h.lineStore ..).noteLine ..).cause ..) ((h.lineStore ..).modCtx ..)

theorem Sound.markFeed (h : Sound old s) (f : Flight) : Sound old (s.markFeed f) := by
  unfold State.markFeed
  split
  · split
    · exact h
    · split
      · exact h.modVec ..
      · split
        · exact h.modEngine ..
        · exact h
  · exact h

theorem Sound.deliver (h : Sound old s) (f : Flight) (errs : MemErrs) (dst : ℕ) (bs : List Byte) (bad : Bool) :
    Sound old (s.deliver f errs dst bs bad) := by
  unfold State.deliver
  dsimp only
  split
  · exact (Sound.ite (h.cause ..) h).foldl (fun t a k => k.toMemory ..)
  · split
    · exact Sound.ite ((Sound.ite (((Sound.ite (h.cause ..) h).yardPut ..).cause ..) ((Sound.ite (h.cause ..) h).yardPut
        ..)).markFeed ..) (Sound.ite (((Sound.ite (h.cause ..) h).yardPut ..).cause ..) ((Sound.ite (h.cause ..) h).yardPut
        ..))
    · split
      · exact Sound.ite ((Sound.ite (h.cause ..) h).emit ..) ((Sound.ite (h.cause ..) h).cause ..)
      · split
        · exact (Sound.ite (h.cause ..) h).cause ..
        · rename_i _ _ _ v6
          have k7 := (Sound.ite (h.cause ..) h).bindSendTo v6
          exact k7.modFlight ..

theorem Sound.issueOne (h : Sound old s) (f : Flight) (errs : MemErrs) : Sound old (s.issueOne f errs) := by
  unfold State.issueOne
  dsimp only
  split
  · exact (h.deliver ..).modFlight ..
  · split
    · exact ((h.operands ..).deliver ..).modFlight ..
    · split
      · exact (Sound.ite (h.modMover ..) (h.cause ..)).modFlight ..
      · split
        · exact (h.cause ..).modFlight ..
        · exact (h.modMover ..).modFlight ..

theorem Sound.issue (h : Sound old s) (ring : Nat) (index : W32) (errs : MemErrs) (fuel : Nat) :
    Sound old (s.issue ring index errs fuel) := by
  induction fuel generalizing s with
  | zero => exact h
  | succ fuel ih =>
    unfold State.issue
    split
    · exact h
    · exact Sound.ite h (ih (h.issueOne ..))

theorem Sound.issueQueue (h : Sound old s) (errs : MemErrs) (fs : List Flight) : Sound old (s.issueQueue errs fs) := by
  induction fs generalizing s with
  | nil => exact h
  | cons f rest ih =>
    unfold State.issueQueue
    split
    · exact ih h
    · split
      · exact h
      · dsimp only
        have k := h.issue f.ring f.index errs (mvPieces f.bits)
        exact Sound.ite (Sound.ite k (ih (k.tryMove ..))) (ih (h.tryMove ..))

theorem Sound.issueMore (h : Sound old s) (u : UnitRef) (errs : MemErrs) : Sound old (s.issueMore u errs) :=
  Sound.ite h (h.issueQueue ..)

theorem Sound.readList (h : Sound old s) (f : Flight) (errs : MemErrs) : Sound old (s.readList f errs) :=
  Sound.ite (Sound.ite (((h.operands ..).modFlight ..).cause ..) ((h.operands ..).modFlight ..)) h

theorem Sound.runMover (h : Sound old s) (op : ℕ) (ring : ℕ) (index : W32) (errs : MemErrs) :
    Sound old (s.runMover op ring index errs) := by
  unfold State.runMover
  refine h.onFlight fun a1 t2 k3 => ?_
  dsimp only
  split
  · exact (((k3.readList ..).noteCause ..).finish ..).issueMore ..
  · exact ((k3.readList ..).modFlight ..).issueMore ..

theorem Sound.landed (h : Sound old s) (part : ℕ) (dm : ℕ) (errs : MemErrs) (r : ReadReq) (x : Option (List Byte × Bool)) :
    Sound old (s.landed part dm errs r x) := by
  unfold State.landed
  dsimp only
  split
  · exact h.modMover ..
  · split
    · exact (((h.modMover ..).cause ..).tryMove ..).issueMore ..
    · exact (((h.modMover ..).deliver ..).tryMove ..).issueMore ..

theorem Sound.takeReply {fetch : ReadReq → State → Option (List Byte × Bool) × State} (h : Sound old s) (part dm tag : Nat)
    (errs : MemErrs) (ok : ReadReq → Bool) (keeps : ∀ r t, Sound old t → Sound old (fetch r t).2) :
    Sound old (s.takeReply part dm tag errs ok fetch) := by
  unfold State.takeReply
  split
  · exact h
  · dsimp only
    have k := h.mile (source 3 part dm) 1
    refine Sound.ite h (Sound.ite ((k.modMover ..).drop ..) ?_)
    exact Sound.ite ((keeps _ _ k).modMover ..) ((keeps _ _ k).landed ..)

theorem Sound.thaw (h : Sound old s) : Sound old s.thaw := by
  unfold State.thaw
  refine h.foldl fun t1 a2 k3 => ?_
  dsimp only
  exact k3.landed ..

theorem Sound.commitStep (h : Sound old s) (ring : ℕ) (index : W32) (ctx : ℕ) : Sound old (s.commitStep ring index ctx) :=
    by
  unfold State.commitStep
  exact (h.modCtx ..).decide ..

theorem Sound.mirrorFail (h : Sound old s) (ctx : ℕ) : Sound old (s.mirrorFail ctx) := by
  unfold State.mirrorFail
  split
  · exact h
  · exact (h.modCtx ..).decide ..

theorem Sound.sendOpen (h : Sound old s) (ctx : ℕ) (m : Mirror) : Sound old (s.sendOpen ctx m) := by
  unfold State.sendOpen
  dsimp only
  split
  · exact (h.modCtx ..).mirrorFail ..
  · rename_i _ _ _ v6
    have k7 := (h.modCtx ..).bindSendTo v6
    exact k7.modCtx ..

theorem Sound.sendClose (h : Sound old s) (ctx : ℕ) (m : Mirror) : Sound old (s.sendClose ctx m) := by
  unfold State.sendClose
  dsimp only
  split
  · exact h.mirrorFail ..
  · split
    · exact h.mirrorFail ..
    · rename_i _ _ _ v6
      have k7 := h.bindSendTo v6
      exact k7.modCtx ..

theorem Sound.sendPage (h : Sound old s) (ctx : Nat) (lines : LineEcc) (page off : Nat) :
    Sound old (s.sendPage ctx lines page off) := by
  unfold State.sendPage
  dsimp only
  split
  · rename_i m p pa _ _ _
    have k : Sound old (if (s.memLoad pa mib2 lines (mib2 / 64)).1
        then (s.memLoad pa mib2 lines (mib2 / 64)).2.2.noteLine pa (some (ctx, (s.ctx ctx).gen))
        else (s.memLoad pa mib2 lines (mib2 / 64)).2.2) :=
      Sound.ite ((h.memLoad ..).noteLine ..) (h.memLoad ..)
    split
    · exact k.mirrorFail ..
    · rename_i sent
      exact (k.sendTo sent).modCtx ..
  · exact h.mirrorFail ..

theorem Sound.sendPages (h : Sound old s) (ctx : ℕ) (lines : LineEcc) (m : Mirror) :
    Sound old (s.sendPages ctx lines m) := by
  unfold State.sendPages
  dsimp only
  split
  · exact Sound.ite (((h.modCtx ..).foldl (fun t a k => Sound.ite (k.sendPage ..) k)).sendClose ..) ((h.modCtx ..).foldl
      (fun t a k => Sound.ite (k.sendPage ..) k))
  · exact (h.modCtx ..).foldl (fun t a k => Sound.ite (k.sendPage ..) k)

theorem Sound.beginMirror (h : Sound old s) (ring : ℕ) (index : W32) (ctx : ℕ) :
    Sound old (s.beginMirror ring index ctx) := h.sendOpen ..

theorem Sound.openAnswered (h : Sound old s) (ctx : ℕ) (lines : LineEcc) (tag : ℕ) (result : ℕ) :
    Sound old (s.openAnswered ctx lines tag result) := by
  unfold State.openAnswered
  split
  · exact h
  · exact Sound.ite h (Sound.ite (h.sendPages ..) (Sound.ite (h.sendOpen ..) (h.mirrorFail ..)))

theorem Sound.pageAnswered (h : Sound old s) (ctx : ℕ) (tag : ℕ) (result : ℕ) :
    Sound old (s.pageAnswered ctx tag result) := by
  unfold State.pageAnswered
  split
  · exact h
  · exact Sound.ite h (Sound.ite (h.mirrorFail ..) (Sound.ite (((h.modCtx ..).mile ..).sendClose ..) ((h.modCtx ..).mile
      ..)))

theorem Sound.closeAnswered (h : Sound old s) (ctx : ℕ) (tag : ℕ) (accept : Bool) :
    Sound old (s.closeAnswered ctx tag accept) := by
  unfold State.closeAnswered
  split
  · exact h
  · exact Sound.ite h (Sound.ite ((h.modCtx ..).commitStep ..) (h.mirrorFail ..))

theorem Sound.memGet (h : Sound old s) (ctx : Nat) (lines : LineEcc) (va n : Nat) :
    Sound old (s.memGet ctx lines va n).2.2 := by
  refine List.foldlRecOn (lineSpans va n) _ (motive := fun x : Bool × List Byte × State => Sound old x.2.2) h fun x k a _ => ?_
  dsimp only
  split
  · exact k
  · exact Sound.ite ((k.memLoad ..).noteLine ..) (k.memLoad ..)

theorem Sound.memPut (h : Sound old s) (ctx : Nat) (lines : LineEcc) (va : Nat) (bs : List Byte) :
    Sound old (s.memPut ctx lines va bs).2 := by
  refine h.foldlSnd fun x a k => ?_
  dsimp only
  split
  · exact k
  · split
    · exact (k.lineStore ..).noteLine ..
    · exact (k.lineStore ..).modCtx ..

theorem Sound.setAccum (h : Sound old s) (a : Accum) : Sound old (s.setAccum a) := h.update

theorem Sound.collFinish (h : Sound old s) (f : Flight) (status : Byte) (except : List ℕ) :
    Sound old (s.collFinish f status except) := (h.collEnd ..).decide ..

theorem Sound.collFlags (h : Sound old s) (f : Flight) (bs : List Byte) : Sound old (s.collFlags f bs) :=
  Sound.ite h (Sound.ite ((h.modFlight ..).cause ..) (h.modFlight ..))

theorem Sound.collSend (h : Sound old s) (f : Flight) (kind : ℕ) (peer : ℕ) (a : Accum) (bs : List Byte) :
    Sound old (s.collSend f kind peer a bs) := by
  unfold State.collSend
  dsimp only
  split
  · exact h.cause ..
  · rename_i _ _ _ v6
    have k7 := h.bindSendTo v6
    exact Sound.ite (k7.modFlight ..) k7

theorem Sound.collResult (h : Sound old s) (f : Flight) (errs : MemErrs) (a : Accum) (bs : List Byte) :
    Sound old (s.collResult f errs a bs) := by
  have stored (r : Bool × State) (l : Sound old r.2) :
      Sound old ((if r.1 then r.2.cause f wsData else r.2).collFlags f bs) := (Sound.ite (l.cause ..) l).collFlags ..
  have marked : Sound old (if a.mismatch then s.cause f wsSegment else s) := Sound.ite (h.cause ..) h
  unfold State.collResult
  refine Sound.setAccum ?_ _
  dsimp only
  split
  · refine Sound.foldl ?_ fun t c k => k.collSend f 9 c a bs
    split
    · refine stored _ ?_
      split
      · exact marked.yardPut ..
      · exact marked.memPut ..
    · exact Sound.ite (marked.collFlags ..) marked
  · split
    · refine stored _ ?_
      split
      · exact marked.yardPut ..
      · exact marked.memPut ..
    · exact Sound.ite (marked.collFlags ..) marked

theorem Sound.collSum (h : Sound old s) (f : Flight) (errs : MemErrs) (a : Accum) : Sound old (s.collSum f errs a) := by
  unfold State.collSum
  dsimp only
  split
  · exact h
  · refine Sound.ite (h.setAccum ..) ?_
    split
    · exact h.collResult ..
    · exact (((Sound.ite (h.cause ..) h).collFlags ..).collSend ..).setAccum ..

theorem Sound.collTry (h : Sound old s) (ring : ℕ) (index : W32) : Sound old (s.collTry ring index) := by
  unfold State.collTry
  split
  · exact h
  · exact Sound.ite h (Sound.ite (h.collFinish ..) (Sound.ite (h.collFinish ..) h))

theorem Sound.collRead (h : Sound old s) (f : Flight) (k : Nat) (errs : MemErrs) : Sound old (s.collRead f k errs).2 := by
  have read (r : Bool × List Byte × State) (l : Sound old r.2.2) :
      Sound old (if r.1 then r.2.2.cause f wsData else r.2.2) := Sound.ite (l.cause ..) l
  unfold State.collRead
  dsimp only
  split
  · split
    · exact read _ (h.operands ..)
    · exact read _ (h.memGet ..)
  · split
    · exact h.operands ..
    · exact h.memGet ..

theorem Sound.collOwn (h : Sound old s) (f : Flight) (k : Nat) (errs : MemErrs) (sums : List SumSlip) :
    Sound old (s.collOwn f k errs sums) := by
  unfold State.collOwn
  dsimp only
  split
  · split
    · exact (h.collRead ..).collResult ..
    · split
      · exact h.collResult ..
      · exact h.setAccum ..
  · exact (h.collRead ..).collSum ..

theorem Sound.collPump (h : Sound old s) (ring : Nat) (index : W32) (errs : MemErrs) (sums : List SumSlip) (fuel : Nat) :
    Sound old (s.collPump ring index errs sums fuel) := by
  induction fuel generalizing s with
  | zero => exact h
  | succ fuel ih =>
    unfold State.collPump
    dsimp only
    split
    · exact h
    · exact Sound.ite h (Sound.ite (h.modFlight ..) (Sound.ite (ih ((h.modFlight ..).collOwn ..)) h))

theorem Sound.collLate (h : Sound old s) (f : Flight) (errs : MemErrs) : Sound old (s.collLate f errs) := by
  refine h.foldl fun t a k => ?_
  split
  · exact k.collResult ..
  · exact k

theorem Sound.collMore (h : Sound old s) (ring : ℕ) (index : W32) (errs : MemErrs) (sums : List SumSlip) :
    Sound old (s.collMore ring index errs sums) := by
  unfold State.collMore
  split
  · exact h
  · exact Sound.ite h (((h.collLate ..).collPump ..).collTry ..)

theorem Sound.resumeColls (h : Sound old s) (errs : MemErrs) (sums : List SumSlip) :
    Sound old (s.resumeColls errs sums) := Sound.ite h (h.foldl (fun t a k => k.collMore ..))

theorem Sound.runColl (h : Sound old s) (op : ℕ) (ring : ℕ) (index : W32) (errs : MemErrs) (sums : List SumSlip) :
    Sound old (s.runColl op ring index errs sums) := by
  unfold State.runColl
  refine h.onFlight fun a1 t2 k3 => ?_
  split
  · exact (k3.collFinish ..).resumeColls ..
  · exact (k3.modFlight ..).resumeColls ..

theorem Sound.onFenced {op ring : Nat} {index : W32} {act : Flight → State → State} (h : Sound old s)
    (keeps : ∀ f t, Sound old t → Sound old (act f t)) : Sound old (s.onFenced op ring index act) :=
  h.onFlight fun _ _ k => Sound.ite k (Sound.ite k.update (keeps _ _ k))

theorem Sound.countDone (h : Sound old s) (f : Flight) : Sound old (s.countDone f) := by
  unfold State.countDone
  split
  · exact Sound.ite (h.modRing ..) h
  · exact h

theorem Sound.passHead (h : Sound old s) (ring : ℕ) : Sound old (s.passHead ring) := by
  unfold State.passHead
  dsimp only
  split
  · exact h
  · exact Sound.ite h (((h.modRing ..).update).mile ..)

theorem Sound.mileUnit (h : Sound old s) (u : UnitRef) : Sound old (s.mileUnit u) := by
  unfold State.mileUnit
  split
  · exact h
  · exact h
  · exact h.mile ..

theorem Sound.flush (h : Sound old s) : Sound old s.flush := Sound.ite h.update (Sound.ite h.update h.update)

theorem Sound.degrade (h : Sound old s) (offset : ℕ) : Sound old (s.degrade offset) :=
  Sound.ite h (((h.update.note ..).update).event ..)

theorem Sound.readRecord (h : Sound old s) (r : Request) (ecc : Ecc) (area : ℕ) (cursor : ℕ) :
    Sound old (s.readRecord r ecc area cursor) := by
  unfold State.readRecord
  split
  · exact h.reply ..
  · exact Sound.ite ((h.degrade ..).reply ..) (h.ok ..)

theorem Sound.flatWatch {f : State → State} (h : Sound old s) (keeps : ∀ t, Sound old t → Sound old (f t)) :
    Sound old (s.flatWatch f) := by
  unfold State.flatWatch
  dsimp only
  split
  · exact keeps _ h
  · split
    · exact (keeps _ h).note ..
    · exact keeps _ h

theorem Sound.startDone (h : Sound old s) : Sound old s.startDone :=
  Sound.ite (Sound.ite (((h.recap (fun t k => k.update)).update).noteDone ..) ((h.recap (fun t k =>
    k.update)).update)) h

theorem Sound.setEntry (h : Sound old s) (u : UnitState) : Sound old (s.setEntry u) :=
  Sound.ite h (Sound.ite (h.flatWatch (fun t k => k.recap (fun t k => k.update))) (((h.flatWatch (fun t k => k.recap
    (fun t k => k.update))).event ..).startDone ..))

theorem Sound.hayNote (h : Sound old s) : Sound old s.hayNote := h.report ..

theorem Sound.putEst (h : Sound old s) (closed : Bool) (back : ReadBacks) : Sound old (s.putEst closed back) := by
  have k (v : EstRecord) : Sound old { s with hay.record := v, mram := (s.mram.writeEst v back).2 } := by
    unfold Mram.writeEst
    dsimp only
    split
    · exact h.update
    · exact h.update
  unfold State.putEst
  dsimp only
  split
  · exact (k _).hayNote
  · exact k _

theorem Sound.writeEst (h : Sound old s) (closed : Bool) (back : ReadBacks) : Sound old (s.writeEst closed back) :=
  Sound.ite h (h.putEst ..)

theorem Sound.shutEst (h : Sound old s) (closed : Bool) (back : ReadBacks) : Sound old (s.shutEst closed back) :=
  Sound.ite (h.writeEst ..) h

theorem Sound.endWalk (h : Sound old s) (outcome : ℕ) : Sound old (s.endWalk outcome) := by
  unfold State.endWalk
  split
  · exact h
  · exact h.update.event ..

theorem Sound.fenceCart (h : Sound old s) : Sound old s.fenceCart := Sound.ite h ((h.update.setEntry ..).endWalk ..)

theorem Sound.setMeasure (h : Sound old s) (i : ℕ) (v : List Byte) : Sound old (s.setMeasure i v) := h.update

theorem Sound.remeasureFuses (h : Sound old s) : Sound old s.remeasureFuses := h.setMeasure ..

theorem Sound.remeasureDebug (h : Sound old s) : Sound old s.remeasureDebug := h.setMeasure ..

theorem Sound.releaseHalts (h : Sound old s) : Sound old s.releaseHalts := h.update

theorem Sound.setLevel (h : Sound old s) (level : ℕ) (key : Option ℕ) : Sound old (s.setLevel level key) :=
  Sound.ite h (Sound.ite (((((h.setMeasure ..).update).endInjections ..).releaseHalts ..).update) (((h.setMeasure
    ..).update).endInjections ..))

theorem Sound.eraseAll (h : Sound old s) : Sound old s.eraseAll := h.formed s.eraseAll_form rfl

theorem Sound.enterIntrusive (h : Sound old s) (r : Request) : Sound old (s.enterIntrusive r) :=
  ((((h.eraseAll ..).update).remeasureDebug ..).setLevel ..).ok ..

theorem Sound.zeroAllotment (h : Sound old s) (w : YardWord) : Sound old (s.zeroAllotment w) :=
  h.formed (s.zeroAllotment_form w) rfl

theorem Sound.resettle (h : Sound old s) : Sound old s.resettle := h.foldl (fun t a k => k.moveReserved ..)

theorem Sound.dropGrants (h : Sound old s) (c : ℕ) : Sound old (s.dropGrants c) :=
  h.update.foldl (fun t a k => k.update.reply ..)

theorem Sound.dropRestore (h : Sound old s) (c : ℕ) : Sound old (s.dropRestore c) := by
  unfold State.dropRestore
  split
  · exact h.reply ..
  · exact h

theorem Sound.release (h : Sound old s) (c : ℕ) : Sound old (s.release c) := by
  unfold State.release
  dsimp only
  split
  · exact ((((((((h.freeTokensOf ..).foldl (fun t a k => k.modRing ..)).dropGrants ..).dropRestore ..).foldl (fun t a k =>
      k.zeroAllotment ..)).freePages ..).modCtx ..).resettle ..).ok ..
  · exact (((((((h.freeTokensOf ..).foldl (fun t a k => k.modRing ..)).dropGrants ..).dropRestore ..).foldl (fun t a k =>
      k.zeroAllotment ..)).freePages ..).modCtx ..).resettle ..

theorem Sound.answerSiding (h : Sound old s) : Sound old s.answerSiding :=
  Sound.ite ((h.foldl (fun t a k => k.ok ..)).foldl (fun t a k => k.enterIntrusive ..)) h

theorem Sound.zeroFrame (h : Sound old s) (f : Nat) : Sound old (s.zeroFrame f) := h.formed (s.zeroFrame_form f) rfl

theorem Sound.settleGrants (h : Sound old s) : Sound old s.settleGrants :=
  h.update.foldl (fun t a k => (k.modCtx ..).ok ..)

theorem Sound.nextZeroed (h : Sound old s) : Sound old s.nextZeroed := by
  unfold State.nextZeroed
  split
  · exact (h.zeroFrame ..).update
  · split
    · exact (h.zeroFrame ..).update
    · exact h

theorem Sound.scrubbed (h : Sound old s) (w : ℕ) : Sound old (s.scrubbed w) := h.update

theorem Sound.newTail (h : Sound old s) (ring : ℕ) (tail : W32) : Sound old (s.newTail ring tail) :=
  Sound.ite (h.modRing ..) (Sound.ite (h.haltByRing ..) h)

theorem Sound.dropAperture (h : Sound old s) : Sound old s.dropAperture := h.drop ..

theorem Sound.storeRecord (h : Sound old s) (c : ℕ) (lines : LineEcc) : Sound old (s.storeRecord c lines).2.2 :=
  h.memGet ..

theorem Sound.modStore (h : Sound old s) (c : ℕ) (f : Store → Store) : Sound old (s.modStore c f) := h.modCtx ..

theorem Sound.restoreFail (h : Sound old s) (c : ℕ) : Sound old (s.restoreFail c) := by
  unfold State.restoreFail
  split
  · exact h
  · exact (h.modStore ..).reply ..

theorem Sound.restoreAnswered (h : Sound old s) (c : ℕ) (tag : ℕ) (applied : Bool) :
    Sound old (s.restoreAnswered c tag applied) := by
  unfold State.restoreAnswered
  split
  · exact h
  · exact Sound.ite h (Sound.ite (h.restoreFail ..) (Sound.ite ((h.modStore ..).ok ..) (h.modStore ..)))

theorem Sound.wagonAnswered (h : Sound old s) (ring : ℕ) (index : W32) (tag : ℕ) (applied : Bool) :
    Sound old (s.wagonAnswered ring index tag applied) := by
  unfold State.wagonAnswered
  split
  · exact h
  · exact Sound.ite h (Sound.ite ((Sound.ite (h.modFlight ..) ((h.modFlight ..).cause ..)).tryMove ..) (Sound.ite
      ((Sound.ite (h.modFlight ..) ((h.modFlight ..).cause ..)).collTry ..) ((h.modFlight ..).decide ..)))

theorem Sound.mirrorLost (h : Sound old s) (c : ℕ) (tag : ℕ) : Sound old (s.mirrorLost c tag) := by
  unfold State.mirrorLost
  split
  · exact h
  · exact Sound.ite (h.mirrorFail ..) h

theorem Sound.answered (h : Sound old s) (o : OutPacket) (result : Option ℕ) (lines : LineEcc) :
    Sound old (s.answered o result lines) := by
  unfold State.answered
  split
  · exact h.wagonAnswered ..
  · exact h.restoreAnswered ..
  · exact h.openAnswered ..
  · exact h.pageAnswered ..
  · exact h.mirrorLost ..
  · exact h.mirrorLost ..
  · exact h.mirrorLost ..
  · exact h
  · exact h

theorem Sound.giveUp (h : Sound old s) (p : W32 → Bool) : Sound old (s.giveUp p) :=
  h.update.foldl (fun t a k => k.answered ..)

theorem Sound.collLost (h : Sound old s) (p : W32 → Bool) : Sound old (s.collLost p) :=
  h.foldl (fun t a k => (k.cause ..).collTry ..)

theorem Sound.mirrorsLost (h : Sound old s) (p : W32 → Bool) : Sound old (s.mirrorsLost p) := by
  unfold State.mirrorsLost
  refine h.foldl fun t1 a2 k3 => ?_
  dsimp only
  exact k3.mirrorFail ..

theorem Sound.loseNodes (h : Sound old s) (p : W32 → Bool) : Sound old (s.loseNodes p) :=
  ((h.giveUp ..).collLost ..).mirrorsLost ..

theorem Sound.portGone (h : Sound old s) (port : ℕ) (st : PortState) (cause : ℕ) : Sound old (s.portGone port st cause) :=
    by
  unfold State.portGone
  exact ((h.modPort ..).update).loseNodes ..

theorem Sound.linkDown (h : Sound old s) (port : ℕ) (cause : ℕ) : Sound old (s.linkDown port cause) :=
  ((h.portGone ..).report ..).event ..

theorem Sound.noteReplay (h : Sound old s) (port : ℕ) : Sound old (s.noteReplay port) :=
  Sound.ite ((h.modPort ..).report ..) (h.modPort ..)

theorem Sound.startReplay (h : Sound old s) (port : ℕ) (x : W32) : Sound old (s.startReplay port x) :=
  Sound.ite h (Sound.ite (((((h.noteReplay ..).modPort ..).linkDown ..).modPort ..).report ..) ((h.noteReplay
    ..).modPort ..))

theorem Sound.askedReplay (h : Sound old s) (port : ℕ) (x : W32) : Sound old (s.askedReplay port x) := by
  unfold State.askedReplay
  split
  · exact Sound.ite h (h.startReplay ..)
  · exact h.startReplay ..

theorem Sound.takeTrailer (h : Sound old s) (port : ℕ) (t : Trailer) : Sound old (s.takeTrailer port t) :=
  Sound.ite (((Sound.ite ((h.modPort ..).mile ..) (h.modPort ..)).sendWaiting ..).askedReplay ..) ((Sound.ite
    ((h.modPort ..).mile ..) (h.modPort ..)).sendWaiting ..)

theorem Sound.noticeFor (h : Sound old s) (x : Packet) : Sound old (s.noticeFor x) := Sound.ite (h.notice ..) h

theorem Sound.refuseReserved (h : Sound old s) (port : ℕ) : Sound old (s.refuseReserved port) := by
  unfold State.refuseReserved
  refine (h.modPort ..).foldl fun t1 a2 k3 => ?_
  dsimp only
  exact Sound.ite ((k3.modPort ..).drop ..) (((k3.modPort ..).dack ..).noticeFor ..)

theorem Sound.railUp (h : Sound old s) (port : ℕ) (node : W32) : Sound old (s.railUp port node) :=
  ((h.modPort ..).event ..).sendWaiting ..

theorem Sound.validFrame (h : Sound old s) (port : ℕ) (frame : List Byte) (t : Trailer) :
    Sound old (s.validFrame port frame t) := by
  unfold State.validFrame
  dsimp only
  split
  · exact (h.modPort ..).linkDown ..
  · split
    · exact h.modPort ..
    · split
      · split
        · exact ((h.modPort ..).railUp ..).takeTrailer ..
        · split
          · exact (((h.modPort ..).railUp ..).takeTrailer ..).linkDown ..
          · exact ((((h.modPort ..).railUp ..).takeTrailer ..).modPort ..).refuseReserved ..
      · split
        · exact (h.modPort ..).takeTrailer ..
        · split
          · exact ((h.modPort ..).takeTrailer ..).linkDown ..
          · exact (((h.modPort ..).takeTrailer ..).modPort ..).refuseReserved ..

theorem Sound.resendOne (h : Sound old s) (port : ℕ) (o : OutPacket) : Sound old (s.resendOne port o) :=
  (h.place_ ..).modPort ..

theorem Sound.resettlePacket (h : Sound old s) (port : ℕ) (o : OutPacket) : Sound old (s.resettlePacket port o) :=
  Sound.ite (h.answered ..) (Sound.ite (h.resendOne ..) (Sound.ite (h.answered ..) (Sound.ite h.update h)))

theorem Sound.popPacket (h : Sound old s) (port : ℕ) (vl : ℕ) : Sound old (s.popPacket port vl) := h.modPort ..

theorem Sound.answer (h : Sound old s) (x : Packet) (result : ℕ) : Sound old (s.answer x result) :=
  Sound.ite (h.mirrorReplyTo ..) (h.dack ..)

theorem Sound.dropFlits (h : Sound old s) (x : Packet) : Sound old (s.dropFlits x) := h.drop ..

theorem Sound.refuse (h : Sound old s) (x : Packet) (result : ℕ) : Sound old (s.refuse x result) :=
  (Sound.ite (h.dropFlits ..) (Sound.ite (h.drop ..) (Sound.ite (h.drop ..) (Sound.ite (Sound.ite (h.drop ..)
    (Sound.ite (h.drop ..) (h.drop ..))) h)))).answer ..

theorem Sound.onPacket {port kind : Nat} {act : Packet → State → State} (h : Sound old s)
    (keeps : ∀ x t, Sound old t → Sound old (act x t)) : Sound old (s.onPacket port kind act) := by
  unfold State.onPacket
  split
  · exact h
  · dsimp only
    have k := h.popPacket port
    split
    · exact (k _).update
    · split
      · exact ((k _).refuse ..).noticeFor ..
      · exact keeps _ _ (k _)

theorem Sound.applyWrite (h : Sound old s) (ctx va : Nat) (bs : List Byte) (lines : LineEcc) :
    Sound old (s.applyWrite ctx va bs lines).2 := by
  refine h.foldlSnd fun x a k => ?_
  dsimp only
  split
  · exact k
  · split
    · exact (k.lineStore ..).noteLine ..
    · exact ((k.lineStore ..).modCtx ..).modStore ..

theorem Sound.putOwn (h : Sound old s) (ctx : ℕ) (va : ℕ) (bs : List Byte) : Sound old (s.putOwn ctx va bs) := by
  unfold State.putOwn
  refine h.foldl fun t1 a2 k3 => ?_
  dsimp only
  split
  · exact k3
  · exact k3.lineStore ..

theorem Sound.onReply {port kind : Nat} {act : Packet → State → State} (h : Sound old s)
    (keeps : ∀ x t, Sound old t → Sound old (act x t)) : Sound old (s.onReply port kind act) := by
  unfold State.onReply
  split
  · exact h
  · exact Sound.ite (h.popPacket ..).update (Sound.ite ((h.popPacket ..).dropFlits ..)
      (Sound.ite (h.popPacket ..) (keeps _ _ (h.popPacket ..))))

theorem Sound.settled (h : Sound old s) (o : OutPacket) : Sound old (s.settled o) := h.update

theorem Sound.follow (h : Sound old s) (lines : LineEcc) (o : OutPacket) (a : Answer) :
    Sound old (s.follow lines o a) := by
  cases a with
  | result r => exact h.answered ..
  | reply accept =>
    simp only [State.follow]
    split
    · exact h.closeAnswered ..
    · exact h

theorem Sound.takeAnswer (h : Sound old s) (lines : LineEcc) (o : OutPacket) (a : Answer) :
    Sound old (s.takeAnswer lines o a) :=
  Sound.ite (h.settled o).update ((h.settled o).follow ..)

theorem Sound.dackEntry (h : Sound old s) (lines : LineEcc) (node : W32) (entry : Nat) :
    Sound old (s.dackEntry lines node entry) := by
  unfold State.dackEntry
  split
  · exact h
  · exact h.takeAnswer ..

theorem Sound.thawAll (h : Sound old s) : Sound old s.thawAll :=
  ((h.update.foldl (fun t a k => k.follow ..)).thaw ..).resumeColls ..

theorem Sound.duplicate (h : Sound old s) (port : ℕ) (x : Packet) : Sound old (s.duplicate port x) :=
  (h.modPort ..).answer ..

theorem Sound.enterSiding (h : Sound old s) : Sound old s.enterSiding :=
  ((h.revoke ..).update).foldl (fun t a k => k.beginTeardown ..)

theorem Sound.setPart (h : Sound old s) (p : ℕ) (u : UnitState) : Sound old (s.setPart p u) := h.modPart ..

theorem Sound.strand (h : Sound old s) (c : ℕ) : Sound old (s.strand c) := (Sound.ite (h.haltAll ..) h).modCtx ..

theorem Sound.holdPart (h : Sound old s) (p : ℕ) : Sound old (s.holdPart p) :=
  (h.setPart ..).foldl (fun t a k => k.strand ..)

theorem Sound.trimEnd (h : Sound old s) : Sound old s.trimEnd := Sound.ite h.update h

theorem Sound.markHeld (h : Sound old s) : Sound old s.markHeld := h.update

theorem Sound.settleParts (h : Sound old s) : Sound old s.settleParts :=
  ((((h.trimEnd ..).foldl (fun t a k => k.setPart ..)).foldl (fun t a k => k.holdPart ..)).update).markHeld ..

theorem Sound.reprofile {f : State → State} (h : Sound old s) (keeps : ∀ t, Sound old t → Sound old (f t)) :
    Sound old (s.reprofile f) := by
  have k : Sound old (s.recap fun t => (f t).settleParts) := h.recap fun t k => (keeps t k).settleParts
  exact Sound.ite k (k.event ..)

theorem Sound.modEvent (h : Sound old s) (id : ℕ) (f : Event → Event) : Sound old (s.modEvent id f) :=
  h.update

theorem Sound.logEvent (h : Sound old s) (e : Event) : Sound old (s.logEvent e) := by
  unfold State.logEvent
  split
  · exact h.update
  · split
    · exact h.update
    · exact h.update.note ..

theorem Sound.fallBack (h : Sound old s) : Sound old s.fallBack := Sound.ite h (h.flatWatch (fun t k => k.update))

theorem Sound.moveFlights (h : Sound old s) (p : ℕ) (e : ℕ) (k : ℕ) : Sound old (s.moveFlights p e k) :=
  (h.update.modUnit ..).modUnit ..

theorem Sound.markFenced (h : Sound old s) (src : W32) : Sound old (s.markFenced src) := by
  unfold State.markFenced
  dsimp only
  split
  · split
    · exact (h.modPart ..).moveFlights ..
    · exact h.modPart ..
  · exact Sound.ite (h.modVec ..) (Sound.ite (h.modMover ..) (Sound.ite ((Sound.ite (h.linkDown ..) h).modPort ..)
      (Sound.ite (Sound.ite h.update (h.update.report ..)) (Sound.ite (h.fenceCart ..) (Sound.ite (h.fallBack ..) h)))))

theorem Sound.fence (h : Sound old s) (src : W32) : Sound old (s.fence src) :=
  (h.reprofile (fun t k => Sound.ite ((k.markFenced ..).listFence ..) (k.markFenced ..))).startDone ..

theorem Sound.quietPorts (h : Sound old s) : Sound old s.quietPorts := h.update

theorem Sound.flushOut (h : Sound old s) (ch : Chan) : Sound old (s.flushOut ch) :=
  h.foldl (fun t a k => k.writeTicket ..)

theorem Sound.saveStall (h : Sound old s) (p : Nat) : Sound old (s.saveStall p) := h.formed (s.saveStall_form p) rfl

theorem Sound.beginModuleReset (h : Sound old s) (cause : ℕ) (flush : Bool) :
    Sound old (s.beginModuleReset cause flush) := ((Sound.ite (h.flush ..) h).quietPorts ..).update

theorem Sound.requestCycle (h : Sound old s) : Sound old s.requestCycle :=
  ((((h.flush ..).quietPorts ..).update).modPast ..).emit ..

theorem Sound.restoreAll (h : Sound old s) (cs : List ℕ) : Sound old (s.restoreAll cs) :=
  h.foldl (fun t a k => k.restoreStart ..)

theorem Sound.unitStart (h : Sound old s) (src : W32) : Sound old (s.unitStart src) :=
  Sound.ite (Sound.ite (h.haltByRing ..) h) (Sound.ite (Sound.ite h (Sound.ite (h.modPort ..) (h.linkDown ..))) h)

theorem Sound.dropLane (h : Sound old s) (port : ℕ) (vl : ℕ) : Sound old (s.dropLane port vl) :=
  (h.foldl (fun t a k => Sound.ite ((k.popPacket ..).drop ..) (Sound.ite (((k.popPacket ..).refuse ..).noticeFor ..)
    ((k.popPacket ..).dropFlits ..)))).modPort ..

theorem Sound.dropReceived (h : Sound old s) : Sound old s.dropReceived :=
  h.foldl (fun t a k => k.foldl (fun t a k => k.dropLane ..))

theorem Sound.abortCommit (h : Sound old s) : Sound old s.abortCommit := by
  unfold State.abortCommit
  split
  · exact h.reply ..
  · exact h

theorem Sound.startRecovery (h : Sound old s) (level : ℕ) (src : W32) (events : List ℕ) (reqs : List Request) (fence : List
    W32) :
    Sound old (s.startRecovery level src events reqs fence) :=
  Sound.ite (((h.foldl (fun t a k => k.modEvent ..)).update).unitStart ..) (Sound.ite ((((h.foldl (fun t a k =>
    k.modEvent ..)).update).saveStall ..).restoreAll ..) (Sound.ite (((((((h.foldl (fun t a k => k.modEvent
    ..)).update).foldl (fun t a k => k.saveStall ..)).abortCommit ..).update).dropReceived ..).restoreAll ..) (Sound.ite
    (((((((h.foldl (fun t a k => k.modEvent ..)).update).modPast ..).foldl (fun t a k => k.ok ..)).flushOut ..).flushOut
    ..).beginModuleReset ..) (((((((h.foldl (fun t a k => k.modEvent ..)).update).modPast ..).foldl (fun t a k => k.ok
    ..)).flushOut ..).flushOut ..).requestCycle ..))))

theorem Sound.eventDone (h : Sound old s) (id : ℕ) : Sound old (s.eventDone id) := by
  unfold State.eventDone
  split
  · exact h
  · exact (h.modEvent ..).event ..

theorem Sound.finishRecovery (h : Sound old s) (r : Recovery) : Sound old (s.finishRecovery r) :=
  (h.update.foldl (fun t a k => k.eventDone ..)).foldl (fun t a k => k.ok ..)

theorem Sound.react (h : Sound old s) (level : ℕ) (src : W32) (ctx : Option (ℕ × W16)) (id : ℕ) (fence : List W32) :
    Sound old (s.react level src ctx id fence) :=
  Sound.ite h (Sound.ite ((Sound.ite (h.haltAll ..) h).eventDone ..) (h.startRecovery ..))

theorem Sound.raiseEvent (h : Sound old s) (code : ℕ) (src : W32) (ctx : Option (ℕ × W16)) (info : W32) (injected : Bool)
    (level : ℕ) (fence : List W32) :
    Sound old (s.raiseEvent code src ctx info injected level fence) := by
  unfold State.raiseEvent
  dsimp only
  split
  · exact (Sound.ite ((Sound.ite (Sound.ite (Sound.ite ((h.note ..).noteFirst ..) (((h.note ..).noteFirst ..).update))
      ((Sound.ite ((h.note ..).noteFirst ..) (((h.note ..).noteFirst ..).update)).logEvent ..)) ((Sound.ite (Sound.ite
      ((h.note ..).noteFirst ..) (((h.note ..).noteFirst ..).update)) ((Sound.ite ((h.note ..).noteFirst ..) (((h.note
      ..).noteFirst ..).update)).logEvent ..)).event ..)).flushOut ..) (Sound.ite (Sound.ite (Sound.ite ((h.note
      ..).noteFirst ..) (((h.note ..).noteFirst ..).update)) ((Sound.ite ((h.note ..).noteFirst ..) (((h.note ..).noteFirst
      ..).update)).logEvent ..)) ((Sound.ite (Sound.ite ((h.note ..).noteFirst ..) (((h.note ..).noteFirst ..).update))
      ((Sound.ite ((h.note ..).noteFirst ..) (((h.note ..).noteFirst ..).update)).logEvent ..)).event ..))).update
  · exact (Sound.ite ((Sound.ite (Sound.ite (Sound.ite ((h.note ..).noteFirst ..) (((h.note ..).noteFirst ..).update))
      ((Sound.ite ((h.note ..).noteFirst ..) (((h.note ..).noteFirst ..).update)).logEvent ..)) ((Sound.ite (Sound.ite
      ((h.note ..).noteFirst ..) (((h.note ..).noteFirst ..).update)) ((Sound.ite ((h.note ..).noteFirst ..) (((h.note
      ..).noteFirst ..).update)).logEvent ..)).event ..)).flushOut ..) (Sound.ite (Sound.ite (Sound.ite ((h.note
      ..).noteFirst ..) (((h.note ..).noteFirst ..).update)) ((Sound.ite ((h.note ..).noteFirst ..) (((h.note ..).noteFirst
      ..).update)).logEvent ..)) ((Sound.ite (Sound.ite ((h.note ..).noteFirst ..) (((h.note ..).noteFirst ..).update))
      ((Sound.ite ((h.note ..).noteFirst ..) (((h.note ..).noteFirst ..).update)).logEvent ..)).event ..))).react ..

theorem Sound.putStall (h : Sound old s) (p : ℕ) (bs : List Byte) : Sound old (s.putStall p bs) := by
  unfold State.putStall
  refine h.foldl fun t1 a2 k3 => ?_
  split
  · exact k3.yardStore ..
  · exact k3

theorem Sound.writeStall (h : Sound old s) (src : W32) : Sound old (s.writeStall src) := by
  have counted (t : State) (k : Sound old t) (q : List Nat) (n : Nat) :
      Sound old { t with yard.stallSeq := q, fresh := n } := k.update
  unfold State.writeStall
  split
  · exact h
  · exact counted _ (h.putStall ..) _ _

theorem Sound.vxFree (h : Sound old s) (o : WagonOut) : Sound old (s.vxFree o).2 :=
  (h.foldlSnd fun _ _ k => k.take _).take 1

theorem Sound.vectorHit (h : Sound old s) (p : ℕ) : Sound old (s.vectorHit p) :=
  Sound.ite ((h.modVec ..).report ..) (h.modVec ..)

theorem Sound.storeVector (h : Sound old s) (p : ℕ) (f : Flight) (y : YardWord) (ecc : YardEcc) (readBad : Bool) (tile :
    Flags) (o : WagonOut) :
    Sound old (s.storeVector p f y ecc readBad tile o) := by
  unfold State.storeVector
  split
  · exact (((h.vxFree ..).yardPut ..).mile ..).finish ..
  · exact ((h.yardPut ..).mile ..).finish ..

theorem Sound.coreHit (h : Sound old s) (i : ℕ) : Sound old (s.coreHit i) := Sound.ite (h.update.report ..) h.update

theorem Sound.spoilStep (h : Sound old s) (code : ℕ) (ctx : Option (ℕ × W16)) : Sound old (s.spoilStep code ctx) := by
  unfold State.spoilStep
  split
  · exact Sound.ite (h.markInvalid ..) h
  · exact h

theorem Sound.frameBad (h : Sound old s) (f : ℕ) (dev : ℕ) : Sound old (s.frameBad f dev) :=
  (((h.take ..).update).memTicket ..).retireFrame ..

theorem Sound.reservedBad (h : Sound old s) (dev : ℕ) : Sound old (s.reservedBad dev) := (h.take ..).frameBad ..

theorem Sound.reported (h : Sound old s) (r : Report) : Sound old (s.reported r) :=
  Sound.ite (h.residueHit ..) (Sound.ite (h.vectorHit ..) (Sound.ite (h.coreHit ..) (Sound.ite (h.frameBad ..)
    (Sound.ite (h.reservedBad ..) (Sound.ite (h.retireBlock ..) h)))))

theorem Sound.readReport (h : Sound old s) (r : Report) : Sound old (s.readReport r) := (h.spoilStep ..).raiseEvent ..

theorem Sound.signallingFault (h : Sound old s) (src : W32) : Sound old (s.signallingFault src) :=
  Sound.ite h (h.update.raiseEvent ..)

theorem Sound.heldInReset (h : Sound old s) : Sound old s.heldInReset := h.update

theorem Sound.reload (h : Sound old s) (u : UnitRef) : Sound old (s.reload u) := h.modUnit ..

theorem Sound.emptied (h : Sound old s) (u : UnitRef) : Sound old (s.emptied u) := (h.setPace ..).reload ..

theorem Sound.requeue (h : Sound old s) (u : UnitRef) : Sound old (s.requeue u) := h.update.emptied ..

theorem Sound.ruin (h : Sound old s) (f : Flight) : Sound old (s.ruin f) := by
  unfold State.ruin
  refine h.foldl fun t1 a2 k3 => ?_
  dsimp only
  split
  · exact (k3.take ..).yardPut ..
  · split
    · refine (k3.take ..).foldl fun t4 a5 k6 => ?_
      split
      · exact (k6.lineStore ..).modCtx ..
      · exact k6
    · exact k3.take ..

theorem Sound.cutOne (h : Sound old s) (f : Flight) : Sound old (s.cutOne f) :=
  Sound.ite (h.modFlight ..) (Sound.ite ((((h.ruin ..).cause ..).modFlight ..).tryMove ..) (h.finish ..))

theorem Sound.unitCleared (h : Sound old s) (src : W32) : Sound old (s.unitCleared src) :=
  Sound.ite ((h.modEngine ..).requeue ..) (Sound.ite ((h.foldl (fun t a k => k.cutOne ..)).emptied ..) (Sound.ite
    (((h.modMover ..).foldl (fun t a k => k.cutOne ..)).emptied ..) h))

theorem Sound.unitDone (h : Sound old s) (r : Recovery) : Sound old (s.unitDone r) := by
  unfold State.unitDone
  dsimp only
  split
  · exact (((Sound.ite ((h.unitCleared ..).modPast ..) (Sound.ite (h.requeue ..) h)).update).foldl (fun t a k => k.fence
      ..)).finishRecovery ..
  · split
    · exact (((Sound.ite ((h.unitCleared ..).modPast ..) (Sound.ite (h.requeue ..) h)).update).foldl (fun t a k => k.fence
        ..)).update
    · exact (((Sound.ite ((h.unitCleared ..).modPast ..) (Sound.ite (h.requeue ..) h)).update).foldl (fun t a k => k.fence
        ..)).startRecovery ..

theorem Sound.zeroYard (h : Sound old s) (p : Nat) : Sound old (s.zeroYard p) := h.formed (s.zeroYard_form p) rfl

theorem Sound.clearUnits (h : Sound old s) (p : ℕ) : Sound old (s.clearUnits p) := h.foldl (fun t a k => k.modUnit ..)

theorem Sound.failUnit (h : Sound old s) (src : W32) : Sound old (s.failUnit src) :=
  Sound.ite h ((Sound.ite ((h.modPart ..).listFence ..) (h.fence ..)).raiseEvent ..)

theorem Sound.testOver (h : Sound old s) (p : ℕ) (test : SelfTest) : Sound old (s.testOver p test) :=
  (h.modPart ..).foldl (fun t a k => k.failUnit ..)

theorem Sound.dropStaging (h : Sound old s) (p : ℕ) : Sound old (s.dropStaging p) := by
  unfold State.dropStaging
  dsimp only
  split
  · exact h
  · split
    · exact h
    · exact Sound.ite h ((h.abortCommit ..).update)

theorem Sound.partCleared (h : Sound old s) (p : ℕ) (test : SelfTest) : Sound old (s.partCleared p test) :=
  ((((h.dropStaging ..).zeroYard ..).modPart ..).clearUnits ..).testOver ..

theorem Sound.abortRestore (h : Sound old s) (c : ℕ) : Sound old (s.abortRestore c) := (h.dropRestore ..).modCtx ..

theorem Sound.restored (h : Sound old s) (c : ℕ) : Sound old (s.restored c) :=
  Sound.ite h ((h.abortRestore ..).restoreEnd ..)

theorem Sound.losePart (h : Sound old s) (p : ℕ) : Sound old (s.losePart p) := by
  unfold State.losePart
  dsimp only
  split
  · exact (h.reprofile (fun t k => (k.setPart ..).listFence ..)).foldl (fun t a k => k.modCtx ..)
  · exact (h.reprofile (fun t k => (k.setPart ..).listFence ..)).foldl (fun t a k => k.modCtx ..)

theorem Sound.settleLoss (h : Sound old s) (fence : List W32) (p : ℕ) : Sound old (s.settleLoss fence p) :=
  Sound.ite (h.losePart ..) h

theorem Sound.lateFences (h : Sound old s) (r : Recovery) : Sound old (s.lateFences r) :=
  h.foldl (fun t a k => k.fence ..)

theorem Sound.zeroTokens (h : Sound old s) : Sound old s.zeroTokens := h.update

theorem Sound.returnCredits (h : Sound old s) : Sound old s.returnCredits := h.update

theorem Sound.retarget (h : Sound old s) : Sound old s.retarget := h.update

theorem Sound.setPowerCeiling (h : Sound old s) (n : ℕ) : Sound old (s.setPowerCeiling n) :=
  Sound.ite ((h.update.retarget ..).note ..) (h.update.retarget ..)

theorem Sound.goIdle (h : Sound old s) : Sound old s.goIdle := (h.setPowerCeiling ..).update

theorem Sound.goStandby (h : Sound old s) (back : ReadBacks) : Sound old (s.goStandby back) :=
  ((((((h.setPowerCeiling ..).endWalk ..).quietPorts ..).update).endInjections ..).shutEst ..).flush ..

theorem Sound.leaveStandby (h : Sound old s) (tests : List SelfTest) : Sound old (s.leaveStandby tests) :=
  (((h.zeroTokens ..).foldl (fun t a k => k.partCleared ..)).foldl (fun t a k => k.settleLoss ..)).update

theorem Sound.moveRamp (h : Sound old s) : Sound old s.moveRamp := h.update

theorem Sound.applySet (h : Sound old s) (r : Request) : Sound old (s.applySet r) := h.update.ok ..

theorem Sound.applySets (h : Sound old s) : Sound old s.applySets := h.update.foldl (fun t a k => k.applySet ..)

theorem Sound.innerStep (h : Sound old s) (m : TickMeas) (live : Bool) : Sound old (s.innerStep m live) :=
  h.update

theorem Sound.engineTick (h : Sound old s) (m : TickMeas) : Sound old (s.engineTick m) :=
  Sound.ite h (Sound.ite h.update (h.innerStep ..))

theorem Sound.passTick (h : Sound old s) : Sound old s.passTick := h.update

theorem Sound.takeLeaf (h : Sound old s) (identity : Bool) (writeOk : Bool) : Sound old (s.takeLeaf identity writeOk).2 :=
    by
  unfold State.takeLeaf
  dsimp only
  split
  · split
    · exact Sound.ite h h.update
    · split
      · exact h.update
      · exact h.update
  · split
    · exact Sound.ite h h.update
    · split
      · exact h.update
      · exact h.update

theorem Sound.quote (h : Sound old s) (r : Request) (identity : Bool) (how : QuoteEnd) :
    Sound old (s.quote r identity how) := by
  have spent : Sound old (if identity then { s with sec.identityBudget := s.sec.identityBudget - 1 }
      else { s with sec.attestBudget := s.sec.attestBudget - 1 }) := Sound.ite h.update h.update
  have k := spent.takeLeaf identity (how ≠ QuoteEnd.recordFails : Bool)
  unfold State.quote
  dsimp only
  split
  · rename_i t e
    rw [e] at k
    exact k.reply ..
  · rename_i leaf t e
    rw [e] at k
    exact Sound.ite k (k.ok ..)

theorem Fuses.grewFrom_trans {f g k : Fuses} (h : g.grewFrom f) (l : k.grewFrom g) : k.grewFrom f := by
  obtain ⟨life, destroyed, svn, part⟩ := h
  obtain ⟨life', destroyed', svn', part'⟩ := l
  refine ⟨?_, fun o => destroyed' (destroyed o), Nat.le_trans svn svn', part'.trans part⟩
  rw [← life, BitVec.and_assoc, life']

/-- Fuses that are programmed keep the bits they had. -/
theorem Sound.program (h : Sound old s) {f : Fuses} (grew : f.grewFrom s.fuses) : Sound old { s with fuses := f } :=
  { h with grown := Fuses.grewFrom_trans h.grown grew }

theorem Sound.newLife (h : Sound old s) {f : Fuses → Fuses} (grew : (f s.fuses).grewFrom s.fuses) :
    Sound old (s.newLife f) :=
  (h.program grew).remeasureFuses.setLevel ..

theorem Sound.stageWrite (h : Sound old s) (off : ℕ) (bs : List Byte) : Sound old (s.stageWrite off bs) := by
  unfold State.stageWrite
  refine h.foldl fun t1 a2 k3 => ?_
  split
  · exact k3.yardStore ..
  · exact k3

theorem Sound.stageData (h : Sound old s) (r : Request) (u : Update) (off : ℕ) (bs : List Byte) :
    Sound old (s.stageData r u off bs) := ((h.stageWrite ..).update).ok ..

theorem Sound.spoilNor (h : Sound old s) (n : Nat) : Sound old (s.spoilNor n) := by
  have put (t : State) (k : Sound old t) (bs : List Byte) : Sound old { t with sec.nor := norWrite [] 128 bs } :=
    k.setNor fun _ => norWrite_wf bs [] 128 rfl
  exact put _ (h.take _) _

theorem Sound.writeNor (h : Sound old s) (r : Request) (u : Update) (how : CommitEnd) : Sound old (s.writeNor r u how) := by
  have updating (t : State) (k : Sound old t) (u : Option Update) : Sound old { t with sec.update := u } := k.update
  have written (nor : Bytes) (bs : List Byte) (e : nor = norWrite [] 0 bs) (u : Option Update) :
      Sound old { s with sec.nor := nor, sec.update := u } :=
    updating _ (h.setNor fun _ => e ▸ norWrite_wf bs [] 0 rfl) u
  have spoiled := updating _ (h.spoilNor u.imageBytes)
  cases how with
  | matched => exact (written _ _ rfl _).ok ..
  | mismatch => exact (spoiled _).reply ..
  | abandoned => exact (spoiled _).reply ..
  | goesOn => exact spoiled _

theorem Sound.mctpAnswer (h : Sound old s) (dst : Byte) (name : String) (code : ℕ) (bytes : List Byte) :
    Sound old (s.mctpAnswer dst name code bytes) := h.emit ..

theorem Sound.onControl {src : Byte} {setting : Bool} {act : State → State} (h : Sound old s)
    (keeps : ∀ t, Sound old t → Sound old (act t)) : Sound old (s.onControl src setting act) :=
  Sound.ite (keeps _ h) h

theorem Sound.onPldm {src : Byte} {act : State → State} (h : Sound old s)
    (keeps : ∀ t, Sound old t → Sound old (act t)) : Sound old (s.onPldm src act) :=
  Sound.ite (keeps _ h) h

theorem Sound.onNorWrite {src : Byte} {act : State → State} (h : Sound old s)
    (keeps : ∀ t, Sound old t → Sound old (act t)) : Sound old (s.onNorWrite src act) :=
  h.onPldm fun _ k => Sound.ite k (keeps _ k)

theorem Sound.modRh (h : Sound old s) (f : Roundhouse → Roundhouse) : Sound old (s.modRh f) := h.update

theorem Sound.askData (h : Sound old s) (dst : Byte) : Sound old (s.askData dst) := Sound.ite (h.emit ..) (h.emit ..)

theorem Sound.setStartFail (h : Sound old s) (n : ℕ) : Sound old (s.setStartFail n) := h.update

theorem Sound.receiveTail (h : Sound old s) (tail : W32) : Sound old (s.receiveTail tail) :=
  Sound.ite (h.receiveUpTo ..) h

theorem Sound.mctpTicket (h : Sound old s) (t : Ticket) : Sound old (s.mctpTicket t) :=
  Sound.ite ((h.modChan ..).update) (Sound.ite (Sound.ite (h.receiveTicket ..) h) (Sound.ite (h.foldl (fun t a k =>
    k.putTicket ..)) h))

theorem Sound.takeMessage (h : Sound old s) (src : Byte) (message : List Byte) : Sound old (s.takeMessage src message) :=
  Sound.ite h (Sound.ite h (h.mctpTicket ..))

theorem Sound.raiseHeld (h : Sound old s) (v : ℕ) : Sound old (s.raiseHeld v) := Sound.ite (h.update.raiseVector ..) h

theorem Sound.unmask (h : Sound old s) (v : ℕ) : Sound old (s.unmask v) := h.update.raiseHeld ..

theorem Sound.sendHeld (h : Sound old s) : Sound old s.sendHeld := h.foldl (fun t a k => k.raiseHeld ..)

theorem Sound.msixWrite (h : Sound old s) (v : ℕ) (off : ℕ) (bs : List Byte) : Sound old (s.msixWrite v off bs) :=
  Sound.ite h.update (h.update.raiseHeld ..)

theorem Sound.trainLink (h : Sound old s) (link : LinkResult) : Sound old (s.trainLink link) :=
  Sound.ite h.update h.update

theorem Sound.moveCeiling (h : Sound old s) (row : ℕ) (by_ : ℤ) : Sound old (s.moveCeiling row by_) :=
  Sound.ite (h.update.note ..) h.update

theorem Sound.noteExcess (h : Sound old s) : Sound old s.noteExcess := Sound.ite (h.update.report ..) h

theorem Sound.noteCompanion (h : Sound old s) (m : CeilMeas) : Sound old (s.noteCompanion m) :=
  Sound.ite (h.report ..) h

theorem Sound.trimDown (h : Sound old s) : Sound old s.trimDown := by
  have trimmed (t : State) (k : Sound old t) : Sound old { t with power.state := .trimmed, power.trimStopped := false } :=
    k.update
  exact Sound.ite h.update (trimmed _ (h.reprofile fun _ k => k.update))

theorem Sound.trimUp (h : Sound old s) : Sound old s.trimUp := (h.reprofile (fun t k => k.update)).update

theorem Sound.hayNotes (h : Sound old s) (onset : List Bool) : Sound old (s.hayNotes onset) :=
  h.foldl (fun t a k => Sound.ite (k.hayNote ..) k)

theorem Sound.loseCart (h : Sound old s) (back : ReadBacks) : Sound old (s.loseCart back) :=
  Sound.ite h ((((Sound.ite h.update (h.shutEst ..)).update).setEntry ..).endWalk ..)

theorem Sound.tempSample (h : Sound old s) (milliC : ℤ) : Sound old (s.tempSample milliC) :=
  Sound.ite h.update (Sound.ite ((h.update.hayNotes ..).endWalk ..) (h.update.hayNotes ..))

theorem Sound.faultCart (h : Sound old s) : Sound old s.faultCart := (h.fenceCart ..).report ..

theorem Sound.watchU (h : Sound old s) : Sound old s.watchU := Sound.ite (h.update.hayNote ..) h.update

theorem Sound.learn (h : Sound old s) (out : ℚ) : Sound old (s.learn out).2 := by
  unfold State.learn
  split
  · exact h.hayNote ..
  · exact Sound.ite (h.update.hayNote ..) h.update

theorem Sound.emptyAnchor (h : Sound old s) (back : ReadBacks) : Sound old (s.emptyAnchor back) := by
  unfold State.emptyAnchor
  split
  · exact Sound.ite ((h.update.writeEst ..).endWalk ..) (h.update.writeEst ..)
  · exact Sound.ite ((((h.learn ..).update).writeEst ..).endWalk ..) (((h.learn ..).update).writeEst ..)

theorem Sound.restorePage (h : Sound old s) (c : ℕ) (p : Peer) (lines : LineEcc) (va : ℕ) (src : ℕ) :
    Sound old (s.restorePage c p lines va src).2 := by
  unfold State.restorePage
  dsimp only
  split
  · exact h.memGet ..
  · split
    · exact h.memGet ..
    · rename_i _ _ _ v6
      have k7 := (h.memGet ..).sendTo v6
      exact k7

theorem Sound.restorePages (h : Sound old s) (c : Nat) (p : Peer) (lines : LineEcc) (base : Nat) (pages : List (Nat × Nat)) :
    Sound old (s.restorePages c p lines base pages).2 := by
  induction pages generalizing s with
  | nil => exact h
  | cons page rest ih =>
    obtain ⟨va, off⟩ := page
    have k := h.restorePage c p lines va (base + off)
    unfold State.restorePages
    split
    · rename_i u e
      rwa [e] at k
    · rename_i tag u e
      rw [e] at k
      exact ih k

theorem Sound.flushCut (h : Sound old s) : Sound old s.flushCut := Sound.ite h h.update

theorem Sound.summaryLost (h : Sound old s) : Sound old s.summaryLost := Sound.ite h.update h

theorem Sound.noteCounter (h : Sound old s) (code : ℕ) (idx : ℕ) (count : ℕ) : Sound old (s.noteCounter code idx count) :=
    by
  unfold State.noteCounter
  exact Sound.ite (h.update.note ..) h.update

theorem Sound.noteCounters (h : Sound old s) : Sound old s.noteCounters :=
  ((h.noteCounter ..).foldl (fun t a k => k.noteCounter ..)).foldl (fun t a k => k.foldl (fun t a k => k.noteCounter
    ..))

theorem Sound.noteSaturation (h : Sound old s) : Sound old s.noteSaturation :=
  (h.foldl (fun t a k => Sound.ite (k.note ..) k)).update

theorem Sound.released (h : Sound old s) (link : LinkResult) : Sound old (s.released link) := by
  have fresh {ps co ca rg me ra ha po sb tr se st} (nor : se.nor = s.sec.nor)
      (same : (ca.changeCount, me.bytes, me.saveArea, se.sram) = (0, [], [], [])) :
      Sound old (State.mk s.pending s.fuses s.mram ps co ca [] rg [] Marsh.reset Drops.reset me Yard.reset State.reset.windows ra
        Book.reset Pcie.reset ha po sb tr se st s.fresh s.out) := by
    simp only [Prod.mk.injEq] at same
    obtain ⟨count, bytes, area, sram⟩ := same
    refine ⟨fun o => ?_, fun _ => ?_, h.grown⟩
    · obtain ⟨_, _, _, _, _, _, n, _, m⟩ := h.memory o
      unfold State.memoryOk
      dsimp only
      rw [bytes, area, nor, sram]
      exact ⟨rfl, rfl, rfl, rfl, rfl, rfl, n, rfl, m⟩
    · unfold State.capStill
      dsimp only
      rw [count]
      rfl
  refine Sound.trainLink ?_ link
  exact fresh rfl rfl

theorem Sound.roundhouse (h : Sound old s) : Sound old s.roundhouse := h.update

theorem Sound.romMeasures (h : Sound old s) : Sound old s.romMeasures :=
  ((h.setMeasure ..).remeasureFuses ..).setMeasure ..

theorem Sound.startFirmware (h : Sound old s) : Sound old s.startFirmware :=
  (((h.romMeasures ..).update).remeasureDebug ..).event ..

theorem Sound.rom (h : Sound old s) : Sound old s.rom :=
  Sound.ite h (Sound.ite (h.roundhouse ..) (Sound.ite ((h.startFirmware ..).requestCycle ..) (h.startFirmware ..)))

theorem Sound.reapply (h : Sound old s) (whole : Bool) : Sound old (s.reapply whole) := by
  unfold State.reapply
  split
  · exact h
  · exact Sound.ite h.update (h.update.note ..)

theorem Sound.mendClear (h : Sound old s) : Sound old s.mendClear := Sound.ite (h.update.note ..) h

theorem Sound.placePart (h : Sound old s) (p : ℕ) : Sound old (s.placePart p) :=
  Sound.ite ((h.modPart ..).listFence ..) (h.modPart ..)

theorem Sound.openModule (h : Sound old s) : Sound old s.openModule := by
  have k := h.setStartFail 0
  unfold State.openModule
  dsimp only
  split
  · rename_i below
    have grown : Sound old { s.setStartFail 0 with fuses.svn := (s.setStartFail 0).sec.runSvn } :=
      k.program ⟨BitVec.and_self, id, Nat.le_of_lt below, rfl⟩
    exact Sound.remeasureFuses (grown.update)
  · exact k.update

theorem Sound.climb (h : Sound old s) (p : ℕ) : Sound old (s.climb p) :=
  Sound.ite ((((Sound.ite (h.openModule ..) h).reprofile (fun t k => Sound.ite ((k.placePart ..).update) (k.placePart
    ..))).update).requestCycle ..) ((((Sound.ite (h.openModule ..) h).reprofile (fun t k => Sound.ite ((k.placePart
    ..).update) (k.placePart ..))).update).startDone ..)

theorem Sound.modDevice (h : Sound old s) (i : ℕ) (f : MemDevice → MemDevice) : Sound old (s.modDevice i f) :=
  h.update

theorem Sound.failAtStart {f : State → State} (h : Sound old s) (src : W32) (keeps : ∀ t, Sound old t → Sound old (f t)) :
    Sound old (s.failAtStart src f) :=
  (h.recap fun _ k => (keeps _ k).listFence _).raiseEvent ..

theorem Sound.buildMap (h : Sound old s) (badLines : List Nat) : Sound old (s.buildMap badLines) := by
  refine Sound.foldl (Sound.update (h.recap fun t k => ?_)) fun t a k => ?_
  · exact k.formed (fun ⟨_, y, a⟩ => ⟨rfl, y, a⟩) rfl
  · exact Sound.ite (k.report ..) k

theorem Sound.localPassed (h : Sound old s) (src : W32) : Sound old (s.localPassed src) :=
  Sound.ite (h.recap (fun t k => k.update)) (h.recap (fun t k => k.modPort ..))

theorem Sound.abortUnlocks (h : Sound old s) : Sound old s.abortUnlocks := h.foldl (fun t a k => k.reply ..)

theorem Sound.loseCompute (h : Sound old s) : Sound old s.loseCompute := by
  have k : Sound old (s.ctxIds.foldl (fun t c => t.modCtx c Context.endMirror) s.zeroTokens) :=
    h.zeroTokens.foldl fun _ _ k => k.modCtx ..
  refine k.formed ?_ rfl
  exact fun _ => ⟨rfl, rfl, rfl⟩

theorem Sound.enterHoldUp (h : Sound old s) (back : ReadBacks) : Sound old (s.enterHoldUp back) :=
  (Sound.ite ((((((h.update.setLevel ..).abortUnlocks ..).endWalk ..).quietPorts ..).loseCompute ..).putEst ..)
    (((((h.update.setLevel ..).abortUnlocks ..).endWalk ..).quietPorts ..).loseCompute ..)).flush ..

theorem Sound.lossSeen (h : Sound old s) (kind : LossKind) : Sound old (s.lossSeen kind) := by
  cases kind with
  | earlyBreak => exact h.update
  | undervoltage => exact h.update
  | overvoltage => exact h.update

theorem Sound.powerOff (h : Sound old s) : Sound old s.powerOff := Sound.ite (h.update.emit ..) h.update

theorem Sound.atLevel {level : Nat} {ok : Bool} {act : State → State} (h : Sound old s)
    (keeps : ∀ t, Sound old t → Sound old (act t)) : Sound old (s.atLevel level ok act) :=
  Sound.ite h (Sound.ite (keeps _ h) h.update)

theorem Sound.haltCore (h : Sound old s) (i : ℕ) (halt : Bool) : Sound old (s.haltCore i halt) := h.update

theorem Sound.sramRead (h : Sound old s) (off : ℕ) (len : ℕ) (ecc : Ecc) : Sound old (s.sramRead off len ecc) :=
  Sound.ite ((h.emit ..).report ..) (h.emit ..)

theorem Sound.sramWrite (h : Sound old s) (off : Nat) (data : List Byte) : Sound old (s.sramWrite off data) := by
  refine h.memories (fun ⟨m, a, y, i, o, c, n, sram, cells⟩ => ⟨m, a, y, i, o, c, n, ?_, cells⟩) rfl rfl
  exact List.foldlRecOn data.zipIdx _ (motive := fun m => Table.wf none m = true) sram fun m k x _ => Table.wf_put none _ m _ k

theorem Sound.mramRead (h : Sound old s) (bank : ℕ) (off : ℕ) (len : ℕ) : Sound old (s.mramRead bank off len) :=
  h.emit ..

theorem Mram.setByte_wf {m : Mram} (h : Table.wf none m.cells = true) (bank off : Nat) (b : Byte) :
    Table.wf none (m.setByte bank off b).cells = true := by
  unfold Mram.setByte
  split
  · exact h
  · split
    · exact h
    · exact Table.wf_put none _ _ _ h

theorem Sound.mramWrite (h : Sound old s) (bank off : Nat) (data : List Byte) : Sound old (s.mramWrite bank off data) := by
  refine h.memories (fun ⟨m, a, y, i, o, c, n, sram, cells⟩ => ⟨m, a, y, i, o, c, n, sram, ?_⟩) rfl rfl
  exact List.foldlRecOn data.zipIdx _ (motive := fun m : Mram => Table.wf none m.cells = true) cells fun m k x _ =>
    Mram.setByte_wf k bank (off + x.2) x.1

theorem Sound.scan {i : Jtag} {act : State → State} (h : Sound old s)
    (keeps : ∀ t, Sound old t → Sound old (act t)) : Sound old (s.scan i act) :=
  Sound.ite h (Sound.ite (keeps _ h.update) h.update)

theorem Sound.beginRequested (h : Sound old s) (level : ℕ) (src : W32) (r : Request) (back : ReadBacks) :
    Sound old (s.beginRequested level src r back) := by
  unfold State.beginRequested
  split
  · exact h.update
  · exact (Sound.ite (h.shutEst ..) h).startRecovery ..

theorem Sound.withFetchWord (h : Sound old s) (nbits : ℕ) (w : ℕ) : Sound old (s.withFetchWord nbits w) := by
  unfold State.withFetchWord
  split
  · exact h
  · exact h.update

end Sys2Proof.Machine
end

section
/-! The commands keep it, and so does a step. -/

namespace Sys2Proof.Machine

variable {old s : State}

theorem Sound.execSessionQuery (h : Sound old s) (ch : Chan) : Safe old (execSessionQuery ch s) := by
  unfold Machine.execSessionQuery
  refine Sound.next ?_
  split
  · exact h.onRequest (fun a1 t k => k.ok ..)
  · split
    · exact h
    · rename_i _ _ _ v6
      have k7 := h.takeReq v6
      split
      · exact k7.queryReply ..
      · exact k7.queryReply ..

theorem Sound.execSessionResume (h : Sound old s) (ch : Chan) : Safe old (execSessionResume ch s) :=
  (h.onRequest (fun a1 t k => Sound.ite (k.reply ..) (((k.modChan ..).resendTickets ..).ok ..))).next

theorem Sound.execSessionAck (h : Sound old s) (ch : Chan) : Safe old (execSessionAck ch s) := by
  unfold Machine.execSessionAck
  refine Sound.next ?_
  split
  · exact h
  · rename_i _ _ _ v6
    have k7 := h.takeReq v6
    exact k7.modChan ..

theorem Sound.execIdentityGet (h : Sound old s) (ch : Chan) : Safe old (execIdentityGet ch s) :=
  (h.onRequest (fun a1 t k => k.ok ..)).next

theorem Sound.execCapRead (h : Sound old s) (ch : Chan) : Safe old (execCapRead ch s) :=
  (h.onRequest (fun a1 t k => Sound.ite (k.reply ..) (Sound.ite (k.reply ..) (k.ok ..)))).next

theorem Sound.execReservedOpcodeRequest (h : Sound old s) (ch : Chan) : Safe old (execReservedOpcodeRequest ch s) := by
  unfold Machine.execReservedOpcodeRequest
  refine Sound.next ?_
  split
  · exact h
  · rename_i _ _ _ v6
    have k7 := h.takeReq v6
    exact Sound.ite (k7.reply ..) (Sound.ite (k7.reply ..) (k7.reply ..))

theorem Sound.execContextCreate (h : Sound old s) (ch : Chan) : Safe old (execContextCreate ch s) := by
  unfold Machine.execContextCreate
  refine Sound.next ?_
  refine h.onRequest fun a1 t2 k3 => ?_
  dsimp only
  split
  · exact k3.reply ..
  · split
    · exact k3.reply ..
    · exact Sound.ite (k3.reply ..) ((((k3.modCtx ..).allotTokens ..).take ..).grantPages ..)

theorem Sound.execContextDestroy (h : Sound old s) (ch : Chan) : Safe old (execContextDestroy ch s) :=
  (h.onRequest (fun a1 t k => k.beginTeardown ..)).next

theorem Sound.execContextHalt (h : Sound old s) (ch : Chan) : Safe old (execContextHalt ch s) :=
  (h.onRequest (fun a1 t k => (k.haltAll ..).ok ..)).next

theorem Sound.execContextResume (h : Sound old s) (ch : Chan) : Safe old (execContextResume ch s) := by
  unfold Machine.execContextResume
  refine Sound.next ?_
  refine h.onRequest fun a1 t2 k3 => ?_
  dsimp only
  split
  · exact k3.reply ..
  · split
    · exact k3.reply ..
    · split
      · exact k3.reply ..
      · exact ((k3.foldl (fun t a k => k.modRing ..)).modCtx ..).ok ..

theorem Sound.execContextRead (h : Sound old s) (ch : Chan) : Safe old (execContextRead ch s) :=
  (h.onRequest (fun a1 t k => Sound.ite (k.reply ..) (k.ok ..))).next

theorem Sound.execContextSet (h : Sound old s) (ch : Chan) : Safe old (execContextSet ch s) := by
  unfold Machine.execContextSet
  refine Sound.next ?_
  refine h.onRequest fun a1 t2 k3 => ?_
  split
  · exact k3.reply ..
  · exact (k3.modCtx ..).ok ..

theorem Sound.execClassWeights (h : Sound old s) (ch : Chan) : Safe old (execClassWeights ch s) := by
  unfold Machine.execClassWeights
  refine Sound.next ?_
  refine h.onRequest fun a1 t2 k3 => ?_
  dsimp only
  split
  · exact k3.reply ..
  · exact k3.update.ok ..

theorem Sound.execMemReserve (h : Sound old s) (ch : Chan) : Safe old (execMemReserve ch s) :=
  (h.onRequest (fun a1 t k => Sound.ite (k.reply ..) (Sound.ite (k.reply ..) (Sound.ite (k.reply ..) (((k.modCtx
    ..).take ..).grantPages ..))))).next

theorem Sound.execMemRelease (h : Sound old s) (ch : Chan) : Safe old (execMemRelease ch s) :=
  (h.onRequest (fun a1 t k => Sound.ite (k.reply ..) (Sound.ite (k.reply ..) ((((k.modCtx ..).take ..).freePages
    ..).ok ..)))).next

theorem Sound.execTokenAlloc (h : Sound old s) (ch : Chan) : Safe old (execTokenAlloc ch s) :=
  (h.onRequest (fun a1 t k => Sound.ite (k.reply ..) (Sound.ite (k.reply ..) ((k.allotTokens ..).ok ..)))).next

theorem Sound.execTokenList (h : Sound old s) (ch : Chan) : Safe old (execTokenList ch s) :=
  (h.onRequest (fun a1 t k => k.ok ..)).next

theorem Sound.execRingBind (h : Sound old s) (ch : Chan) : Safe old (execRingBind ch s) := by
  unfold Machine.execRingBind
  refine Sound.next ?_
  refine h.onRequest fun a1 t2 k3 => ?_
  dsimp only
  split
  · exact k3.reply ..
  · exact Sound.ite (k3.reply ..) (Sound.ite (k3.reply ..) ((k3.modRing ..).ok ..))

theorem Sound.execRingStop (h : Sound old s) (ch : Chan) : Safe old (execRingStop ch s) :=
  (h.onRequest (fun a1 t k => Sound.ite (k.reply ..) (((k.haltRing ..).modRing ..).ok ..))).next

theorem Sound.execRingUnbind (h : Sound old s) (ch : Chan) : Safe old (execRingUnbind ch s) :=
  (h.onRequest (fun a1 t k => Sound.ite (k.reply ..) (Sound.ite (k.reply ..) (((k.dropRing ..).modRing ..).ok
    ..)))).next

theorem Sound.execApertureBind (h : Sound old s) (ch : Chan) : Safe old (execApertureBind ch s) :=
  (h.onRequest (fun a1 t k => Sound.ite (k.reply ..) (Sound.ite (k.reply ..) (Sound.ite (k.reply ..) (k.update.ok
    ..))))).next

theorem Sound.execDropCounters (h : Sound old s) (ch : Chan) : Safe old (execDropCounters ch s) :=
  (h.onRequest (fun a1 t k => k.ok ..)).next

theorem Sound.execWagonFetch (h : Sound old s) (ring : Fin 4096) (how : FetchEnd) : Safe old (execWagonFetch ring how s) :=
    by
  unfold Machine.execWagonFetch
  dsimp only
  refine Sound.next ?_
  split
  · exact h
  · split
    · split
      · exact h
      · split
        · exact Sound.ite (h.fetched ..) (h.haltByRing ..)
        · exact h.haltByRing ..
    · split
      · exact h
      · split
        · exact h.haltByRing ..
        · exact Sound.ite ((h.memLoad ..).haltByRing ..) ((h.memLoad ..).fetched ..)

theorem Sound.execMarshallingDispatch (h : Sound old s) (unit : UnitRef) : Safe old (execMarshallingDispatch unit s) := by
  unfold Machine.execMarshallingDispatch
  refine Sound.next ?_
  split
  · exact h
  · split
    · exact h
    · exact (h.modUnit ..).dispatchFrom ..

theorem Sound.execWagonStart (h : Sound old s) (ring : Fin 4096) (index : W32) (cycle : ℕ) : Safe old (execWagonStart ring
    index cycle s) := by
  unfold Machine.execWagonStart
  refine Sound.next ?_
  split
  · exact h
  · exact Sound.ite h (Sound.ite (h.wantSlot ..) ((h.setPace ..).modFlight ..))

theorem Sound.execCreditReturn (h : Sound old s) (unit : UnitRef) : Safe old (execCreditReturn unit s) :=
  (Sound.ite h (h.modUnit ..)).next

theorem Sound.execMma (h : Sound old s) (ring : Fin 4096) (index : W32) (ecc : YardEcc) (slips : List Slip) (rebuild :
    ReplayFaults) : Safe old (execMma ring index ecc slips rebuild s) := by
  unfold Machine.execMma
  refine Sound.next ?_
  refine h.onEngine fun a1 a2 a3 t4 k5 => ?_
  dsimp only
  split
  · exact k5.finish ..
  · exact ((((k5.bankFor ..).operands ..).modBank ..).mile ..).finish ..

theorem Sound.execLedgerAdd (h : Sound old s) (ring : Fin 4096) (index : W32) (ecc : YardEcc) (slips : List Slip) (rebuild
    : ReplayFaults) : Safe old (execLedgerAdd ring index ecc slips rebuild s) := by
  unfold Machine.execLedgerAdd
  refine Sound.next ?_
  refine h.onEngine fun a1 a2 a3 t4 k5 => ?_
  dsimp only
  split
  · exact k5.finish ..
  · exact Sound.ite ((k5.operands ..).finish ..) (((((k5.operands ..).bankFor ..).modBank ..).mile ..).finish ..)

theorem Sound.execReadout (h : Sound old s) (ring : Fin 4096) (index : W32) (ecc : YardEcc) (faults : TileFaults) (rebuild
    : ReplayFaults) (again : Reexecution) : Safe old (execReadout ring index ecc faults rebuild again s) := by
  unfold Machine.execReadout
  refine Sound.next ?_
  refine h.onEngine fun a1 a2 a3 t4 k5 => ?_
  dsimp only
  split
  · exact k5.finish ..
  · split
    · exact k5.finish ..
    · split
      · exact k5.finish ..
      · split
        · exact k5.finish ..
        · split
          · exact k5.loseReadout ..
          · split
            · exact ((k5.bankFor ..).biasRead ..).storeReadout ..
            · split
              · exact (Sound.ite ((k5.bankFor ..).biasRead ..) (((k5.bankFor ..).biasRead ..).residueHit ..)).modBank ..
              · exact (Sound.ite ((k5.bankFor ..).biasRead ..) (((k5.bankFor ..).biasRead ..).residueHit ..)).reexecute ..

theorem Sound.execCopy (h : Sound old s) (ring : Fin 4096) (index : W32) (errs : MemErrs) : Safe old (execCopy ring index
    errs s) := (h.runMover ..).next

theorem Sound.execGather (h : Sound old s) (ring : Fin 4096) (index : W32) (errs : MemErrs) : Safe old (execGather ring
    index errs s) := (h.runMover ..).next

theorem Sound.execScatter (h : Sound old s) (ring : Fin 4096) (index : W32) (errs : MemErrs) : Safe old (execScatter ring
    index errs s) := (h.runMover ..).next

theorem Sound.execFill (h : Sound old s) (ring : Fin 4096) (index : W32) (errs : MemErrs) : Safe old (execFill ring index
    errs s) := (h.runMover ..).next

theorem Sound.execMemoryReadReply (h : Sound old s) (part : Fin 8) (dm : Fin 4) (tag : Nat) (reply : HostRead) (errs : MemErrs) :
    Safe old (execMemoryReadReply part dm tag reply errs s) := by
  refine Sound.next (h.takeReply _ _ _ _ _ fun r t k => ?_)
  dsimp only
  split
  · cases reply with
    | data bs => exact k
    | error => exact k
  · exact Sound.ite ((k.memLoad ..).noteLine ..) (k.memLoad ..)

theorem Sound.execPcieCompletionTimeout (h : Sound old s) (part : Fin 8) (dm : Fin 4) (tag : Nat) (errs : MemErrs) :
    Safe old (execPcieCompletionTimeout part dm tag errs s) :=
  Sound.next (h.takeReply _ _ _ _ _ fun _ _ k => k)

theorem Sound.execMirrorAckTimeout (h : Sound old s) (ctx : Fin 262144) : Safe old (execMirrorAckTimeout ctx s) := by
  unfold Machine.execMirrorAckTimeout
  refine Sound.next ?_
  split
  · exact Sound.ite h (h.mirrorFail ..)
  · exact h

theorem Sound.execMirrorCloseTimeout (h : Sound old s) (ctx : Fin 262144) : Safe old (execMirrorCloseTimeout ctx s) := by
  unfold Machine.execMirrorCloseTimeout
  refine Sound.next ?_
  split
  · exact Sound.ite (h.mirrorFail ..) h
  · exact h

theorem Sound.execAllreduce (h : Sound old s) (ring : Fin 4096) (index : W32) (errs : MemErrs) (sums : List SumSlip) : Safe
    old (execAllreduce ring index errs sums s) := (h.runColl ..).next

theorem Sound.execReduce (h : Sound old s) (ring : Fin 4096) (index : W32) (errs : MemErrs) (sums : List SumSlip) : Safe
    old (execReduce ring index errs sums s) := (h.runColl ..).next

theorem Sound.execBroadcast (h : Sound old s) (ring : Fin 4096) (index : W32) (errs : MemErrs) : Safe old (execBroadcast
    ring index errs s) := (h.runColl ..).next

theorem Sound.execCollTimeout (h : Sound old s) (ring : Fin 4096) (index : W32) : Safe old (execCollTimeout ring index s)
    := (h.onFlight (fun a1 t k => Sound.ite k ((k.collFinish ..).resumeColls ..))).next

theorem Sound.execNop (h : Sound old s) (ring : Fin 4096) (index : W32) : Safe old (execNop ring index s) :=
  (h.onFenced (fun a1 t k => k.decide ..)).next

theorem Sound.execTokenWait (h : Sound old s) (ring : Fin 4096) (index : W32) : Safe old (execTokenWait ring index s) :=
  (h.onFlight (fun a1 t k => Sound.ite (k.decide ..) (Sound.ite (k.decide ..) k))).next

theorem Sound.execTokenWaitTimeout (h : Sound old s) (ring : Fin 4096) (index : W32) : Safe old (execTokenWaitTimeout ring
    index s) := (h.onFlight (fun a1 t k => Sound.ite k (k.decide ..))).next

theorem Sound.execTokenSignal (h : Sound old s) (ring : Fin 4096) (index : W32) : Safe old (execTokenSignal ring index s)
    := by
  unfold Machine.execTokenSignal
  refine Sound.next ?_
  refine h.onFenced fun a1 t2 k3 => ?_
  dsimp only
  split
  · exact (k3.addToken ..).decide ..
  · split
    · exact k3.decide ..
    · split
      · exact k3.decide ..
      · rename_i _ _ _ v9
        have k10 := k3.sendTo v9
        exact k10.modFlight ..

theorem Sound.execTokenSet (h : Sound old s) (ring : Fin 4096) (index : W32) : Safe old (execTokenSet ring index s) :=
  (h.onFenced (fun a1 t k => (k.modToken ..).decide ..)).next

theorem Sound.execStepCommit (h : Sound old s) (ring : Fin 4096) (index : W32) : Safe old (execStepCommit ring index s) :=
    by
  unfold Machine.execStepCommit
  exact (h.onFenced (fun a1 t k => Sound.ite (k.decide ..) (Sound.ite (k.decide ..) (Sound.ite (k.decide ..) (Sound.ite
    (k.commitStep ..) ((k.modFlight ..).beginMirror ..)))))).next

theorem Sound.execTokSignal (h : Sound old s) (token : Fin 65536) (value : W64) (whole : Bool) : Safe old (execTokSignal
    token value whole s) := by
  unfold Machine.execTokSignal
  refine Sound.next ?_
  refine h.onBar fun t1 k2 => ?_
  split
  · exact Sound.ite (k2.addToken ..) (k2.drop ..)
  · exact k2.drop ..

theorem Sound.execWagonComplete (h : Sound old s) (ring : Fin 4096) (index : W32) (ecc : Ecc) : Safe old (execWagonComplete
    ring index ecc s) := by
  unfold Machine.execWagonComplete
  refine Sound.next ?_
  refine h.onFlight fun a1 t2 k3 => ?_
  dsimp only
  split
  · split
    · exact ((((((((((k3.writeRecord ..).markInvalid ..).modRing ..).signalDone ..).countDone ..).freePlace ..).mileUnit
        ..).modFlight ..).noteFence ..).passHead ..).haltByRing ..
    · split
      · exact (Sound.ite (((((((((k3.writeRecord ..).signalDone ..).countDone ..).freePlace ..).mileUnit ..).modFlight
          ..).noteFence ..).passHead ..).raiseRing ..) ((((((((k3.writeRecord ..).signalDone ..).countDone ..).freePlace
          ..).mileUnit ..).modFlight ..).noteFence ..).passHead ..)).haltByRing ..
      · exact Sound.ite (((((((((k3.writeRecord ..).signalDone ..).countDone ..).freePlace ..).mileUnit ..).modFlight
          ..).noteFence ..).passHead ..).raiseRing ..) ((((((((k3.writeRecord ..).signalDone ..).countDone ..).freePlace
          ..).mileUnit ..).modFlight ..).noteFence ..).passHead ..)
  · split
    · exact (((((((((((k3.markInvalid ..).writeRecord ..).markInvalid ..).modRing ..).signalDone ..).countDone
        ..).freePlace ..).mileUnit ..).modFlight ..).noteFence ..).passHead ..).haltByRing ..
    · split
      · exact (Sound.ite ((((((((((k3.markInvalid ..).writeRecord ..).signalDone ..).countDone ..).freePlace ..).mileUnit
          ..).modFlight ..).noteFence ..).passHead ..).raiseRing ..) (((((((((k3.markInvalid ..).writeRecord ..).signalDone
          ..).countDone ..).freePlace ..).mileUnit ..).modFlight ..).noteFence ..).passHead ..)).haltByRing ..
      · exact Sound.ite ((((((((((k3.markInvalid ..).writeRecord ..).signalDone ..).countDone ..).freePlace ..).mileUnit
          ..).modFlight ..).noteFence ..).passHead ..).raiseRing ..) (((((((((k3.markInvalid ..).writeRecord ..).signalDone
          ..).countDone ..).freePlace ..).mileUnit ..).modFlight ..).noteFence ..).passHead ..)

theorem Sound.execTrgSummary (h : Sound old s) (ch : Chan) : Safe old (execTrgSummary ch s) :=
  (h.onRequest (fun a1 t k => k.ok ..)).next

theorem Sound.execTrgRead (h : Sound old s) (ch : Chan) (ecc : Ecc) : Safe old (execTrgRead ch ecc s) :=
  (h.onRequest (fun a1 t k => Sound.ite (k.reply ..) (Sound.ite (k.reply ..) (Sound.ite (k.reply ..) (k.readRecord
    ..))))).next

theorem Sound.execTrgAnnotate (h : Sound old s) (ch : Chan) : Safe old (execTrgAnnotate ch s) :=
  (h.onRequest (fun a1 t k => (Sound.ite (k.note ..) k.update).ok ..)).next

theorem Sound.execTrgClear (h : Sound old s) (ch : Chan) (cut : Bool) : Safe old (execTrgClear ch cut s) :=
  (h.onRequest (fun a1 t k => Sound.ite (k.reply ..) (Sound.ite (k.reply ..) (Sound.ite k.update (k.update.ok
    ..))))).next

theorem Sound.execFaultList (h : Sound old s) (ch : Chan) : Safe old (execFaultList ch s) :=
  (h.onRequest (fun a1 t k => k.ok ..)).next

theorem Sound.execFaultAck (h : Sound old s) (ch : Chan) : Safe old (execFaultAck ch s) := by
  unfold Machine.execFaultAck
  refine Sound.next ?_
  refine h.onRequest fun a1 t2 k3 => ?_
  dsimp only
  split
  · exact k3.reply ..
  · exact Sound.ite (k3.reply ..) (k3.update.ok ..)

theorem Sound.execStallRead (h : Sound old s) (ch : Chan) : Safe old (execStallRead ch s) :=
  (h.onRequest (fun a1 t k => Sound.ite (k.reply ..) (Sound.ite (k.reply ..) (Sound.ite (k.reply ..) (Sound.ite
    ((k.take ..).ok ..) (k.ok ..)))))).next

theorem Sound.execTeardownComplete (h : Sound old s) (ctx : Fin 262144) : Safe old (execTeardownComplete ctx s) :=
  (Sound.ite ((h.recap (fun t k => k.release ..)).answerSiding ..) h).next

theorem Sound.execQuarantineExpiry (h : Sound old s) (ctx : Fin 262144) : Safe old (execQuarantineExpiry ctx s) :=
  (Sound.ite (h.modCtx ..) h).next

theorem Sound.execZeroingDone (h : Sound old s) : Safe old (execZeroingDone s) :=
  ((h.nextZeroed ..).settleGrants ..).next

theorem Sound.execPatrolScrubRead (h : Sound old s) (line : ℕ) (ecc : Ecc) : Safe old (execPatrolScrubRead line ecc s) :=
  (Sound.ite h (Sound.ite ((h.lineRead ..).report ..) (h.lineRead ..))).next

theorem Sound.execYardScrubRead (h : Sound old s) (part : Fin 8) (word : ℕ) (ecc : Ecc) : Safe old (execYardScrubRead part
    word ecc s) :=
  (Sound.ite h (Sound.ite (((h.scrubbed ..).yardBad ..).report ..) (Sound.ite ((h.scrubbed ..).yardCorrected ..)
    (h.scrubbed ..)))).next

theorem Sound.execRngDoorbell (h : Sound old s) (ring : Fin 4096) (value : W64) (whole : Bool) : Safe old (execRngDoorbell
    ring value whole s) := (h.onBar (fun t k => Sound.ite (k.drop ..) (k.newTail ..))).next

theorem Sound.execApertureRead (h : Sound old s) (addr : BitVec 38) (len : Fin 4097) (lines : LineEcc) : Safe old
    (execApertureRead addr len lines s) := by
  unfold Machine.execApertureRead
  split
  · exact Safe.fault
  · refine Sound.next ?_
    refine h.onBar fun t1 k2 => ?_
    dsimp only
    split
    · exact k2.emit ..
    · exact Sound.ite ((k2.take ..).emit ..) (Sound.ite ((k2.memLoad ..).emit ..) ((k2.memLoad ..).emit ..))

theorem Sound.execApertureWrite (h : Sound old s) (addr : BitVec 38) (data : List Byte) (lines : LineEcc) : Safe old
    (execApertureWrite addr data lines s) := by
  unfold Machine.execApertureWrite
  split
  · exact Safe.fault
  · refine Sound.next ?_
    refine h.onBar fun t1 k2 => ?_
    dsimp only
    split
    · exact (k2.dropAperture ..).emit ..
    · exact Sound.ite k2 (Sound.ite (((k2.memStore ..).modCtx ..).dropAperture ..) ((k2.memStore ..).modCtx ..))

theorem Sound.execFrameReceive (h : Sound old s) (port : Fin 20) (frame : List Byte) (corrected : ℕ) (uncorrectable : ℕ) :
    Safe old (execFrameReceive port frame corrected uncorrectable s) := by
  unfold Machine.execFrameReceive
  split
  · exact Safe.fault
  · exact (Sound.ite h (Sound.ite ((h.modPort ..).validFrame ..) ((h.modPort ..).modPort ..))).next

theorem Sound.execFrameSend (h : Sound old s) (port : Fin 20) : Safe old (execFrameSend port s) :=
  (Sound.ite h (((h.modPort ..).emit ..).mile ..)).next

theorem Sound.execReplayTimeout (h : Sound old s) (port : Fin 20) : Safe old (execReplayTimeout port s) := by
  unfold Machine.execReplayTimeout
  refine Sound.next ?_
  split
  · exact h
  · split
    · exact h
    · exact h.startReplay ..

theorem Sound.execTrailerTimeout (h : Sound old s) (port : Fin 20) : Safe old (execTrailerTimeout port s) :=
  (Sound.ite (h.linkDown ..) h).next

theorem Sound.execTrainingDone (h : Sound old s) (port : Fin 20) : Safe old (execTrainingDone port s) :=
  (Sound.ite (h.modPort ..) h).next

theorem Sound.execTrainingRetry (h : Sound old s) (port : Fin 20) : Safe old (execTrainingRetry port s) :=
  (Sound.ite (h.modPort ..) h).next

theorem Sound.execQuietEnd (h : Sound old s) (port : Fin 20) : Safe old (execQuietEnd port s) :=
  (Sound.ite (h.portGone ..) h).next

theorem Sound.execResendWaitExpiry (h : Sound old s) (port : Fin 20) : Safe old (execResendWaitExpiry port s) := by
  unfold Machine.execResendWaitExpiry
  refine Sound.next ?_
  split
  · exact h
  · exact h.update.foldl (fun t a k => k.resettlePacket ..)

theorem Sound.execWrite (h : Sound old s) (port : Fin 20) (lines : LineEcc) : Safe old (execWrite port lines s) :=
  (h.onPacket (fun a1 t k => Sound.ite (k.answer ..) ((k.applyWrite ..).answer ..))).next

theorem Sound.execSignal (h : Sound old s) (port : Fin 20) : Safe old (execSignal port s) :=
  (h.onPacket (fun a1 t k => Sound.ite (k.refuse ..) ((k.addToken ..).answer ..))).next

theorem Sound.execDoorbell (h : Sound old s) (port : Fin 20) : Safe old (execDoorbell port s) :=
  (h.onPacket (fun a1 t k => Sound.ite (k.refuse ..) ((k.newTail ..).answer ..))).next

theorem Sound.execMirrorOpen (h : Sound old s) (port : Fin 20) (lines : LineEcc) : Safe old (execMirrorOpen port lines s)
    := by
  unfold Machine.execMirrorOpen
  refine Sound.next ?_
  refine h.onPacket fun a1 t2 k3 => ?_
  dsimp only
  split
  · exact k3.refuse ..
  · exact Sound.ite ((k3.storeRecord ..).answer ..) (((k3.storeRecord ..).modStore ..).answer ..)

theorem Sound.execMirrorClose (h : Sound old s) (port : Fin 20) : Safe old (execMirrorClose port s) := by
  unfold Machine.execMirrorClose
  refine Sound.next ?_
  refine h.onPacket fun a1 t2 k3 => ?_
  dsimp only
  split
  · exact k3.refuse ..
  · exact Sound.ite (k3.answer ..) ((k3.putOwn ..).mirrorReplyTo ..)

theorem Sound.execMirrorReply (h : Sound old s) (port : Fin 20) : Safe old (execMirrorReply port s) := by
  unfold Machine.execMirrorReply
  refine Sound.next ?_
  refine h.onReply fun a1 t2 k3 => ?_
  split
  · exact k3
  · exact k3.takeAnswer ..

theorem Sound.execDack (h : Sound old s) (port : Fin 20) (lines : LineEcc) : Safe old (execDack port lines s) :=
  (h.onReply (fun a1 t k => (k.foldl (fun t a k => k.dackEntry ..)).resumeColls ..)).next

theorem Sound.execCollUp (h : Sound old s) (port : Fin 20) (errs : MemErrs) (sums : List SumSlip) : Safe old (execCollUp
    port errs sums s) := by
  unfold Machine.execCollUp
  refine Sound.next ?_
  split
  · exact h
  · refine h.onPacket fun a1 t2 k3 => ?_
    dsimp only
    split
    · exact k3.refuse ..
    · split
      · exact k3.duplicate ..
      · split
        · exact (k3.setAccum ..).answer ..
        · exact ((k3.collSum ..).resumeColls ..).answer ..

theorem Sound.execCollDown (h : Sound old s) (port : Fin 20) (errs : MemErrs) : Safe old (execCollDown port errs s) := by
  unfold Machine.execCollDown
  refine Sound.next ?_
  refine h.onPacket fun a1 t2 k3 => ?_
  dsimp only
  split
  · exact k3.refuse ..
  · split
    · exact k3.duplicate ..
    · split
      · exact (k3.setAccum ..).answer ..
      · exact Sound.ite (k3.answer ..) (Sound.ite ((k3.setAccum ..).answer ..) (((k3.collResult ..).resumeColls ..).answer
          ..))

theorem Sound.execCollAbort (h : Sound old s) (port : Fin 20) : Safe old (execCollAbort port s) := by
  unfold Machine.execCollAbort
  refine Sound.next ?_
  split
  · exact h
  · refine h.onPacket fun a1 t2 k3 => ?_
    dsimp only
    split
    · exact (k3.resumeColls ..).answer ..
    · exact (((k3.collEnd ..).decide ..).resumeColls ..).answer ..

theorem Sound.execEpochNotice (h : Sound old s) (port : Fin 20) : Safe old (execEpochNotice port s) := by
  unfold Machine.execEpochNotice
  refine Sound.next ?_
  split
  · exact h
  · exact Sound.ite ((h.popPacket ..).drop ..) (Sound.ite (h.popPacket ..) (((((h.popPacket ..).update).event ..).loseNodes
      ..).enterSiding ..))

theorem Sound.execMilepostStall (h : Sound old s) (source : W32) : Safe old (execMilepostStall source s) :=
  (Sound.ite h ((h.writeStall ..).raiseEvent ..)).next

theorem Sound.execVector (h : Sound old s) (ring : Fin 4096) (index : W32) (ecc : YardEcc) (faults : LaneFaults) (again :
    LaneFaults) : Safe old (execVector ring index ecc faults again s) := by
  unfold Machine.execVector
  refine Sound.next ?_
  refine h.onFlight fun a1 t2 k3 => ?_
  dsimp only
  split
  · exact Sound.ite ((k3.modVec ..).finish ..) (Sound.ite ((k3.modVec ..).finish ..) (Sound.ite (((k3.modVec ..).operands
      ..).storeVector ..) (Sound.ite (((((k3.modVec ..).operands ..).vectorHit ..).report ..).storeVector ..)
      ((((((k3.modVec ..).operands ..).vectorHit ..).vectorHit ..).report ..).finish ..))))
  · exact k3

theorem Sound.execSignalBoxReport (h : Sound old s) (source : W32) (code : ℕ) (ctx : Option (Fin 262144)) (info : W32) :
    Safe old (execSignalBoxReport source code ctx info s) := by
  unfold Machine.execSignalBoxReport
  refine Sound.next ?_
  split
  · exact h
  · split
    · exact h.update.readReport ..
    · exact Sound.ite ((h.update.reported ..).readReport ..) h

theorem Sound.execSignallingFault (h : Sound old s) (source : W32) : Safe old (execSignallingFault source s) :=
  (Sound.ite h (h.signallingFault ..)).next

theorem Sound.execPairWalk (h : Sound old s) (wrong : List W32) : Safe old (execPairWalk wrong s) :=
  (Sound.ite h (h.foldl (fun t a k => Sound.ite (k.signallingFault ..) k))).next

theorem Sound.execCoreWatchdogExpiry (h : Sound old s) (core : Fin 16) : Safe old (execCoreWatchdogExpiry core s) :=
  (Sound.ite h (h.raiseEvent ..)).next

theorem Sound.execModuleWatchdogExpiry (h : Sound old s) : Safe old (execModuleWatchdogExpiry s) :=
  (Sound.ite h (Sound.ite (h.update.requestCycle ..) (h.update.beginModuleReset ..))).next

theorem Sound.execClockMonitorTrip (h : Sound old s) : Safe old (execClockMonitorTrip s) :=
  (Sound.ite h ((h.raiseEvent ..).heldInReset ..)).next

theorem Sound.execResetDeadlineMissed (h : Sound old s) (level : Fin 7) (scope : W32) : Safe old (execResetDeadlineMissed
    level scope s) := (Sound.ite h (h.raiseEvent ..)).next

theorem Sound.execModuleResetTimerExpiry (h : Sound old s) : Safe old (execModuleResetTimerExpiry s) :=
  (Sound.ite h (h.update.raiseEvent ..)).next

theorem Sound.execEventAutoAck (h : Sound old s) (event : ℕ) : Safe old (execEventAutoAck event s) :=
  (h.modEvent ..).next

theorem Sound.execUnitResetDone (h : Sound old s) (source : W32) : Safe old (execUnitResetDone source s) := by
  unfold Machine.execUnitResetDone
  refine Sound.next ?_
  split
  · exact h
  · split
    · exact h
    · exact h.unitDone ..

theorem Sound.execPartitionResetDone (h : Sound old s) (part : Fin 8) (test : SelfTest) : Safe old (execPartitionResetDone
    part test s) := by
  unfold Machine.execPartitionResetDone
  refine Sound.next ?_
  split
  · exact h
  · split
    · exact h
    · exact ((((((h.partCleared ..).lateFences ..).noteDone ..).update).foldl (fun t a k => k.restored ..)).settleLoss
        ..).finishRecovery ..

theorem Sound.execComputeDomainResetDone (h : Sound old s) (tests : List SelfTest) : Safe old (execComputeDomainResetDone
    tests s) := by
  unfold Machine.execComputeDomainResetDone
  split
  · exact Safe.fault
  · refine Sound.next ?_
    split
    · exact h
    · split
      · exact h
      · exact ((((((((h.foldl (fun t a k => k.partCleared ..)).zeroTokens ..).returnCredits ..).lateFences ..).noteDone
          ..).update).foldl (fun t a k => k.restored ..)).foldl (fun t a k => k.settleLoss ..)).finishRecovery ..

theorem Sound.execTimetableSet (h : Sound old s) (ch : Chan) : Safe old (execTimetableSet ch s) := by
  unfold Machine.execTimetableSet
  refine Sound.next ?_
  refine h.onRequest fun a1 t2 k3 => ?_
  dsimp only
  split
  · exact k3.reply ..
  · exact Sound.ite (k3.reply ..) (Sound.ite (k3.reply ..) (Sound.ite (k3.reply ..) k3.update))

theorem Sound.execPowerStatus (h : Sound old s) (ch : Chan) : Safe old (execPowerStatus ch s) :=
  (h.onRequest (fun a1 t k => k.ok ..)).next

theorem Sound.execEnergyRead (h : Sound old s) (ch : Chan) : Safe old (execEnergyRead ch s) :=
  (h.onRequest (fun a1 t k => Sound.ite (k.reply ..) (Sound.ite (k.reply ..) (Sound.ite (k.reply ..) (k.ok
    ..))))).next

theorem Sound.execPowerStateSet (h : Sound old s) (ch : Chan) (tests : List SelfTest) (readBacks : ReadBacks) : Safe old
    (execPowerStateSet ch tests readBacks s) :=
  (h.onRequest (fun a1 t k => Sound.ite (k.ok ..) (Sound.ite (((k.setPowerCeiling ..).update).ok ..) (Sound.ite
    ((k.leaveStandby ..).ok ..) (Sound.ite ((k.goIdle ..).ok ..) (Sound.ite (Sound.ite (k.reply ..) (Sound.ite
    ((k.goStandby ..).ok ..) (k.reply ..))) (k.reply ..))))))).next

theorem Sound.execHayloftAnchorWalk (h : Sound old s) (ch : Chan) : Safe old (execHayloftAnchorWalk ch s) :=
  (h.onRequest (fun a1 t k => Sound.ite (k.reply ..) (Sound.ite (k.reply ..) (Sound.ite (k.reply ..) (Sound.ite
    (k.reply ..) (Sound.ite (k.reply ..) (k.update.ok ..))))))).next

theorem Sound.execInnerLoopTick (h : Sound old s) (m : TickMeas) : Safe old (execInnerLoopTick m s) :=
  (Sound.ite h (Sound.ite (h.passTick ..) (((((h.passTick ..).applySets ..).moveRamp ..).update).engineTick ..))).next

theorem Sound.execOuterLoopTick (h : Sound old s) : Safe old (execOuterLoopTick s) := (Sound.ite h h.update).next

theorem Sound.execOverrunFallback (h : Sound old s) : Safe old (execOverrunFallback s) :=
  (Sound.ite h ((h.update.fallBack ..).report ..)).next

theorem Sound.execEngineTrialDone (h : Sound old s) (onTime : Bool) : Safe old (execEngineTrialDone onTime s) :=
  (Sound.ite h (Sound.ite h.update h.update)).next

theorem Sound.execAuthChallenge (h : Sound old s) (ch : Chan) : Safe old (execAuthChallenge ch s) :=
  (h.onRequest (fun a1 t k => (k.update.take ..).ok ..)).next

theorem Sound.execMeasurementGet (h : Sound old s) (ch : Chan) : Safe old (execMeasurementGet ch s) :=
  (h.onRequest (fun a1 t k => Sound.ite (k.reply ..) (k.ok ..))).next

theorem Sound.execAttestQuote (h : Sound old s) (ch : Chan) (how : QuoteEnd) : Safe old (execAttestQuote ch how s) :=
  (h.onRequest (fun a1 t k => Sound.ite (k.reply ..) (Sound.ite (k.reply ..) (Sound.ite (k.reply ..) (Sound.ite
    (k.reply ..) (Sound.ite (k.reply ..) (k.quote ..))))))).next

theorem Sound.execPubkeyGet (h : Sound old s) (ch : Chan) : Safe old (execPubkeyGet ch s) :=
  (h.onRequest (fun a1 t k => Sound.ite (k.reply ..) (k.ok ..))).next

/-- A lifecycle that gains bits keeps those it had. -/
theorem lifecycle_kept : ∀ x y : BitVec 3, x &&& (x ||| y) = x := by decide

theorem Sound.execProvision (h : Sound old s) (ch : Chan) (how : ProvisionEnd) : Safe old (execProvision ch how s) := by
  refine Sound.next (h.onRequest fun r t k => ?_)
  have k6 := k.take 6
  dsimp only
  split
  · exact k.reply ..
  · split
    · exact k6
    · split
      · exact k6.program ⟨BitVec.and_self, id, Nat.le_refl _, rfl⟩
      · exact Sound.ok (Sound.newLife (Sound.update k6) ⟨lifecycle_kept _ _, id, Nat.le_refl _, rfl⟩) ..

theorem Sound.execLifecycleSet (h : Sound old s) (ch : Chan) : Safe old (execLifecycleSet ch s) := by
  have risen (t : State) (k : Sound old t) (b : BitVec 3) :
      Sound old (t.newLife fun f => { f with lifecycle := f.lifecycle ||| b }) :=
    k.newLife ⟨lifecycle_kept _ _, id, Nat.le_refl _, rfl⟩
  refine Sound.next (h.onRequest fun r t k => ?_)
  exact Sound.ite ((risen t k 2).ok ..) (Sound.ite (Sound.ite ((risen t k 4).ok ..) (k.reply ..)) (k.reply ..))

theorem Sound.execOwnerKeyDestroy (h : Sound old s) (ch : Chan) : Safe old (execOwnerKeyDestroy ch s) := by
  refine Sound.next (h.onRequest fun r t k => ?_)
  exact Sound.ok (Sound.newLife (Sound.update k.eraseAll) ⟨BitVec.and_self, fun _ => rfl, Nat.le_refl _, rfl⟩) ..

theorem Sound.execDebugUnlock (h : Sound old s) (ch : Chan) : Safe old (execDebugUnlock ch s) :=
  (h.onRequest (fun a1 t k => Sound.ite (k.reply ..) (Sound.ite (k.reply ..) (Sound.ite (Sound.ite ((k.enterSiding
    ..).enterIntrusive ..) (k.enterSiding ..)) ((k.setLevel ..).ok ..))))).next

theorem Sound.execDebugLock (h : Sound old s) (ch : Chan) : Safe old (execDebugLock ch s) :=
  (h.onRequest (fun a1 t k => (k.setLevel ..).ok ..)).next

theorem Sound.execRailInject (h : Sound old s) (ch : Chan) : Safe old (execRailInject ch s) :=
  (h.onRequest (fun a1 t k => Sound.ite (k.reply ..) (Sound.ite (k.reply ..) (Sound.ite (k.reply ..) (Sound.ite
    (k.reply ..) (Sound.ite (k.reply ..) (Sound.ite (k.reply ..) ((k.modPort ..).ok ..)))))))).next

theorem Sound.execSbxInject (h : Sound old s) (ch : Chan) : Safe old (execSbxInject ch s) :=
  (h.onRequest (fun a1 t k => Sound.ite (k.reply ..) (Sound.ite (k.reply ..) (Sound.ite (k.reply ..) (k.update.ok
    ..))))).next

theorem Sound.execFwUpdateBegin (h : Sound old s) (ch : Chan) : Safe old (execFwUpdateBegin ch s) :=
  (h.onRequest (fun a1 t k => Sound.ite (k.reply ..) (Sound.ite (k.reply ..) (Sound.ite (k.reply ..) (k.update.ok
    ..))))).next

theorem Sound.execFwUpdateData (h : Sound old s) (ch : Chan) (host : HostRead) : Safe old (execFwUpdateData ch host s) := by
  unfold Machine.execFwUpdateData
  refine Sound.next ?_
  refine h.onRequest fun a1 t2 k3 => ?_
  dsimp only
  split
  · exact k3.reply ..
  · split
    · exact k3.reply ..
    · split
      · exact k3.reply ..
      · split
        · exact k3.reply ..
        · split
          · split
            · exact k3.reply ..
            · split
              · exact k3.reply ..
              · split
                · exact Sound.ite ((k3.emit ..).stageData ..) (k3.reply ..)
                · exact (Sound.ite (k3.emit ..) k3).reply ..
          · exact Sound.ite (k3.reply ..) (Sound.ite (k3.reply ..) (k3.stageData ..))

theorem Sound.execFwUpdateVerify (h : Sound old s) (ch : Chan) : Safe old (execFwUpdateVerify ch s) := by
  unfold Machine.execFwUpdateVerify
  refine Sound.next ?_
  refine h.onRequest fun a1 t2 k3 => ?_
  dsimp only
  split
  · exact k3.reply ..
  · exact Sound.ite (k3.reply ..) (Sound.ite (k3.reply ..) (Sound.ite (k3.reply ..) (k3.update.ok ..)))

theorem Sound.execFwUpdateCommit (h : Sound old s) (ch : Chan) (how : CommitEnd) : Safe old (execFwUpdateCommit ch how s)
    := by
  unfold Machine.execFwUpdateCommit
  refine Sound.next ?_
  split
  · exact Sound.ite (h.writeNor ..) h
  · refine h.onRequest fun a1 t2 k3 => ?_
    split
    · exact k3.reply ..
    · exact Sound.ite (k3.reply ..) (k3.writeNor ..)

theorem Sound.execFwUpdateAbort (h : Sound old s) (ch : Chan) : Safe old (execFwUpdateAbort ch s) := by
  unfold Machine.execFwUpdateAbort
  refine Sound.next ?_
  refine h.onRequest fun a1 t2 k3 => ?_
  dsimp only
  split
  · exact k3.reply ..
  · exact Sound.ite (k3.reply ..) (k3.update.ok ..)

theorem Sound.execFwUpdateStatus (h : Sound old s) (ch : Chan) : Safe old (execFwUpdateStatus ch s) :=
  (h.onRequest (fun a1 t k => k.ok ..)).next

theorem Sound.execFwActivate (h : Sound old s) (ch : Chan) (readBacks : ReadBacks) : Safe old (execFwActivate ch readBacks
    s) :=
  (h.onRequest (fun a1 t k => Sound.ite (k.reply ..) (((((k.ok ..).flushOut ..).flushOut ..).shutEst
    ..).beginModuleReset ..))).next

theorem Sound.execSetEndpointId (h : Sound old s) (src : Byte) (slave : Byte) (op : Byte) (eid : Byte) : Safe old
    (execSetEndpointId src slave op eid s) :=
  (h.onControl (fun t k => Sound.ite (k.update.mctpAnswer ..) (k.mctpAnswer ..))).next

theorem Sound.execGetEndpointId (h : Sound old s) (src : Byte) : Safe old (execGetEndpointId src s) :=
  (h.onControl (fun t k => k.mctpAnswer ..)).next

theorem Sound.execGetMctpVersionSupport (h : Sound old s) (src : Byte) (msgType : Byte) : Safe old
    (execGetMctpVersionSupport src msgType s) :=
  (h.onControl (fun t k => Sound.ite (k.mctpAnswer ..) (k.mctpAnswer ..))).next

theorem Sound.execGetMessageTypeSupport (h : Sound old s) (src : Byte) : Safe old (execGetMessageTypeSupport src s) :=
  (h.onControl (fun t k => k.mctpAnswer ..)).next

theorem Sound.execGetVendorDefinedMsgSupport (h : Sound old s) (src : Byte) (selector : Byte) : Safe old
    (execGetVendorDefinedMsgSupport src selector s) :=
  (h.onControl (fun t k => Sound.ite (k.mctpAnswer ..) (k.mctpAnswer ..))).next

theorem Sound.execGetTid (h : Sound old s) (src : Byte) : Safe old (execGetTid src s) :=
  (h.onPldm (fun t k => k.mctpAnswer ..)).next

theorem Sound.execGetPldmVersion (h : Sound old s) (src : Byte) (type : Byte) : Safe old (execGetPldmVersion src type s) :=
    by
  unfold Machine.execGetPldmVersion
  exact (h.onPldm (fun t k => Sound.ite (k.mctpAnswer ..) (k.mctpAnswer ..))).next

theorem Sound.execGetPldmTypes (h : Sound old s) (src : Byte) : Safe old (execGetPldmTypes src s) :=
  (h.onPldm (fun t k => k.mctpAnswer ..)).next

theorem Sound.execGetPldmCommands (h : Sound old s) (src : Byte) (type : Byte) : Safe old (execGetPldmCommands src type s)
    := (h.onPldm (fun t k => Sound.ite (k.mctpAnswer ..) (k.mctpAnswer ..))).next

theorem Sound.execQueryDeviceIdentifiers (h : Sound old s) (src : Byte) : Safe old (execQueryDeviceIdentifiers src s) :=
  (h.onPldm (fun t k => k.mctpAnswer ..)).next

theorem Sound.execGetFirmwareParameters (h : Sound old s) (src : Byte) : Safe old (execGetFirmwareParameters src s) :=
  (h.onPldm (fun t k => k.mctpAnswer ..)).next

theorem Sound.execRequestUpdate (h : Sound old s) (src : Byte) : Safe old (execRequestUpdate src s) :=
  (h.onPldm (fun t k => Sound.ite ((k.modRh ..).mctpAnswer ..) (k.mctpAnswer ..))).next

theorem Sound.execPassComponentTable (h : Sound old s) (src : Byte) (component : W16) : Safe old (execPassComponentTable
    src component s) := (h.onPldm (fun t k => Sound.ite ((k.modRh ..).mctpAnswer ..) (k.mctpAnswer ..))).next

theorem Sound.execUpdateComponent (h : Sound old s) (src : Byte) (component : W16) (size : W32) :
    Safe old (execUpdateComponent src component size s) := by
  refine Sound.next (h.onNorWrite fun t k => ?_)
  refine Sound.ite (k.mctpAnswer ..) (Sound.ite (k.mctpAnswer ..) (Sound.askData (Sound.mctpAnswer ?_ ..) _))
  exact Sound.setNor (k.modRh _) fun _ => rfl

theorem Sound.execRequestFirmwareData (h : Sound old s) (src : Byte) (data : List Byte) :
    Safe old (execRequestFirmwareData src data s) := by
  refine Sound.next (h.onNorWrite fun t k => ?_)
  refine Sound.ite k (Sound.askData (Sound.modRh ?_ _) _)
  exact k.setNor fun nor => norWrite_wf _ _ _ nor

theorem Sound.execTransferComplete (h : Sound old s) (src : Byte) : Safe old (execTransferComplete src s) := by
  refine Sound.next (h.onNorWrite fun t k => ?_)
  have put : Sound old { t with sec.nor := norWrite t.sec.nor 0 t.sec.rh.header } := k.setNor fun nor => norWrite_wf _ _ _ nor
  exact Sound.ite k (Sound.ite (((put.modRh ..).setStartFail ..).emit ..) ((k.modRh ..).emit ..))

theorem Sound.execApplyComplete (h : Sound old s) (src : Byte) : Safe old (execApplyComplete src s) :=
  (h.onPldm (fun t k => Sound.ite k ((k.modRh ..).emit ..))).next

theorem Sound.execActivateFirmware (h : Sound old s) (src : Byte) : Safe old (execActivateFirmware src s) :=
  (h.onPldm (fun t k => Sound.ite (((k.modRh ..).mctpAnswer ..).beginModuleReset ..) (k.mctpAnswer ..))).next

theorem Sound.execGetStatus (h : Sound old s) (src : Byte) : Safe old (execGetStatus src s) :=
  (h.onPldm (fun t k => k.mctpAnswer ..)).next

theorem Sound.execCancelUpdateComponent (h : Sound old s) (src : Byte) : Safe old (execCancelUpdateComponent src s) :=
  (h.onPldm (fun t k => Sound.ite ((k.modRh ..).mctpAnswer ..) (k.mctpAnswer ..))).next

theorem Sound.execCancelUpdate (h : Sound old s) (src : Byte) : Safe old (execCancelUpdate src s) :=
  (h.onPldm (fun t k => Sound.ite (k.mctpAnswer ..) ((k.modRh ..).mctpAnswer ..))).next

theorem Sound.execMbxInDoorbell (h : Sound old s) (tail : W32) : Safe old (execMbxInDoorbell tail s) :=
  (h.onBar (fun t k => Sound.ite k (Sound.ite (k.reject ..) (k.receiveTail ..)))).next

theorem Sound.execMailboxRequestReceive (h : Sound old s) : Safe old (execMailboxRequestReceive s) := by
  unfold Machine.execMailboxRequestReceive
  refine Sound.next ?_
  split
  · exact h.receiveTail ..
  · exact h

theorem Sound.execMbxOutAck (h : Sound old s) (ack : W32) : Safe old (execMbxOutAck ack s) :=
  (h.onBar (fun t k => k.modChan ..)).next

theorem Sound.execMbxOutDoorbell (h : Sound old s) (value : W32) : Safe old (execMbxOutDoorbell value s) :=
  (h.onBar (fun t k => k.update)).next

theorem Sound.execOutboundTicketWrite (h : Sound old s) (ch : Chan) : Safe old (execOutboundTicketWrite ch s) :=
  (h.writeTicket ..).next

theorem Sound.execMctpResendTimeout (h : Sound old s) : Safe old (execMctpResendTimeout s) :=
  (Sound.ite (h.resendTickets ..) h).next

theorem Sound.execVendorDefinedMessage (h : Sound old s) (packets : List (List Byte)) : Safe old (execVendorDefinedMessage
    packets s) := by
  unfold Machine.execVendorDefinedMessage
  refine Sound.next ?_
  split
  · exact h.takeMessage ..
  · exact h

theorem Sound.execMsixHoldoffExpiry (h : Sound old s) (vector : Fin 2048) : Safe old (execMsixHoldoffExpiry vector s) :=
  (Sound.ite h (Sound.ite (h.update.msixNow ..) h.update)).next

theorem Sound.execMsixVectorUnmask (h : Sound old s) (vector : Fin 2048) : Safe old (execMsixVectorUnmask vector s) :=
  (h.onBar (fun t k => k.unmask ..)).next

theorem Sound.execRngIrqPend (h : Sound old s) (k : Fin 64) (mask : W64) : Safe old (execRngIrqPend k mask s) :=
  (h.onBar (fun t k => k.update)).next

theorem Sound.execConfigWrite (h : Sound old s) (reg : ConfigReg) : Safe old (execConfigWrite reg s) := by
  refine Sound.next (Sound.ite h ?_)
  cases reg with
  | busMaster on => exact h.update.sendHeld ..
  | dState d3hot => exact h.update.sendHeld ..
  | relaxedOrdering on => exact h.update
  | timeoutRange v => exact h.update
  | bar i v => exact h.update
  | msixEnable on => exact h.update.sendHeld ..
  | other off v => exact Sound.ite h (h.setPcie fun config => Table.wf_put 0 _ _ _ config)

theorem Sound.execRegisterWriteOther (h : Sound old s) (bar : Bar) (offset : Nat) (data : List Byte) :
    Safe old (execRegisterWriteOther bar offset data s) := by
  refine Sound.next (h.onBar fun t k => ?_)
  cases bar with
  | bar2 => exact k
  | bar0 =>
    refine Sound.ite ?_ (Sound.ite (k.foldl fun _ _ l => l.msixWrite ..) k)
    refine k.memories (fun m => ?_) rfl rfl
    unfold State.memoryOk at *
    obtain ⟨bytes, area, yard, win, rest⟩ := m
    exact ⟨bytes, area, yard, Bytes.wf_write t.book.inWin _ _ win, rest⟩

theorem Sound.execPcieConventionalReset (h : Sound old s) (how : PcieReset) (link : LinkResult) :
    Safe old (execPcieConventionalReset how link s) := by
  have k : Sound old { s with pcie := s.pcie.conventional } := h.setPcie fun _ => rfl
  refine Sound.next ?_
  cases how with
  | perst => exact h.setPcie (p := { s.pcie.conventional with linkUp := false, ready := false }) (fun _ => rfl) |>.update
  | hot => exact Sound.ite (k.trainLink ..) k
  | linkLoss => exact Sound.ite (k.trainLink ..) k

theorem Sound.execPerstLRise (h : Sound old s) (link : LinkResult) : Safe old (execPerstLRise link s) :=
  (h.update.trainLink ..).next

theorem Sound.execCoastingTimeout (h : Sound old s) (unit : UnitRef) (cycle : ℕ) : Safe old (execCoastingTimeout unit cycle
    s) := (Sound.ite (h.wantSlot ..) h).next

theorem Sound.execDepartureSlotGrant (h : Sound old s) (cycle : ℕ) : Safe old (execDepartureSlotGrant cycle s) := by
  unfold Machine.execDepartureSlotGrant
  dsimp only
  refine Sound.next ?_
  split
  · exact h
  · split
    · exact h
    · exact (h.foldl (fun t a k => k.setPace ..)).update

theorem Sound.execCeilingPeriod (h : Sound old s) (ceiling : Ceiling) (m : CeilMeas) : Safe old (execCeilingPeriod ceiling
    m s) := by
  unfold Machine.execCeilingPeriod
  refine Sound.next ?_
  split
  · exact h
  · split
    · exact ((h.moveCeiling ..).retarget ..).noteExcess ..
    · exact ((h.moveCeiling ..).retarget ..).noteCompanion ..
    · exact (h.moveCeiling ..).retarget ..

theorem Sound.execSustainedBucketUpdate (h : Sound old s) : Safe old (execSustainedBucketUpdate s) := h.update.next

theorem Sound.execComputeStepChange (h : Sound old s) : Safe old (execComputeStepChange s) := by
  unfold Machine.execComputeStepChange
  refine Sound.next ?_
  split
  · exact h
  · exact Sound.ite h.update h.update

theorem Sound.execTrimRung (h : Sound old s) : Safe old (execTrimRung s) :=
  (Sound.ite h (Sound.ite (h.trimDown ..) (Sound.ite (h.trimUp ..) h.update))).next

theorem Sound.execRailCurrentLimit (h : Sound old s) (rail : Supply) : Safe old (execRailCurrentLimit rail s) :=
  (Sound.ite ((h.report ..).update) (h.report ..)).next

theorem Sound.execVddFabLimitRelease (h : Sound old s) : Safe old (execVddFabLimitRelease s) := h.update.next

theorem Sound.execDroopStretch (h : Sound old s) (part : Fin 8) : Safe old (execDroopStretch part s) :=
  (Sound.ite h h.update).next

theorem Sound.execDroopRelease (h : Sound old s) (cycles : ℕ) (fabric : ℕ) : Safe old (execDroopRelease cycles fabric s) :=
    by
  unfold Machine.execDroopRelease
  refine Sound.next ?_
  split
  · exact h
  · exact Sound.ite h (h.update.note ..)

theorem Sound.execThermalTrip (h : Sound old s) (sensor : Fin 64) : Safe old (execThermalTrip sensor s) :=
  (Sound.ite h (h.update.report ..)).next

theorem Sound.execThermalTripRelease (h : Sound old s) : Safe old (execThermalTripRelease s) :=
  (Sound.ite h (Sound.ite h.update (h.update.thawAll ..))).next

theorem Sound.execEnergySample (h : Sound old s) (partMj : List ℕ) (ran : List (Fin 8 × ℕ × ℕ)) (coasting : List (UnitRef ×
    ℕ)) (busMj : ℕ × ℕ × ℕ) : Safe old (execEnergySample partMj ran coasting busMj s) := by
  unfold Machine.execEnergySample
  split
  · exact Safe.fault
  · exact h.update.next

theorem Sound.execCartridgeInsert (h : Sound old s) : Safe old (execCartridgeInsert s) :=
  (Sound.ite h (Sound.ite (h.update.setEntry ..) (h.setEntry ..))).next

theorem Sound.execZeroMeasurementDone (h : Sound old s) (m : CartMeas) : Safe old (execZeroMeasurementDone m s) := by
  unfold Machine.execZeroMeasurementDone
  split
  · exact Safe.fault
  · exact (Sound.ite h (Sound.ite ((h.update.fenceCart ..).report ..) (((Sound.ite h.update h.update).setEntry ..).writeEst
      ..))).next

theorem Sound.execThermistorSample (h : Sound old s) (milliC : ℤ) (readBacks : ReadBacks) : Safe old (execThermistorSample
    milliC readBacks s) := (Sound.ite h (Sound.ite (Sound.ite (h.loseCart ..) h.update) (h.tempSample ..))).next

theorem Sound.execIdentityPeriodicRead (h : Sound old s) (reads : List (List Byte)) (readBacks : ReadBacks) : Safe old
    (execIdentityPeriodicRead reads readBacks s) := by
  unfold Machine.execIdentityPeriodicRead
  refine Sound.next ?_
  split
  · exact h
  · split
    · exact h.loseCart ..
    · exact Sound.ite h (((h.loseCart ..).update).setEntry ..)

theorem Sound.execCartridgeHwTrip (h : Sound old s) (kind : HwTrip) : Safe old (execCartridgeHwTrip kind s) := by
  unfold Machine.execCartridgeHwTrip
  refine Sound.next ?_
  split
  · exact h
  · split
    · exact Sound.ite ((h.update.hayNote ..).endWalk ..) (h.update.hayNote ..)
    · exact h.faultCart ..
    · exact h.faultCart ..
    · exact h.faultCart ..

theorem Sound.execEstimatorSample (h : Sound old s) (m : EstMeas) : Safe old (execEstimatorSample m s) := by
  unfold Machine.execEstimatorSample
  split
  · exact Safe.fault
  · exact (Sound.ite h (Sound.ite ((Sound.ite (((h.update.hayNotes ..).watchU ..).emptyAnchor ..) ((h.update.hayNotes
      ..).watchU ..)).faultCart ..) (Sound.ite (((h.update.hayNotes ..).watchU ..).emptyAnchor ..) ((h.update.hayNotes
      ..).watchU ..)))).next

theorem Sound.execFullAnchor (h : Sound old s) (readBacks : ReadBacks) : Safe old (execFullAnchor readBacks s) :=
  (Sound.ite h (Sound.ite ((h.update.writeEst ..).endWalk ..) (h.update.writeEst ..))).next

theorem Sound.execLearningPauseTimeout (h : Sound old s) : Safe old (execLearningPauseTimeout s) := h.update.next

theorem Sound.execAnchorWalkStart (h : Sound old s) : Safe old (execAnchorWalkStart s) := (Sound.ite h h.update).next

theorem Sound.execAnchorWalkTimeout (h : Sound old s) : Safe old (execAnchorWalkTimeout s) :=
  (Sound.ite (h.endWalk ..) h).next

theorem Sound.execRecordWriteTimer (h : Sound old s) (readBacks : ReadBacks) : Safe old (execRecordWriteTimer readBacks s)
    := (Sound.ite (h.writeEst ..) h).next

theorem Sound.execRailNodeSet (h : Sound old s) (ch : Chan) : Safe old (execRailNodeSet ch s) :=
  (h.onRequest (fun a1 t k => Sound.ite (k.reply ..) (k.update.ok ..))).next

theorem Sound.execRouteSet (h : Sound old s) (ch : Chan) : Safe old (execRouteSet ch s) := by
  unfold Machine.execRouteSet
  refine Sound.next ?_
  refine h.onRequest fun a1 t2 k3 => ?_
  dsimp only
  split
  · exact k3.reply ..
  · split
    · exact k3.reply ..
    · split
      · exact k3.reply ..
      · exact Sound.ite (k3.reply ..) (((k3.update.loseNodes ..).sendWaiting ..).ok ..)

theorem Sound.execEpochSet (h : Sound old s) (ch : Chan) : Safe old (execEpochSet ch s) :=
  (h.onRequest (fun a1 t k => Sound.ite (k.reply ..) (Sound.ite (k.reply ..) (Sound.ite (k.ok ..) ((((Sound.ite k
    (k.loseNodes ..)).revoke ..).update).ok ..))))).next

theorem Sound.execSidingEnter (h : Sound old s) (ch : Chan) : Safe old (execSidingEnter ch s) :=
  (h.onRequest (fun a1 t k => Sound.ite (k.reply ..) ((k.enterSiding ..).answerSiding ..))).next

theorem Sound.execRailStatus (h : Sound old s) (ch : Chan) : Safe old (execRailStatus ch s) :=
  (h.onRequest (fun a1 t k => Sound.ite (k.reply ..) (Sound.ite (k.reply ..) (k.ok ..)))).next

theorem Sound.execPeerSet (h : Sound old s) (ch : Chan) : Safe old (execPeerSet ch s) := by
  unfold Machine.execPeerSet
  refine Sound.next ?_
  refine h.onRequest fun a1 t2 k3 => ?_
  dsimp only
  split
  · exact k3.reply ..
  · split
    · exact k3.reply ..
    · split
      · exact k3.reply ..
      · exact (k3.modCtx ..).ok ..

theorem Sound.execCoupleSet (h : Sound old s) (ch : Chan) : Safe old (execCoupleSet ch s) := by
  unfold Machine.execCoupleSet
  refine Sound.next ?_
  refine h.onRequest fun a1 t2 k3 => ?_
  dsimp only
  split
  · exact k3.reply ..
  · split
    · exact k3.reply ..
    · split
      · exact k3.reply ..
      · split
        · exact k3.reply ..
        · exact (k3.modCtx ..).ok ..

theorem Sound.execCoupleStore (h : Sound old s) (ch : Chan) (lines : LineEcc) : Safe old (execCoupleStore ch lines s) := by
  unfold Machine.execCoupleStore
  refine Sound.next ?_
  refine h.onRequest fun a1 t2 k3 => ?_
  dsimp only
  split
  · exact k3.reply ..
  · split
    · exact k3.reply ..
    · exact Sound.ite (k3.reply ..) (Sound.ite (k3.reply ..) (Sound.ite (k3.reply ..) (Sound.ite ((k3.storeRecord ..).reply
        ..) (((Sound.ite (k3.storeRecord ..) ((k3.storeRecord ..).putOwn ..)).modCtx ..).ok ..))))

theorem Sound.execCoupleRestore (h : Sound old s) (ch : Chan) (lines : LineEcc) : Safe old (execCoupleRestore ch lines s)
    := by
  unfold Machine.execCoupleRestore
  refine Sound.next ?_
  refine h.onRequest fun a1 t2 k3 => ?_
  dsimp only
  split
  · exact k3.reply ..
  · split
    · exact k3.reply ..
    · split
      · exact ((k3.storeRecord ..).memGet ..).reply ..
      · split
        · exact ((k3.storeRecord ..).memGet ..).reply ..
        · split
          · exact ((k3.storeRecord ..).memGet ..).reply ..
          · split
            · exact ((k3.storeRecord ..).memGet ..).reply ..
            · split
              · exact (((k3.storeRecord ..).memGet ..).restorePages ..).reply ..
              · exact (((k3.storeRecord ..).memGet ..).restorePages ..).ok ..
              · exact (((k3.storeRecord ..).memGet ..).restorePages ..).modStore ..

theorem Sound.execCollGroupSet (h : Sound old s) (ch : Chan) : Safe old (execCollGroupSet ch s) := by
  unfold Machine.execCollGroupSet
  refine Sound.next ?_
  refine h.onRequest fun a1 t2 k3 => ?_
  dsimp only
  split
  · exact k3.reply ..
  · split
    · exact k3.reply ..
    · split
      · exact k3.reply ..
      · split
        · exact k3.reply ..
        · exact (k3.modCtx ..).ok ..

theorem Sound.execTrgFlush (h : Sound old s) (how : FlushEnd) : Safe old (execTrgFlush how s) := by
  unfold Machine.execTrgFlush
  refine Sound.next ?_
  split
  · exact h
  · split
    · exact h.flush ..
    · exact h
    · exact h.flushCut ..
    · exact h.degrade ..
    · exact h.summaryLost ..

theorem Sound.execTrgPeriodicSample (h : Sound old s) (key : SampleKey) : Safe old (execTrgPeriodicSample key s) := by
  unfold Machine.execTrgPeriodicSample
  refine Sound.next ?_
  split
  · exact h
  · split
    · exact h.update.note ..
    · exact h.note ..
    · exact h.note ..
    · exact h.note ..
    · exact Sound.ite (h.note ..) h
    · exact Sound.ite (h.note ..) h
    · exact h.noteSaturation ..
    · exact h.noteCounters ..

theorem Sound.execQuoteBudgetRefill (h : Sound old s) (identity : Bool) : Safe old (execQuoteBudgetRefill identity s) :=
  (Sound.ite h.update h.update).next

theorem Sound.execPowerGood (h : Sound old s) (journalWhole : Bool) (link : LinkResult) : Safe old (execPowerGood
    journalWhole link s) :=
  (Sound.ite h ((((((h.modPast ..).update).released ..).reapply ..).mendClear ..).rom ..)).next

theorem Sound.execFullModuleResetRelease (h : Sound old s) (link : LinkResult) : Safe old (execFullModuleResetRelease link
    s) := (Sound.ite h ((h.update.released ..).rom ..)).next

theorem Sound.execPartitionSelfTestDone (h : Sound old s) (part : Fin 8) (test : SelfTest) : Safe old
    (execPartitionSelfTestDone part test s) := (Sound.ite h ((h.testOver ..).climb ..)).next

theorem Sound.execMemoryTrainingDone (h : Sound old s) (device : Fin 12) (passed : Bool) (values : List Byte) :
    Safe old (execMemoryTrainingDone device passed values s) := by
  refine Sound.next (Sound.ite h (Sound.ite (h.modDevice ..).update (Sound.ite ?_ (h.modDevice ..))))
  exact ((h.modDevice ..).failAtStart _ fun _ k => k.modDevice ..).startDone

theorem Sound.execMemoryTestDone (h : Sound old s) (badLines : List ℕ) (badBlocks : List ℕ) : Safe old (execMemoryTestDone
    badLines badBlocks s) := (Sound.ite h (((h.buildMap ..).foldl (fun t a k => k.retireBlock ..)).startDone ..)).next

theorem Sound.execLocalSelfTestDone (h : Sound old s) (source : W32) (passed : Bool) : Safe old (execLocalSelfTestDone
    source passed s) :=
  (Sound.ite h (Sound.ite ((h.localPassed ..).startDone ..) (((h.fence ..).raiseEvent ..).startDone ..))).next

theorem Sound.execInputLoss (h : Sound old s) (how : LossKind) (readBacks : ReadBacks) : Safe old (execInputLoss how
    readBacks s) := (Sound.ite (h.lossSeen ..) ((h.lossSeen ..).enterHoldUp ..)).next

theorem Sound.execHoldupEnd (h : Sound old s) : Safe old (execHoldupEnd s) := (Sound.ite (h.powerOff ..) h).next

theorem Sound.execInputReturn (h : Sound old s) : Safe old (execInputReturn s) :=
  (Sound.ite h (Sound.ite h.update (h.update.beginModuleReset ..))).next

theorem Sound.execTrayResetFall (h : Sound old s) (readBacks : ReadBacks) : Safe old (execTrayResetFall readBacks s) :=
  (Sound.ite h.update (Sound.ite (h.update.powerOff ..) ((h.update.enterHoldUp ..).powerOff ..))).next

theorem Sound.execTrayResetRise (h : Sound old s) : Safe old (execTrayResetRise s) := h.update.next

theorem Sound.execDebugPortAccess (h : Sound old s) (op : DebugOp) : Safe old (execDebugPortAccess op s) := by
  refine Sound.next ?_
  cases op with
  | observe what => exact h.atLevel fun _ k => k.emit ..
  | trigger high => exact h.atLevel fun _ k => k.update
  | haltCore core => exact h.atLevel fun _ k => k.haltCore ..
  | runCore core => exact h.atLevel fun _ k => k.haltCore ..
  | stepCore core => exact h.atLevel fun _ k => k.haltCore ..
  | readMemory addr len lines => exact h.atLevel fun _ k => (k.memLoad ..).emit ..
  | writeMemory addr data lines => exact h.atLevel fun _ k => k.memStore ..
  | readYard part off len => exact h.atLevel fun _ k => k.emit ..
  | writeYard part off data => exact h.atLevel fun _ k => k.yardStore ..
  | readNor off len => exact h.atLevel fun _ k => k.emit ..
  | writeNor off data => exact h.atLevel fun _ k => k.setNor fun nor => norWrite_wf _ _ _ nor
  | readSram off len ecc => exact h.atLevel fun _ k => k.sramRead ..
  | writeSram off data => exact h.atLevel fun _ k => k.sramWrite ..
  | readMram bank off len => exact h.atLevel fun _ k => k.mramRead ..
  | writeMram bank off data => exact h.atLevel fun _ k => k.mramWrite ..

theorem Sound.execBypass (h : Sound old s) : Safe old (execBypass s) := (Sound.ite h.update h).next

theorem Sound.execSample (h : Sound old s) (pins : List Bool) : Safe old (execSample pins s) :=
  (h.scan (fun t k => k.update)).next

theorem Sound.execPreload (h : Sound old s) (cells : List Bool) : Safe old (execPreload cells s) :=
  (h.scan (fun t k => k.update)).next

theorem Sound.execExtest (h : Sound old s) (pins : List Bool) : Safe old (execExtest pins s) :=
  (h.scan (fun t k => (k.emit ..).update)).next

theorem Sound.execResetRequest (h : Sound old s) (ch : Chan) (readBacks : ReadBacks) : Safe old (execResetRequest ch
    readBacks s) := by
  unfold Machine.execResetRequest
  refine Sound.next ?_
  refine h.onRequest fun a1 t2 k3 => ?_
  dsimp only
  split
  · exact k3.reply ..
  · split
    · exact k3.reply ..
    · split
      · exact k3.reply ..
      · exact Sound.ite ((k3.haltAll ..).ok ..) (k3.beginRequested ..)

/-- Whatever the command, it keeps what is sound. -/
theorem Sound.exec (h : Sound old s) (i : Instr) : Safe old (exec i s) := by
  cases i with
  | sessionQuery ch => exact h.execSessionQuery ch
  | sessionResume ch => exact h.execSessionResume ch
  | sessionAck ch => exact h.execSessionAck ch
  | identityGet ch => exact h.execIdentityGet ch
  | capRead ch => exact h.execCapRead ch
  | contextCreate ch => exact h.execContextCreate ch
  | contextDestroy ch => exact h.execContextDestroy ch
  | contextHalt ch => exact h.execContextHalt ch
  | contextResume ch => exact h.execContextResume ch
  | contextRead ch => exact h.execContextRead ch
  | contextSet ch => exact h.execContextSet ch
  | classWeights ch => exact h.execClassWeights ch
  | memReserve ch => exact h.execMemReserve ch
  | memRelease ch => exact h.execMemRelease ch
  | tokenAlloc ch => exact h.execTokenAlloc ch
  | tokenList ch => exact h.execTokenList ch
  | ringBind ch => exact h.execRingBind ch
  | ringStop ch => exact h.execRingStop ch
  | ringUnbind ch => exact h.execRingUnbind ch
  | apertureBind ch => exact h.execApertureBind ch
  | dropCounters ch => exact h.execDropCounters ch
  | timetableSet ch => exact h.execTimetableSet ch
  | powerStatus ch => exact h.execPowerStatus ch
  | energyRead ch => exact h.execEnergyRead ch
  | powerStateSet ch tests readBacks => exact h.execPowerStateSet ch tests readBacks
  | hayloftAnchorWalk ch => exact h.execHayloftAnchorWalk ch
  | trgSummary ch => exact h.execTrgSummary ch
  | trgRead ch ecc => exact h.execTrgRead ch ecc
  | trgAnnotate ch => exact h.execTrgAnnotate ch
  | trgClear ch cut => exact h.execTrgClear ch cut
  | faultList ch => exact h.execFaultList ch
  | faultAck ch => exact h.execFaultAck ch
  | resetRequest ch readBacks => exact h.execResetRequest ch readBacks
  | stallRead ch => exact h.execStallRead ch
  | authChallenge ch => exact h.execAuthChallenge ch
  | measurementGet ch => exact h.execMeasurementGet ch
  | attestQuote ch how => exact h.execAttestQuote ch how
  | pubkeyGet ch => exact h.execPubkeyGet ch
  | provision ch how => exact h.execProvision ch how
  | lifecycleSet ch => exact h.execLifecycleSet ch
  | ownerKeyDestroy ch => exact h.execOwnerKeyDestroy ch
  | debugUnlock ch => exact h.execDebugUnlock ch
  | debugLock ch => exact h.execDebugLock ch
  | railInject ch => exact h.execRailInject ch
  | sbxInject ch => exact h.execSbxInject ch
  | fwUpdateBegin ch => exact h.execFwUpdateBegin ch
  | fwUpdateData ch host => exact h.execFwUpdateData ch host
  | fwUpdateVerify ch => exact h.execFwUpdateVerify ch
  | fwUpdateCommit ch how => exact h.execFwUpdateCommit ch how
  | fwUpdateAbort ch => exact h.execFwUpdateAbort ch
  | fwUpdateStatus ch => exact h.execFwUpdateStatus ch
  | fwActivate ch readBacks => exact h.execFwActivate ch readBacks
  | railNodeSet ch => exact h.execRailNodeSet ch
  | routeSet ch => exact h.execRouteSet ch
  | epochSet ch => exact h.execEpochSet ch
  | peerSet ch => exact h.execPeerSet ch
  | coupleSet ch => exact h.execCoupleSet ch
  | coupleStore ch lines => exact h.execCoupleStore ch lines
  | coupleRestore ch lines => exact h.execCoupleRestore ch lines
  | collGroupSet ch => exact h.execCollGroupSet ch
  | railStatus ch => exact h.execRailStatus ch
  | sidingEnter ch => exact h.execSidingEnter ch
  | reservedOpcodeRequest ch => exact h.execReservedOpcodeRequest ch
  | setEndpointId src slave op eid => exact h.execSetEndpointId src slave op eid
  | getEndpointId src => exact h.execGetEndpointId src
  | getMctpVersionSupport src msgType => exact h.execGetMctpVersionSupport src msgType
  | getMessageTypeSupport src => exact h.execGetMessageTypeSupport src
  | getVendorDefinedMsgSupport src selector => exact h.execGetVendorDefinedMsgSupport src selector
  | getTid src => exact h.execGetTid src
  | getPldmVersion src type => exact h.execGetPldmVersion src type
  | getPldmTypes src => exact h.execGetPldmTypes src
  | getPldmCommands src type => exact h.execGetPldmCommands src type
  | queryDeviceIdentifiers src => exact h.execQueryDeviceIdentifiers src
  | getFirmwareParameters src => exact h.execGetFirmwareParameters src
  | requestUpdate src => exact h.execRequestUpdate src
  | passComponentTable src component => exact h.execPassComponentTable src component
  | updateComponent src component size => exact h.execUpdateComponent src component size
  | requestFirmwareData src data => exact h.execRequestFirmwareData src data
  | transferComplete src => exact h.execTransferComplete src
  | applyComplete src => exact h.execApplyComplete src
  | activateFirmware src => exact h.execActivateFirmware src
  | getStatus src => exact h.execGetStatus src
  | cancelUpdateComponent src => exact h.execCancelUpdateComponent src
  | cancelUpdate src => exact h.execCancelUpdate src
  | mctpResendTimeout => exact h.execMctpResendTimeout
  | mbxInDoorbell tail => exact h.execMbxInDoorbell tail
  | mailboxRequestReceive => exact h.execMailboxRequestReceive
  | mbxOutAck ack => exact h.execMbxOutAck ack
  | mbxOutDoorbell value => exact h.execMbxOutDoorbell value
  | outboundTicketWrite ch => exact h.execOutboundTicketWrite ch
  | msixHoldoffExpiry vector => exact h.execMsixHoldoffExpiry vector
  | msixVectorUnmask vector => exact h.execMsixVectorUnmask vector
  | rngIrqPend k mask => exact h.execRngIrqPend k mask
  | rngDoorbell ring value whole => exact h.execRngDoorbell ring value whole
  | tokSignal token value whole => exact h.execTokSignal token value whole
  | apertureRead addr len lines => exact h.execApertureRead addr len lines
  | apertureWrite addr data lines => exact h.execApertureWrite addr data lines
  | configWrite reg => exact h.execConfigWrite reg
  | registerWriteOther bar offset data => exact h.execRegisterWriteOther bar offset data
  | pcieConventionalReset how link => exact h.execPcieConventionalReset how link
  | wagonFetch ring how => exact h.execWagonFetch ring how
  | marshallingDispatch unit => exact h.execMarshallingDispatch unit
  | wagonStart ring index cycle => exact h.execWagonStart ring index cycle
  | creditReturn unit => exact h.execCreditReturn unit
  | nop ring index => exact h.execNop ring index
  | mma ring index ecc slips rebuild => exact h.execMma ring index ecc slips rebuild
  | ledgerAdd ring index ecc slips rebuild => exact h.execLedgerAdd ring index ecc slips rebuild
  | readout ring index ecc faults rebuild again => exact h.execReadout ring index ecc faults rebuild again
  | vector ring index ecc faults again => exact h.execVector ring index ecc faults again
  | copy ring index errs => exact h.execCopy ring index errs
  | gather ring index errs => exact h.execGather ring index errs
  | scatter ring index errs => exact h.execScatter ring index errs
  | fill ring index errs => exact h.execFill ring index errs
  | allreduce ring index errs sums => exact h.execAllreduce ring index errs sums
  | reduce ring index errs sums => exact h.execReduce ring index errs sums
  | broadcast ring index errs => exact h.execBroadcast ring index errs
  | tokenWait ring index => exact h.execTokenWait ring index
  | tokenSignal ring index => exact h.execTokenSignal ring index
  | tokenSet ring index => exact h.execTokenSet ring index
  | stepCommit ring index => exact h.execStepCommit ring index
  | wagonComplete ring index ecc => exact h.execWagonComplete ring index ecc
  | memoryReadReply part dm tag reply errs => exact h.execMemoryReadReply part dm tag reply errs
  | tokenWaitTimeout ring index => exact h.execTokenWaitTimeout ring index
  | collTimeout ring index => exact h.execCollTimeout ring index
  | mirrorAckTimeout ctx => exact h.execMirrorAckTimeout ctx
  | mirrorCloseTimeout ctx => exact h.execMirrorCloseTimeout ctx
  | teardownComplete ctx => exact h.execTeardownComplete ctx
  | quarantineExpiry ctx => exact h.execQuarantineExpiry ctx
  | zeroingDone => exact h.execZeroingDone
  | patrolScrubRead line ecc => exact h.execPatrolScrubRead line ecc
  | yardScrubRead part word ecc => exact h.execYardScrubRead part word ecc
  | frameReceive port frame corrected uncorrectable => exact h.execFrameReceive port frame corrected uncorrectable
  | frameSend port => exact h.execFrameSend port
  | replayTimeout port => exact h.execReplayTimeout port
  | trailerTimeout port => exact h.execTrailerTimeout port
  | trainingDone port => exact h.execTrainingDone port
  | trainingRetry port => exact h.execTrainingRetry port
  | quietEnd port => exact h.execQuietEnd port
  | resendWaitExpiry port => exact h.execResendWaitExpiry port
  | write port lines => exact h.execWrite port lines
  | signal port => exact h.execSignal port
  | doorbell port => exact h.execDoorbell port
  | mirrorOpen port lines => exact h.execMirrorOpen port lines
  | mirrorClose port => exact h.execMirrorClose port
  | mirrorReply port => exact h.execMirrorReply port
  | collUp port errs sums => exact h.execCollUp port errs sums
  | collDown port errs => exact h.execCollDown port errs
  | collAbort port => exact h.execCollAbort port
  | dack port lines => exact h.execDack port lines
  | epochNotice port => exact h.execEpochNotice port
  | signalBoxReport source code ctx info => exact h.execSignalBoxReport source code ctx info
  | signallingFault source => exact h.execSignallingFault source
  | pairWalk wrong => exact h.execPairWalk wrong
  | milepostStall source => exact h.execMilepostStall source
  | coreWatchdogExpiry core => exact h.execCoreWatchdogExpiry core
  | moduleWatchdogExpiry => exact h.execModuleWatchdogExpiry
  | clockMonitorTrip => exact h.execClockMonitorTrip
  | resetDeadlineMissed level scope => exact h.execResetDeadlineMissed level scope
  | moduleResetTimerExpiry => exact h.execModuleResetTimerExpiry
  | unitResetDone source => exact h.execUnitResetDone source
  | partitionResetDone part test => exact h.execPartitionResetDone part test
  | computeDomainResetDone tests => exact h.execComputeDomainResetDone tests
  | eventAutoAck event => exact h.execEventAutoAck event
  | coastingTimeout unit cycle => exact h.execCoastingTimeout unit cycle
  | departureSlotGrant cycle => exact h.execDepartureSlotGrant cycle
  | innerLoopTick m => exact h.execInnerLoopTick m
  | outerLoopTick => exact h.execOuterLoopTick
  | overrunFallback => exact h.execOverrunFallback
  | engineTrialDone onTime => exact h.execEngineTrialDone onTime
  | ceilingPeriod ceiling m => exact h.execCeilingPeriod ceiling m
  | computeStepChange => exact h.execComputeStepChange
  | sustainedBucketUpdate => exact h.execSustainedBucketUpdate
  | trimRung => exact h.execTrimRung
  | droopStretch part => exact h.execDroopStretch part
  | droopRelease cycles fabric => exact h.execDroopRelease cycles fabric
  | thermalTrip sensor => exact h.execThermalTrip sensor
  | thermalTripRelease => exact h.execThermalTripRelease
  | railCurrentLimit rail => exact h.execRailCurrentLimit rail
  | energySample partMj ran coasting busMj => exact h.execEnergySample partMj ran coasting busMj
  | cartridgeInsert => exact h.execCartridgeInsert
  | zeroMeasurementDone m => exact h.execZeroMeasurementDone m
  | thermistorSample milliC readBacks => exact h.execThermistorSample milliC readBacks
  | identityPeriodicRead reads readBacks => exact h.execIdentityPeriodicRead reads readBacks
  | cartridgeHwTrip kind => exact h.execCartridgeHwTrip kind
  | estimatorSample m => exact h.execEstimatorSample m
  | fullAnchor readBacks => exact h.execFullAnchor readBacks
  | learningPauseTimeout => exact h.execLearningPauseTimeout
  | anchorWalkStart => exact h.execAnchorWalkStart
  | anchorWalkTimeout => exact h.execAnchorWalkTimeout
  | recordWriteTimer readBacks => exact h.execRecordWriteTimer readBacks
  | trgFlush how => exact h.execTrgFlush how
  | trgPeriodicSample key => exact h.execTrgPeriodicSample key
  | quoteBudgetRefill identity => exact h.execQuoteBudgetRefill identity
  | powerGood journalWhole link => exact h.execPowerGood journalWhole link
  | partitionSelfTestDone part test => exact h.execPartitionSelfTestDone part test
  | memoryTrainingDone device passed values => exact h.execMemoryTrainingDone device passed values
  | memoryTestDone badLines badBlocks => exact h.execMemoryTestDone badLines badBlocks
  | fullModuleResetRelease link => exact h.execFullModuleResetRelease link
  | inputLoss how readBacks => exact h.execInputLoss how readBacks
  | holdupEnd => exact h.execHoldupEnd
  | inputReturn => exact h.execInputReturn
  | trayResetFall readBacks => exact h.execTrayResetFall readBacks
  | trayResetRise => exact h.execTrayResetRise
  | debugPortAccess op => exact h.execDebugPortAccess op
  | bypass => exact h.execBypass
  | sample pins => exact h.execSample pins
  | preload cells => exact h.execPreload cells
  | extest pins => exact h.execExtest pins
  | pcieCompletionTimeout part dm tag errs => exact h.execPcieCompletionTimeout part dm tag errs
  | vendorDefinedMessage packets => exact h.execVendorDefinedMessage packets
  | perstLRise link => exact h.execPerstLRise link
  | localSelfTestDone source passed => exact h.execLocalSelfTestDone source passed
  | vddFabLimitRelease => exact h.execVddFabLimitRelease

theorem Fuses.grewFrom_refl (f : Fuses) : f.grewFrom f := ⟨BitVec.and_self, id, Nat.le_refl _, rfl⟩

/-- The state that a step starts from. -/
theorem Sound.start (s : State) : Sound s s := ⟨id, id, s.fuses.grewFrom_refl⟩

theorem Sound.step (s : State) : Safe s (step s) := by
  unfold Machine.step
  split
  · exact (Sound.start s).next
  · exact (Sound.start s).update.exec _

/-- Settles O59: a step is one command, and every command keeps the canonical form of every memory. -/
theorem stepsKeepMemoryForm : Obligations.StepsKeepMemoryForm :=
  fun s _ form run => (Sound.step s _ run).memory form

/-- Settles O60: CHANGE_COUNT goes up by two at a time, and the fuses are only programmed. -/
theorem stepsKeepDescriptorAndFuses : Obligations.StepsKeepDescriptorAndFuses :=
  fun s _ even run => ⟨(Sound.step s _ run).still even, (Sound.step s _ run).grown⟩

end Sys2Proof.Machine
end

section
/-! The halts of O4, O9 and O13 over a context table that lists its context twice, and SIDING_ENTER over a grant that waits for
a context under teardown: refutes O4, O9, O13 and O32 (R166, R173, R203, R206, R211, R246, R510). -/

namespace Sys2Proof.Machine

/-- Context 0 is listed twice, the grant waits for the frame of its record, and the host may reach the endpoint. -/
def twiceListedLinked : State :=
  { twiceListed with pcie.linkUp := true, pcie.busMaster := true }

/-- TAIL 65, one beyond HEAD + 64, under generation 1. -/
def overrunDoorbell : W64 := 0x0001000000000041#64

theorem overrunDoorbell_gen : ∃ t, exec (.rngDoorbell 0 overrunDoorbell true) twiceListedLinked = .next t ∧ (t.ctx 0).gen = 8 :=
  ⟨_, rfl, by decide +kernel⟩

/-- Refutes O9: no hypothesis says that the context table lists a context once. The halt by the overrun writes the record of
the wagon into the line left uncorrectable, the grant is dropped, the reset entry leaves the table (R211) and the second
entry's generation is raised: 8 follows 1. -/
theorem not_ringDoorbell : ¬ Obligations.RingDoorbell := by
  intro h
  obtain ⟨moves, -⟩ := h twiceListedLinked 0 overrunDoorbell (by decide)
  obtain ⟨t, ran, -, halts⟩ := moves (by decide +kernel) (by decide +kernel) (by decide +kernel)
  obtain ⟨-, gen, -⟩ := halts (by decide +kernel) (by decide +kernel)
  have gen : (t.ctx 0).gen = nextGen (twiceListedLinked.ctx 0).gen := gen
  obtain ⟨u, raised, eight⟩ := overrunDoorbell_gen
  obtain rfl := Host.Outcome.next.inj (ran.symm.trans raised)
  rw [eight] at gen
  exact absurd gen (by decide +kernel)

/-- CONTEXT_DESTROY of context 0 under generation 1. -/
def destroyRequest : Request := { haltRequest with opcode := 0x0201 }

/-- The state of `twiceListed` with CONTEXT_DESTROY in the place of CONTEXT_HALT. -/
def twiceListedDestroyed : State := { twiceListed with book.pcie.received := [destroyRequest] }

theorem twiceListedDestroyed_gen : ∃ t, exec (.contextDestroy .pcie) twiceListedDestroyed = .next t ∧ (t.ctx 0).gen = 8 :=
  ⟨_, rfl, by decide +kernel⟩

/-- Refutes O4: where the context table lists context 0 twice, the teardown that resets the first entry (R211) raises the
generation of the second: 8 follows 1. -/
theorem not_contextReadSetDestroy : ¬ Obligations.ContextReadSetDestroy := by
  intro h
  obtain ⟨-, -, destroyed⟩ := h twiceListedDestroyed destroyRequest [] .pcie (by decide)
  obtain ⟨t, ran, -, gen, -⟩ := destroyed 0 ⟨rfl, rfl, rfl, rfl, by decide +kernel, rfl, rfl, rfl⟩
    ⟨rfl, by decide +kernel⟩ ⟨by decide +kernel, by decide, .inl rfl, by decide +kernel⟩
  obtain ⟨u, raised, eight⟩ := twiceListedDestroyed_gen
  obtain rfl := Host.Outcome.next.inj (ran.symm.trans raised)
  rw [eight] at gen
  exact absurd gen (by decide +kernel)

/-- Ring 1 of context 0 takes its wagons from the host and has one to fetch. -/
def hostFed : State :=
  { twiceListed with
    rings := twiceListed.rings ++ [(1, { Ring.reset with state := .running, logSize := 6, host := true, tail := 1 })] }

theorem hostFed_gen : ∃ t, exec (.wagonFetch 1 (.host .error)) hostFed = .next t ∧ (t.ctx 0).gen = 8 :=
  ⟨_, rfl, by decide +kernel⟩

/-- Refutes O13: where the context table lists context 0 twice, the halt by a failed fetch, which resets the first entry
(R211), raises the generation of the second: 8 follows 1. -/
theorem not_marshallingFetchesAndDispatches : ¬ Obligations.MarshallingFetchesAndDispatches := by
  intro h
  obtain ⟨fetches, -⟩ := h
  obtain ⟨-, -, failed⟩ := fetches hostFed 1 (by decide) (by decide +kernel) (by decide +kernel) (by decide +kernel)
  obtain ⟨t, ran, -, -, -, gen⟩ := failed (by decide +kernel)
  have gen : (t.ctx 0).gen = nextGen (hostFed.ctx 0).gen := gen
  obtain ⟨u, raised, eight⟩ := hostFed_gen
  obtain rfl := Host.Outcome.next.inj (ran.symm.trans raised)
  rw [eight] at gen
  exact absurd gen (by decide +kernel)

/-- SIDING_ENTER. -/
def sidingRequest : Request := { haltRequest with opcode := 0x0909, payload := [] }

/-- The state of `noticeWaits` with a SIDING_ENTER received. -/
def sidingWaits : State :=
  { noticeWaits with book.fwState := 3, book.pcie.received := [sidingRequest], power.state := .run }

theorem sidingWaits_frees : ∃ t, exec (.sidingEnter .pcie) sidingWaits = .next t ∧ (t.ctx 0).state = .free :=
  ⟨_, rfl, by decide +kernel⟩

/-- Refutes O32: no hypothesis keeps a frame in which a wagon's record lies from being one that the CONTEXT_CREATE of another
context waits for. Where the teardown of the wagon's context drops that grant, the other one is FREE and not in TEARDOWN. -/
theorem not_peersGroupsSiding : ¬ Obligations.PeersGroupsSiding := by
  intro h
  obtain ⟨-, siding⟩ := h sidingWaits sidingRequest [] .pcie (by decide)
  obtain ⟨t, ran, -, -, torn, -⟩ := siding ⟨rfl, rfl, rfl, rfl, by decide +kernel, rfl, rfl, rfl⟩ ⟨rfl, rfl⟩ (by decide)
  obtain ⟨u, entered, free⟩ := sidingWaits_frees
  obtain rfl := Host.Outcome.next.inj (ran.symm.trans entered)
  rw [torn 0 (.inl rfl)] at free
  cases free

end Sys2Proof.Machine
end

section
/-! COUPLE_STORE over a grant that waits for the frame of the store: refutes O33 (R211, R246, R259). -/

namespace Sys2Proof.Machine

/-- COUPLE_STORE of context 0 under generation 1 for peer 0, which is node 0, with slots of no bytes. -/
def storeRequest : Request :=
  { haltRequest with opcode := 0x0905, payload := [0, 0, 0, 0, 1, 0] ++ List.replicate 18 0 }

/-- Peer 0 of context 0 may write here. -/
def writingPeer : Peer := 
  { node := 0, remoteGen := 1, remoteCtx := 0, doorbellIn := false, signalIn := false, writeIn := true, valid := true }

/-- Context 0 is HALTED, the line of its store record is left uncorrectable, and a grant of context 1 waits for the frame of that
line. -/
def storeWaits : State :=
  { State.reset with
    ctxs := [(0, { pagedContext with state := .halted, peers := [writingPeer] }), (1, { Context.reset with state := .active })]
    mem.damaged := [0]
    mem.grants := [{ waitingGrant with ctx := 1 }]
    book.fwState := 3
    book.pcie.received := [storeRequest]
    power.state := .run }

theorem storeWaits_frees : ∃ t, exec (.coupleStore .pcie cleanLines) storeWaits = .next t ∧ (t.ctx 1).state = .free :=
  ⟨_, rfl, by decide +kernel⟩

/-- Refutes O33: no hypothesis of COUPLE_STORE keeps the line of the store record from being left uncorrectable, nor its frame
from being one that the CONTEXT_CREATE of another context waits for. The read of the record retires the frame, that grant is
dropped with its shortfall, and context 1 is FREE. -/
theorem not_couplingRequests : ¬ Obligations.CouplingRequests := by
  intro h
  obtain ⟨-, stores, -⟩ := h storeWaits storeRequest [] .pcie 0 (by decide)
    ⟨by decide +kernel, by decide, .inr rfl, by decide +kernel⟩
  obtain ⟨t, ran, -, -, -, -, others⟩ := stores writingPeer ⟨rfl, rfl, rfl, rfl, by decide +kernel, rfl, rfl, rfl⟩
    ⟨rfl, by decide +kernel⟩ rfl (by decide +kernel) rfl (by decide +kernel) (by decide +kernel) (by decide +kernel)
  obtain ⟨u, freed, free⟩ := storeWaits_frees
  obtain rfl := Host.Outcome.next.inj (ran.symm.trans freed)
  rw [others 1 (by decide)] at free
  exact absurd free (by decide +kernel)

end Sys2Proof.Machine
end

section
/-! MIRROR_OPEN over a grant that waits for the frame of the store: refutes O28 (R211, R246, R259). -/

namespace Sys2Proof.Machine

/-- A MIRROR_OPEN of step 1 from node 2 for context 0, under epoch 7. -/
def openPacket : Packet :=
  { epoch := 7, dst := 1, src := 2, tag := 5, arg := 1, length := 0, ctx := 0, gen := 1, kind := 4, pflags := 0, data := [] }

/-- The store that node 2 opens slots of. -/
def mirrorStore : Store :=
  { sourceNode := 2, sourcePeer := 0, slotBytes := 0, opened := none, applied := 0, restoring := none }

/-- Context 0 is a mirror store whose record lies in a line left uncorrectable, its own CONTEXT_CREATE waits for the frame of
that line, and a MIRROR_OPEN has arrived. -/
def openWaits : State :=
  { State.reset with
    ctxs := [(0, { pagedContext with peers := [{ writingPeer with node := 2 }], store := some mirrorStore })]
    mem.damaged := [0]
    mem.grants := [waitingGrant]
    rails := { Rails.reset with
      node := 1, epoch := 7, ports := [{ Port.reset with rxq := [[(openPacket, 1)], [], [], []] }] }
    book.fwState := 3
    power.state := .run
    start := { Start.reset with phase := .rom, control := true } }

theorem openWaits_frees : ∃ t, exec (.mirrorOpen 0 cleanLines) openWaits = .next t ∧ (t.ctx 0).state = .free :=
  ⟨_, rfl, by decide +kernel⟩

/-- Refutes O28: no hypothesis of MIRROR_OPEN keeps the line of the store record from being left uncorrectable, nor its frame
from being one that a grant of the context waits for. The read of the record retires the frame, the grant is dropped with its
shortfall, and the context is FREE. -/
theorem not_mirrorPacketsAndTimeouts : ¬ Obligations.MirrorPacketsAndTimeouts := by
  intro h
  obtain ⟨opens, -⟩ := h.1 openWaits 0 0 openPacket mirrorStore (by decide +kernel) rfl rfl
  obtain ⟨t, ran, entry, -⟩ := opens ⟨by decide +kernel, by decide +kernel, by decide +kernel⟩ (by decide +kernel)
  obtain ⟨u, freed, free⟩ := openWaits_frees
  obtain rfl := Host.Outcome.next.inj (ran.symm.trans freed)
  rw [show t.ctx 0 = _ from entry] at free
  exact absurd free (by decide +kernel)

end Sys2Proof.Machine
end

section
/-! POWER_STATE_SET to Run from a Standby under which a context is ACTIVE: refutes O40 (R7, R438, R498). -/

namespace Sys2Proof.Machine

/-- POWER_STATE_SET to Run. -/
def runRequest : Request := { haltRequest with opcode := 0x0303, payload := [0, 0, 0, 0] }

/-- Eight partitions in service in Standby, all granted to context 0, which is ACTIVE. -/
def standbyActive : State :=
  { State.reset with
    parts := List.replicate 8 { Partition.reset.placed with unit := .inService }
    ctxs := [(0, { Context.reset with
      state := .active, yard := (List.range 8).map fun p => { phys := p, base := 0, size := 16 } })]
    book.fwState := 3
    book.pcie.received := [runRequest]
    power.state := .standby }

/-- The self-test of partition 0 finds its vector engine bad. -/
def vectorFails : SelfTest := { engines := [], vector := true, movers := [], yard := false }

/-- Seven partitions are left, so the profile falls to six: the seventh is held, and its context halts. -/
theorem standbyActive_halts :
    ∃ t, exec (.powerStateSet .pcie [vectorFails] written) standbyActive = .next t ∧ (t.ctx 0).state = .halted :=
  ⟨_, rfl, by decide +kernel⟩

/-- Refutes O40: no hypothesis says that every context is FREE or in quarantine in Standby, nor that the self-tests find nothing.
Where one fails, the profile falls below the partitions left, one of them is held and its context halts. -/
theorem not_powerRequests : ¬ Obligations.PowerRequests := by
  intro h
  obtain ⟨-, -, -, -, sets, -⟩ := h standbyActive runRequest [] .pcie
  obtain ⟨-, -, -, wakes, -⟩ := sets [vectorFails] written ⟨rfl, rfl, rfl, rfl, by decide +kernel, rfl, rfl, rfl⟩
    ⟨rfl, by decide +kernel⟩ rfl
  obtain ⟨t, ran, -, -, -, -, -, -, states⟩ := wakes (by decide +kernel) rfl
  obtain ⟨u, woken, halted⟩ := standbyActive_halts
  obtain rfl := Host.Outcome.next.inj (ran.symm.trans woken)
  rw [states 0] at halted
  exact absurd halted (by decide +kernel)

end Sys2Proof.Machine
end

section
/-! A trimming step where fewer partitions are serviceable than the profile says: refutes O43 (R7, R460). -/

namespace Sys2Proof.Machine

/-- Six partitions in service under a profile of eight; compute over the reference at ceiling 16, the converter off. -/
def shrunkProfile : State :=
  { State.reset with
    parts := List.replicate 6 { Partition.reset.placed with unit := .inService }
    cap.profile := 8
    power.state := .run
    power.ceilings := [64, 64, 16, 64, 64, 64]
    power.inputMw := 1
    start.phase := .rom }

theorem shrunkProfile_trims : ∃ t, exec .trimRung shrunkProfile = .next t ∧ t.cap.trimmed = false :=
  ⟨_, rfl, by decide +kernel⟩

/-- Refutes O43: no hypothesis ties the profile to the partitions that are serviceable. Where six are left under a profile of
eight, a profile of at most six is no trim, and trimming ends as it begins. -/
theorem not_ceilingsTrimmingEnergy : ¬ Obligations.CeilingsTrimmingEnergy := by
  intro h
  obtain ⟨-, trims, -⟩ := h shrunkProfile
  obtain ⟨falls, -⟩ := trims rfl (.inl rfl) (by decide +kernel) (by decide +kernel) (by decide +kernel)
  obtain ⟨t, ran, trimmed, -⟩ := falls (by decide +kernel) (by decide +kernel)
  obtain ⟨u, settled, ended⟩ := shrunkProfile_trims
  obtain rfl := Host.Outcome.next.inj (ran.symm.trans settled)
  rw [trimmed] at ended
  cases ended

end Sys2Proof.Machine
end

section
/-! More base address registers than the configuration header has: refutes O37 (R372, R378). -/

namespace Sys2Proof.Machine

/-- A state that lists eight base address registers in the place of six. -/
def eightBars : State := { State.reset with pcie.bars := List.replicate 8 0 }

theorem eightBars_subsystem : (List.range 4).map (fun i => eightBars.configByte (0x2C + i)) = [0, 0, 0, 0] := by
  decide +kernel

/-- Refutes O37: no hypothesis says that there are six base address registers. The eighth of eight covers the subsystem
identity at 0x2C, which reads 0. -/
theorem not_endpointWritesAndResets : ¬ Obligations.EndpointWritesAndResets := by
  intro h
  obtain ⟨-, -, ⟨-, -, subsystem, -⟩, -⟩ := h eightBars
  rw [eightBars_subsystem] at subsystem
  exact absurd subsystem (by decide)

end Sys2Proof.Machine
end

section
/-! SUPPORT. The turn of a request that no check refuses, whatever its letter and whether it names a context. -/

namespace Sys2Proof.Machine

/-- The rules of a request of the channel's turn run: out of Hold-up, where its letter allows it, without a block, in the right
form, and where it names a context, one that passes. -/
theorem Asked.turnRuns {s : State} {ch : Chan} {op : Nat} {r : Request} {rest : List Request} {p : Nat → Bool} {rule : Rule}
    {act : Request → State → State} (asked : Asked s ch op r rest) (mine : p op = true)
    (power : s.power.state = .holdUp → rule.holdup = true)
    (letter : letterAllows s.fuses.life s.sec.level (s.power.state = .standby) rule.letter = true)
    (unkeyed : rule.authNeed (s.started ch r rest) r = false) (long : rule.lenOk r.payload = true)
    (plain : firstSet r.payload rule.reserved = none)
    (named : rule.ctx = true → (s.started ch r rest).ctxRefusal r = none) :
    s.onRequest ch p rule act = act r (s.started ch r rest) :=
  State.onRequest_asked asked mine (State.refusal_none asked.whole asked.noBlock asked.noHost
    (by rwa [State.started_power]) (fun _ => by simpa using letter) unkeyed long plain named)

/-- R607: a request that names a live context under its generation passes. -/
theorem Naming.passes {s : State} {r : Request} {c : Nat} (names : Naming s r c) (ch : Chan) (rest : List Request) :
    (s.started ch r rest).ctxRefusal r = none := by
  obtain ⟨rfl, inTable, live, gen⟩ := names
  unfold State.ctxRefusal
  rw [if_neg (by omega)]
  rcases live with h | h
  · simp [h, gen]
  · simp [h, gen]

/-- A reply after the started state differs from the state before in the Booking Office, the recorder and what was sent. -/
theorem State.started_ok_only (s : State) (ch : Chan) (r : Request) (rest : List Request) (payload : List Byte) :
    OnlyBook s ((s.started ch r rest).ok r payload) := s.started_reply_only ch r rest stOk 0 payload

end Sys2Proof.Machine
end

section
/-! The form of a step, the values at reset, identity and descriptor, TOK_SIGNAL and MSI-X, MCTP control and PLDM inventory:
settles O57, O58, O2, O36 and O38. -/

namespace Sys2Proof.Machine

/-- A command whose operands no outside party can send is a fault (log entry 111). -/
theorem exec_illFormed {c : Instr} (bad : c.wellFormed = false) (s : State) : exec c s = .fault .illFormed := by
  cases c
  case frameReceive port frame a b => exact if_pos (by simpa [Instr.wellFormed] using bad)
  case apertureRead addr len lines => exact if_pos (by simpa [Instr.wellFormed] using bad)
  case apertureWrite addr data lines => exact if_pos (by simpa [Instr.wellFormed] using bad)
  case zeroMeasurementDone m => exact if_pos (by simpa [Instr.wellFormed] using bad)
  case estimatorSample m => exact if_pos (by simpa [Instr.wellFormed] using bad)
  case energySample mj ran coasting bus => exact if_pos (by simpa [Instr.wellFormed, partitionsOk] using bad)
  case computeDomainResetDone tests => exact if_pos (by simpa [Instr.wellFormed, partitionsOk] using bad)
  all_goals cases bad

/-- Settles O57: the step's own equations, and the check that the seven commands with such operands begin with. -/
theorem stepTakesTheFront : Obligations.StepTakesTheFront := by
  refine ⟨fun c rest s => rfl, fun s idle => ?_, fun c s bad => exec_illFormed bad s⟩
  unfold step
  rw [idle]

/-- Settles O58, each value read off the reset state. -/
theorem resetValues : Obligations.ResetValues := by
  have ports : ∀ i < 20, (State.reset.port i).cred = [512, 512, 512, 64] := by decide
  exact ⟨fun _ => ⟨rfl, rfl⟩, fun _ => rfl, fun _ => ⟨rfl, rfl⟩, rfl, rfl, ports, rfl, rfl, rfl, rfl, rfl, rfl, rfl, rfl, rfl, rfl,
    rfl, rfl, rfl, rfl, rfl, rfl, rfl, rfl, rfl, rfl, ⟨rfl, rfl, rfl, rfl, rfl, rfl, rfl, rfl, rfl⟩, rfl⟩

section
variable {s : State} {ch : Chan} {r : Request} {rest : List Request}

/-- R351. -/
theorem execIdentityGet_asked (asked : Asked s ch 0x0110 r rest) (shaped : Shaped r 0 []) :
    exec (.identityGet ch) s = .next ((s.started ch r rest).ok r
      (asciiPad (partName s.fuses.part) 16 ++ leBytes 16 s.fuses.serial.toNat ++ leBytes 2 0x00B0 ++ leBytes 2 0x0302 ++
        leBytes 4 s.sec.runVersion ++ s.identityKey ++ [s.fuses.lifeByte] ++ leBytes 3 0)) := by
  show Host.Outcome.next (s.onRequest ch _ _ _) = _
  rw [asked.turnRuns rfl (fun _ => rfl) rfl rfl shaped.lenOk shaped.2 (by simp)]
  simp only [State.started_fuses, State.started_sec, State.identityKey]

theorem State.started_capBytes (s : State) (ch : Chan) (r : Request) (rest : List Request) :
    (s.started ch r rest).capBytes = s.capBytes := by cases ch <;> rfl

theorem State.started_cap (s : State) (ch : Chan) (r : Request) (rest : List Request) :
    (s.started ch r rest).cap = s.cap := State.modChan_cap ..

/-- R352. -/
theorem execCapRead_asked (asked : Asked s ch 0x0111 r rest) (shaped : Shaped r 8 [(6, 2)]) (some : 0 < r.get 4 2)
    (fits : r.get 4 2 ≤ 472) (inside : r.get 0 4 + r.get 4 2 ≤ 1024) :
    exec (.capRead ch) s = .next ((s.started ch r rest).ok r
      (leBytes 4 s.cap.changeCount.toNat ++ leBytes 4 0 ++ slice s.capBytes (r.get 0 4) (r.get 4 2))) := by
  show Host.Outcome.next (s.onRequest ch _ _ _) = _
  rw [asked.turnRuns rfl (fun _ => rfl) rfl rfl shaped.lenOk shaped.2 (by simp)]
  dsimp only
  rw [if_neg (by omega), if_neg (by omega), State.started_capBytes, State.started_cap]

/-- R371. -/
theorem execReservedOpcodeRequest_asked {op : Nat} (asked : Asked s ch op r rest) (reserved : op ∉ requestOpcodes)
    (power : s.power.state ≠ .holdUp) :
    exec (.reservedOpcodeRequest ch) s = .next ((s.started ch r rest).reply r stUnknown 0 []) := by
  show Host.Outcome.next (match s.takeReq ch (fun m => m ∉ requestOpcodes) with | none => s | some (r, t) => _) = _
  rw [State.takeReq_asked asked (by simpa using reserved)]
  dsimp only
  rw [if_neg (by simp [asked.whole]), if_neg (by simpa using power)]

end

/-- Settles O2. -/
theorem identityAndDescriptorRead : Obligations.IdentityAndDescriptorRead := by
  intro s r rest ch
  refine ⟨fun asked shaped => ?identity, fun asked shaped => ?descriptor, fun op asked reserved power => ?reserved⟩
  case identity =>
    exact ⟨_, execIdentityGet_asked asked shaped, s.started_ok_only .., State.ok_answered ..⟩
  case descriptor =>
    intro off n some fits inside
    exact ⟨_, execCapRead_asked asked shaped some fits inside, s.started_ok_only .., State.ok_answered ..⟩
  case reserved =>
    exact ⟨_, execReservedOpcodeRequest_asked asked reserved power, s.started_reply_only .., State.reply_answered_nil ..⟩

/-! ### TOK_SIGNAL and the vectors (R195, R202, R337, R382, R383, R386) -/

theorem mem_addTo {α : Type} [DecidableEq α] (x : α) (l : List α) : x ∈ addTo x l := by
  unfold addTo
  split
  · assumption
  · simp

theorem notMem_dropFrom {α : Type} [DecidableEq α] (x : α) (l : List α) : x ∉ dropFrom x l := by simp [dropFrom]

/-- A token that has an owner is listed. -/
theorem Token.ne_reset {t : Token} {c : Nat} (owned : t.owner = some c) : t ≠ Token.reset := by
  intro e
  rw [e] at owned
  cases owned

theorem State.token_addToken {s : State} {n c : Nat} (owned : (s.token n).owner = some c) (x : W32) (i : Nat) :
    (s.addToken n x).token i = if i = n then { s.token n with value := (s.token n).value + x } else s.token i := by
  split
  · rename_i here
    rw [here]
    exact s.token_modToken_ne n _ (Token.ne_reset (c := c) owned)
  · rename_i other
    exact s.token_modToken_other _ other

theorem State.msixEntry_unmasked (s : State) (v : Nat) :
    Table.get MsixEntry.reset (Table.mod MsixEntry.reset v (fun e => { e with masked := false }) s.pcie.msix) v =
      { s.msixEntry v with masked := false } := by
  refine Table.get_mod_ne _ _ _ _ fun e => ?_
  have masked := congrArg MsixEntry.masked e
  cases masked

section
variable {s : State} (up : s.hostUp = true)
include up

/-- R195, R202. -/
theorem execTokSignal_owned {k : Fin 65536} {v : W64} {c : Nat} (owned : (s.token k.val).owner = some c) :
    exec (.tokSignal k v true) s = .next (if (s.ctx c).gen.toNat = field v.toNat 63 48 then
      s.addToken k.val (BitVec.ofNat 32 (field v.toNat 31 0)) else { s with drops.signal := s.drops.signal + 1 }) := by
  show Host.Outcome.next (s.onBar _) = _
  rw [State.onBar_up up]
  simp only [owned, true_and]
  rfl

/-- R386: a vector that nothing holds back sends its message and begins its interval. -/
theorem State.msixNow_sent {v : Nat} (unmasked : (s.msixEntry v).masked = false) (programmed : (s.msixEntry v).programmed = true)
    (enabled : s.pcie.msixEnabled = true) : s.msixNow v = { s with
      pcie.holdoff := addTo v s.pcie.holdoff, out := s.out ++ [.msix v (s.msixEntry v).addr (s.msixEntry v).data] } := by
  unfold State.msixNow
  exact if_neg (by simp [unmasked, programmed, enabled, up])

/-- R382: unmasking a vector held in the PBA sends its message. -/
theorem State.unmask_held {v : Nat} (held : v ∈ s.pcie.pba) (free : v ∉ s.pcie.holdoff)
    (programmed : (s.msixEntry v).programmed = true) (enabled : s.pcie.msixEnabled = true) :
    s.unmask v = { s with
      pcie.msix := Table.mod MsixEntry.reset v (fun e => { e with masked := false }) s.pcie.msix
      pcie.pba := dropFrom v s.pcie.pba, pcie.holdoff := addTo v s.pcie.holdoff
      out := s.out ++ [.msix v (s.msixEntry v).addr (s.msixEntry v).data] } := by
  have entry := State.msixEntry_unmasked s v
  unfold State.unmask State.raiseHeld
  rw [if_pos held]
  unfold State.raiseVector
  rw [if_neg free, State.msixNow_sent]
  · simp only [State.msixEntry, entry]
  · exact up
  · simp only [State.msixEntry, entry]
  · simp only [State.msixEntry, entry]
    exact programmed
  · exact enabled

end

/-- Settles O36. -/
theorem signalsAndVectors : Obligations.SignalsAndVectors := by
  intro s up
  refine ⟨fun k v c owned => ⟨fun gen => ?signal, fun gen => ?dropped⟩, fun v => ⟨fun held due => ?quiet, fun held due unmasked
    programmed enabled => ?sent, fun pending free programmed enabled => ?unmasked⟩, fun k m => ?pend⟩
  case signal =>
    refine ⟨_, (execTokSignal_owned up owned).trans (by rw [if_pos gen]), rfl, fun i => ?_⟩
    exact State.token_addToken owned _ i
  case dropped => exact (execTokSignal_owned up owned).trans (by rw [if_neg gen])
  case quiet =>
    refine ⟨{ s with pcie.holdoff := dropFrom v.val s.pcie.holdoff, pcie.due := dropFrom v.val s.pcie.due }, ?_,
      notMem_dropFrom _ _, rfl⟩
    exact congrArg Host.Outcome.next ((if_neg (not_not.mpr held)).trans (if_neg due))
  case sent =>
    refine ⟨_, congrArg Host.Outcome.next ((if_neg (not_not.mpr held)).trans ((if_pos due).trans
      (State.msixNow_sent (s := { s with pcie.holdoff := dropFrom v.val s.pcie.holdoff, pcie.due := dropFrom v.val s.pcie.due })
        up unmasked programmed enabled))), rfl, mem_addTo .., notMem_dropFrom _ _⟩
  case unmasked =>
    refine ⟨_, congrArg Host.Outcome.next ((State.onBar_up up _).trans (State.unmask_held up pending free programmed enabled)),
      rfl, notMem_dropFrom _ _, ?_⟩
    exact congrArg MsixEntry.masked (State.msixEntry_unmasked s v.val)
  case pend =>
    refine ⟨_, congrArg Host.Outcome.next (State.onBar_up up _), rfl, fun i => ?_⟩
    simp [List.mem_filter, imp_iff_not_or]

/-! ### MCTP control and PLDM (R341, R563) -/

/-- Settles O38. -/
theorem mctpAndPldmAnswers : Obligations.MctpAndPldmAnswers := by
  refine ⟨fun own src slave message some => ?packets, fun s src => ⟨fun slave op eid hears set low high => ?set,
    fun hears => ?control, fun deaf => ?deaf⟩, fun s src fw peer hears => ?pldm⟩
  case packets => exact assemble_messagePackets own slave src message (List.length_pos_iff.mpr some)
  case set =>
    have setting : field op.toNat 1 0 ≤ 1 ∧ 8 ≤ eid.toNat ∧ eid ≠ 0xFF := ⟨by simpa [field] using set, low, high⟩
    exact congrArg Host.Outcome.next ((if_pos hears).trans (if_pos setting))
  case control =>
    have heard (act : State → State) : s.onControl src false act = act s := if_pos hears
    refine ⟨congrArg Host.Outcome.next (heard _), congrArg Host.Outcome.next ((heard _).trans (if_pos (.inl rfl))), ?_,
      congrArg Host.Outcome.next ((heard _).trans (if_pos rfl))⟩
    refine congrArg Host.Outcome.next ((heard _).trans ?_)
    unfold State.mctpAnswer State.messageTypes
    split
    · rfl
    · rfl
  case deaf => exact congrArg Host.Outcome.next (if_neg (by simp [deaf]))
  case pldm =>
    have heard (act : State → State) : s.onPldm src act = act s := State.onPldm_heard ⟨fw, peer, hears⟩ act
    refine ⟨congrArg Host.Outcome.next (heard _), congrArg Host.Outcome.next (heard _), fun type known =>
      ⟨congrArg Host.Outcome.next ((heard _).trans (if_pos known)), congrArg Host.Outcome.next ((heard _).trans (if_pos known))⟩,
      ⟨_, congrArg Host.Outcome.next (heard _), ?_⟩, congrArg Host.Outcome.next (heard _), congrArg Host.Outcome.next (heard _)⟩
    simp [slice, leBytes]

end Sys2Proof.Machine
end

section
/-! CLASS_WEIGHTS, DROP_COUNTERS, TOKEN_ALLOC, TOKEN_LIST, CONTEXT_CREATE, MEM_RESERVE, MEM_RELEASE and ZEROING_DONE: settles
O6, O3 and O7 (R177, R182, R202 to R204, R210 to R212, R220, R353 to R357, R612). -/

namespace Sys2Proof.Machine

/-! ### What the started state shows -/

theorem State.started_fields (s : State) (ch : Chan) (r : Request) (rest : List Request) :
    ∃ b, s.started ch r rest = { s with book := b } := by
  cases ch
  · exact ⟨_, rfl⟩
  · exact ⟨_, rfl⟩

/-- A number read from n bytes lies below 256 ^ n. -/
theorem leNat_lt (bs : List Byte) : leNat bs < 256 ^ bs.length := by
  induction bs with
  | nil => exact Nat.one_pos
  | cons b t ih =>
    have low := b.isLt
    have step : leNat (b :: t) = b.toNat + 256 * leNat t := rfl
    rw [step, List.length_cons, Nat.pow_succ]
    omega

theorem Request.get_lt (r : Request) (off n : Nat) : r.get off n < 256 ^ n := by
  have length : (slice r.payload off n).length = n := by
    simp only [slice, List.length_append, List.length_replicate, List.length_take]
    omega
  have below := leNat_lt (slice r.payload off n)
  rwa [length] at below

/-! ### Tokens given out -/

theorem State.allotTokens_eq (ids : List Nat) (c : Nat) : ∀ s : State, ∃ k, s.allotTokens ids c = { s with tokens := k } := by
  induction ids with
  | nil => exact fun s => ⟨s.tokens, rfl⟩
  | cons i t ih => exact fun s => ih _

/-- R182: the tokens given out are owned at VALUE 0, the others stay. -/
theorem State.token_allotTokens (ids : List Nat) (c : Nat) : ∀ (s : State) (i : Nat),
    (s.allotTokens ids c).token i = if i ∈ ids then { value := 0, owner := some c } else s.token i := by
  induction ids with
  | nil => exact fun s i => rfl
  | cons k t ih =>
    intro s i
    have step : s.allotTokens (k :: t) c = (s.modToken k (fun _ => { value := 0, owner := some c })).allotTokens t c := rfl
    rw [step, ih]
    by_cases later : i ∈ t
    · rw [if_pos later, if_pos (List.mem_cons_of_mem k later)]
    · rw [if_neg later]
      by_cases here : i = k
      · rw [here, if_pos (List.mem_cons_self ..)]
        exact s.token_modToken_ne k _ (Token.ne_reset (c := c) rfl)
      · rw [if_neg (by simp [here, later])]
        exact s.token_modToken_other _ here

section
variable {s : State} {ch : Chan} {r : Request} {rest : List Request}

/-! ### The requests of O6 -/

/-- R177. -/
theorem execClassWeights_asked (asked : Asked s ch 0x0206 r rest) (shaped : Shaped r 8 []) (power : s.power.state ≠ .holdUp)
    (weighted : ∀ i < 8, r.get i 1 ≠ 0) : exec (.classWeights ch) s =
    .next ({ s.started ch r rest with marsh.weights := (List.range 8).map (fun i => r.get i 1) }.ok r []) := by
  have none : (List.range 8).find? (fun i => r.get i 1 = 0) = none := by
    rw [List.find?_eq_none]
    intro i hi
    simpa using weighted i (List.mem_range.mp hi)
  show Host.Outcome.next (s.onRequest ch _ _ _) = _
  rw [asked.turnRuns rfl (fun h => absurd h power) rfl rfl shaped.lenOk shaped.2 (by simp)]
  simp only [none]

/-- R202, R295, R353. -/
theorem execDropCounters_asked (asked : Asked s ch 0x0220 r rest) (shaped : Shaped r 0 []) (power : s.power.state ≠ .holdUp) :
    exec (.dropCounters ch) s =
    .next ((s.started ch r rest).ok r ((s.drops.counters.map (fun v => leBytes 8 v.toNat)).flatten)) := by
  show Host.Outcome.next (s.onRequest ch _ _ _) = _
  rw [asked.turnRuns rfl (fun h => absurd h power) rfl rfl shaped.lenOk shaped.2 (by simp)]
  obtain ⟨b, same⟩ := s.started_fields ch r rest
  rw [same]

/-- R182, R357. -/
theorem execTokenAlloc_asked {c : Nat} (asked : Asked s ch 0x020A r rest) (shaped : Shaped r 8 [])
    (power : s.power.state ≠ .holdUp) (names : Naming s r c) (some : 0 < r.get 6 2) (free : r.get 6 2 ≤ s.freeTokens) :
    exec (.tokenAlloc ch) s = .next (((s.started ch r rest).allotTokens (s.pickTokens (r.get 6 2)) c).ok r
      (leBytes 2 (r.get 6 2) ++ leBytes 2 ((s.pickTokens (r.get 6 2)).take 3838).length ++
        idBytes ((s.pickTokens (r.get 6 2)).take 3838))) := by
  show Host.Outcome.next (s.onRequest ch _ _ _) = _
  rw [asked.turnRuns rfl (fun h => absurd h power) rfl rfl shaped.lenOk shaped.2 fun _ => names.passes ch rest]
  obtain ⟨b, same⟩ := s.started_fields ch r rest
  obtain ⟨rfl, -⟩ := names
  rw [same]
  exact congrArg Host.Outcome.next ((if_neg (by omega)).trans (if_neg (Nat.not_lt.mpr free)))

/-- R357. -/
theorem execTokenList_asked {c : Nat} (asked : Asked s ch 0x020B r rest) (shaped : Shaped r 12 [(6, 2)])
    (power : s.power.state ≠ .holdUp) (names : Naming s r c)
    (short : ((s.tokensOf c).filter (fun i => r.get 8 4 ≤ i)).length ≤ 3836) :
    exec (.tokenList ch) s = .next ((s.started ch r rest).ok r (leBytes 4 0xFFFFFFFF ++
      leBytes 2 ((s.tokensOf c).filter (fun i => r.get 8 4 ≤ i)).length ++ leBytes 2 0 ++
      idBytes ((s.tokensOf c).filter (fun i => r.get 8 4 ≤ i)))) := by
  have same : (s.started ch r rest).tokensOf c = s.tokensOf c := by
    obtain ⟨b, same⟩ := s.started_fields ch r rest
    rw [same]
    rfl
  show Host.Outcome.next (s.onRequest ch _ _ _) = _
  rw [asked.turnRuns rfl (fun h => absurd h power) rfl rfl shaped.lenOk shaped.2 fun _ => names.passes ch rest]
  obtain ⟨rfl, -⟩ := names
  dsimp only
  rw [same, List.take_of_length_le short, if_pos short]

end

/-- A change of the tokens and a reply. -/
theorem State.allotTokens_only (s : State) (ch : Chan) (r : Request) (rest : List Request) (ids : List Nat) (c : Nat)
    (payload : List Byte) :
    let t := ((s.started ch r rest).allotTokens ids c).ok r payload
    OnlyBook { s with tokens := t.tokens } t := by
  obtain ⟨b, started⟩ := s.started_fields ch r rest
  obtain ⟨k, allotted⟩ := State.allotTokens_eq ids c (s.started ch r rest)
  have replied := ((s.started ch r rest).allotTokens ids c).ok_only r payload
  dsimp only
  rw [allotted, started] at *
  rw [show _ = _ from replied]
  rfl

/-- Settles O6. -/
theorem weightsCountersTokens : Obligations.WeightsCountersTokens := by
  intro s r rest ch power
  refine ⟨fun asked shaped weighted => ?weights, fun asked shaped => ?counters, fun c asked shaped names => ?alloc,
    fun c asked shaped names => ?list⟩
  case weights =>
    refine ⟨_, execClassWeights_asked asked shaped power weighted, State.ok_answered .., ?_⟩
    obtain ⟨b, started⟩ := s.started_fields ch r rest
    rw [started]
    exact OnlyBook.trans (t := { s with book := b, marsh.weights := _ }) rfl (State.ok_only ..)
  case counters =>
    refine ⟨_, execDropCounters_asked asked shaped power, s.started_ok_only .., ?_⟩
    have answer := (s.started ch r rest).ok_answered r ((s.drops.counters.map (fun v => leBytes 8 v.toNat)).flatten)
    simpa [Drops.counters] using answer
  case alloc =>
    intro n some free ids
    refine ⟨_, execTokenAlloc_asked asked shaped power names some free, s.allotTokens_only .., fun i => ?_,
      State.ok_answered ..⟩
    have given := State.token_allotTokens ids c (s.started ch r rest) i
    have kept : ∀ (t : State) (p : List Byte), (t.ok r p).token i = t.token i := by
      intro t p
      rw [show t.ok r p = _ from t.ok_only r p]
      rfl
    obtain ⟨b, started⟩ := s.started_fields ch r rest
    rw [kept, given, started]
    rfl
  case list =>
    intro l short
    exact ⟨_, execTokenList_asked asked shaped power names short, s.started_ok_only .., State.ok_answered ..⟩

end Sys2Proof.Machine
end

section
/-! CONTEXT_CREATE, MEM_RESERVE, MEM_RELEASE and ZEROING_DONE: settles O3 and O7 (R204, R210 to R212, R220, R353 to R355,
R612). -/

namespace Sys2Proof.Machine

/-! ### What a reply leaves -/

theorem State.ok_token (s : State) (r : Request) (payload : List Byte) (i : Nat) : (s.ok r payload).token i = s.token i := by
  rw [show s.ok r payload = _ from s.ok_only r payload]
  rfl

@[simp] theorem State.ok_mem (s : State) (r : Request) (payload : List Byte) : (s.ok r payload).mem = s.mem := by
  rw [show s.ok r payload = _ from s.ok_only r payload]

@[simp] theorem State.ok_rings (s : State) (r : Request) (payload : List Byte) : (s.ok r payload).rings = s.rings := by
  rw [show s.ok r payload = _ from s.ok_only r payload]

/-! ### Pages granted (R211, R212) -/

/-- The frames of the pages that await zeroing. -/
def State.dirty (s : State) (ps : List Page) : List Nat := s.mem.zeroing.filter (fun f => frameUsed (ps.map Page.frames) f)

/-- A grant changes contexts, what waits for zeroing, and the Booking Office. -/
theorem State.grantPages_leaves (s : State) (c : Nat) (ps : List Page) (r : Request) (payload : List Byte) :
    ∃ cs z g b tr o, s.grantPages c ps r payload =
      { s with ctxs := cs, mem.zeroing := z, mem.grants := g, book := b, trg := tr, out := o } := by
  unfold State.grantPages
  dsimp only
  split
  · rw [show State.ok _ _ _ = _ from State.ok_only ..]
    exact ⟨_, _, _, _, _, _, rfl⟩
  · exact ⟨_, _, _, _, _, _, rfl⟩

theorem State.grantPages_clean {s : State} {ps : List Page} (clean : s.dirty ps = []) (c : Nat) (r : Request)
    (payload : List Byte) : s.grantPages c ps r payload =
      (s.modCtx c (fun x => { x with pages := addPages x.pages ps })).ok r payload := if_pos clean

theorem State.grantPages_waits {s : State} {ps : List Page} (waits : s.dirty ps ≠ []) (c : Nat) (r : Request)
    (payload : List Byte) : s.grantPages c ps r payload = { s with
      mem.zeroing := s.mem.zeroing.filter (fun f => ¬ frameUsed (ps.map Page.frames) f)
      mem.grants := s.mem.grants ++ [{ ctx := c, frames := s.dirty ps, req := r, payload := payload, pages := ps }] } :=
  if_neg waits

theorem State.grantPages_other (s : State) {c n : Nat} (other : n ≠ c) (ps : List Page) (r : Request) (payload : List Byte) :
    (s.grantPages c ps r payload).ctx n = s.ctx n := by
  unfold State.grantPages
  dsimp only
  split
  · rw [State.ok_ctx]
    exact s.ctx_modCtx_other _ other
  · rfl

/-- R212: pages are mapped at once where no frame of theirs awaits zeroing. -/
theorem State.grantPages_ctx {s : State} {c : Nat} (live : (s.ctx c).state ≠ .free) (ps : List Page) (r : Request)
    (payload : List Byte) : (s.grantPages c ps r payload).ctx c =
      if s.dirty ps = [] then { s.ctx c with pages := addPages (s.ctx c).pages ps } else s.ctx c := by
  split
  · rename_i clean
    rw [State.grantPages_clean clean, State.ok_ctx]
    refine s.ctx_modCtx_ne c _ fun e => live ?_
    exact congrArg Context.state e
  · rename_i waits
    rw [State.grantPages_waits waits]
    rfl

theorem State.grantPages_token (s : State) (c : Nat) (ps : List Page) (r : Request) (payload : List Byte) (i : Nat) :
    (s.grantPages c ps r payload).token i = s.token i := by
  obtain ⟨_, _, _, _, _, _, leaves⟩ := s.grantPages_leaves c ps r payload
  rw [leaves]
  rfl

/-! ### CONTEXT_CREATE -/

/-- R210: fields in range. -/
theorem Request.createRefusal_none {r : Request} (some : 0 < r.get 4 1) (parts : r.get 4 1 ≤ 8)
    (plain : firstSet r.payload [(32 + 4 * r.get 4 1, 32 - 4 * r.get 4 1)] = none) (priority : r.get 5 1 ≤ 7)
    (energy : r.get 6 2 ≤ 4095) (ahead : 0 < r.get 10 1) (ahead' : r.get 10 1 ≤ 8)
    (prefetch : r.get 11 1 = 0 ∨ 8 ≤ r.get 11 1) (commit : r.get 12 2 ≤ 4095)
    (size : r.get 24 4 * 2 ^ 30 + r.get 28 4 * 2 ^ 21 ≤ 2 ^ 42) (yard : ∀ k < r.get 4 1, r.get (32 + 4 * k) 4 ≠ 0) :
    r.createRefusal = none := by
  have found : (List.range (r.get 4 1)).find? (fun k => r.get (32 + 4 * k) 4 = 0) = none := by
    rw [List.find?_eq_none]
    intro k hk
    simpa using yard k (List.mem_range.mp hk)
  unfold Request.createRefusal
  dsimp only
  rw [if_neg (by omega)]
  simp only [plain]
  rw [if_neg (by omega), if_neg (by omega), if_neg (by omega), if_neg (by simp [prefetchOk]; omega), if_neg (by omega),
    if_neg (by omega), found]
  rfl

/-- The admitted state: the entry, the tokens and the next free number, before its pages are granted. -/
def State.admitted (s : State) (r : Request) (id : Nat) : State :=
  ((s.modCtx id (fun _ => r.newContext (s.ctx id).gen s.ptRoot
    (yardWordsOf (yardRequests (r.yard.take (r.get 4 1))) s.extents))).allotTokens (s.pickTokens (r.get 8 2)) id).take 1

theorem State.admitted_eq (s : State) (r : Request) (id : Nat) :
    ∃ c k, s.admitted r id = { s with ctxs := c, tokens := k, fresh := s.fresh + 1 } := by
  obtain ⟨k, e⟩ := State.allotTokens_eq (s.pickTokens (r.get 8 2)) id (s.modCtx id (fun _ =>
    r.newContext (s.ctx id).gen s.ptRoot (yardWordsOf (yardRequests (r.yard.take (r.get 4 1))) s.extents)))
  unfold State.admitted
  rw [e]
  exact ⟨_, k, rfl⟩

theorem State.allotTokens_ctx (s : State) (ids : List Nat) (c n : Nat) : (s.allotTokens ids c).ctx n = s.ctx n := by
  obtain ⟨k, e⟩ := State.allotTokens_eq ids c s
  rw [e]
  rfl

theorem State.admitted_ctx (s : State) (r : Request) (id : Nat) : (s.admitted r id).ctx id =
    r.newContext (s.ctx id).gen s.ptRoot (yardWordsOf (yardRequests (r.yard.take (r.get 4 1))) s.extents) := by
  refine (State.allotTokens_ctx ..).trans (s.ctx_modCtx_ne id _ fun e => ?_)
  have active := congrArg Context.state e
  cases active

theorem State.admitted_other (s : State) (r : Request) {id n : Nat} (other : n ≠ id) :
    (s.admitted r id).ctx n = s.ctx n :=
  (State.allotTokens_ctx ..).trans (s.ctx_modCtx_other _ other)

theorem State.admitted_token (s : State) (r : Request) (id i : Nat) : (s.admitted r id).token i =
    if i ∈ s.pickTokens (r.get 8 2) then { value := 0, owner := some id } else s.token i :=
  State.token_allotTokens ..

/-- R211, R612: CONTEXT_CREATE that nothing refuses and that is short of nothing. -/
theorem execContextCreate_admits {s : State} {ch : Chan} {r : Request} {rest : List Request} {id : Nat}
    (asked : Asked s ch 0x0200 r rest) (power : s.power.state ≠ .holdUp) (shaped : Shaped r 64 [(14, 2)])
    (form : r.createRefusal = none) (free : s.freeCtx = some id)
    (mem : shortMem s.wholeFrames.length s.looseFrames.length (r.get 24 4) (r.get 28 4) = 0)
    (yard : shortYard (yardRequests (r.yard.take (r.get 4 1))) s.extents = 0) (parts : r.get 4 1 ≤ s.serving.length)
    (tokens : r.get 8 2 ≤ s.freeTokens) :
    exec (.contextCreate ch) s = .next (((s.started ch r rest).admitted r id).grantPages id
      (s.place (r.get 24 4) (r.get 28 4) 0 true) r
      (leBytes 4 id ++ leBytes 2 (s.ctx id).gen.toNat ++ leBytes 2 (s.pickTokens (r.get 8 2)).length ++
        ((yardWordsOf (yardRequests (r.yard.take (r.get 4 1))) s.extents).map (fun w => leBytes 4 w.bits)).flatten ++
        leBytes (32 - 4 * r.get 4 1) 0 ++ idBytes ((s.pickTokens (r.get 8 2)).take 3820))) := by
  show Host.Outcome.next (s.onRequest ch _ _ _) = _
  rw [asked.turnRuns rfl (fun h => absurd h power) rfl rfl shaped.lenOk shaped.2 (by simp)]
  obtain ⟨b, started⟩ := s.started_fields ch r rest
  rw [started]
  have whole : ({ s with book := b } : State).wholeFrames = s.wholeFrames := rfl
  have loose : ({ s with book := b } : State).looseFrames = s.looseFrames := rfl
  have exts : ({ s with book := b } : State).extents = s.extents := rfl
  have serves : ({ s with book := b } : State).serving = s.serving := rfl
  have freeT : ({ s with book := b } : State).freeTokens = s.freeTokens := rfl
  have freeC : ({ s with book := b } : State).freeCtx = s.freeCtx := rfl
  simp only [form, freeC, free, whole, loose, exts, serves, freeT, mem, yard]
  rw [if_neg (by omega)]
  rfl

/-- Settles O3. -/
theorem contextCreateAdmits : Obligations.ContextCreateAdmits := by
  intro s r rest ch id asked power shaped parts nt nonzero few plain priority energy ahead ahead' prefetch commit size yardAsked
    free mem yard serving tokens words ids pages dirty body
  have form := Request.createRefusal_none nonzero few plain priority energy ahead ahead' prefetch commit size yardAsked
  have ran := execContextCreate_admits asked power shaped form free mem yard serving tokens
  obtain ⟨b, started⟩ := s.started_fields ch r rest
  generalize admitted : (s.started ch r rest).admitted r id = u at ran
  have entry : u.ctx id = r.newContext (s.ctx id).gen (s.started ch r rest).ptRoot words := by
    rw [← admitted, State.admitted_ctx, started]
    rfl
  have live : (u.ctx id).state ≠ .free := by
    rw [entry]
    exact fun e => by cases e
  have others (n : Nat) (other : n ≠ id) : u.ctx n = s.ctx n := by
    rw [← admitted, State.admitted_other _ _ other, started]
    rfl
  have given (i : Nat) : u.token i = if i ∈ ids then { value := 0, owner := some id } else s.token i := by
    rw [← admitted, State.admitted_token, started]
    rfl
  obtain ⟨c, k, only⟩ := State.admitted_eq (s.started ch r rest) r id
  rw [admitted, started] at only
  have unzeroed : u.dirty pages = dirty := by
    rw [only]
    rfl
  have mapped := State.grantPages_ctx live pages r body
  rw [unzeroed] at mapped
  have kept : ((u.grantPages id pages r body).ctx id) = { u.ctx id with pages := ((u.grantPages id pages r body).ctx id).pages } := by
    rw [mapped]
    split
    · rfl
    · rfl
  have tenant : r.get 0 4 < 2 ^ 32 := r.get_lt 0 4
  have seed : r.get 16 8 < 2 ^ 64 := r.get_lt 16 8
  refine ⟨_, ran, ?only, ?_, ?_, ?_, ?_, ?_, ?_, ?_, ?tenant, ?seed, ?_, ?_, fun n other => ?others, fun i => ?tokens, ?pages⟩
  case only =>
    obtain ⟨_, _, _, _, _, _, leaves⟩ := u.grantPages_leaves id pages r body
    rw [leaves, only]
    rfl
  case others => rw [State.grantPages_other _ other, others n other]
  case tokens => rw [State.grantPages_token, given i]
  case pages =>
    split
    · rename_i clean
      have quiet : u.dirty pages = [] := unzeroed.trans clean
      rw [State.grantPages_clean quiet] at mapped ⊢
      rw [if_pos clean, entry] at mapped
      refine ⟨?_, ?_, State.ok_answered ..⟩
      · rw [mapped]
        simp [Request.newContext, Context.reset, addPages]
      · rw [State.ok_mem, State.modCtx_mem, only]
    · rename_i waits
      have waiting : u.dirty pages ≠ [] := unzeroed ▸ waits
      rw [if_neg waits, entry] at mapped
      refine ⟨by rw [mapped]; rfl, ?_⟩
      rw [State.grantPages_waits waiting, unzeroed, only]
  case tenant =>
    rw [kept, entry]
    exact Nat.mod_eq_of_lt tenant
  case seed =>
    rw [kept, entry]
    exact Nat.mod_eq_of_lt seed
  all_goals
    rw [kept, entry]
    rfl

/-! ### MEM_RESERVE, MEM_RELEASE and ZEROING_DONE -/

theorem State.take_ctx (s : State) (n c : Nat) : (s.take n).ctx c = s.ctx c := rfl

theorem State.freePages_ctx (s : State) (ps : List Page) (c : Nat) : (s.freePages ps).ctx c = s.ctx c := rfl

/-- A context that a request names is not FREE. -/
theorem Naming.notFree {s : State} {r : Request} {c : Nat} (names : Naming s r c) : (s.ctx c).state ≠ .free := by
  obtain ⟨-, -, live, -⟩ := names
  intro e
  rw [e] at live
  simp at live

section
variable {s : State} {ch : Chan} {r : Request} {rest : List Request} {c : Nat}

/-- R211, R355, R612: MEM_RESERVE that nothing refuses and that is short of nothing. -/
theorem execMemReserve_admits (asked : Asked s ch 0x0208 r rest) (power : s.power.state ≠ .holdUp) (names : Naming s r c)
    (shaped : Shaped r 24 [(7, 1)]) (access : r.get 6 1 ≤ 1)
    (aligned : r.get 8 8 % (if r.get 16 4 ≠ 0 then 2 ^ 30 else 2 ^ 21) = 0)
    (fits : r.get 8 8 + (r.get 16 4 * 2 ^ 30 + r.get 20 4 * 2 ^ 21) ≤ 2 ^ 42)
    (free : s.overlaps c (r.get 8 8) (r.get 16 4 * 2 ^ 30 + r.get 20 4 * 2 ^ 21) = false)
    (mem : shortMem s.wholeFrames.length s.looseFrames.length (r.get 16 4) (r.get 20 4) = 0) :
    exec (.memReserve ch) s = .next
      ((((s.started ch r rest).modCtx c (fun x => { x with ptRoot := (s.started ch r rest).ptRoot })).take 1).grantPages c
        (s.place (r.get 16 4) (r.get 20 4) (r.get 8 8) (r.get 6 1 = 1)) r []) := by
  show Host.Outcome.next (s.onRequest ch _ _ _) = _
  rw [asked.turnRuns rfl (fun h => absurd h power) rfl rfl shaped.lenOk shaped.2 fun _ => names.passes ch rest]
  obtain ⟨b, started⟩ := s.started_fields ch r rest
  obtain ⟨rfl, -⟩ := names
  rw [started]
  refine congrArg Host.Outcome.next ((if_neg (Nat.not_lt.mpr access)).trans ((if_neg ?_).trans (if_neg (not_not.mpr mem))))
  rintro (odd | high | hit)
  · exact odd aligned
  · exact absurd fits (Nat.not_le.mpr high)
  · exact absurd (hit.symm.trans free) (by decide)

/-- R204, R355: MEM_RELEASE of whole pages outside the coupled regions. -/
theorem execMemRelease_whole (asked : Asked s ch 0x0209 r rest) (power : s.power.state ≠ .holdUp) (names : Naming s r c)
    (shaped : Shaped r 24 [(6, 2)])
    (uncoupled : ∀ g ∈ (s.ctx c).regions, g.vbase + g.len ≤ r.get 8 8 ∨ r.get 8 8 + r.get 16 8 ≤ g.vbase)
    (whole : ∀ p ∈ (s.ctx c).pages, (r.get 8 8 ≤ p.vbase ∧ p.vbase + p.size ≤ r.get 8 8 + r.get 16 8) ∨
      r.get 8 8 + r.get 16 8 ≤ p.vbase ∨ p.vbase + p.size ≤ r.get 8 8)
    (filled : (((s.ctx c).pages.filter (fun p => r.get 8 8 ≤ p.vbase && p.vbase + p.size ≤ r.get 8 8 + r.get 16 8)).map
      Page.size).foldl (· + ·) 0 = r.get 8 8 + r.get 16 8 - r.get 8 8) :
    exec (.memRelease ch) s = .next (((((s.started ch r rest).modCtx c (fun x => { x with
        pages := x.pages.filter (fun p => ¬ (r.get 8 8 ≤ p.vbase && p.vbase + p.size ≤ r.get 8 8 + r.get 16 8))
        ptRoot := (s.started ch r rest).ptRoot })).take 1).freePages
      ((s.ctx c).pages.filter (fun p => r.get 8 8 ≤ p.vbase && p.vbase + p.size ≤ r.get 8 8 + r.get 16 8))).ok r []) := by
  show Host.Outcome.next (s.onRequest ch _ _ _) = _
  rw [asked.turnRuns rfl (fun h => absurd h power) rfl rfl shaped.lenOk shaped.2 fun _ => names.passes ch rest]
  obtain ⟨rfl, -⟩ := names
  dsimp only
  rw [State.started_ctx, if_neg, if_neg]
  · rintro (some | other)
    · obtain ⟨p, there, cut⟩ := List.any_eq_true.mp some
      have known := whole p there
      simp only [Bool.and_eq_true, Bool.not_eq_true', Bool.and_eq_false_iff, decide_eq_true_eq, decide_eq_false_iff_not] at cut
      omega
    · exact other filled
  · intro some
    obtain ⟨g, there, hit⟩ := List.any_eq_true.mp some
    have known := uncoupled g there
    simp only [decide_eq_true_eq] at hit
    omega

end

/-- R220: without a frame that a grant waits for, the next frame in order is zeroed. -/
theorem State.nextZeroed_queue {s : State} {f : Nat} {rest : List Nat} (idle : s.mem.grants.flatMap (fun g => g.frames) = [])
    (next : s.mem.zeroing = f :: rest) : s.nextZeroed = { s.zeroFrame f with mem.zeroing := rest } := by
  unfold State.nextZeroed
  rw [idle]
  simp only [List.head?_nil, next]

/-- Grants whose frames are zeroed are mapped and answered: but for what waits, module memory stays. -/
theorem State.settleGrants_mem (s : State) :
    s.settleGrants.mem = { s.mem with grants := s.mem.grants.filter (fun g => g.frames ≠ []) } := by
  unfold State.settleGrants
  exact foldl_keeps State.mem (fun t g => by rw [State.ok_mem, State.modCtx_mem]) _ _

/-- A table of which the entries at some numbers are left out. -/
theorem Table.get_filter {α : Type} (d : α) (p : Nat → Bool) (t : Table α) (i : Nat) :
    Table.get d (t.filter (fun c => p c.1)) i = if p i then Table.get d t i else d := by
  induction t with
  | nil => simp
  | cons c t ih =>
    obtain ⟨k, v⟩ := c
    by_cases keep : p k
    · rw [List.filter_cons_of_pos (by exact keep)]
      by_cases here : i = k
      · rw [Table.get, if_pos here, here, if_pos keep, Table.get, if_pos rfl]
      · rw [Table.get, if_neg here, ih, Table.get, if_neg here]
    · rw [List.filter_cons_of_neg (by exact keep), ih]
      by_cases here : i = k
      · rw [here, if_neg keep, if_neg keep]
      · rw [Table.get, if_neg here]

/-- The bytes of a range that is zeroed read 0. -/
theorem Bytes.get_clear (m : Bytes) (lo hi a : Nat) : (m.clear lo hi).get a = if lo ≤ a ∧ a < hi then 0 else m.get a := by
  refine (Table.get_filter 0 (fun k => k < lo ∨ hi ≤ k) m a).trans ?_
  by_cases inside : lo ≤ a ∧ a < hi
  · rw [if_pos inside, if_neg (by simp; omega)]
  · rw [if_neg inside, if_pos (by simp; omega)]
    rfl

/-- Settles O7. -/
theorem memoryReserveReleaseZero : Obligations.MemoryReserveReleaseZero := by
  intro s
  refine ⟨fun r rest ch c power names => ⟨fun asked shaped => ?reserve, fun asked shaped => ?release⟩,
    fun f rest idle next => ?zero⟩
  case reserve =>
    intro vbase g1 g2 access aligned fits free mem pages dirty
    have live := names.notFree
    obtain ⟨b, started⟩ := s.started_fields ch r rest
    have ran := execMemReserve_admits asked power names shaped access aligned fits free mem
    generalize rooted : ((s.started ch r rest).modCtx c (fun x => { x with ptRoot := (s.started ch r rest).ptRoot })).take 1 = u
      at ran
    have entry : u.ctx c = { s.ctx c with ptRoot := (s.started ch r rest).ptRoot } := by
      rw [← rooted, State.take_ctx, State.ctx_modCtx_ne, State.started_ctx]
      rw [State.started_ctx]
      exact fun e => live (congrArg Context.state e)
    have others (n : Nat) (other : n ≠ c) : u.ctx n = s.ctx n := by
      rw [← rooted, State.take_ctx, State.ctx_modCtx_other _ _ other, State.started_ctx]
    have sameMem : u.mem = s.mem := by
      rw [← rooted]
      exact State.started_mem ..
    have sameRings : u.rings = s.rings := by
      rw [← rooted, started]
      rfl
    have unzeroed : u.dirty pages = dirty := by
      unfold State.dirty
      rw [sameMem]
    have mapped := State.grantPages_ctx (s := u) (c := c) (by rw [entry]; exact live) pages r []
    rw [unzeroed, entry] at mapped
    obtain ⟨_, _, _, _, _, _, leaves⟩ := u.grantPages_leaves c pages r []
    refine ⟨_, ran, ?_, ?_, fun n other => ?_, ?_⟩
    · rw [leaves, ← sameMem]
    · rw [leaves, ← sameRings]
    · rw [State.grantPages_other _ other, others n other]
    · split
      · rename_i clean
        have quiet : u.dirty pages = [] := unzeroed.trans clean
        rw [if_pos clean] at mapped
        refine ⟨by rw [mapped], ?_, ?_⟩
        · rw [State.grantPages_clean quiet, State.ok_mem, State.modCtx_mem, sameMem]
        · rw [State.grantPages_clean quiet]
          exact State.ok_answered ..
      · rename_i waits
        have waiting : u.dirty pages ≠ [] := unzeroed ▸ waits
        rw [if_neg waits] at mapped
        refine ⟨by rw [mapped], ?_⟩
        rw [State.grantPages_waits waiting, unzeroed, sameMem]
  case release =>
    intro lo hi gone uncoupled whole filled
    have live := names.notFree
    obtain ⟨b, started⟩ := s.started_fields ch r rest
    have sorted (p : Page) (there : p ∈ (s.ctx c).pages) : (lo ≤ p.vbase ∧ p.vbase + p.size ≤ hi) ∨ hi ≤ p.vbase ∨
        p.vbase + p.size ≤ lo := by
      rcases whole p there with held | apart
      · exact .inl (by simpa [gone, there] using held)
      · exact .inr apart
    have ran := execMemRelease_whole asked power names shaped uncoupled sorted filled
    rw [started] at ran
    refine ⟨_, ran, by rw [State.ok_mem]; rfl, by rw [State.ok_rings]; rfl, fun n other => ?_, ?_, ?_, State.ok_answered ..⟩
    · rw [State.ok_ctx, State.freePages_ctx, State.take_ctx]
      exact State.ctx_modCtx_other _ _ other
    · rw [State.ok_ctx, State.freePages_ctx, State.take_ctx, State.ctx_modCtx_ne]
      · refine List.filter_congr fun p there => ?_
        have there : p ∈ (s.ctx c).pages := there
        simp [gone, there, lo, hi]
      · exact fun e => live (congrArg Context.state e)
    · rw [State.ok_mem]
      rfl
  case zero =>
    refine ⟨_, rfl, ?_, fun a => ?_, fun l => ?_⟩
    · rw [State.settleGrants_mem, State.nextZeroed_queue idle next]
    · rw [State.settleGrants_mem, State.nextZeroed_queue idle next]
      refine (Bytes.get_clear ..).trans (if_congr ?_ rfl rfl)
      omega
    · rw [State.settleGrants_mem, State.nextZeroed_queue idle next]
      simp [State.zeroFrame]

end Sys2Proof.Machine
end

section
/-! SUPPORT. Module memory where no line in reach is left uncorrectable: what a read answers and what a store writes (R232,
R243, R246). -/

namespace Sys2Proof.Machine

theorem Bytes.read_append (m : Bytes) (a k n : Nat) : m.read a k ++ m.read (a + k) n = m.read a (k + n) := by
  induction k generalizing a with
  | zero => simp [Bytes.read]
  | succ k ih =>
    rw [show k + 1 + n = (k + n) + 1 by omega, Bytes.read, Bytes.read, List.cons_append, ← ih (a + 1),
      show a + (k + 1) = a + 1 + k by omega]

theorem Bytes.write_append (m : Bytes) (a : Nat) (x y : List Byte) :
    (m.write a x).write (a + x.length) y = m.write a (x ++ y) := by
  induction x generalizing m a with
  | nil => rfl
  | cons b t ih =>
    show (Bytes.write (m.put a b) (a + 1) t).write (a + (t.length + 1)) y = (m.put a b).write (a + 1) (t ++ y)
    rw [← ih, show a + (t.length + 1) = a + 1 + t.length by omega]

/-- Bytes stored in a memory in canonical form: those of the range read as stored, the others as before. -/
theorem Bytes.get_write {m : Bytes} (form : m.wf = true) (pa a : Nat) (bs : List Byte) :
    (m.write pa bs).get a = if pa ≤ a ∧ a < pa + bs.length then nth 0 bs (a - pa) else m.get a := by
  split
  · rename_i inside
    have index : a - pa < bs.length := by omega
    have stored := m.get_write_inside pa (a - pa) bs form index
    rw [show pa + (a - pa) = a by omega] at stored
    rw [stored, nth, List.getElem?_eq_getElem index, Option.getD_some]
  · exact m.get_write_outside pa a bs (by omega)

/-- No line that holds one of n bytes from an address is left uncorrectable. -/
def State.sound (s : State) (pa n : Nat) : Prop := ∀ l ∈ s.mem.damaged, l * 64 + 64 ≤ pa ∨ pa + n ≤ l * 64

section
variable {s : State} {pa n : Nat}

theorem State.sound.line (h : s.sound pa n) (some : 0 < n) : pa / 64 ∉ s.mem.damaged := by
  intro hit
  have apart := h _ hit
  omega

theorem State.sound.drop {k : Nat} (h : s.sound pa n) (inside : k ≤ n) : s.sound (pa + k) (n - k) := by
  intro l hit
  have apart := h l hit
  omega

theorem State.lineStore_sound {bs : List Byte} (h : pa / 64 ∉ s.mem.damaged) :
    s.lineStore pa bs .clean = (false, { s with mem.bytes := s.mem.bytes.write pa bs }) := by
  have kept : dropFrom (pa / 64) s.mem.damaged = s.mem.damaged :=
    List.filter_eq_self.mpr fun l there => by
      simpa using fun e : l = pa / 64 => h (e ▸ there)
  unfold State.lineStore
  split
  · rw [kept]
  · rw [(State.lineRead_sound h).1]
    rfl

/-- A read over sound lines answers the bytes and changes nothing. -/
theorem State.memLoad_sound {lines : LineEcc} (clean : ∀ a, lineErr lines a = .clean) (fuel : Nat) : ∀ {pa n : Nat},
    s.sound pa n → (0 < n → pa % 64 + n ≤ 64 * fuel) → s.memLoad pa n lines fuel = (false, s.mem.bytes.read pa n, s) := by
  induction fuel with
  | zero =>
    intro pa n _ room
    obtain rfl : n = 0 := by omega
    rfl
  | succ fuel ih =>
    intro pa n h room
    unfold State.memLoad
    split
    · rename_i none
      rw [none]
      rfl
    · rename_i some
      have inside : min n (64 - pa % 64) ≤ n := Nat.min_le_left ..
      dsimp only
      rw [clean, (State.lineRead_sound (h.line (by omega))).1]
      dsimp only
      rw [ih (h.drop inside) (by omega)]
      simp only [Bool.false_eq_true, if_false, Bool.or_self, Bytes.read_append]
      rw [show min n (64 - pa % 64) + (n - min n (64 - pa % 64)) = n by omega]

/-- A store over sound lines writes the bytes and changes nothing else. -/
theorem State.memStore_sound {lines : LineEcc} (clean : ∀ a, lineErr lines a = .clean) (fuel : Nat) :
    ∀ {s : State} {pa : Nat} {bs : List Byte}, s.sound pa bs.length → (0 < bs.length → pa % 64 + bs.length ≤ 64 * fuel) →
      s.memStore pa bs lines fuel = (false, { s with mem.bytes := s.mem.bytes.write pa bs }) := by
  induction fuel with
  | zero =>
    intro s pa bs _ room
    obtain rfl : bs = [] := List.length_eq_zero_iff.mp (by omega)
    rfl
  | succ fuel ih =>
    intro s pa bs h room
    unfold State.memStore
    split
    · rfl
    · rename_i some
      have long : 0 < bs.length := List.length_pos_iff.mpr some
      have inside : min bs.length (64 - pa % 64) ≤ bs.length := Nat.min_le_left ..
      have rest : bs.length - min bs.length (64 - pa % 64) = (bs.drop (min bs.length (64 - pa % 64))).length := by simp
      have next := h.drop inside
      rw [rest] at next
      dsimp only
      rw [clean, State.lineStore_sound (h.line long)]
      dsimp only
      rw [ih (s := { s with mem.bytes := s.mem.bytes.write pa (bs.take (min bs.length (64 - pa % 64))) }) next
        (by rw [← rest]; omega)]
      dsimp only
      have joined := s.mem.bytes.write_append pa (bs.take (min bs.length (64 - pa % 64)))
        (bs.drop (min bs.length (64 - pa % 64)))
      rw [List.take_append_drop, List.length_take, Nat.min_eq_left inside] at joined
      rw [joined]
      rfl

end

end Sys2Proof.Machine
end

section
/-! APERTURE_BIND and the accesses through BAR4: settles O10 (R232, R252 to R254, R356). -/

namespace Sys2Proof.Machine

/-- R252, R356. -/
theorem execApertureBind_asked {s : State} {r : Request} {rest : List Request} {c : Nat}
    (asked : Asked s .pcie 0x0218 r rest) (power : s.power.state ≠ .holdUp) (names : Naming s r c) (shaped : Shaped r 16 [])
    (mode : r.get 7 1 ≤ 2) (base : r.get 7 1 ≠ 0 → r.get 8 8 % 2 ^ 30 = 0 ∧ r.get 8 8 < 2 ^ 42) :
    exec (.apertureBind .pcie) s = .next ({ s.started .pcie r rest with
      windows := Table.put Window.reset (r.get 6 1)
        { bound := if r.get 7 1 = 0 then none else some (c, (s.ctx c).gen, r.get 8 8, (r.get 7 1 = 2 : Bool)) }
        s.windows }.ok r []) := by
  show Host.Outcome.next (s.onRequest .pcie _ _ _) = _
  rw [asked.turnRuns rfl (fun h => absurd h power) rfl rfl shaped.lenOk shaped.2 fun _ => names.passes .pcie rest]
  obtain ⟨rfl, -⟩ := names
  exact congrArg Host.Outcome.next ((if_neg (by decide)).trans ((if_neg (Nat.not_lt.mpr mode)).trans (if_neg (by
    rintro ⟨bound, off⟩
    have known := base bound
    omega))))

theorem accessOk_iff (a n : Nat) : accessOk a n = true ↔ 0 < n ∧ a % 4096 + n ≤ 4096 := by simp [accessOk]

/-- R232, R252: a read through a bound window, outside Hold-up. -/
theorem execApertureRead_bound {s : State} {addr : BitVec 38} {len : Fin 4097} {c va pa : Nat} (up : s.hostUp = true)
    (power : s.power.state ≠ .holdUp) (form : accessOk addr.toNat len.val = true)
    (bound : s.aperture addr.toNat false = some (c, va)) (maps : (s.ctx c).translate false va = some pa)
    (sound : s.sound pa len.val) :
    exec (.apertureRead addr len cleanLines) s = .next (s.emit (.readData (s.mem.bytes.read pa len.val))) := by
  have read := State.memLoad_sound (s := s) lineErr_clean 65 sound (by have := len.isLt; omega)
  show execApertureRead addr len cleanLines s = _
  unfold execApertureRead
  rw [if_neg (not_not.mpr form), State.onBar_up up]
  simp only [bound, Option.bind_some, maps, if_neg power, read, Bool.false_eq_true, if_false]

/-- R232, R253: a write through a bound window, outside Hold-up. -/
theorem execApertureWrite_bound {s : State} {addr : BitVec 38} {data : List Byte} {c va pa : Nat} (up : s.hostUp = true)
    (power : s.power.state ≠ .holdUp) (form : accessOk addr.toNat data.length = true)
    (bound : s.aperture addr.toNat true = some (c, va)) (maps : (s.ctx c).translate true va = some pa)
    (sound : s.sound pa data.length) :
    exec (.apertureWrite addr data cleanLines) s = .next
      ({ s with mem.bytes := s.mem.bytes.write pa data }.modCtx c (fun x => x.markDirty va data.length)) := by
  have short := (accessOk_iff ..).mp form
  have stored := State.memStore_sound (s := s) lineErr_clean 65 sound (by omega)
  show execApertureWrite addr data cleanLines s = _
  unfold execApertureWrite
  rw [if_neg (not_not.mpr form), State.onBar_up up]
  simp only [bound, Option.bind_some, maps, Option.map_some, if_neg power, stored, Bool.false_eq_true, if_false]

/-- R254: a write that no window lets through. -/
theorem execApertureWrite_unbound {s : State} {addr : BitVec 38} {data : List Byte} {lines : LineEcc} (up : s.hostUp = true)
    (form : accessOk addr.toNat data.length = true) (unbound : s.aperture addr.toNat true = none) :
    exec (.apertureWrite addr data lines) s =
      .next ({ s with drops.aperture := s.drops.aperture + 1 }.emit .unsupported) := by
  show execApertureWrite addr data lines s = _
  unfold execApertureWrite
  rw [if_neg (not_not.mpr form), State.onBar_up up]
  simp only [unbound, Option.bind_none]
  rfl

/-- Settles O10. -/
theorem apertureBindReadWrite : Obligations.ApertureBindReadWrite := by
  intro s
  refine ⟨fun r rest c power names asked shaped mode base form => ?bind, fun addr c va pa up power => ⟨?read, ?write, ?unbound⟩⟩
  case bind =>
    refine ⟨_, execApertureBind_asked asked power names shaped mode base, ?_, State.ok_answered .., fun k => ?_⟩
    · obtain ⟨b, started⟩ := s.started_fields .pcie r rest
      rw [started, show State.ok _ _ _ = _ from State.ok_only ..]
      rfl
    · rw [show State.ok _ _ _ = _ from State.ok_only ..]
      by_cases here : k = r.get 6 1
      · rw [if_pos here, here]
        exact Table.get_put_same _ _ none _ _ form
      · rw [if_neg here]
        exact Table.get_put_other _ _ _ here
  case read =>
    intro len access bound maps sound
    exact execApertureRead_bound up power access bound maps sound
  case write =>
    intro data access bound maps sound form
    refine ⟨_, execApertureWrite_bound up power access bound maps sound, rfl, rfl, fun a => ?_⟩
    rw [State.modCtx_mem]
    exact Bytes.get_write form pa a data
  case unbound =>
    intro data lines access unbound
    exact execApertureWrite_unbound up access unbound

end Sys2Proof.Machine
end

section
/-! SUPPORT. What is left alone by sending, by an answer, by a loss of nodes: the rules are those of the changes that
these make, in the order in which they build on each other. -/

namespace Sys2Proof.Machine

/-- What sending, answers and losses leave as it was in `old`: all but the units, the contexts, the wagons, the links and the
packets on their way, the Booking Office, the reports, the recorder and what was sent out; of the rails, the node id, the
routes and the epochs stay too. -/
structure Deals (old s : State) : Prop where
  kept : s = { old with
    parts := s.parts, ctxs := s.ctxs, marsh := s.marsh, book := s.book, sbx := s.sbx, trg := s.trg, out := s.out
    rails := { s.rails with
      node := old.rails.node, routes := old.rails.routes, epoch := old.rails.epoch, revoked := old.rails.revoked
      stopped := old.rails.stopped } }

variable {old s : State}

theorem Deals.refl (s : State) : Deals s s := ⟨rfl⟩

/-- A change of fields that may differ. -/
theorem Deals.update {t : State} {parts ctxs marsh book sbx trg out ports tag sent waiting held last resend notices accums}
    (h : Deals old t) :
    Deals old ⟨t.pending, t.fuses, t.mram, parts, t.cores, t.cap, ctxs, t.rings, t.tokens, marsh, t.drops, t.mem, t.yard,
      t.windows, ⟨ports, t.rails.node, t.rails.routes, t.rails.epoch, t.rails.revoked, t.rails.stopped, tag, sent, waiting,
      held, last, resend, notices, accums⟩, book, t.pcie, t.hay, t.power, sbx, trg, t.sec, t.start, t.fresh, out⟩ := by
  constructor
  rw [h.kept]

theorem Deals.foldl {α : Type} {f : State → α → State} {l : List α} (h : Deals old s)
    (keeps : ∀ t a, Deals old t → Deals old (f t a)) : Deals old (l.foldl f s) :=
  List.foldlRecOn l f (motive := Deals old) h (fun t k a _ => keeps t a k)

theorem Deals.ite {c : Prop} [Decidable c] {t : State} (h : Deals old s) (k : Deals old t) :
    Deals old (if c then s else t) := by
  split
  · exact h
  · exact k

theorem Deals.modCtx (h : Deals old s) (c : Nat) (f : Context → Context) : Deals old (s.modCtx c f) := h.update

theorem Deals.modPart (h : Deals old s) (p : Nat) (f : Partition → Partition) : Deals old (s.modPart p f) :=
  h.update

theorem Deals.modPort (h : Deals old s) (n : Nat) (f : Port → Port) : Deals old (s.modPort n f) := h.update

theorem Deals.modChan (h : Deals old s) (ch : Chan) (f : Channel → Channel) : Deals old (s.modChan ch f) := by
  unfold State.modChan
  split
  · exact h.update
  · exact h.update

theorem Deals.note (h : Deals old s) (code : Nat) (src : W32) (r : Recorded) : Deals old (s.note code src r) := by
  unfold State.note
  split
  · exact h
  · split
    · split
      · exact h.update
      · exact h.update
    · split
      · exact h.update
      · exact h.update

theorem Deals.report (h : Deals old s) (src : W32) (code : Nat) (ctx : Option (Nat × W16)) (info : W32) :
    Deals old (s.report src code ctx info) := by
  unfold State.report
  exact Deals.ite h h.update

theorem Deals.event (h : Deals old s) (op : Nat) (payload : List Byte) : Deals old (s.event op payload) := by
  unfold State.event
  exact Deals.ite h ((h.modChan ..).modChan ..)

theorem Deals.noteRequest (h : Deals old s) (r : Request) (code : Nat) : Deals old (s.noteRequest r code) := by
  unfold State.noteRequest
  exact Deals.ite (h.note ..) h

theorem Deals.reply (h : Deals old s) (r : Request) (code : Nat) (detail : Nat) (payload : List Byte) :
    Deals old (s.reply r code detail payload) := by
  unfold State.reply
  exact (h.noteRequest ..).modChan ..

theorem Deals.ok (h : Deals old s) (r : Request) (payload : List Byte) : Deals old (s.ok r payload) := by
  unfold State.ok
  exact h.reply ..

theorem Deals.queueOn (h : Deals old s) (port : Nat) (p : Packet) : Deals old (s.queueOn port p) := by
  unfold State.queueOn
  exact h.modPort ..

theorem Deals.takePort (h : Deals old s) (o : OutPacket) (port : Nat) : Deals old (s.takePort o port) := by
  unfold State.takePort
  dsimp only
  exact Deals.ite ((h.queueOn ..).update) ((h.queueOn ..).update)

theorem Deals.place_ (h : Deals old s) (o : OutPacket) : Deals old (s.place_ o) := by
  unfold State.place_
  split
  · exact h.takePort ..
  · exact h.update

theorem Deals.sendWaiting (h : Deals old s) : Deals old s.sendWaiting := by
  unfold State.sendWaiting
  exact h.update.foldl (fun t a k => k.place_ ..)

theorem Deals.launch {p : Packet} {ctx : Nat} {w : Waiter} {t : State} (h : Deals old s)
    (sent : s.launch p ctx w = some t) : Deals old t := by
  unfold State.launch at sent
  split at sent
  · cases sent
  · cases sent
    exact h.place_ ..

theorem Deals.sendTo {kind : Nat} {peer : Peer} {arg pflags : Nat} {data : List Byte} {ctx : Nat} {w : Waiter} {tag : Nat}
    {t : State} (h : Deals old s) (sent : s.sendTo kind peer arg pflags data ctx w = some (tag, t)) : Deals old t := by
  unfold State.sendTo at sent
  dsimp only at sent
  split at sent
  · cases sent
  · split at sent
    · cases sent
    · rename_i launched
      cases sent
      exact Deals.launch h.update launched

theorem Deals.modEngine (h : Deals old s) (p : Nat) (e : Nat) (f : MatrixEngine → MatrixEngine) :
    Deals old (s.modEngine p e f) := by
  unfold State.modEngine
  exact h.modPart ..

theorem Deals.modVec (h : Deals old s) (p : Nat) (f : VectorEngine → VectorEngine) : Deals old (s.modVec p f) := by
  unfold State.modVec
  exact h.modPart ..

theorem Deals.setPace (h : Deals old s) (u : UnitRef) (pace : Pace) (wants : Option (SlotKind × Nat)) :
    Deals old (s.setPace u pace wants) := by
  unfold State.setPace
  split
  · exact h.modEngine ..
  · exact h.modVec ..
  · exact h

theorem Deals.takeFeed (h : Deals old s) (u : UnitRef) (w : Wagon) : Deals old (s.takeFeed u w).2 := by
  unfold State.takeFeed
  split
  · exact h
  · split
    · exact h.modEngine ..
    · dsimp only
      exact h.modVec ..
    · exact h

theorem Deals.settle (h : Deals old s) (u : UnitRef) : Deals old (s.settle u) := by
  unfold State.settle
  exact Deals.ite (h.setPace ..) h

theorem Deals.modFlight (h : Deals old s) (ring : Nat) (index : W32) (f : Flight → Flight) :
    Deals old (s.modFlight ring index f) :=
  h.update

theorem Deals.decide (h : Deals old s) (ring : Nat) (index : W32) (status : Byte) (flags : Byte) :
    Deals old (s.decide ring index status flags) := by
  unfold State.decide
  exact h.modFlight ..

theorem Deals.noteMove (h : Deals old s) (src : W32) (f : Flight) (code : Byte) : Deals old (s.noteMove src f code) := by
  unfold State.noteMove
  exact Deals.ite h (h.report ..)

theorem Deals.collAbortTo (h : Deals old s) (ctx : Nat) (group : Nat) (opseq : W32) (peers : List Nat) :
    Deals old (s.collAbortTo ctx group opseq peers) := by
  unfold State.collAbortTo
  refine h.foldl fun t1 a2 k3 => ?_
  split
  · exact k3
  · split
    · rename_i _ _ _ v7
      have k8 := k3.sendTo v7
      exact k8
    · exact k3

theorem Deals.collEnd (h : Deals old s) (f : Flight) (status : Byte) (except : List Nat) :
    Deals old (s.collEnd f status except) := by
  unfold State.collEnd
  exact ((Deals.ite h (h.collAbortTo ..)).update).modCtx ..

theorem Deals.finish (h : Deals old s) (f : Flight) (status : Byte) (flags : Flags) :
    Deals old (s.finish f status flags) := by
  unfold State.finish
  exact ((h.takeFeed ..).decide ..).settle ..

theorem Deals.cause (h : Deals old s) (f : Flight) (code : Byte) : Deals old (s.cause f code) := by
  unfold State.cause
  exact h.modFlight ..

theorem Deals.noteCause (h : Deals old s) (f : Flight) (code : Byte) : Deals old (s.noteCause f code) := by
  unfold State.noteCause
  exact h.noteMove ..

theorem Deals.finishMove (h : Deals old s) (f : Flight) : Deals old (s.finishMove f) := by
  unfold State.finishMove
  exact (h.foldl (fun t a k => k.noteCause ..)).finish ..

theorem Deals.tryMove (h : Deals old s) (ring : Nat) (index : W32) : Deals old (s.tryMove ring index) := by
  unfold State.tryMove
  split
  · exact h
  · exact Deals.ite (h.finishMove ..) h

theorem Deals.mirrorFail (h : Deals old s) (ctx : Nat) : Deals old (s.mirrorFail ctx) := by
  unfold State.mirrorFail
  split
  · exact h
  · exact (h.modCtx ..).decide ..

theorem Deals.collFinish (h : Deals old s) (f : Flight) (status : Byte) (except : List Nat) :
    Deals old (s.collFinish f status except) := by
  unfold State.collFinish
  exact (h.collEnd ..).decide ..

theorem Deals.collTry (h : Deals old s) (ring : Nat) (index : W32) : Deals old (s.collTry ring index) := by
  unfold State.collTry
  split
  · exact h
  · exact Deals.ite h (Deals.ite (h.collFinish ..) (Deals.ite (h.collFinish ..) h))

theorem Deals.modStore (h : Deals old s) (c : Nat) (f : Store → Store) : Deals old (s.modStore c f) := by
  unfold State.modStore
  exact h.modCtx ..

theorem Deals.restoreFail (h : Deals old s) (c : Nat) : Deals old (s.restoreFail c) := by
  unfold State.restoreFail
  split
  · exact h
  · exact (h.modStore ..).reply ..

theorem Deals.restoreAnswered (h : Deals old s) (c : Nat) (tag : Nat) (applied : Bool) :
    Deals old (s.restoreAnswered c tag applied) := by
  unfold State.restoreAnswered
  split
  · exact h
  · exact Deals.ite h (Deals.ite (h.restoreFail ..) (Deals.ite ((h.modStore ..).ok ..) (h.modStore ..)))

theorem Deals.wagonAnswered (h : Deals old s) (ring : Nat) (index : W32) (tag : Nat) (applied : Bool) :
    Deals old (s.wagonAnswered ring index tag applied) := by
  unfold State.wagonAnswered
  split
  · exact h
  · exact Deals.ite h (Deals.ite ((Deals.ite (h.modFlight ..) ((h.modFlight ..).cause ..)).tryMove ..) (Deals.ite
      ((Deals.ite (h.modFlight ..) ((h.modFlight ..).cause ..)).collTry ..) ((h.modFlight ..).decide ..)))

theorem Deals.mirrorLost (h : Deals old s) (c : Nat) (tag : Nat) : Deals old (s.mirrorLost c tag) := by
  unfold State.mirrorLost
  split
  · exact h
  · exact Deals.ite (h.mirrorFail ..) h

/-- A packet is settled with no result: what waits for it ends (R235, R260, R315). -/
theorem Deals.answeredNone (h : Deals old s) (o : OutPacket) (lines : LineEcc) : Deals old (s.answered o none lines) := by
  unfold State.answered
  dsimp only
  split
  · exact h.wagonAnswered ..
  · exact h.restoreAnswered ..
  · contradiction
  · contradiction
  · exact h.mirrorLost ..
  · exact h.mirrorLost ..
  · exact h.mirrorLost ..
  · exact h
  · exact h

theorem Deals.giveUp (h : Deals old s) (p : W32 → Bool) : Deals old (s.giveUp p) := h.update.foldl fun _ _ k => k.answeredNone ..

theorem Deals.collLost (h : Deals old s) (p : W32 → Bool) : Deals old (s.collLost p) := by
  unfold State.collLost
  exact h.foldl (fun t a k => (k.cause ..).collTry ..)

theorem Deals.mirrorsLost (h : Deals old s) (p : W32 → Bool) : Deals old (s.mirrorsLost p) := by
  unfold State.mirrorsLost
  refine h.foldl fun t1 a2 k3 => ?_
  dsimp only
  exact k3.mirrorFail ..

theorem Deals.loseNodes (h : Deals old s) (p : W32 → Bool) : Deals old (s.loseNodes p) := by
  unfold State.loseNodes
  exact ((h.giveUp ..).collLost ..).mirrorsLost ..

end Sys2Proof.Machine
end

section
/-! RAIL_NODE_SET, ROUTE_SET, EPOCH_SET and RAIL_STATUS: settles O31 (R296, R298, R301, R319, R368). -/

namespace Sys2Proof.Machine

/-- R296: the route table after the entries of ROUTE_SET. -/
def routesFrom (first : Nat) (l : List ((W32 × Nat) × Nat)) (routes : Table (W32 × BitVec 20)) : Table (W32 × BitVec 20) :=
  l.foldl (fun t e => Table.put noRoute (first + e.2) (e.1.1, BitVec.ofNat 20 e.1.2) t) routes

theorem routesFrom_other (first : Nat) {j : Nat} : ∀ (l : List ((W32 × Nat) × Nat)) (routes : Table (W32 × BitVec 20)),
    (∀ e ∈ l, j ≠ first + e.2) → Table.get noRoute (routesFrom first l routes) j = Table.get noRoute routes j := by
  intro l
  induction l with
  | nil => exact fun _ _ => rfl
  | cons e l ih =>
    intro routes apart
    refine (ih _ fun x hx => apart x (List.mem_cons_of_mem _ hx)).trans ?_
    exact Table.get_put_other _ _ _ (apart e List.mem_cons_self)

/-- Entry i of the list, which names a node, stands in the table where no later one has its index. -/
theorem routesFrom_listed (first : Nat) {e : (W32 × Nat) × Nat} (named : e.1.1 ≠ noNode) :
    ∀ (l : List ((W32 × Nat) × Nat)) (routes : Table (W32 × BitVec 20)), e ∈ l → (l.map (·.2)).Nodup →
      Table.get noRoute (routesFrom first l routes) (first + e.2) = (e.1.1, BitVec.ofNat 20 e.1.2) := by
  intro l
  induction l with
  | nil => exact fun _ there => absurd there (by simp)
  | cons x l ih =>
    intro routes there once
    rw [List.map_cons, List.nodup_cons] at once
    rcases List.mem_cons.mp there with rfl | later
    · refine (routesFrom_other first l _ fun y hy same => once.1 ?_).trans ?_
      · exact List.mem_map.mpr ⟨y, hy, by omega⟩
      · exact Table.get_put_ne _ _ _ _ fun same => named (congrArg Prod.fst same)
    · exact ih _ later once.2

theorem Request.routes_zipIdx (r : Request) : (r.routes.zipIdx).map (·.2) = List.range (r.get 2 2) := by
  simp [Request.routes, List.range_eq_range']

theorem Request.routes_entry (r : Request) {i : Nat} (inside : i < r.get 2 2) :
    ((BitVec.ofNat 32 (r.get (4 + 8 * i) 4), r.get (8 + 8 * i) 4), i) ∈ r.routes.zipIdx := by
  rw [List.mem_zipIdx_iff_getElem?]
  simp [Request.routes, List.getElem?_range inside]

section
variable {s : State} {ch : Chan} {r : Request} {rest : List Request}

theorem State.started_rails (s : State) (ch : Chan) (r : Request) (rest : List Request) :
    (s.started ch r rest).rails = s.rails := by cases ch <;> rfl

theorem Deals.started (s : State) (ch : Chan) (r : Request) (rest : List Request) : Deals s (s.started ch r rest) :=
  (Deals.refl s).modChan ..

/-- R296. -/
theorem execRailNodeSet_asked (asked : Asked s ch 0x0900 r rest) (shaped : Shaped r 4 []) (power : s.power.state ≠ .holdUp)
    (named : r.get 0 4 ≠ 0xFFFFFFFF) : exec (.railNodeSet ch) s =
      .next ({ s.started ch r rest with rails.node := BitVec.ofNat 32 (r.get 0 4) }.ok r []) := by
  show Host.Outcome.next (s.onRequest ch _ _ _) = _
  rw [asked.turnRuns rfl (fun h => absurd h power) rfl rfl shaped.lenOk shaped.2 (by simp)]
  dsimp only
  rw [if_neg named]

/-- R16: the mask of a route has 20 bits. -/
theorem Request.routeReserved_none (r : Request) (masks : ∀ i < r.get 2 2, r.get (8 + 8 * i) 4 < 2 ^ 20) :
    r.routeReserved = none := by
  unfold Request.routeReserved
  rw [List.findSome?_eq_none_iff]
  intro i there
  have small := masks i (List.mem_range.mp there)
  have mid : field (r.get (8 + 8 * i) 4) 23 20 = 0 := by unfold field; omega
  have high : field (r.get (8 + 8 * i) 4) 31 24 = 0 := by unfold field; omega
  simp [mid, high]

/-- R296, R365: ROUTE_SET of entries in range whose masks name ports in service. -/
theorem execRouteSet_asked (asked : Asked s ch 0x0901 r rest) (power : s.power.state ≠ .holdUp)
    (shaped : Shaped r (4 + 8 * r.get 2 2) []) (many : r.get 2 2 ≤ 59) (fits : r.get 0 2 + r.get 2 2 ≤ 8192)
    (first : r.get 0 2 ≤ 8191) (masks : ∀ i < r.get 2 2, r.get (8 + 8 * i) 4 < 2 ^ 20 ∧
      ∀ k < 20, bit (r.get (8 + 8 * i) 4) k = true → s.portOut k = false) :
    let u := { s.started ch r rest with rails.routes := routesFrom (r.get 0 2) r.routes.zipIdx s.rails.routes }
    exec (.routeSet ch) s = .next (((u.loseNodes (fun n => u.unreachable n)).sendWaiting).ok r []) := by
  show Host.Outcome.next (s.onRequest ch _ _ _) = _
  rw [asked.turnRuns rfl (fun h => absurd h power) rfl rfl ?long shaped.2 (by simp)]
  case long =>
    have counted : r.get 2 2 = getLE r.payload 2 2 := rfl
    have long := shaped.1
    rw [counted] at long
    simp only [decide_eq_true_eq]
    omega
  have reached : r.routes.any (fun e => (List.range 20).any
      (fun i => bit e.2 i && (s.started ch r rest).portOut i)) = false := by
    simp only [Request.routes, List.any_map, List.any_eq_false, List.mem_range, Function.comp_apply, Bool.not_eq_true,
      Bool.and_eq_false_imp]
    intro i hi k hk set
    unfold State.portOut State.port
    rw [State.started_rails]
    exact (masks i hi).2 k hk set
  dsimp only
  rw [if_neg (by omega), if_neg (by omega), r.routeReserved_none fun i hi => (masks i hi).1]
  dsimp only
  rw [reached, State.started_rails]
  rfl

/-- R298, R301: EPOCH_SET of another epoch, not revoked. -/
theorem execEpochSet_asked (asked : Asked s ch 0x0902 r rest) (shaped : Shaped r 4 []) (power : s.power.state ≠ .holdUp)
    {e : W32} (value : e = BitVec.ofNat 32 (r.get 0 4)) (some : e ≠ 0) (live : e ∉ s.rails.revoked)
    (other : e ≠ s.rails.epoch) :
    let u := if s.rails.epoch = 0 then s.started ch r rest else (s.started ch r rest).loseNodes (fun _ => true)
    exec (.epochSet ch) s = .next ({ u.revoke s.rails.epoch with rails.epoch := e, rails.stopped := false }.ok r
      (leBytes 4 s.rails.epoch.toNat)) := by
  subst value
  show Host.Outcome.next (s.onRequest ch _ _ _) = _
  rw [asked.turnRuns rfl (fun h => absurd h power) rfl rfl shaped.lenOk shaped.2 (by simp)]
  dsimp only
  rw [State.started_rails, if_neg some, if_neg live, if_neg other]

/-- R16: epoch 0 is malformed. -/
theorem execEpochSet_zero (asked : Asked s ch 0x0902 r rest) (shaped : Shaped r 4 []) (power : s.power.state ≠ .holdUp)
    (zero : r.get 0 4 = 0) : exec (.epochSet ch) s = .next ((s.started ch r rest).reply r stMalformed 0 []) := by
  show Host.Outcome.next (s.onRequest ch _ _ _) = _
  rw [asked.turnRuns rfl (fun h => absurd h power) rfl rfl shaped.lenOk shaped.2 (by simp)]
  dsimp only
  rw [zero]
  rfl

/-- R319, R368. -/
theorem execRailStatus_asked (asked : Asked s ch 0x0908 r rest) (shaped : Shaped r 4 [(1, 3)])
    (power : s.power.state ≠ .holdUp) (inside : r.get 0 1 ≤ 19) (present : (s.port (r.get 0 1)).unit ≠ .absent)
    (whole : (s.port (r.get 0 1)).unit ≠ .fenced) : exec (.railStatus ch) s = .next ((s.started ch r rest).ok r
      (leBytes 1 (portCode (s.port (r.get 0 1)).state) ++ leBytes 3 0 ++ leBytes 4 (s.port (r.get 0 1)).peerNode.toNat ++
        ((s.port (r.get 0 1)).counters.map (fun c => leBytes 8 c.toNat)).flatten)) := by
  have same : (s.started ch r rest).port (r.get 0 1) = s.port (r.get 0 1) := by
    unfold State.port
    rw [State.started_rails]
  show Host.Outcome.next (s.onRequest ch _ _ _) = _
  rw [asked.turnRuns rfl (fun h => absurd h power) rfl rfl shaped.lenOk shaped.2 (by simp)]
  dsimp only
  rw [if_neg (by omega), if_neg (by simp [State.portOut, same, present, whole]), same]

end

theorem State.revoke_length (s : State) (e : W32) :
    (s.revoke e).rails.revoked.length ≤ max 8 s.rails.revoked.length := by
  unfold State.revoke
  split
  · exact Nat.le_max_right ..
  · exact (List.length_take_le ..).trans (Nat.le_max_left ..)

theorem State.mem_revoke (s : State) {e : W32} (some : e ≠ 0) : e ∈ (s.revoke e).rails.revoked := by
  unfold State.revoke
  rw [if_neg some]
  simp

theorem Deals.revoke_keeps {s t : State} (h : Deals s t) (e : W32) :
    (t.revoke e).mem = s.mem ∧ (t.revoke e).rings = s.rings ∧ (t.revoke e).tokens = s.tokens ∧
      (t.revoke e).ctxs = t.ctxs := by
  unfold State.revoke
  split
  · rw [h.kept]; exact ⟨rfl, rfl, rfl, rfl⟩
  · rw [h.kept]; exact ⟨rfl, rfl, rfl, rfl⟩

/-- Settles O31. -/
theorem railSettings : Obligations.RailSettings := by
  intro s r rest ch power
  refine ⟨fun asked shaped named => ?node, fun asked shaped many fits first masks => ?routes,
    fun asked shaped some live other => ?epoch, fun asked shaped zero => ?zero, fun asked shaped inside present whole => ?status⟩
  case node =>
    refine ⟨_, execRailNodeSet_asked asked shaped power named, State.ok_answered .., ?_⟩
    obtain ⟨b, started⟩ := s.started_fields ch r rest
    rw [started, show State.ok _ _ _ = _ from State.ok_only ..]
    rfl
  case routes =>
    refine ⟨_, execRouteSet_asked asked power shaped many fits first masks, State.ok_answered .., ?_⟩
    rw [State.ok_rails]
    have kept (u : State) (p : W32 → Bool) : ((u.loseNodes p).sendWaiting).rails.routes = u.rails.routes := by
      rw [(((Deals.refl u).loseNodes p).sendWaiting).kept]
    rw [kept]
    refine ⟨fun i inside named => ?_, fun j outside => ?_⟩
    · exact routesFrom_listed _ (fun e => named (by
        have small : r.get (4 + 8 * i) 4 < 2 ^ 32 := Request.get_lt ..
        have same := congrArg BitVec.toNat (show BitVec.ofNat 32 (r.get (4 + 8 * i) 4) = noNode from e)
        rw [BitVec.toNat_ofNat, Nat.mod_eq_of_lt small] at same
        exact same)) _ _ (r.routes_entry inside) (by rw [r.routes_zipIdx]; exact List.nodup_range)
    · refine routesFrom_other _ _ _ fun e he => ?_
      have index : e.2 ∈ List.range (r.get 2 2) := r.routes_zipIdx ▸ List.mem_map.mpr ⟨e, he, rfl⟩
      have below := List.mem_range.mp index
      omega
  case epoch =>
    let u := if s.rails.epoch = 0 then s.started ch r rest else (s.started ch r rest).loseNodes (fun _ => true)
    have left : Deals s u := Deals.ite (Deals.started ..) ((Deals.started ..).loseNodes _)
    have revoked : u.rails.revoked = s.rails.revoked := by rw [left.kept]
    obtain ⟨mem, rings, tokens, ctxs⟩ := left.revoke_keeps s.rails.epoch
    refine ⟨_, execEpochSet_asked asked shaped power rfl some live other, State.ok_answered .., ?_⟩
    rw [show State.ok _ _ _ = _ from State.ok_only ..]
    refine ⟨rfl, rfl, fun h => State.mem_revoke _ h, ?_, fun h => ?_, mem, rings, tokens⟩
    · rw [← revoked]
      exact State.revoke_length u _
    · refine ctxs.trans ?_
      simp only [u, if_pos h, State.started_ctxs]
  case zero =>
    exact ⟨_, execEpochSet_zero asked shaped power zero, s.started_reply_only .., State.reply_answered_nil ..⟩
  case status =>
    exact ⟨_, execRailStatus_asked asked shaped power inside present whole, s.started_ok_only .., State.ok_answered ..⟩

end Sys2Proof.Machine
end

section
/-! The end of a teardown and of a quarantine: settles O11 (R203 to R205, R569). -/

namespace Sys2Proof.Machine

/-- An entry of a table in canonical form that a filter drops reads as the default. -/
theorem Table.get_filter_dropped {α : Type} [DecidableEq α] (d : α) (p : Nat × α → Bool) (i : Nat) :
    ∀ t : Table α, Table.wf d t = true → p (i, Table.get d t i) = false → Table.get d (t.filter p) i = d := by
  intro t
  induction t with
  | nil => exact fun _ _ => rfl
  | cons e t ih =>
    obtain ⟨k, v⟩ := e
    intro form dropped
    have rest : Table.wfFrom d (some k) t = true := by
      simp only [Table.wf, Table.wfFrom, Bool.and_eq_true] at form
      exact form.2
    by_cases here : i = k
    · rw [Table.get, if_pos here] at dropped
      rw [← here, List.filter_cons_of_neg (by simp [dropped])]
      exact Table.get_of_wfFrom d k _ (Table.wfFrom_filter d p _ t rest) (Nat.le_of_eq here)
    · rw [Table.get, if_neg here] at dropped
      have later := ih (Table.wfFrom_none d _ t rest) dropped
      rw [List.filter_cons]
      split
      · rwa [Table.get, if_neg here]
      · exact later

/-- A key that reads as something else than the default is listed. -/
theorem Table.mem_of_get_ne {α : Type} {d v : α} {t : Table α} {i : Nat} (h : Table.get d t i = v) (ne : v ≠ d) : (i, v) ∈ t := by
  induction t with
  | nil => exact absurd h.symm ne
  | cons e t ih =>
    obtain ⟨k, w⟩ := e
    by_cases here : i = k
    · rw [Table.get, if_pos here] at h
      rw [here, h]
      exact List.mem_cons_self
    · rw [Table.get, if_neg here] at h
      exact List.mem_cons_of_mem _ (ih h)

/-- What the rest of a teardown leaves: contexts, rings and tokens stay, frames that await zeroing still do, the running requests
only become fewer, and under P the bytes of memory stay. -/
structure Frees (P : Prop) (old s : State) : Prop where
  ctxs : s.ctxs = old.ctxs
  rings : s.rings = old.rings
  tokens : s.tokens = old.tokens
  retired : s.mem.retired = old.mem.retired
  zeroing : old.mem.zeroing ⊆ s.mem.zeroing
  running : s.running ⊆ old.running
  bytes : P → s.mem.bytes = old.mem.bytes

section
variable {P : Prop} {old s : State}

theorem Frees.refl (s : State) : Frees P s s := ⟨rfl, rfl, rfl, rfl, fun _ h => h, fun _ h => h, fun _ => rfl⟩

theorem Frees.trans {t : State} (h : Frees P old s) (k : Frees P s t) : Frees P old t :=
  ⟨k.ctxs.trans h.ctxs, k.rings.trans h.rings, k.tokens.trans h.tokens, k.retired.trans h.retired,
    List.Subset.trans h.zeroing k.zeroing, List.Subset.trans k.running h.running, fun p => (k.bytes p).trans (h.bytes p)⟩

theorem Frees.foldl {α : Type} {f : State → α → State} {l : List α} (h : Frees P old s)
    (keeps : ∀ t, ∀ a ∈ l, Frees P old t → Frees P old (f t a)) : Frees P old (l.foldl f s) :=
  List.foldlRecOn l f (motive := Frees P old) h fun t k a there => keeps t a there k

theorem Frees.reply (h : Frees P old s) (r : Request) (code detail : Nat) (payload : List Byte) :
    Frees P old (s.reply r code detail payload) := by
  obtain ⟨g, e⟩ := s.reply_eq r code detail payload
  refine h.trans ?_
  rw [e]
  refine ⟨by simp, by simp, by simp, by simp, by simp, fun x there => ?_, fun _ => by simp⟩
  cases ch : r.chan <;> simp only [State.modChan, State.running, ch, List.mem_append] at there ⊢
  · exact there.imp_left List.mem_of_mem_erase
  · exact there.imp_right List.mem_of_mem_erase

theorem Frees.zeroingMore (h : Frees P old s) (frames : List Nat) :
    Frees P old { s with mem.zeroing := s.mem.zeroing ++ frames } :=
  h.trans ⟨rfl, rfl, rfl, rfl, fun _ there => List.mem_append_left _ there, fun _ h => h, fun _ => rfl⟩

theorem Frees.dropGrants (h : Frees P old s) (c : Nat) : Frees P old (s.dropGrants c) := by
  refine Frees.foldl ?_ fun t g _ k => (k.zeroingMore g.frames).reply ..
  exact h.trans ⟨rfl, rfl, rfl, rfl, fun _ h => h, fun _ h => h, fun _ => rfl⟩

theorem Frees.dropRestore (h : Frees P old s) (c : Nat) : Frees P old (s.dropRestore c) := by
  unfold State.dropRestore
  split
  · exact h.reply ..
  · exact h

theorem Frees.zeroAllotment (h : Frees P old s) (w : YardWord) : Frees P old (s.zeroAllotment w) :=
  h.trans ⟨rfl, rfl, rfl, rfl, fun _ h => h, fun _ h => h, fun _ => rfl⟩

theorem Frees.resettle (h : Frees P old s) : Frees P old s.resettle := by
  refine Frees.foldl h fun t k _ j => ?_
  unfold State.moveReserved
  split
  · exact j.trans ⟨rfl, rfl, rfl, rfl, fun _ h => h, fun _ h => h, fun _ => rfl⟩
  · exact j

theorem Frees.recapped (h : Frees P old s) (n : W32) : Frees P old { s with cap.changeCount := n } :=
  h.trans ⟨rfl, rfl, rfl, rfl, fun _ h => h, fun _ h => h, fun _ => rfl⟩

theorem State.setLevel_frees (s : State) (level : Nat) (key : Option Nat) : Frees P s (s.setLevel level key) := by
  unfold State.setLevel
  split
  · exact Frees.refl s
  · dsimp only
    split <;> exact ⟨rfl, rfl, rfl, rfl, fun _ h => h, fun _ h => h, fun _ => rfl⟩

/-- R569: the entry to Intrusive zeroes memory and leaves the rest. -/
theorem Frees.enterIntrusive (h : Frees P old s) (unlocks : ¬ P) (r : Request) : Frees P old (s.enterIntrusive r) := by
  refine h.trans (((?_ : Frees P s _).trans (State.setLevel_frees ..)).reply ..)
  exact ⟨rfl, rfl, rfl, rfl, fun _ h => h, fun _ h => h, fun p => absurd p unlocks⟩

/-- R510, R569: the SIDING_ENTER and the DEBUG_UNLOCK that waited for the last teardown. -/
theorem Frees.answerSiding (h : Frees (∀ x ∈ old.running, x.opcode ≠ 0x0700) old s) :
    Frees (∀ x ∈ old.running, x.opcode ≠ 0x0700) old s.answerSiding := by
  unfold State.answerSiding
  split
  · have told := Frees.foldl (l := s.running.filter (fun r => r.opcode = 0x0909)) h fun t r _ k => k.reply r stOk 0 []
    refine Frees.foldl told fun t r there k => k.enterIntrusive (fun none => ?_) r
    rw [List.mem_filter, decide_eq_true_eq] at there
    exact none r (told.running there.1) there.2
  · exact h

end

/-- The state in which the tokens of a context and its rings are gone. -/
def State.vacated (s : State) (c : Nat) : State :=
  (s.ringsOf c).foldl (fun t r => t.modRing r (fun _ => Ring.reset)) (s.freeTokensOf c)

theorem State.resetRings_keeps (l : List Nat) : ∀ s : State,
    let t := l.foldl (fun t r => t.modRing r (fun _ => Ring.reset)) s
    t = { s with rings := t.rings } ∧ (s.rings.wf Ring.reset = true → ∀ q ∈ l, t.ring q = Ring.reset) := by
  induction l with
  | nil => exact fun s => ⟨rfl, fun _ _ there => absurd there List.not_mem_nil⟩
  | cons r l ih =>
    intro s
    obtain ⟨only, gone⟩ := ih (s.modRing r (fun _ => Ring.reset))
    refine ⟨only, fun form q there => ?_⟩
    have kept : (s.modRing r (fun _ => Ring.reset)).rings.wf Ring.reset = true :=
      Table.wf_mod Ring.reset s.rings r (fun _ => Ring.reset) form
    by_cases later : q ∈ l
    · exact gone kept q later
    · obtain rfl := (List.mem_cons.mp there).resolve_right later
      have other (l : List Nat) : q ∉ l → ∀ u : State,
          (l.foldl (fun t r => t.modRing r (fun _ => Ring.reset)) u).ring q = u.ring q := by
        induction l with
        | nil => exact fun _ _ => rfl
        | cons a l ih =>
          intro apart u
          rw [List.mem_cons, not_or] at apart
          exact (ih apart.2 _).trans (State.ring_modRing_other _ _ apart.1)
      refine (other l later _).trans ?_
      exact Table.get_mod_same Ring.reset s.rings q (fun _ => Ring.reset) form

section
variable {s : State} {c : Nat}

theorem State.vacated_only (s : State) (c : Nat) :
    s.vacated c = { s with tokens := (s.freeTokensOf c).tokens, rings := (s.vacated c).rings } :=
  (State.resetRings_keeps _ _).1

theorem State.vacated_ring (form : s.rings.wf Ring.reset = true) {q : Nat} (bound : s.boundTo q c = true) :
    (s.vacated c).ring q = Ring.reset := by
  simp only [State.boundTo, Bool.and_eq_true, decide_eq_true_eq] at bound
  obtain ⟨⟨-, state⟩, owner⟩ := bound
  refine (State.resetRings_keeps _ (s.freeTokensOf c)).2 form q ?_
  have listed : (q, s.ring q) ∈ s.rings := Table.mem_of_get_ne rfl fun e => state (by rw [e]; rfl)
  exact List.mem_map.mpr ⟨_, List.mem_filter.mpr ⟨listed, by simpa using ⟨state, owner⟩⟩, rfl⟩

theorem State.freeTokensOf_token (form : s.tokens.wf Token.reset = true) {i : Nat} (owned : (s.token i).owner = some c) :
    (s.freeTokensOf c).token i = Token.reset :=
  Table.get_filter_dropped _ _ _ _ form (by simpa [State.token] using owned)

/-- The state after a teardown but for what follows the context's own end: its entry is written last. -/
def State.tornDown (s : State) (c : Nat) : State :=
  ((s.ctx c).yard.foldl State.zeroAllotment (((s.vacated c).dropGrants c).dropRestore c))

theorem State.tornDown_frees (s : State) (c : Nat) {P : Prop} : Frees P (s.vacated c) (s.tornDown c) :=
  Frees.foldl (((Frees.refl _).dropGrants c).dropRestore c) fun _ w _ k => k.zeroAllotment w

/-- The entry of the context that was torn down (R203). -/
def State.quarantined (s : State) (c : Nat) : State :=
  ((s.tornDown c).freePages (s.ctx c).pages).modCtx c
    (fun _ => { Context.reset with state := .quarantine, gen := (s.ctx c).gen })

theorem State.release_frees (s : State) (c : Nat) {P : Prop} : Frees P (s.quarantined c) (s.release c) := by
  have settled : Frees P (s.quarantined c) (s.quarantined c).resettle := (Frees.refl _).resettle
  unfold State.release
  dsimp only
  split
  · exact settled.reply ..
  · exact settled

theorem execTeardownComplete_torn {c : Fin 262144} (state : (s.ctx c.val).state = .teardown) :
    exec (.teardownComplete c) s = .next ((s.recap (fun s => s.release c.val)).answerSiding) :=
  congrArg Host.Outcome.next (if_pos state)

theorem State.release_siding_frees (s : State) (c : Nat) :
    Frees (∀ x ∈ (s.quarantined c).running, x.opcode ≠ 0x0700) (s.quarantined c)
      (s.recap (fun s => s.release c)).answerSiding := by
  obtain ⟨n, e⟩ := State.recap_eq (fun s => s.release c) s
  rw [e]
  exact ((s.release_frees c).recapped n).answerSiding

end

/-- Settles O11: what follows the entry's own end (resettling of reserved blocks, the waiting requests) keeps it. -/
theorem teardownAndQuarantine : Obligations.TeardownAndQuarantine := by
  intro s c
  refine ⟨fun state tokens rings => ?torn, fun state form => ?expiry⟩
  case torn =>
    have vacated := s.vacated_only c.val
    have emptied (P : Prop) := s.tornDown_frees c.val (P := P)
    have after := s.release_siding_frees c.val
    refine ⟨_, execTeardownComplete_torn state, ?_, fun i owned => ?_, fun q bound => ?_, fun none => ?_, fun p hp i hi whole => ?_⟩
    · unfold State.ctx
      rw [after.ctxs]
      exact State.ctx_modCtx_ne _ _ _ fun e => by cases congrArg Context.state e
    · unfold State.token
      rw [after.tokens, show (s.quarantined c.val).tokens = (s.tornDown c.val).tokens from rfl, (emptied True).tokens, vacated]
      exact State.freeTokensOf_token tokens owned
    · unfold State.ring
      rw [after.rings, show (s.quarantined c.val).rings = (s.tornDown c.val).rings from rfl, (emptied True).rings]
      exact State.vacated_ring rings bound
    · refine (after.bytes fun x there => none x ?_).trans (((emptied True).bytes trivial).trans (by rw [vacated]))
      have before := (emptied True).running there
      rw [vacated] at before
      exact before
    · refine after.zeroing (List.mem_append_right _ (List.mem_filter.mpr ⟨List.mem_flatMap.mpr ⟨p, hp, ?_⟩, ?_⟩))
      · exact List.mem_map.mpr ⟨i, List.mem_range.mpr hi, rfl⟩
      · rw [(emptied True).retired, vacated]
        simpa using whole
  case expiry =>
    refine ⟨_, congrArg Host.Outcome.next (if_pos state), rfl, ?_, fun n other => ?_⟩
    · exact Table.get_mod_same Context.reset s.ctxs c.val (fun x => { Context.reset with gen := x.gen }) form
    · exact State.ctx_modCtx_other _ _ other

end Sys2Proof.Machine
end

section
/-! AUTH_CHALLENGE, MEASUREMENT_GET, ATTEST_QUOTE and its budgets, PUBKEY_GET and DEBUG_LOCK: settles O48 (R363, R548, R552 to
R554, R556, R557, R559, R568). -/

namespace Sys2Proof.Machine

theorem filter_erase_first {α : Type} [DecidableEq α] (p : α → Bool) {x : α} {rest : List α} : ∀ {l : List α},
    l.filter p = x :: rest → (l.erase x).filter p = rest ∧ (l.erase x).filter (fun a => !p a) = l.filter (fun a => !p a) := by
  intro l
  induction l with
  | nil => exact fun h => by cases h
  | cons a l ih =>
    intro first
    by_cases mine : p a = true
    · rw [List.filter_cons_of_pos mine] at first
      obtain ⟨rfl, rest⟩ := List.cons.inj first
      rw [List.erase_cons_head]
      exact ⟨rest, by simp [mine]⟩
    · rw [List.filter_cons_of_neg mine] at first
      obtain ⟨same, others⟩ := ih first
      have apart : a ≠ x := by
        rintro rfl
        have there := (List.mem_filter.mp (first ▸ List.mem_cons_self : a ∈ l.filter p)).2
        exact mine there
      rw [List.erase_cons_tail (by simpa using apart), List.filter_cons_of_neg mine, List.filter_cons_of_pos (by simpa using mine),
        List.filter_cons_of_pos (by simpa using mine), others]
      exact ⟨same, rfl⟩

/-- The live nonces after the oldest of a channel that has four gave way (R559). -/
def noncesKept (ch : Chan) (nonces : List Nonce) : List Nonce :=
  match nonces.filter (fun x => x.chan = ch) with
  | x :: _ => if 4 ≤ (nonces.filter (fun x => x.chan = ch)).length then nonces.erase x else nonces
  | [] => nonces

theorem noncesKept_filter (ch : Chan) (nonces : List Nonce) :
    let mine := nonces.filter (fun x => x.chan = ch)
    (noncesKept ch nonces).filter (fun x => x.chan = ch) = (if 4 ≤ mine.length then mine.tail else mine) ∧
      (noncesKept ch nonces).filter (fun x => x.chan ≠ ch) = nonces.filter (fun x => x.chan ≠ ch) := by
  unfold noncesKept
  dsimp only
  split
  · rename_i x rest first
    split
    · have dropped := filter_erase_first (fun n : Nonce => decide (n.chan = ch)) first
      rw [first]
      exact ⟨dropped.1, by simpa using dropped.2⟩
    · exact ⟨rfl, rfl⟩
  · rename_i none
    rw [none]
    exact ⟨rfl, rfl⟩

section
variable {s : State} {ch : Chan} {r : Request} {rest : List Request}

theorem State.started_fresh (s : State) (ch : Chan) (r : Request) (rest : List Request) :
    (s.started ch r rest).fresh = s.fresh := by cases ch <;> rfl

theorem State.started_start (s : State) (ch : Chan) (r : Request) (rest : List Request) :
    (s.started ch r rest).start = s.start := by cases ch <;> rfl

theorem State.started_mram (s : State) (ch : Chan) (r : Request) (rest : List Request) :
    (s.started ch r rest).mram = s.mram := by cases ch <;> rfl

/-- R363, R559. -/
theorem execAuthChallenge_asked (asked : Asked s ch 0x0600 r rest) (shaped : Shaped r 0 []) :
    let n : Nonce := { chan := ch, value := Config.random s.fresh, issued := s.start.us }
    exec (.authChallenge ch) s = .next (({ s.started ch r rest with
      sec.nonces := noncesKept ch s.sec.nonces ++ [n], fresh := s.fresh + 1 }).ok r (leBytes 32 n.value.toNat ++ leBytes 4 60)) := by
  show Host.Outcome.next (s.onRequest ch _ _ _) = _
  rw [asked.turnRuns rfl (fun _ => rfl) rfl rfl shaped.lenOk shaped.2 (by simp)]
  dsimp only
  rw [State.started_fresh, State.started_start, State.started_sec]
  simp only [State.take]
  rfl

/-- R363, R554. -/
theorem execMeasurementGet_asked (asked : Asked s ch 0x0601 r rest) (shaped : Shaped r 4 [(1, 3)]) (known : r.get 0 1 ≤ 15) :
    exec (.measurementGet ch) s = .next ((s.started ch r rest).ok r
      (leBytes 1 (r.get 0 1) ++ leBytes 3 0 ++ slice (s.measure (r.get 0 1)) 0 64)) := by
  show Host.Outcome.next (s.onRequest ch _ _ _) = _
  rw [asked.turnRuns rfl (fun _ => rfl) rfl rfl shaped.lenOk shaped.2 (by simp)]
  dsimp only
  rw [if_neg (by omega)]
  unfold State.measure
  rw [State.started_sec]

/-- R550, R552, R556, R557, R570: the checks of ATTEST_QUOTE, with its reserved mask bits 0. -/
theorem execAttestQuote_asked (asked : Asked s ch 0x0602 r rest) (shaped : Shaped r 36 []) (power : s.power.state ≠ .holdUp)
    (blank : s.fuses.life ≠ .blank) (destroyed : s.fuses.life ≠ .destroyed) (plain : field (r.get 32 4) 30 16 = 0)
    (how : QuoteEnd) :
    exec (.attestQuote ch how) s = .next (
      if bit (r.get 32 4) 31 = true ∧ s.sec.idSealed = true then (s.started ch r rest).reply r stDenied 0 []
      else if leafCount ≤ (if bit (r.get 32 4) 31 then s.sec.identityNext else s.sec.attestNext) then
        (s.started ch r rest).reply r stState 0 []
      else if (if bit (r.get 32 4) 31 then s.sec.identityBudget else s.sec.attestBudget) = 0 then
        (s.started ch r rest).reply r stBusy 0x0602 []
      else (s.started ch r rest).quote r (bit (r.get 32 4) 31) how) := by
  have letter : letterAllows s.fuses.life s.sec.level (s.power.state = .standby) .q = true := by
    cases life : s.fuses.life <;> simp_all [letterAllows]
  have mid : field (r.get 32 4) 23 16 = 0 := by unfold field at *; omega
  have high : field (r.get 32 4) 30 24 = 0 := by unfold field at *; omega
  show Host.Outcome.next (s.onRequest ch _ _ _) = _
  rw [asked.turnRuns rfl (fun h => absurd h power) letter rfl shaped.lenOk shaped.2 (by simp)]
  dsimp only
  rw [if_neg (not_not.mpr mid), if_neg (not_not.mpr high), State.started_sec]

/-- R552: the attestation key's next leaf, a reservation written where none is left. -/
theorem State.takeLeaf_attest (s : State) : s.takeLeaf false true = (some s.sec.attestNext, { s with
    mram.attestTop := if s.sec.attestNext = s.sec.attestTop then
      s.mram.attestTop.store (min (s.sec.attestTop + 256) leafCount) true else s.mram.attestTop
    sec.attestNext := s.sec.attestNext + 1
    sec.attestTop := if s.sec.attestNext = s.sec.attestTop then min (s.sec.attestTop + 256) leafCount else s.sec.attestTop }) := by
  unfold State.takeLeaf
  by_cases none : s.sec.attestNext = s.sec.attestTop
  · simp [none]
  · simp [none]

/-- R552: the identity key's. -/
theorem State.takeLeaf_identity (s : State) : s.takeLeaf true true = (some s.sec.identityNext, { s with
    mram.identityTop := if s.sec.identityNext = s.sec.identityTop then
      s.mram.identityTop.store (min (s.sec.identityTop + 256) leafCount) true else s.mram.identityTop
    sec.identityNext := s.sec.identityNext + 1
    sec.identityTop :=
      if s.sec.identityNext = s.sec.identityTop then min (s.sec.identityTop + 256) leafCount else s.sec.identityTop }) := by
  unfold State.takeLeaf
  by_cases none : s.sec.identityNext = s.sec.identityTop
  · simp [none]
  · simp [none]

/-- A leaf and a unit of the budget of the attestation key taken (R552, R556). -/
def State.attestTaken (s : State) : State :=
  { s with
    mram.attestTop := if s.sec.attestNext = s.sec.attestTop then
      s.mram.attestTop.store (min (s.sec.attestTop + 256) leafCount) true else s.mram.attestTop
    sec.attestBudget := s.sec.attestBudget - 1
    sec.attestNext := s.sec.attestNext + 1
    sec.attestTop := if s.sec.attestNext = s.sec.attestTop then min (s.sec.attestTop + 256) leafCount else s.sec.attestTop }

/-- A leaf and a unit of the budget of the identity key taken (R552, R557). -/
def State.identityTaken (s : State) : State :=
  { s with
    mram.identityTop := if s.sec.identityNext = s.sec.identityTop then
      s.mram.identityTop.store (min (s.sec.identityTop + 256) leafCount) true else s.mram.identityTop
    sec.identityBudget := s.sec.identityBudget - 1
    sec.identityNext := s.sec.identityNext + 1
    sec.identityTop :=
      if s.sec.identityNext = s.sec.identityTop then min (s.sec.identityTop + 256) leafCount else s.sec.identityTop }

/-- The reservation of the attestation key that could not be written (R552). -/
def State.attestUnwritten (s : State) : State :=
  { s with
    mram.attestTop := s.mram.attestTop.store (min (s.sec.attestTop + 256) leafCount) false
    sec.attestBudget := s.sec.attestBudget - 1 }

/-- R552: where the reservation cannot be written, no leaf is taken. -/
theorem State.takeLeaf_fails {s : State} (full : s.sec.attestNext = s.sec.attestTop) : s.takeLeaf false false =
    (none, { s with mram.attestTop := s.mram.attestTop.store (min (s.sec.attestTop + 256) leafCount) false }) := by
  unfold State.takeLeaf
  simp [full]

/-- What a quote reports: leaf, mask, the challenge and the measurements that the mask names (R553). -/
def State.quoteBody (s : State) (r : Request) (leaf : Nat) : List Byte :=
  leBytes 4 leaf ++ leBytes 4 (r.get 32 4) ++ slice r.payload 0 32
    ++ (((List.range 16).filter (fun i => bit (r.get 32 4) i)).map s.measure).flatten

/-- The body of a quote and its signature over label, serial number, session and body (R553, R555). -/
def State.quoted (s : State) (r : Request) (key : KeyPair) (leaf : Nat) : List Byte :=
  s.quoteBody r leaf ++ key.sign (asciiPad "SUENE-QUOTE-V1" 16 ++ leBytes 16 s.fuses.serial.toNat
    ++ leBytes 4 s.book.session.toNat ++ s.quoteBody r leaf) leaf

/-- R553: a quote under the attestation key. -/
theorem State.quote_attest (s : State) (r : Request) {key : KeyPair} (held : s.sec.attestRam = some key) :
    s.quote r false .signed = s.attestTaken.ok r (s.quoted r key s.sec.attestNext) := by
  have taken := State.takeLeaf_attest { s with sec.attestBudget := s.sec.attestBudget - 1 }
  unfold State.quote
  simp only [Bool.false_eq_true, if_false, ne_eq, reduceCtorEq, not_false_eq_true, decide_true, taken]
  simp only [held, Option.getD_some, State.attestTaken]
  rfl

/-- R553: a quote under the identity key. -/
theorem State.quote_identity (s : State) (r : Request) {key : KeyPair} (held : s.sec.identityRam = some key) :
    s.quote r true .signed = s.identityTaken.ok r (s.quoted r key s.sec.identityNext) := by
  have taken := State.takeLeaf_identity { s with sec.identityBudget := s.sec.identityBudget - 1 }
  unfold State.quote
  simp only [if_true, ne_eq, reduceCtorEq, not_false_eq_true, decide_true, taken]
  simp only [if_false, held, Option.getD_some, State.identityTaken]
  rfl

theorem State.started_measure (s : State) (ch : Chan) (r : Request) (rest : List Request) :
    (s.started ch r rest).measure = s.measure := by
  funext i
  unfold State.measure
  rw [State.started_sec]

theorem State.started_quoted (s : State) (ch : Chan) (r q : Request) (rest : List Request) (key : KeyPair) (leaf : Nat) :
    (s.started ch r rest).quoted q key leaf = s.quoted q key leaf := by
  unfold State.quoted State.quoteBody
  rw [State.started_measure, State.started_fuses, State.started_session]

/-- R363, R548. -/
theorem execPubkeyGet_asked (asked : Asked s ch 0x0603 r rest) (shaped : Shaped r 4 [(1, 3)]) (known : r.get 0 1 ≤ 3) :
    exec (.pubkeyGet ch) s = .next ((s.started ch r rest).ok r
      (leBytes 1 (r.get 0 1) ++ leBytes 3 0
        ++ leBytes 4 (if r.get 0 1 = 0 then leafCount - s.sec.identityNext
            else if r.get 0 1 = 1 then leafCount - s.sec.attestNext else 0)
        ++ slice ((if r.get 0 1 = 0 then s.sec.identityRam.map KeyPair.publicKey
          else if r.get 0 1 = 1 then s.sec.attestRam.map KeyPair.publicKey
          else if r.get 0 1 = 2 then s.ownerKey
          else some (imgSigner (norRead s.sec.nor 0 128))).getD (keyBytes Config.noKey)) 0 68)) := by
  have owner : (s.started ch r rest).ownerKey = s.ownerKey := by
    unfold State.ownerKey
    rw [State.started_mram, State.started_fuses]
  show Host.Outcome.next (s.onRequest ch _ _ _) = _
  rw [asked.turnRuns rfl (fun _ => rfl) rfl rfl shaped.lenOk shaped.2 (by simp)]
  dsimp only
  rw [if_neg (by omega), State.started_sec, owner]

theorem slice_whole {bs : List Byte} {n : Nat} (long : bs.length = n) : slice bs 0 n = bs := by
  simp [slice, ← long]

/-- R568. -/
theorem execDebugLock_asked (asked : Asked s ch 0x0701 r rest) (shaped : Shaped r 0 []) :
    exec (.debugLock ch) s = .next (((s.started ch r rest).setLevel 0 none).ok r []) := by
  show Host.Outcome.next (s.onRequest ch _ _ _) = _
  rw [asked.turnRuns rfl (fun _ => rfl) rfl rfl shaped.lenOk shaped.2 (by simp)]

end

/-! ### The debug level taken back -/

theorem State.setLevel_level (s : State) (level : Nat) (key : Option Nat) : (s.setLevel level key).sec.level = level := by
  unfold State.setLevel
  split
  · assumption
  · dsimp only
    split
    · rfl
    · rfl

theorem State.setLevel_keeps (s : State) (level : Nat) (key : Option Nat) :
    (s.setLevel level key).mem = s.mem ∧ (s.setLevel level key).ctxs = s.ctxs := by
  unfold State.setLevel
  split
  · exact ⟨rfl, rfl⟩
  · dsimp only
    split
    · exact ⟨rfl, rfl⟩
    · exact ⟨rfl, rfl⟩

/-- R568: the level taken back ends DBG_TRIG, boundary scan, core halts and what was injected under the level. -/
theorem State.setLevel_closed {s : State} (open_ : s.sec.level ≠ 0) (key : Option Nat) :
    let t := s.setLevel 0 key
    t.start.dbgTrig = false ∧ t.sec.jtag = .bypass ∧ (∀ c ∈ t.cores, c.halted = false) ∧
      ∀ p ∈ t.rails.ports, ∀ i, p.inject = some i → i.byLevel = false := by
  unfold State.setLevel
  rw [if_neg open_]
  refine ⟨rfl, rfl, fun c there => ?_, fun p there i injected => ?_⟩
  · obtain ⟨d, -, rfl⟩ := List.mem_map.mp there
    rfl
  · obtain ⟨q, -, rfl⟩ := List.mem_map.mp there
    have allowed := (Option.filter_eq_some_iff.mp injected).2
    by_contra level
    simp [State.mayInject, level] at allowed

theorem State.quote_abandoned (s : State) (r : Request) :
    s.quote r false .abandoned = s.attestTaken := by
  have taken := State.takeLeaf_attest { s with sec.attestBudget := s.sec.attestBudget - 1 }
  unfold State.quote
  simp only [Bool.false_eq_true, if_false, ne_eq, reduceCtorEq, not_false_eq_true, decide_true, taken, if_true]
  rfl

theorem State.quote_fails {s : State} (full : s.sec.attestNext = s.sec.attestTop) (r : Request) :
    s.quote r false .recordFails = s.attestUnwritten.reply r stDevice 0 [] := by
  have taken := State.takeLeaf_fails (s := { s with sec.attestBudget := s.sec.attestBudget - 1 }) full
  unfold State.quote
  simp only [Bool.false_eq_true, if_false, ne_eq, not_true, decide_false, taken]
  rfl

theorem State.reply_sec (s : State) (r : Request) (code detail : Nat) (payload : List Byte) :
    (s.reply r code detail payload).sec = s.sec := by
  rw [show State.reply _ _ _ _ _ = _ from State.reply_only ..]

theorem State.ok_sec (s : State) (r : Request) (payload : List Byte) : (s.ok r payload).sec = s.sec := by
  rw [show State.ok _ _ _ = _ from State.ok_only ..]

theorem State.ok_mram (s : State) (r : Request) (payload : List Byte) : (s.ok r payload).mram = s.mram := by
  rw [show State.ok _ _ _ = _ from State.ok_only ..]

/-- Settles O48. -/
theorem securityQueries : Obligations.SecurityQueries := by
  intro s r rest ch
  refine ⟨fun asked shaped => ?challenge, fun asked shaped known => ?measurement,
    fun asked shaped power blank destroyed plain => ?quote, rfl, rfl, rfl, rfl, fun key asked shaped long => ?pubkey,
    fun asked shaped => ?lock⟩
  case challenge =>
    obtain ⟨mine, others⟩ := noncesKept_filter ch s.sec.nonces
    refine ⟨_, execAuthChallenge_asked asked shaped, State.ok_answered .., ?_⟩
    rw [show State.ok _ _ _ = _ from State.ok_only ..]
    refine ⟨rfl, ?_, ?_⟩
    · simpa [List.filter_append] using others
    · simpa [List.filter_append] using mine
  case measurement =>
    exact ⟨_, execMeasurementGet_asked asked shaped known, s.started_ok_only .., State.ok_answered ..⟩
  case quote =>
    have ran := execAttestQuote_asked asked shaped power blank destroyed plain
    have leaves : leafCount = 2 ^ 20 := rfl
    have sec := s.started_sec ch r rest
    refine ⟨fun key attest held budget room => ⟨?signed, ?abandoned, fun none => ?fails⟩,
      fun key identity held open_ budget room => ?identity, fun identity sealed => ?sealed, fun how none => ?busy⟩
    case signed =>
      have quoted : exec (.attestQuote ch .signed) s =
          .next ((s.started ch r rest).attestTaken.ok r (s.quoted r key s.sec.attestNext)) := by
        rw [ran, attest, if_neg (by simp), if_neg (by simpa [leaves] using room), if_neg (by simpa using by omega),
          State.quote_attest _ _ (by rwa [sec]), State.started_quoted, sec]
      refine ⟨_, quoted, ?_, ?_, State.ok_answered .., fun none => ?_, fun some => ?_⟩
      · rw [State.ok_sec, ← sec]; rfl
      · rw [State.ok_sec, ← sec]; rfl
      · rw [State.ok_sec, State.ok_mram]
        simp only [State.attestTaken, sec, if_pos none, TwoCopy.read_store, leaves, and_self]
      · rw [State.ok_sec, State.ok_mram]
        simp only [State.attestTaken, sec, if_neg some, and_true]
        rw [← State.started_mram s ch r rest]
    case abandoned =>
      have taken : exec (.attestQuote ch .abandoned) s = .next (s.started ch r rest).attestTaken := by
        rw [ran, attest, if_neg (by simp), if_neg (by simpa [leaves] using room), if_neg (by simpa using by omega),
          State.quote_abandoned]
      refine ⟨_, taken, ?_, ?_, ?_, ?_⟩
      · rw [← sec]; rfl
      · rw [← sec]; rfl
      · show ((s.started ch r rest).chan ch).queue = _
        rw [State.started_chan]
      · rw [← sec]; rfl
    case fails =>
      have failed : exec (.attestQuote ch .recordFails) s = .next ((s.started ch r rest).attestUnwritten.reply r stDevice 0 []) := by
        rw [ran, attest, if_neg (by simp), if_neg (by simpa [leaves] using room), if_neg (by simpa using by omega),
          State.quote_fails (by rwa [sec])]
      refine ⟨_, failed, ?_, ?_, State.reply_answered_nil ..⟩
      · rw [State.reply_sec, ← sec]; rfl
      · rw [State.reply_sec, ← sec]; rfl
    case identity =>
      have quoted : exec (.attestQuote ch .signed) s =
          .next ((s.started ch r rest).identityTaken.ok r (s.quoted r key s.sec.identityNext)) := by
        rw [ran, identity, if_neg (by simp [open_]), if_neg (by simpa [leaves] using room), if_neg (by simpa using by omega),
          State.quote_identity _ _ (by rwa [sec]), State.started_quoted, sec]
      refine ⟨_, quoted, ?_, ?_, State.ok_answered ..⟩
      · rw [State.ok_sec, ← sec]; rfl
      · rw [State.ok_sec, ← sec]; rfl
    case sealed =>
      exact ⟨_, (ran .signed).trans (by rw [if_pos ⟨identity, sealed⟩]), s.started_reply_only .., State.reply_answered_nil ..⟩
    case busy =>
      refine ⟨_, (ran how).trans ?_, s.started_reply_only ch r rest .., State.reply_answered_nil ..⟩
      rcases none with ⟨attest, spent, room⟩ | ⟨identity, open_, spent, room⟩
      · rw [attest, if_neg (by simp), if_neg (by simpa [leaves] using room), if_pos (by simpa using spent)]
      · rw [identity, if_neg (by simp [open_]), if_neg (by simpa [leaves] using room), if_pos (by simpa using spent)]
  case pubkey =>
    have ran := fun known => execPubkeyGet_asked asked shaped known
    rw [show leafCount = 2 ^ 20 from rfl] at ran
    refine ⟨fun pair same => ⟨fun zero held => ?_, fun one held => ?_⟩, fun two held => ?_, fun three held => ?_⟩
    · replace ran := ran (by omega)
      simp only [zero, held, if_true, Option.map_some, Option.getD_some, same, slice_whole long,
        show leBytes 1 0 ++ leBytes 3 0 = leBytes 4 0 from rfl] at ran
      exact ⟨_, ran, s.started_ok_only .., State.ok_answered ..⟩
    · replace ran := ran (by omega)
      simp only [one, held, if_true, if_false, one_ne_zero, Option.map_some, Option.getD_some, same, slice_whole long,
        show leBytes 1 1 ++ leBytes 3 0 = leBytes 4 1 from rfl] at ran
      exact ⟨_, ran, s.started_ok_only .., State.ok_answered ..⟩
    · replace ran := ran (by omega)
      simp only [two, held, if_true, if_false, OfNat.ofNat_ne_zero, OfNat.ofNat_ne_one, Option.getD_some, slice_whole long,
        show leBytes 1 2 ++ leBytes 3 0 = leBytes 4 2 from rfl] at ran
      exact ⟨_, ran, s.started_ok_only .., State.ok_answered ..⟩
    · replace ran := ran (by omega)
      simp only [three, held, if_false, OfNat.ofNat_ne_zero, OfNat.ofNat_ne_one, Nat.reduceEqDiff, Option.getD_some, slice_whole long,
        show leBytes 1 3 ++ leBytes 3 0 = leBytes 4 3 from rfl] at ran
      exact ⟨_, ran, s.started_ok_only .., State.ok_answered ..⟩
  case lock =>
    obtain ⟨mem, ctxs⟩ := State.setLevel_keeps (s.started ch r rest) 0 none
    refine ⟨_, execDebugLock_asked asked shaped, ?_, State.ok_answered .., fun open_ => ?_, ?_⟩
    · exact (congrArg Sec.level (State.ok_sec ..)).trans (State.setLevel_level ..)
    · rw [show State.ok _ _ _ = _ from State.ok_only ..]
      exact State.setLevel_closed (by rwa [State.started_sec]) none
    · rw [show State.ok _ _ _ = _ from State.ok_only ..]
      exact ⟨mem.trans (State.started_mem ..), ctxs.trans (State.started_ctxs ..)⟩

end Sys2Proof.Machine
end

section
/-! SUPPORT. The staging area of a firmware update: where its bytes stand, and what a write leaves (R222, R224, R225). -/

namespace Sys2Proof.Machine

/-- Within a block of the staging area, byte i stands i after the first. -/
theorem State.stageKey_add (s : State) {a i : Nat} (block : a % 65536 + i < 65536) :
    s.stageKey (a + i) = (s.stageKey a).map (· + i) := by
  have part : (a + i) / 3145728 = a / 3145728 := by omega
  have home : (a + i) % 3145728 / 65536 = a % 3145728 / 65536 := by omega
  have offset : (a + i) % 3145728 % 65536 = a % 3145728 % 65536 + i := by omega
  rw [State.stageKey, State.stageKey, part, home, offset, Option.map_map]
  exact congrArg (Option.map · _) (funext fun b => (Nat.add_assoc ..).symm)

theorem State.stageKey_mod {s : State} {a k : Nat} (home : s.stageKey a = some k) : k % 65536 = a % 65536 := by
  unfold State.stageKey at home
  rw [Option.map_eq_some_iff] at home
  obtain ⟨b, -, rfl⟩ := home
  omega

/-- Bytes of one block written to the staging area of an undamaged Yard. -/
def State.stagePiece (s : State) (a : Nat) (bs : List Byte) : State :=
  match s.stageKey a with
  | some k => { s with yard.bytes := s.yard.bytes.write k bs }
  | none => s

section
variable {s : State}

theorem State.stagePiece_only (s : State) (a : Nat) (bs : List Byte) :
    s.stagePiece a bs = { s with yard.bytes := (s.stagePiece a bs).yard.bytes } := by
  unfold State.stagePiece
  split
  · rfl
  · rfl

theorem State.stagePiece_wf (form : s.yard.bytes.wf = true) (a : Nat) (bs : List Byte) :
    (s.stagePiece a bs).yard.bytes.wf = true := by
  unfold State.stagePiece
  split
  · exact Bytes.wf_write _ _ _ form
  · exact form

theorem State.stagePiece_inside (form : s.yard.bytes.wf = true) {a i k : Nat} {bs : List Byte} (home : s.stageKey (a + i) = some k)
    (inside : i < bs.length) (block : a % 65536 + i < 65536) : (s.stagePiece a bs).yard.bytes.get k = nth 0 bs i := by
  rw [State.stageKey_add _ block, Option.map_eq_some_iff] at home
  obtain ⟨b, first, rfl⟩ := home
  unfold State.stagePiece
  rw [first]
  dsimp only
  rw [Bytes.get_write form, if_pos (by omega), show b + i - b = i by omega]

theorem State.stagePiece_outside (form : s.yard.bytes.wf = true) {a k : Nat} {bs : List Byte}
    (apart : k % 65536 < a % 65536 ∨ a % 65536 + bs.length ≤ k % 65536) (fits : a % 65536 + bs.length ≤ 65536) :
    (s.stagePiece a bs).yard.bytes.get k = s.yard.bytes.get k := by
  unfold State.stagePiece
  split
  · rename_i b home
    have same := State.stageKey_mod home
    dsimp only
    rw [Bytes.get_write form, if_neg (by omega)]
  · rfl

/-- Fewer bytes than a block holds are written in at most two pieces. -/
theorem State.stageWrite_pieces (sound : s.yard.damaged = []) {off : Nat} {bs : List Byte} (some : bs ≠ [])
    (short : bs.length < 65536) : s.stageWrite off bs =
      (let t := s.stagePiece off (bs.take (65536 - off % 65536))
       if bs.drop (65536 - off % 65536) = [] then t
       else t.stagePiece (off + (65536 - off % 65536)) ((bs.drop (65536 - off % 65536)).take
        (65536 - (off + (65536 - off % 65536)) % 65536))) := by
  have piece (t : State) (h : t.yard.damaged = []) (a : Nat) (b : List Byte) :
      (match t.stageKey a with | Option.some k => (t.yardStore k b).2 | none => t) = t.stagePiece a b := by
    unfold State.stagePiece
    split
    · rw [State.yardStore_clean h]
    · rfl
  have pieces : blockPieces (bs.length / 65536 + 2) off bs =
      (off, bs.take (65536 - off % 65536)) :: blockPieces 1 (off + (65536 - off % 65536)) (bs.drop (65536 - off % 65536)) := by
    rw [show bs.length / 65536 + 2 = 1 + 1 by omega]
    cases bs with
    | nil => exact absurd rfl some
    | cons => rfl
  unfold State.stageWrite
  rw [pieces, List.foldl_cons]
  dsimp only
  refine (congrArg (fun u => List.foldl _ u _) (piece s sound _ _)).trans ?_
  have still : (s.stagePiece off (bs.take (65536 - off % 65536))).yard.damaged = [] := by
    rw [State.stagePiece_only]
    exact sound
  split
  · rename_i none
    rw [none]
    rfl
  · rename_i more
    cases rest : bs.drop (65536 - off % 65536) with
    | nil => exact absurd rest more
    | cons b t => exact piece _ still _ _

/-- What a write of fewer bytes than a block leaves: each byte at its place, and nothing else but the Yard's bytes. -/
theorem State.stageWrite_sound (sound : s.yard.damaged = []) (form : s.yard.bytes.wf = true) {off : Nat} {bs : List Byte}
    (some : bs ≠ []) (short : bs.length < 65536) :
    s.stageWrite off bs = { s with yard.bytes := (s.stageWrite off bs).yard.bytes } ∧
      ∀ i < bs.length, ∀ k, s.stageKey (off + i) = .some k → (s.stageWrite off bs).yard.bytes.get k = nth 0 bs i := by
  have room : (65536 - off % 65536) + off % 65536 = 65536 := by omega
  generalize cut : 65536 - off % 65536 = n at room
  have pieces := State.stageWrite_pieces sound some (off := off) short
  have only := s.stagePiece_only off (bs.take n)
  have first (i k : Nat) (inside : i < bs.length) (early : i < n) (home : s.stageKey (off + i) = .some k) :
      (s.stagePiece off (bs.take n)).yard.bytes.get k = nth 0 bs i := by
    rw [State.stagePiece_inside form home (by rw [List.length_take]; omega) (by omega)]
    simp [nth, early]
  rw [cut] at pieces
  rw [pieces]
  dsimp only
  split
  · rename_i none
    have long : bs.length ≤ n := by simpa using none
    exact ⟨only, fun i inside k home => first i k inside (by omega) home⟩
  · have whole : (bs.drop n).take (65536 - (off + n) % 65536) = bs.drop n := by
      rw [List.take_of_length_le]
      rw [List.length_drop]
      omega
    have later : (s.stagePiece off (bs.take n)).stageKey = s.stageKey := by rw [only]; rfl
    have formed := State.stagePiece_wf form off (bs.take n)
    rw [whole]
    refine ⟨?_, fun i inside k home => ?_⟩
    · rw [State.stagePiece_only, only]
    · by_cases early : i < n
      · rw [State.stagePiece_outside formed, first i k inside early home]
        · have place := State.stageKey_mod home
          right
          rw [List.length_drop]
          omega
        · rw [List.length_drop]
          omega
      · rw [State.stagePiece_inside (i := i - n) formed (by rw [later, show off + n + (i - n) = off + i by omega]; exact home)
          (by rw [List.length_drop]; omega) (by omega)]
        rw [nth, nth, List.getElem?_drop, show n + (i - n) = i by omega]

end

section
/-- A store in the Yard changes the Yard and the change count alone (R54, R225, R247). -/
structure Yards (old s : State) : Prop where
  kept : s = { old with yard := s.yard, cap.changeCount := s.cap.changeCount }

variable {old s : State}

theorem Yards.refl (s : State) : Yards s s := ⟨rfl⟩

theorem Yards.update {t : State} {yard n} (h : Yards old t) :
    Yards old { t with yard := yard, cap.changeCount := n } := by
  constructor
  rw [h.kept]

theorem Yards.foldl {α : Type} {f : State → α → State} {l : List α} (h : Yards old s)
    (keeps : ∀ t a, Yards old t → Yards old (f t a)) : Yards old (l.foldl f s) :=
  List.foldlRecOn l f (motive := Yards old) h (fun t k a _ => keeps t a k)

theorem Yards.ite {c : Prop} [Decidable c] {t : State} (h : Yards old s) (k : Yards old t) :
    Yards old (if c then s else t) := by
  split
  · exact h
  · exact k

theorem Yards.recap {f : State → State} (h : Yards old s) (keeps : ∀ t, Yards old t → Yards old (f t)) :
    Yards old (s.recap f) := by
  obtain ⟨n, recapped⟩ := State.recap_eq f s
  rw [recapped]
  exact (keeps s h).update

theorem Yards.moveReserved (h : Yards old s) (k : Nat) : Yards old (s.moveReserved k) := by
  unfold State.moveReserved
  split
  · exact h.update
  · exact h

theorem Yards.retireBlock (h : Yards old s) (k : Nat) : Yards old (s.retireBlock k) := by
  unfold State.retireBlock
  split
  · exact h
  · refine h.recap fun t1 k2 => ?_
    dsimp only
    split
    · exact k2.update.moveReserved ..
    · exact Yards.ite (k2.update.moveReserved ..) k2.update

theorem Yards.yardBad (h : Yards old s) (w : Nat) : Yards old (s.yardBad w) := by
  unfold State.yardBad
  exact h.update.retireBlock ..

theorem Yards.yardStore (h : Yards old s) (key : Nat) (bs : List Byte) : Yards old (s.yardStore key bs).2 := by
  unfold State.yardStore
  exact h.update.foldl (fun t a k => k.yardBad ..)

theorem Yards.stageWrite (h : Yards old s) (off : Nat) (bs : List Byte) : Yards old (s.stageWrite off bs) := by
  unfold State.stageWrite
  refine h.foldl fun t1 a2 k3 => ?_
  split
  · exact k3.yardStore ..
  · exact k3

end

end Sys2Proof.Machine
end

section
/-! The firmware update tickets: settles O50 (R224, R366, R367, R544, R561, R562). -/

namespace Sys2Proof.Machine

section
variable {s : State} {ch : Chan} {r : Request} {rest : List Request}

/-! ### What the start of a request leaves -/

theorem State.started_openUpdate (s : State) (ch : Chan) (r : Request) (rest : List Request) :
    (s.started ch r rest).openUpdate = s.openUpdate := by
  unfold State.openUpdate
  rw [State.started_sec]

theorem State.started_stagingBytes (s : State) (ch : Chan) (r : Request) (rest : List Request) :
    (s.started ch r rest).stagingBytes = s.stagingBytes := by
  obtain ⟨b, started⟩ := s.started_fields ch r rest
  rw [started]
  rfl

theorem State.started_stageRead (s : State) (ch : Chan) (r : Request) (rest : List Request) :
    (s.started ch r rest).stageRead = s.stageRead := by
  obtain ⟨b, started⟩ := s.started_fields ch r rest
  rw [started]
  rfl

theorem State.started_stage (s : State) (ch : Chan) (r : Request) (rest : List Request) :
    (s.started ch r rest).stage = s.stage := by
  unfold State.stage
  rw [State.started_openUpdate]

theorem State.started_hostUp (s : State) (ch : Chan) (r : Request) (rest : List Request) :
    (s.started ch r rest).hostUp = s.hostUp := by
  obtain ⟨b, started⟩ := s.started_fields ch r rest
  rw [started]
  rfl

/-! ### The commands -/

/-- The letter of the update tickets: outside Standby (R572). -/
theorem letterAllows_update {life : Life} {level : Nat} (awake : s.power.state ≠ .standby) :
    letterAllows life level (s.power.state = .standby) .u = true := by simpa [letterAllows] using awake

/-- R366. -/
theorem execFwUpdateBegin_asked (asked : Asked s ch 0x0800 r rest) (shaped : Shaped r 8 [(4, 4)])
    (power : s.power.state ≠ .holdUp) (awake : s.power.state ≠ .standby) (none : s.openUpdate = none)
    (fits : r.get 0 4 ≤ imageMax) : exec (.fwUpdateBegin ch) s = .next (
      if s.stagingBytes < r.get 0 4 then (s.started ch r rest).reply r stShort 0 (leBytes 4 (r.get 0 4 - s.stagingBytes))
      else { s.started ch r rest with sec.update := some { imageBytes := r.get 0 4, got := [], verified := false
                                                           committed := false, writing := false, discarded := false }
        }.ok r (leBytes 4 s.stagingBytes)) := by
  show Host.Outcome.next (s.onRequest ch _ _ _) = _
  rw [asked.turnRuns rfl (fun h => absurd h power) (letterAllows_update awake) rfl shaped.lenOk shaped.2 (by simp)]
  dsimp only
  rw [State.started_openUpdate, State.started_stagingBytes, if_neg (by simp [none]), if_neg (by omega)]

/-- R366: data from the ticket. -/
theorem execFwUpdateData_asked {u : Update} (asked : Asked s ch 0x0801 r rest) (power : s.power.state ≠ .holdUp)
    (awake : s.power.state ≠ .standby) (going : s.openUpdate = some u) (long : 9 ≤ r.payload.length)
    (short : r.payload.length ≤ 480) (plain : firstSet r.payload [(4, 4)] = none) (open_ : u.committed = false)
    (fits : r.get 0 4 + (r.payload.length - 8) ≤ u.imageBytes) (host : HostRead) :
    exec (.fwUpdateData ch host) s =
      .next ((s.started ch r rest).stageData r u (r.get 0 4) (r.payload.drop 8)) := by
  show Host.Outcome.next (s.onRequest ch _ _ _) = _
  rw [asked.turnRuns rfl (fun h => absurd h power) (letterAllows_update awake) rfl (by simp [long, short]) rfl (by simp)]
  simp only [asked.noHost, Bool.false_eq_true, false_and, if_false, plain, State.started_openUpdate, going, open_]
  rw [if_neg (by omega), if_neg (by omega)]

/-- A request that reads the host's buffer passes where its opcode may (R329). -/
theorem State.onRequest_host {p : Nat → Bool} {rule : Rule} {act : Request → State → State}
    (first : (s.chan .pcie).received = r :: rest) (chan : r.chan = .pcie) (firmware : s.book.fwState = 3)
    (mine : p r.opcode = true) (turn : s.mayStart r = true) (whole : r.broken = false) (noBlock : r.auth = false)
    (hosted : rule.hostOpen = true) (power : s.power.state ≠ .holdUp)
    (letter : letterAllows s.fuses.life s.sec.level (s.power.state = .standby) rule.letter = true)
    (unkeyed : rule.authNeed (s.started .pcie r rest) r = false) (long : rule.lenOk r.payload = true)
    (plain : firstSet r.payload rule.reserved = none) (noCtx : rule.ctx = false) :
    s.onRequest .pcie p rule act = act r (s.started .pcie r rest) := by
  have taken : s.takeReq .pcie p = some (r, s.started .pcie r rest) := by
    unfold State.takeReq
    simp only [first]
    rw [if_pos ⟨firmware, mine, turn⟩]
    rfl
  have body : r.body = r.payload := by simp [Request.body, noBlock]
  have passes : (s.started .pcie r rest).refusal r rule false = none := by
    unfold State.refusal
    rw [body]
    simp [whole, noBlock, hosted, chan, unkeyed, long, plain, noCtx, power, letter]
  unfold State.onRequest
  rw [taken]
  simp only [State.presentNonce_plain noBlock, passes]

/-- R329, R366: data from the host's buffer. -/
theorem execFwUpdateData_host {u : Update} {host : HostRead} (first : (s.chan .pcie).received = r :: rest)
    (chan : r.chan = .pcie) (opcode : r.opcode = 0x0801) (firmware : s.book.fwState = 3) (turn : s.mayStart r = true)
    (whole : r.broken = false) (noBlock : r.auth = false) (hosted : r.hostbuf = true) (long : r.payload.length = 16)
    (power : s.power.state ≠ .holdUp) (awake : s.power.state ≠ .standby) (going : s.openUpdate = some u)
    (open_ : u.committed = false) (some_ : 0 < r.get 4 4) (most : r.get 4 4 ≤ 1048576)
    (fits : r.get 0 4 + r.get 4 4 ≤ u.imageBytes) (up : s.hostUp = true) :
    exec (.fwUpdateData .pcie host) s = .next (match host with
      | .data bs => ((s.started .pcie r rest).emit (.hostRead (r.get 8 8) (r.get 4 4))).stageData r u (r.get 0 4)
          (slice bs 0 (r.get 4 4))
      | .error => ((s.started .pcie r rest).emit (.hostRead (r.get 8 8) (r.get 4 4))).reply r stDevice 0 []) := by
  show Host.Outcome.next (s.onRequest .pcie _ _ _) = _
  rw [State.onRequest_host first chan firmware (by simp [opIs, opcode]) turn whole noBlock rfl power
    (letterAllows_update awake) rfl (by simp [long]) rfl rfl]
  simp only [hosted, long, if_true, not_true_eq_false, and_false, ne_eq, if_false, State.started_openUpdate, going, open_,
    Bool.false_eq_true, State.started_hostUp, up]
  exact congrArg Host.Outcome.next ((if_neg (by omega)).trans ((if_neg (by omega)).trans (by cases host <;> rfl)))

/-- R544, R561. -/
theorem execFwUpdateVerify_asked {u : Update} (asked : Asked s ch 0x0802 r rest) (shaped : Shaped r 0 [])
    (power : s.power.state ≠ .holdUp) (awake : s.power.state ≠ .standby) (going : s.openUpdate = some u)
    (open_ : u.committed = false) (whole : u.imageBytes ≤ u.received) :
    exec (.fwUpdateVerify ch) s = .next (
      if ¬ s.fuses.imageSigned (s.stageRead u.imageBytes) then (s.started ch r rest).reply r stAuth 0 []
      else if imgSvn (s.stageRead u.imageBytes) < s.fuses.svn then (s.started ch r rest).reply r stDenied 0 []
      else { s.started ch r rest with sec.update := some { u with verified := true } }.ok r
        (leBytes 4 (imgVersion (s.stageRead u.imageBytes)) ++ leBytes 4 0 ++ imgMeasure (s.stageRead u.imageBytes))) := by
  show Host.Outcome.next (s.onRequest ch _ _ _) = _
  rw [asked.turnRuns rfl (fun h => absurd h power) (letterAllows_update awake) rfl shaped.lenOk shaped.2 (by simp)]
  simp only [State.started_openUpdate, going, open_, State.started_stageRead, State.started_fuses]
  rw [if_neg (by simp; omega)]

/-- R367, R561: the commit of a verified update. -/
theorem execFwUpdateCommit_asked {u : Update} (asked : Asked s ch 0x0803 r rest) (shaped : Shaped r 0 [])
    (power : s.power.state ≠ .holdUp) (awake : s.power.state ≠ .standby) (going : s.openUpdate = some u)
    (verified : u.verified = true) (open_ : u.committed = false) (none : s.commitRunning = none) (how : CommitEnd) :
    exec (.fwUpdateCommit ch how) s = .next ((s.started ch r rest).writeNor r u how) := by
  show execFwUpdateCommit ch how s = _
  unfold execFwUpdateCommit
  simp only [none]
  rw [asked.turnRuns rfl (fun h => absurd h power) (letterAllows_update awake) rfl shaped.lenOk shaped.2 (by simp)]
  simp only [State.started_openUpdate, going]
  rw [if_neg (by simp [verified, open_])]

/-- R367: the commit that went on. -/
theorem execFwUpdateCommit_running {u : Update} {q : Request} (running : s.commitRunning = some q)
    (going : s.openUpdate = some u) : exec (.fwUpdateCommit q.chan .matched) s = .next (s.writeNor q u .matched) := by
  show execFwUpdateCommit q.chan .matched s = _
  unfold execFwUpdateCommit
  simp only [running, going]
  simp

/-- R367. -/
theorem execFwUpdateAbort_asked {u : Update} (asked : Asked s ch 0x0804 r rest) (shaped : Shaped r 0 [])
    (power : s.power.state ≠ .holdUp) (awake : s.power.state ≠ .standby) (there : s.sec.update = some u) :
    exec (.fwUpdateAbort ch) s = .next (if u.writing then (s.started ch r rest).reply r stBusy 0x0803 []
      else { s.started ch r rest with sec.update := none }.ok r []) := by
  show Host.Outcome.next (s.onRequest ch _ _ _) = _
  rw [asked.turnRuns rfl (fun h => absurd h power) (letterAllows_update awake) rfl shaped.lenOk shaped.2 (by simp)]
  simp only [State.started_sec, there]

/-- R366. -/
theorem execFwUpdateStatus_asked (asked : Asked s ch 0x0805 r rest) (shaped : Shaped r 0 []) (power : s.power.state ≠ .holdUp)
    (awake : s.power.state ≠ .standby) :
    exec (.fwUpdateStatus ch) s = .next ((s.started ch r rest).ok r (leBytes 1 s.stage ++ leBytes 3 0 ++
      leBytes 4 ((s.openUpdate.map Update.received).getD 0) ++ leBytes 4 (if s.norValid then imgVersion s.norImage else 0))) := by
  have nor : (s.started ch r rest).norImage = s.norImage := by
    unfold State.norImage
    rw [State.started_sec]
  have valid : (s.started ch r rest).norValid = s.norValid := by
    unfold State.norValid
    rw [State.started_fuses, nor]
  show Host.Outcome.next (s.onRequest ch _ _ _) = _
  rw [asked.turnRuns rfl (fun h => absurd h power) (letterAllows_update awake) rfl shaped.lenOk shaped.2 (by simp)]
  simp only [State.started_openUpdate, State.started_stage, nor, valid]

/-- R367, R501. -/
theorem execFwActivate_asked (asked : Asked s ch 0x0806 r rest) (shaped : Shaped r 0 []) (power : s.power.state ≠ .holdUp)
    (awake : s.power.state ≠ .standby) (back : ReadBacks) :
    exec (.fwActivate ch back) s = .next (if s.stage ≠ 3 then (s.started ch r rest).reply r stState s.stage []
      else (((((s.started ch r rest).ok r []).flushOut .pcie).flushOut .mctp).shutEst true back).beginModuleReset 3 true) := by
  show Host.Outcome.next (s.onRequest ch _ _ _) = _
  rw [asked.turnRuns rfl (fun h => absurd h power) (letterAllows_update awake) rfl shaped.lenOk shaped.2 (by simp)]
  simp only [State.started_stage]

end

/-! ### The NOR -/

/-- A write to the NOR leaves what lies below it. -/
theorem norWrite_below (bs : List Byte) : ∀ (m : Bytes) {a k : Nat}, k < a →
    Table.get (0xFF : Byte) (norWrite m a bs) k = Table.get 0xFF m k := by
  induction bs with
  | nil => exact fun _ _ _ _ => rfl
  | cons b t ih =>
    intro m a k below
    refine (ih _ (by omega : k < a + 1)).trans ?_
    exact Table.get_put_other _ _ _ (by omega)

theorem norRead_erased {m : Bytes} (n : Nat) : ∀ a, (∀ k < a + n, Table.get (0xFF : Byte) m k = 0xFF) →
    norRead m a n = List.replicate n 0xFF := by
  induction n with
  | zero => exact fun _ _ => rfl
  | succ n ih =>
    intro a erased
    rw [norRead, erased a (by omega), ih (a + 1) fun k below => erased k (by omega), List.replicate_succ]

theorem State.spoilNor_nor (s : State) (n : Nat) :
    (s.spoilNor n).sec.nor = norWrite [] 128 (s.freeBytes (n - 128)) := by
  unfold State.spoilNor
  generalize n - 128 = k
  rfl

/-- R367: the header of a spoilt image is erased. -/
theorem State.spoilNor_header (s : State) (n : Nat) : norRead (s.spoilNor n).sec.nor 0 128 = List.replicate 128 0xFF := by
  rw [State.spoilNor_nor]
  exact norRead_erased 128 0 fun k below => norWrite_below _ [] (Nat.zero_add 128 ▸ below)

theorem State.chan_of_book {s t : State} (same : s.book = t.book) (ch : Chan) : s.chan ch = t.chan ch := by
  cases ch with
  | pcie => exact congrArg Book.pcie same
  | mctp => exact congrArg Book.mctp same

/-- R367: a commit that does not end with a match leaves the update's stage and a spoilt image (log entry 61). -/
theorem State.writeNor_spoils (s : State) (r : Request) (u : Update) :
    (∀ how, how ≠ CommitEnd.matched → norRead (s.writeNor r u how).sec.nor 0 128 = List.replicate 128 0xFF) ∧
      (s.writeNor r u .mismatch).sec.update = none ∧ (s.writeNor r u .abandoned).sec.update = none ∧
      (s.writeNor r u .goesOn).sec.update = some { u with writing := true } ∧
      (s.writeNor r u .goesOn).book = s.book := by
  have header := s.spoilNor_header u.imageBytes
  have book : (s.spoilNor u.imageBytes).book = s.book := by
    unfold State.spoilNor
    generalize u.imageBytes - 128 = k
    rfl
  unfold State.writeNor
  generalize s.spoilNor u.imageBytes = t at header book
  refine ⟨fun how other => ?_, by rw [State.reply_sec], by rw [State.reply_sec], rfl, book⟩
  cases how with
  | matched => exact absurd rfl other
  | mismatch => simpa only [State.reply_sec] using header
  | abandoned => simpa only [State.reply_sec] using header
  | goesOn => exact header

/-! ### The reset of FW_ACTIVATE -/

theorem State.raiseVector_sec (s : State) (v : Nat) : (s.raiseVector v).sec = s.sec := by
  unfold State.raiseVector State.msixNow
  dsimp only
  split
  · rfl
  · split
    · rfl
    · rfl

theorem State.putTicket_sec (s : State) (ch : Chan) (t : SentTicket) : (s.putTicket ch t).sec = s.sec := by
  unfold State.putTicket
  dsimp only
  split
  · rfl
  · split
    · rfl
    · rfl

theorem State.writeTicket_sec (s : State) (ch : Chan) : (s.writeTicket ch).sec = s.sec := by
  unfold State.writeTicket
  dsimp only
  split
  · rfl
  · split
    · rfl
    · split
      · rw [State.raiseVector_sec]
        exact (State.modChan_sec ..).trans (State.putTicket_sec ..)
      · exact (State.modChan_sec ..).trans (State.putTicket_sec ..)

theorem State.flushOut_sec (s : State) (ch : Chan) : (s.flushOut ch).sec = s.sec :=
  foldl_keeps State.sec (fun t (_ : OutTicket) => State.writeTicket_sec t ch) _ _

theorem State.shutEst_sec (s : State) (closed : Bool) (back : ReadBacks) : (s.shutEst closed back).sec = s.sec := by
  obtain ⟨_, _, _, e⟩ := s.shutEst_eq closed back
  rw [e]

theorem State.flush_sec (s : State) : s.flush.sec = s.sec := by
  unfold State.flush
  dsimp only
  split
  · rfl
  · split
    · rfl
    · rfl

/-- R501: a module reset begun stops the compute clock, takes the link away and names its cause. -/
theorem State.beginModuleReset_begun (s : State) (cause : Nat) :
    let t := s.beginModuleReset cause true
    t.start.phase = .resetting ∧ t.start.cause = cause ∧ t.book.fwState = 4 ∧ t.frozen = true ∧ t.sec.nor = s.sec.nor ∧
      t.pcie.linkUp = false :=
  ⟨rfl, rfl, rfl, Bool.or_true _, congrArg Sec.nor s.flush_sec, rfl⟩

/-- The stage of an update that is open (R366). -/
theorem State.stage_going {s : State} {u : Update} (going : s.openUpdate = some u) :
    s.stage = if u.committed then 3 else if u.verified then 2 else 1 := by
  unfold State.stage
  rw [going]

theorem length_slice (bs : List Byte) (off n : Nat) : (slice bs off n).length = n := by
  simp [slice]

theorem State.ok_out (s : State) (r : Request) (payload : List Byte) : (s.ok r payload).out = s.out := by
  obtain ⟨g, e⟩ := s.reply_eq r stOk 0 payload
  rw [State.ok, e]
  cases r.chan <;> rfl

/-- Settles O50. -/
theorem firmwareUpdates : Obligations.FirmwareUpdates := by
  intro s r rest ch power awake
  refine ⟨fun asked shaped => ?begin_, fun u going => ⟨?data, ?host, ?verify, ?commit, ?running, ?activate⟩,
    fun u asked shaped there => ?abort, fun asked shaped => ?status⟩
  case begin_ =>
    intro n none most
    have ran := execFwUpdateBegin_asked asked shaped power awake none most
    obtain ⟨b, started⟩ := s.started_fields ch r rest
    refine ⟨fun fits => ?_, fun short => ?_⟩
    · rw [if_neg (by omega)] at ran
      refine ⟨_, ran, ?_, ?_, State.ok_answered ..⟩
      · rw [started, show State.ok _ _ _ = _ from State.ok_only ..]
        rfl
      · rw [State.ok_sec]
    · rw [if_pos short] at ran
      exact ⟨_, ran, s.started_reply_only .., State.reply_answered ..⟩
  case data =>
    intro asked off n long short plain open_ fits form sound host
    have ran := execFwUpdateData_asked asked power awake going long short plain open_ fits host
    obtain ⟨b, started⟩ := s.started_fields ch r rest
    have some : r.payload.drop 8 ≠ [] := by
      rw [← List.length_pos_iff, List.length_drop]
      omega
    obtain ⟨only, stored⟩ := State.stageWrite_sound (s := s.started ch r rest) (by rw [started]; exact sound)
      (by rw [started]; exact form) (off := off) some (by rw [List.length_drop]; omega)
    refine ⟨_, ran, State.ok_answered .., ?_, ?_, fun i inside k home => ?_⟩
    · unfold State.stageData
      rw [State.ok_mem]
      dsimp only
      rw [only, State.started_mem]
    · unfold State.stageData
      rw [State.ok_sec, List.length_drop]
    · unfold State.stageData
      rw [show State.ok _ _ _ = _ from State.ok_only ..]
      refine (stored i (by rw [List.length_drop]; exact inside) k (by rw [started]; exact home)).trans ?_
      simp [nth]
  case host =>
    intro bs first chan opcode firmware turn whole noBlock hosted long off n open_ some_ most fits up
    have ran := fun host => execFwUpdateData_host (host := host) first chan opcode firmware turn whole noBlock hosted long power
      awake going open_ some_ most fits up
    have asks : Out.hostRead (r.get 8 8) n ∈ (((s.started .pcie r rest).emit (.hostRead (r.get 8 8) n)).stageWrite off
        (slice bs 0 n)).out := by
      rw [((Yards.refl _).stageWrite off _).kept]
      exact List.mem_append_right _ (List.mem_singleton_self _)
    refine ⟨⟨_, ran (.data bs), State.ok_answered .., (State.ok_out ..).symm ▸ asks, ?_⟩,
      ⟨_, ran .error, ?_, State.reply_answered_nil ..⟩⟩
    · refine (congrArg Sec.update (State.ok_sec ..)).trans ?_
      dsimp only
      rw [length_slice]
    · obtain ⟨b, started⟩ := s.started_fields .pcie r rest
      dsimp only
      rw [started, show State.reply _ _ _ _ _ = _ from State.reply_only ..]
      rfl
  case verify =>
    intro asked shaped open_ whole img
    have ran := execFwUpdateVerify_asked asked shaped power awake going open_ whole
    refine ⟨_, ran, fun signed current => ?_, fun unsigned => ?_, fun signed old => ?_⟩
    · rw [if_neg (by simpa using signed), if_neg (Nat.not_lt.mpr current)]
      exact ⟨by rw [State.ok_sec], State.ok_answered ..⟩
    · rw [if_pos (by simp [img, unsigned] at *)]
      exact ⟨s.started_reply_only .., State.reply_answered_nil ..⟩
    · rw [if_neg (by simpa using signed), if_pos old]
      exact ⟨s.started_reply_only .., State.reply_answered_nil ..⟩
  case commit =>
    intro asked shaped verified open_ none
    have ran := execFwUpdateCommit_asked asked shaped power awake going verified open_ none
    obtain ⟨spoils, none_, lost, on, book⟩ := State.writeNor_spoils (s.started ch r rest) r u
    refine ⟨⟨_, ran .matched, State.ok_answered .., ?_, ?_, ?_, ?_⟩,
      ⟨_, ran .mismatch, State.reply_answered_nil .., ?_, ?_⟩,
      ⟨_, ran .abandoned, State.reply_answered_nil .., ?_, ?_⟩,
      ⟨_, ran .goesOn, ?_, ?_, ?_⟩⟩
    · rw [State.writeNor, State.ok_sec, State.started_stageRead]
    · rw [State.writeNor, State.ok_sec]
    · rw [State.writeNor, State.ok_mram]
      exact State.started_mram ..
    · rw [State.writeNor, State.ok_mem]
      exact State.started_mem ..
    · exact none_
    · exact spoils _ (by simp)
    · exact lost
    · exact spoils _ (by simp)
    · rw [State.chan_of_book book, State.started_chan]
    · exact on
    · exact spoils _ (by simp)
  case running =>
    intro q running
    exact ⟨_, execFwUpdateCommit_running running going, State.ok_answered .., congrArg Sec.nor (State.ok_sec ..),
      congrArg Sec.update (State.ok_sec ..)⟩
  case activate =>
    intro asked shaped
    have ran := execFwActivate_asked asked shaped power awake
    rw [State.stage_going going] at ran
    refine ⟨fun committed back => ?_, fun open_ back => ?_⟩
    · have begun := State.beginModuleReset_begun
        (((((s.started ch r rest).ok r []).flushOut .pcie).flushOut .mctp).shutEst true back) 3
      obtain ⟨phase, cause, fw, frozen, nor, link⟩ := begun
      refine ⟨_, (ran back).trans (by rw [committed]; rfl), phase, cause, fw, frozen, nor.trans ?_, link⟩
      rw [State.shutEst_sec, State.flushOut_sec, State.flushOut_sec, State.ok_sec, State.started_sec]
    · refine ⟨_, (ran back).trans (by rw [open_, if_neg Bool.false_ne_true, if_pos (by split <;> simp)]), s.started_reply_only ..,
        State.reply_answered_nil ..⟩
  case abort =>
    have ran := execFwUpdateAbort_asked asked shaped power awake there
    obtain ⟨b, started⟩ := s.started_fields ch r rest
    refine ⟨fun quiet => ?_, fun writing => ?_⟩
    · rw [quiet, if_neg Bool.false_ne_true] at ran
      refine ⟨_, ran, ?_, State.ok_answered ..⟩
      rw [started, show State.ok _ _ _ = _ from State.ok_only ..]
      rfl
    · rw [writing, if_pos rfl] at ran
      exact ⟨_, ran, s.started_reply_only .., State.reply_answered_nil ..⟩
  case status =>
    have ran := execFwUpdateStatus_asked asked shaped power awake
    refine ⟨_, ran, s.started_ok_only .., ?_⟩
    cases s.openUpdate with
    | none => exact State.ok_answered ..
    | some u => exact State.ok_answered ..

end Sys2Proof.Machine
end

section
/-! The debug port and boundary scan: settles O56 (R429, R567, R568, R572). -/

namespace Sys2Proof.Machine

section
variable {s : State} {level : Nat} {act : State → State}

/-! ### The level of an operation -/

theorem State.atLevel_runs (control : s.start.control = true) (high : level ≤ s.sec.level) :
    s.atLevel level true act = act s := by
  unfold State.atLevel
  rw [if_neg (by simp [control]), if_pos ⟨high, rfl⟩]

theorem State.atLevel_inside {ok : Bool} (control : s.start.control = true) (high : level ≤ s.sec.level) (inside : ok = true) :
    s.atLevel level ok act = act s := inside ▸ State.atLevel_runs control high

theorem State.atLevel_denied {ok : Bool} (control : s.start.control = true) (low : s.sec.level < level ∨ ok = false) :
    s.atLevel level ok act = s.emit .debugDenied := by
  unfold State.atLevel
  rw [if_neg (by simp [control]), if_neg ?_]
  rcases low with low | outside
  · simp [low]
  · simp [outside]

/-- R568: at level Closed every operation of the port is denied. -/
theorem execDebugPortAccess_closed (control : s.start.control = true) (closed : s.sec.level = 0) (op : DebugOp) :
    exec (.debugPortAccess op) s = .next (s.emit .debugDenied) := by
  show execDebugPortAccess op s = _
  unfold execDebugPortAccess
  cases op <;> exact congrArg Host.Outcome.next (State.atLevel_denied control (.inl (by omega)))

end

/-! ### Cores -/

theorem State.haltCore_core {s : State} {i : Nat} (up : (s.core i).unit = .inService) (halt : Bool) :
    (s.haltCore i halt).core i = { s.core i with halted := halt } := by
  have there : i < s.cores.length := by
    by_contra beyond
    have reset : s.core i = ControlCore.reset := by
      unfold State.core nth
      rw [List.getElem?_eq_none (by omega)]
      rfl
    rw [reset] at up
    cases up
  refine (nth_setNth_same _ _ _ there).trans (if_pos up)

theorem State.haltCore_other (s : State) {i j : Nat} (halt : Bool) (other : j ≠ i) : (s.haltCore i halt).core j = s.core j :=
  nth_setNth_other _ _ _ other

/-! ### Bytes read back -/

/-- Bytes read one by one from where they were put. -/
theorem map_range_eq {data : List Byte} {f : Nat → Byte} (same : ∀ i (h : i < data.length), f i = data[i]) :
    (List.range data.length).map f = data := by
  refine List.ext_getElem (by simp) fun i h k => ?_
  rw [List.getElem_map, List.getElem_range]
  exact same i k

/-- R155: below the firmware-reserved region the port reads what memory holds. -/
theorem State.portBytes_below {s : State} {addr : Nat} {bs : List Byte} (below : addr + bs.length ≤ s.mem.usable) :
    s.portBytes addr bs = bs := by
  unfold State.portBytes
  refine List.ext_getElem (by simp) fun i h k => ?_
  simp only [List.getElem_map, List.getElem_zipIdx, Nat.zero_add]
  exact if_pos (by omega)

/-- Bytes of bank 1 from an offset beyond the estimator record, written by the port. -/
theorem Mram.setBytes_cells (off : Nat) (beyond : 0x2080 ≤ off) (data : List Byte) : ∀ (m : Mram) (base : Nat),
    (data.zipIdx base).foldl (fun m x => m.setByte 1 (off + x.2) x.1) m = { m with
      cells := (data.zipIdx base).foldl (fun c x => Table.put none (1 * 2 ^ 22 + off + x.2) (some x.1) c) m.cells } := by
  induction data with
  | nil => exact fun _ _ => rfl
  | cons b t ih =>
    intro m base
    have one : m.setByte 1 (off + base) b = { m with cells := Table.put none (1 * 2 ^ 22 + off + base) (some b) m.cells } := by
      unfold Mram.setByte
      rw [if_neg (by omega), if_neg (by omega), Nat.add_assoc]
    simp only [List.zipIdx_cons, List.foldl_cons]
    rw [one, ih]

theorem State.mramWrite_cells (s : State) {off : Nat} (beyond : 0x2080 ≤ off) (data : List Byte) :
    s.mramWrite 1 off data = { s with
      mram.cells := data.zipIdx.foldl (fun c x => Table.put none (1 * 2 ^ 22 + off + x.2) (some x.1) c) s.mram.cells } := by
  unfold State.mramWrite
  rw [Mram.setBytes_cells off beyond]

/-- Of bank 1 nothing between the key area and the summary slots has a layout of the manual's (R521, log entry 107). -/
theorem State.laidOut_none (s : State) {off : Nat} (low : 0x2080 ≤ off) (high : off < 0x300800) : s.laidOut 1 off = none := by
  unfold State.laidOut
  rw [if_neg (by decide), if_neg (by omega), if_neg (by omega), if_neg (by omega)]

theorem State.mramByte_written (s : State) {off i : Nat} {data : List Byte} (low : 0x2080 ≤ off)
    (high : off + data.length ≤ 0x300000) (inside : i < data.length) :
    (s.mramWrite 1 off data).mramByte 1 (off + i) = data[i] := by
  unfold State.mramByte
  rw [State.laidOut_none _ (by omega) (by omega), State.mramWrite_cells _ low]
  have put := Table.get_putAll data s.mram.cells (1 * 2 ^ 22 + off) 0 (1 * 2 ^ 22 + (off + i))
  rw [if_pos (by omega), show 1 * 2 ^ 22 + (off + i) - (1 * 2 ^ 22 + off + 0) = i by omega,
    List.getElem?_eq_getElem inside] at put
  dsimp only
  rw [put]
  rfl

/-- R429: both copies of the estimator record stand at their places. -/
theorem State.mramByte_est (s : State) {i : Nat} (first : s.mram.est0.length = 64) (second : s.mram.est1.length = 64)
    (h : i < (s.mram.est0 ++ s.mram.est1).length) : s.mramByte 1 (0x2000 + i) = (s.mram.est0 ++ s.mram.est1)[i] := by
  have long : i < 128 := by simpa [first, second] using h
  unfold State.mramByte State.laidOut
  rw [if_neg (by decide)]
  by_cases low : i < 64
  · rw [if_pos (by omega), List.getElem_append_left (by omega)]
    simp [nth, show i < s.mram.est0.length by omega]
  · rw [if_neg (by omega), if_pos (by omega), List.getElem_append_right (by omega)]
    simp [nth, first, show 0x2000 + i - 0x2040 = i - 64 by omega, show i - 64 < s.mram.est1.length by omega]

theorem State.sramRead_written (s : State) (off : Nat) (data : List Byte) :
    (s.sramWrite off data).sramRead off data.length .clean = (s.sramWrite off data).emit (.debugRead data) := by
  unfold State.sramRead
  simp only [reduceCtorEq, if_false]
  rw [map_range_eq fun i inside => ?_]
  rw [State.sramWrite_get, if_pos (by omega), show off + i - off = i by omega, List.getElem?_eq_getElem inside]
  rfl

theorem State.yardLoad_stored {s : State} (sound : s.yard.damaged = []) (form : s.yard.bytes.wf = true) (key : Nat)
    (data : List Byte) : ({ s with yard.bytes := s.yard.bytes.write key data } : State).yardLoad key data.length = data :=
  (State.yardLoad_clean (s := { s with yard.bytes := s.yard.bytes.write key data }) sound _ _).trans (Bytes.read_write _ _ form)

/-! ### Ranges -/

theorem State.memRange_inside {s : State} {addr n : Nat} (works : s.working) (fits : addr + n ≤ s.mem.total)
    (whole : s.mem.retired = []) : s.memRange addr n = true := by
  obtain ⟨awake, on⟩ := works
  simp [State.memRange, State.portReaches, awake, on, fits, whole]

theorem State.memRange_asleep {s : State} {addr n : Nat} (asleep : ¬ s.working) : s.memRange addr n = false := by
  have off : s.portReaches = false := by
    unfold State.working at asleep
    simp only [State.portReaches, Bool.and_eq_false_iff, decide_eq_false_iff_not]
    tauto
  simp [State.memRange, off]

theorem State.yardRange_inside {s : State} {p off n : Nat} (works : s.working) (fits : off + n ≤ 1536 * 65536)
    (whole : s.yard.retired = []) : s.yardRange p off n = true := by
  obtain ⟨awake, on⟩ := works
  simp [State.yardRange, State.portReaches, awake, on, fits, whole]

theorem mramRange_inside {bank off n : Nat} (fits : off + n ≤ 2 ^ 22)
    (clear : off + n ≤ 0x10000 ∨ 0x20000 ≤ off) : mramRange bank off n = true := by
  simp only [mramRange, Bool.and_eq_true, decide_eq_true_eq, Bool.not_eq_true', decide_eq_false_iff_not]
  exact ⟨fits, by omega⟩

theorem mramRange_keys {off n : Nat} (low : 0x10000 < off + n) (high : off < 0x20000) : mramRange 1 off n = false := by
  simp only [mramRange, Bool.and_eq_false_iff, decide_eq_false_iff_not, Bool.not_eq_false', decide_eq_true_eq]
  exact .inr (by simpa using ⟨low, high⟩)

section
variable {s : State} (control : s.start.control = true) (full : s.sec.level = 2)
include control full

theorem execReadYard_inside {p : Fin 8} {off n : Nat} (inside : s.yardRange p.val off n = true) :
    exec (.debugPortAccess (.readYard p off n)) s = .next (s.emit (.debugRead (s.yardLoad (yardKey p.val off) n))) :=
  congrArg Host.Outcome.next (State.atLevel_inside control (Nat.le_of_eq full.symm) inside)

theorem execReadSram_inside {off n : Nat} (fits : off + n ≤ 2 ^ 24) :
    exec (.debugPortAccess (.readSram off n .clean)) s = .next (s.sramRead off n .clean) :=
  congrArg Host.Outcome.next (State.atLevel_inside control (Nat.le_of_eq full.symm) (decide_eq_true fits))

theorem execReadMram_inside {bank : Fin 2} {off n : Nat} (inside : mramRange bank.val off n = true) :
    exec (.debugPortAccess (.readMram bank off n)) s = .next (s.mramRead bank.val off n) :=
  congrArg Host.Outcome.next (State.atLevel_inside control (Nat.le_of_eq full.symm) inside)

end

/-- Settles O56. -/
theorem debugPortObeysLevels : Obligations.DebugPortObeysLevels := by
  intro s control
  refine ⟨fun closed op => execDebugPortAccess_closed control closed op, fun observes => ⟨fun what => ?observe,
    fun high => ?trigger⟩, fun one i => ?deny, fun full => ⟨fun i up => ⟨?halt, ?run⟩, fun off data fits => ?writeNor,
    fun off len fits => ?readNor, fun addr data works fits whole sound form => ?writeMemory,
    fun addr len works fits usable whole sound => ?readMemory, fun addr len lines asleep => ?asleep,
    fun p off data works fits whole sound form => ?yard, fun off data fits => ?sram, fun bank off data one low high => ?mram,
    fun bank one first second => ⟨?est, fun off len low high => ?keys⟩⟩, ?bypass, fun bits => ⟨fun full => ?scan,
    fun low cmd there => ?denied⟩⟩
  case observe => exact congrArg Host.Outcome.next (State.atLevel_runs control observes)
  case trigger => exact congrArg Host.Outcome.next (State.atLevel_runs control observes)
  case deny => exact congrArg Host.Outcome.next (State.atLevel_denied control (.inl (by omega)))
  case halt =>
    exact ⟨_, congrArg Host.Outcome.next (State.atLevel_runs control (by omega)), rfl, State.haltCore_core up true,
      fun j other => State.haltCore_other s true other⟩
  case run =>
    exact ⟨_, congrArg Host.Outcome.next (State.atLevel_runs control (by omega)), rfl, State.haltCore_core up false⟩
  case writeNor =>
    exact congrArg Host.Outcome.next (State.atLevel_inside control (by omega) (decide_eq_true fits))
  case readNor =>
    exact congrArg Host.Outcome.next (State.atLevel_inside control (by omega) (decide_eq_true fits))
  case writeMemory =>
    have stored := State.memStore_sound (s := s) lineErr_clean (data.length + 1) (pa := addr) (bs := data)
      (fun l there => by simp [sound] at there) (by omega)
    refine ⟨_, congrArg Host.Outcome.next (State.atLevel_inside control (by omega) (State.memRange_inside works fits whole)), ?_, ?_⟩
    · rw [stored]
      exact fun a => Bytes.get_write form addr a data
    · rw [stored]
  case readMemory =>
    have read := State.memLoad_sound (s := s) lineErr_clean (len + 1) (pa := addr) (n := len)
      (fun l there => by simp [sound] at there) (by omega)
    refine congrArg Host.Outcome.next
      ((State.atLevel_inside control (by omega) (State.memRange_inside works fits whole)).trans ?_)
    dsimp only
    rw [read]
    dsimp only
    rw [State.portBytes_below (by rw [Bytes.read_length]; exact usable)]
  case asleep =>
    exact congrArg Host.Outcome.next (State.atLevel_denied control (.inr (State.memRange_asleep asleep)))
  case yard =>
    have stored := State.yardStore_clean sound (yardKey p.val off) data
    refine ⟨_, congrArg Host.Outcome.next (State.atLevel_inside control (by omega) (State.yardRange_inside works fits whole)), ?_, ?_⟩
    · rw [stored]
    · rw [stored]
      refine (execReadYard_inside (s := { s with yard.bytes := s.yard.bytes.write (yardKey p.val off) data }) control full
        (State.yardRange_inside works fits whole)).trans ?_
      exact congrArg (fun bs => Host.Outcome.next (State.emit _ (.debugRead bs))) (State.yardLoad_stored sound form _ data)
  case sram =>
    refine ⟨_, congrArg Host.Outcome.next (State.atLevel_inside control (by omega) (decide_eq_true fits)), rfl, ?_⟩
    exact (execReadSram_inside (s := s.sramWrite off data) control full fits).trans
      (congrArg Host.Outcome.next (s.sramRead_written off data))
  case mram =>
    obtain rfl : bank = 1 := Fin.ext one
    have inside := mramRange_inside (bank := 1) (off := off) (n := data.length) (by omega) (.inr low)
    refine ⟨s.mramWrite 1 off data, congrArg Host.Outcome.next (State.atLevel_inside control (by omega) inside), ?_, ?_⟩
    · rw [State.mramWrite_cells _ (by omega)]
    · refine (execReadMram_inside (s := s.mramWrite 1 off data) control full inside).trans (congrArg Host.Outcome.next ?_)
      refine congrArg (fun bs => State.emit _ (.debugRead bs)) (map_range_eq fun i there => ?_)
      exact s.mramByte_written (by omega) high there
  case est =>
    obtain rfl : bank = 1 := Fin.ext one
    refine (execReadMram_inside control full (mramRange_inside (by omega) (.inl (by omega)))).trans (congrArg Host.Outcome.next ?_)
    have long : (s.mram.est0 ++ s.mram.est1).length = 128 := by simp [first, second]
    refine congrArg (fun bs => State.emit _ (.debugRead bs)) ?_
    rw [← long]
    exact map_range_eq fun i there => s.mramByte_est first second there
  case keys =>
    obtain rfl : bank = 1 := Fin.ext one
    exact congrArg Host.Outcome.next (State.atLevel_denied control (.inr (mramRange_keys low high)))
  case bypass => exact congrArg Host.Outcome.next (if_pos control)
  case scan =>
    have scanned (i : Jtag) (act : State → State) : s.scan i act = act { s with sec.jtag := i } :=
      (if_neg (by simp [control])).trans (if_pos full)
    exact ⟨congrArg Host.Outcome.next (scanned ..), congrArg Host.Outcome.next (scanned ..), _,
      congrArg Host.Outcome.next (scanned ..), rfl, rfl, rfl, rfl⟩
  case denied =>
    have refused (i : Jtag) (act : State → State) : s.scan i act = { s with sec.jtag := .bypass }.emit .debugDenied :=
      (if_neg (by simp [control])).trans (if_neg (by omega))
    simp only [List.mem_cons, List.not_mem_nil, or_false] at there
    rcases there with rfl | rfl | rfl <;> exact congrArg Host.Outcome.next (refused ..)

end Sys2Proof.Machine
end

section
/-! The loss of the input, Hold-up and its end: settles O55 (R470, R587, R599, R600, R602 to R604). -/

namespace Sys2Proof.Machine

/-! ### Entering Hold-up -/

/-- What the steps of Hold-up's entry leave as `old` has it until the compute domain is lost. -/
structure EntryKeeps (old s : State) : Prop where
  power : s.power = old.power
  marsh : s.marsh = old.marsh
  fuses : s.fuses = old.fuses
  inputGood : s.start.inputGood = old.start.inputGood
  onCart : s.start.holdOnCart = old.start.holdOnCart
  trayReset : s.start.trayReset = old.start.trayReset
  hay : s.hay = { old.hay with walk := s.hay.walk }
  level : s.sec.level = old.sec.level

theorem EntryKeeps.trans {old s t : State} (h : EntryKeeps old s) (k : EntryKeeps s t) : EntryKeeps old t :=
  ⟨k.power.trans h.power, k.marsh.trans h.marsh, k.fuses.trans h.fuses, k.inputGood.trans h.inputGood,
    k.onCart.trans h.onCart, k.trayReset.trans h.trayReset, by rw [k.hay, h.hay], k.level.trans h.level⟩

theorem OnlyBook.entryKeeps {s t : State} (h : OnlyBook s t) : EntryKeeps s t := by
  unfold OnlyBook at h
  rw [h]
  exact ⟨rfl, rfl, rfl, rfl, rfl, rfl, rfl, rfl⟩

theorem OnlyBook.hay {s t : State} (h : OnlyBook s t) : t.hay = s.hay := by
  unfold OnlyBook at h
  rw [h]

theorem State.abortUnlocks_only (s : State) : OnlyBook s s.abortUnlocks :=
  OnlyBook.foldl (fun t r => t.reply_only r stAborted 0 []) _ s

theorem State.endWalk_entryKeeps (s : State) (outcome : Nat) : EntryKeeps s (s.endWalk outcome) := by
  unfold State.endWalk
  split
  · exact ⟨rfl, rfl, rfl, rfl, rfl, rfl, rfl, rfl⟩
  · rename_i w _
    exact EntryKeeps.trans (s := { s with hay.walk := none }) ⟨rfl, rfl, rfl, rfl, rfl, rfl, rfl, rfl⟩
      (State.event_only ..).entryKeeps

theorem State.endWalk_walk (s : State) (outcome : Nat) : (s.endWalk outcome).hay.walk = none := by
  unfold State.endWalk
  split
  · assumption
  · exact congrArg Hay.walk (State.event_only ..).hay

theorem State.setLevel_entryKeeps (s : State) (key : Option Nat) :
    EntryKeeps { s with sec.level := 0 } (s.setLevel 0 key) := by
  refine ⟨?_, ?_, ?_, ?_, ?_, ?_, ?_, s.setLevel_level 0 key⟩
  all_goals
    unfold State.setLevel
    split
    · rfl
    · rfl

/-- R599: no port of a module in Hold-up or resetting is UP. -/
theorem State.quietPorts_notUp (s : State) : ∀ p ∈ s.quietPorts.rails.ports, p.state ≠ .up := by
  intro p there
  obtain ⟨q, -, rfl⟩ := List.mem_map.mp there
  split
  · simp
  · split
    · simp
    · simp_all

/-! ### The compute domain is lost -/

theorem State.endMirrors_eq (s : State) (l : List Nat) :
    ∃ c, l.foldl (fun t c => t.modCtx c Context.endMirror) s = { s with ctxs := c } := by
  induction l generalizing s with
  | nil => exact ⟨s.ctxs, rfl⟩
  | cons c l ih => exact ih (s.modCtx c Context.endMirror)

theorem Table.get_of_forall {α : Type} {d : α} {t : Table α} {p : α → Prop} (default : p d)
    (all : ∀ x ∈ t, p x.2) (i : Nat) : p (Table.get d t i) := by
  induction t with
  | nil => exact default
  | cons x t ih =>
    obtain ⟨k, v⟩ := x
    rw [Table.get]
    split
    · exact all (k, v) List.mem_cons_self
    · exact ih fun y there => all y (List.mem_cons_of_mem _ there)

theorem State.zeroTokens_value (s : State) (i : Nat) : (s.zeroTokens.token i).value = 0 := by
  refine Table.get_of_forall (p := fun (x : Token) => x.value = 0) rfl (fun x there => ?_) i
  obtain ⟨y, -, rfl⟩ := List.mem_map.mp (List.mem_filter.mp there).1
  rfl

/-- R599: what the loss of the compute domain leaves. -/
theorem State.loseCompute_eq (s : State) : ∃ c, s.loseCompute = { s with
    tokens := s.zeroTokens.tokens, ctxs := c, marsh := { s.marsh with units := [], flights := [] }
    parts := s.parts.map Partition.cleared, sec.update := none
    mem := { s.mem with bytes := [], damaged := [], saveArea := [], grants := [], zeroing := [] }
    yard := { s.yard with bytes := [], damaged := [] } } := by
  obtain ⟨c, lost⟩ := s.zeroTokens.endMirrors_eq s.ctxIds
  refine ⟨c, ?_⟩
  unfold State.loseCompute
  rw [lost]
  rfl

theorem State.putEst_eq (s : State) (closed : Bool) (back : ReadBacks) :
    ∃ r m g, s.putEst closed back = { s with hay.record := r, mram := m, sbx := g } := by
  unfold State.putEst
  dsimp only
  split
  · obtain ⟨g, noted⟩ := State.report_eq _ haySource 0x0501 none 0
    exact ⟨_, _, g, noted⟩
  · exact ⟨_, _, s.sbx, rfl⟩

theorem State.flush_eq (s : State) : ∃ g, s.flush = { s with trg := g } := ⟨_, s.flush_keeps.1⟩

/-- The last of Hold-up's entry: the record of a cartridge in service written, else the recorder flushed (R600, R601). -/
theorem State.holdUpWrites_eq (s : State) (back : ReadBacks) :
    ∃ r m g l, (if s.hayIn then s.putEst false back else s).flush =
      { s with hay.record := r, mram := m, sbx := g, trg := l } := by
  split
  · obtain ⟨r, m, g, wrote⟩ := s.putEst_eq false back
    obtain ⟨l, flushed⟩ := (s.putEst false back).flush_eq
    exact ⟨r, m, g, l, by rw [flushed, wrote]⟩
  · obtain ⟨l, flushed⟩ := s.flush_eq
    exact ⟨s.hay.record, s.mram, s.sbx, l, flushed⟩

/-- What Hold-up's entry leaves (R470, R599, R600). -/
structure HeldUp (s t : State) : Prop where
  power : t.power = { s.power with state := .holdUp, clockStopped := true }
  level : t.sec.level = 0
  marsh : t.marsh = { s.marsh with units := [], flights := [] }
  mem : t.mem.bytes = [] ∧ t.mem.saveArea = []
  yard : t.yard.bytes = []
  input : t.start.inputGood = false ∧ t.start.holdOnCart = s.hayIn
  trayReset : t.start.trayReset = s.start.trayReset
  walk : t.hay.walk = none
  converter : t.hay.converter = true ↔ s.hayIn = true ∧ s.hay.stopHot = false
  tokens : ∀ i, (t.token i).value = 0
  fuses : t.fuses = s.fuses
  ports : ∀ p ∈ t.rails.ports, p.state ≠ .up

theorem State.enterHoldUp_heldUp (s : State) (back : ReadBacks) : HeldUp s (s.enterHoldUp back) := by
  unfold State.enterHoldUp
  dsimp only
  generalize start : ({ s with
      power := { s.power with state := .holdUp, clockStopped := true }
      hay.converter := s.hayIn && !s.hay.stopHot, hay.closed := s.hayIn && !s.hay.stopHot
      start := { s.start with inputGood := false, inputSwitch := false, holdOnCart := s.hayIn } } : State) = t
  generalize ends : (t.setLevel 0 none).abortUnlocks.endWalk 5 = u
  have keeps : EntryKeeps { t with sec.level := 0 } u := by
    rw [← ends]
    exact ((t.setLevel_entryKeeps none).trans (State.abortUnlocks_only _).entryKeeps).trans
      (State.endWalk_entryKeeps ..)
  have walk : u.hay.walk = none := by rw [← ends]; exact State.endWalk_walk ..
  obtain ⟨c, lost⟩ := u.quietPorts.loseCompute_eq
  obtain ⟨r, m, g, l, wrote⟩ := u.quietPorts.loseCompute.holdUpWrites_eq back
  obtain ⟨power, marsh, fuses, inputGood, onCart, trayReset, hay, level⟩ := keeps
  rw [wrote, lost]
  subst start
  refine ⟨power, level, ?_, ⟨rfl, rfl⟩, rfl, ⟨inputGood, onCart⟩, trayReset, walk, ?_, ?_, fuses, u.quietPorts_notUp⟩
  · exact congrArg (fun (x : Marsh) => { x with units := [], flights := [] }) marsh
  · change u.hay.converter = true ↔ _
    rw [hay]
    simp
  · exact u.quietPorts.zeroTokens_value

/-! ### Power off -/

/-- What power off leaves (R587, R602). -/
structure PoweredOff (s t : State) : Prop where
  phase : t.start.phase = .off
  control : t.start.control = false
  power : t.power.state = .standby
  book : t.book.fwState = 0
  link : t.pcie.linkUp = false
  closed : t.hay.closed = false
  trayReset : t.start.trayReset = s.start.trayReset
  recorder : t.trg = s.trg
  mram : t.mram = s.mram
  mem : t.mem = s.mem

theorem State.powerOff_poweredOff (s : State) : PoweredOff s s.powerOff := by
  unfold State.powerOff
  dsimp only
  split
  · exact ⟨rfl, rfl, rfl, rfl, rfl, rfl, rfl, rfl, rfl, rfl⟩
  · exact ⟨rfl, rfl, rfl, rfl, rfl, rfl, rfl, rfl, rfl, rfl⟩

/-! ### Requests in Hold-up -/

/-- R603: a request that Hold-up does not answer. -/
theorem State.onRequest_holdUp {s : State} {ch : Chan} {op : Nat} {r : Request} {rest : List Request} {rule : Rule}
    {act : Request → State → State} (asked : Asked s ch op r rest) (power : s.power.state = .holdUp)
    (closed : rule.holdup = false) :
    ∃ t, Host.Outcome.next (s.onRequest ch (opIs op) rule act) = (.next t : Host.Outcome State Fault Refusal) ∧
      OnlyBook s t ∧ Answered t r stState 3 [] := by
  have refused : (s.started ch r rest).refusal r rule false = some (stState, 3) := by
    unfold State.refusal
    rw [if_neg (by simp [asked.whole]), if_pos (by simp [power, closed])]
  refine ⟨_, congrArg Host.Outcome.next (State.onRequest_refused asked (by simp [opIs]) refused), ?_, ?_⟩
  · exact s.started_reply_only ch r rest stState 3 []
  · exact State.reply_answered ..

/-- Settles O55: the entry of Hold-up from what its steps keep and what the loss of the compute domain leaves, the rest from
power off and the begun module reset. -/
theorem powerLossAndReturn : Obligations.PowerLossAndReturn := by
  intro s back
  refine ⟨fun how control notHeld => ?_, fun control => ?_, fun held control => ⟨?_, fun tray phase => ?_, ?_⟩,
    fun control notHeld => ?_, rfl, fun r rest ch op cmd held among asked => ?_⟩
  · have entered := (s.lossSeen how).enterHoldUp_heldUp back
    refine ⟨(s.lossSeen how).enterHoldUp back, congrArg Host.Outcome.next (if_neg (by simp [control, notHeld])), ?_⟩
    obtain ⟨power, level, marsh, ⟨bytes, save⟩, yard, ⟨good, cart⟩, -, walk, converter, tokens, fuses, ports⟩ := entered
    have seen : (s.lossSeen how).marsh = s.marsh ∧ (s.lossSeen how).hay = s.hay ∧ (s.lossSeen how).fuses = s.fuses := by
      cases how
      all_goals exact ⟨rfl, rfl, rfl⟩
    rw [seen.1] at marsh
    rw [State.hayIn, seen.2.1] at cart converter
    refine ⟨by rw [power], ?_, level, marsh, bytes, save, yard, good, cart, walk, converter, tokens, fuses.trans seen.2.2,
      ports⟩
    rw [State.frozen, power]
    exact Bool.or_true _
  · have dark : ¬ s.start.control ∨ s.power.state = .holdUp := .inl (by simp [control])
    exact ⟨congrArg Host.Outcome.next (if_pos dark), congrArg Host.Outcome.next (if_pos dark),
      congrArg Host.Outcome.next (if_pos dark), congrArg Host.Outcome.next (if_pos (by simp [control]))⟩
  · have off := s.powerOff_poweredOff
    exact ⟨s.powerOff, congrArg Host.Outcome.next (if_pos ⟨control, held⟩), off.phase, off.control, off.power, off.book,
      off.link, off.closed, off.recorder, off.mram⟩
  · have passes : ¬ (¬ s.start.control ∨ s.power.state ≠ .holdUp ∨ ¬ s.start.trayReset) := by simp [control, held, tray]
    have awake : ¬ (s.start.phase = .cycle ∨ s.start.phase = .held) := by
      rcases phase with at_ | at_
      · simp [at_]
      · simp [at_]
    refine ⟨_, congrArg Host.Outcome.next ((if_neg passes).trans (if_neg awake)), rfl, rfl, ?_⟩
    obtain ⟨g, flushed⟩ := State.flush_eq { s with
      power.state := .standby
      start := { s.start with earlyBreak := false, inputGood := true, inputSwitch := true, holdOnCart := false } }
    unfold State.beginModuleReset
    rw [if_pos rfl, flushed]
    exact ⟨rfl, rfl, control⟩
  · have off := State.powerOff_poweredOff { s with start.trayReset := false }
    exact ⟨_, congrArg Host.Outcome.next ((if_neg (by simp [control])).trans (if_pos held)), off.trayReset, off.phase,
      off.control⟩
  · have entered := State.enterHoldUp_heldUp { s with start.trayReset := false } back
    have off := (State.enterHoldUp { s with start.trayReset := false } back).powerOff_poweredOff
    exact ⟨_, congrArg Host.Outcome.next ((if_neg (by simp [control])).trans (if_neg notHeld)),
      off.trayReset.trans entered.trayReset, off.phase, off.control, off.power, by rw [off.mem, entered.mem.1]⟩
  · simp only [List.mem_cons, List.not_mem_nil, or_false, Prod.mk.injEq] at among
    rcases among with ⟨rfl, rfl⟩ | ⟨rfl, rfl⟩ | ⟨rfl, rfl⟩ | ⟨rfl, rfl⟩ | ⟨rfl, rfl⟩ | ⟨rfl, rfl⟩ | ⟨rfl, rfl⟩ | ⟨rfl, rfl⟩ |
      ⟨rfl, rfl⟩ | ⟨rfl, rfl⟩ | ⟨rfl, rfl⟩
    all_goals exact State.onRequest_holdUp asked held rfl

end Sys2Proof.Machine
end

section
namespace Sys2Proof.Machine

/-- What aborted wagons and halted rings keep: a canonical ring table stays so and its rings keep their contexts, and no
wagon is dispatched. -/
structure Dwindles (old s : State) : Prop where
  rings : old.rings.wf Ring.reset = true →
    s.rings.wf Ring.reset = true ∧ ∀ r, (s.ring r).ctx = (old.ring r).ctx
  flights : s.marsh.flights ⊆ old.marsh.flights

variable {old s : State}

theorem Dwindles.refl (s : State) : Dwindles s s := ⟨fun wf => ⟨wf, fun _ => rfl⟩, List.Subset.refl _⟩

/-- A change of other fields. -/
theorem Dwindles.update {t : State} {pending fuses mram parts cores cap ctxs tokens weights units drops mem yard windows
    rails book pcie hay power sbx trg sec start fresh out} (h : Dwindles old t) :
    Dwindles old ⟨pending, fuses, mram, parts, cores, cap, ctxs, t.rings, tokens, ⟨weights, units, t.marsh.flights⟩,
      drops, mem, yard, windows, rails, book, pcie, hay, power, sbx, trg, sec, start, fresh, out⟩ :=
  ⟨h.rings, h.flights⟩

/-- Wagons leave. -/
theorem Dwindles.leave (h : Dwindles old s) (p : Flight → Bool) :
    Dwindles old { s with marsh.flights := s.marsh.flights.filter p } :=
  ⟨h.rings, fun _ there => h.flights (List.mem_of_mem_filter there)⟩

theorem Dwindles.foldl {α : Type} {f : State → α → State} {l : List α} (h : Dwindles old s)
    (keeps : ∀ t a, Dwindles old t → Dwindles old (f t a)) : Dwindles old (l.foldl f s) :=
  List.foldlRecOn l f (motive := Dwindles old) h (fun t k a _ => keeps t a k)

theorem Dwindles.ite {c : Prop} [Decidable c] {t : State} (h : Dwindles old s) (k : Dwindles old t) :
    Dwindles old (if c then s else t) := by
  split
  · exact h
  · exact k

theorem Dwindles.modRing (h : Dwindles old s) (r : Nat) {f : Ring → Ring} (keeps : ∀ x, (f x).ctx = x.ctx) :
    Dwindles old (s.modRing r f) := by
  refine ⟨fun wf => ?_, h.flights⟩
  obtain ⟨formed, ctx⟩ := h.rings wf
  refine ⟨Table.wf_put _ _ _ _ formed, fun m => ?_⟩
  rw [← ctx m]
  unfold State.modRing State.ring Table.mod
  by_cases same : m = r
  · subst same
    rw [Table.get_put_same _ _ _ _ _ formed, keeps]
  · rw [Table.get_put_other _ _ _ same]

theorem Dwindles.modCtx (h : Dwindles old s) (c : Nat) (f : Context → Context) : Dwindles old (s.modCtx c f) :=
  h.update

theorem Dwindles.modToken (h : Dwindles old s) (t : Nat) (f : Token → Token) : Dwindles old (s.modToken t f) :=
  h.update

theorem Dwindles.modPart (h : Dwindles old s) (p : Nat) (f : Partition → Partition) : Dwindles old (s.modPart p f) :=
  h.update

theorem Dwindles.modPort (h : Dwindles old s) (n : Nat) (f : Port → Port) : Dwindles old (s.modPort n f) :=
  h.update

theorem Dwindles.modChan (h : Dwindles old s) (ch : Chan) (f : Channel → Channel) : Dwindles old (s.modChan ch f) := by
  unfold State.modChan
  split
  · exact h.update
  · exact h.update

theorem Dwindles.drop (h : Dwindles old s) (f : Drops → Drops) : Dwindles old (s.drop f) := h.update

theorem Dwindles.emit (h : Dwindles old s) (o : Out) : Dwindles old (s.emit o) := h.update

theorem Dwindles.note (h : Dwindles old s) (code : Nat) (src : W32) (r : Recorded) : Dwindles old (s.note code src r) := by
  unfold State.note
  split
  · exact h
  · split
    · split
      · exact h.update
      · exact h.update
    · split
      · exact h.update
      · exact h.update

theorem Dwindles.report (h : Dwindles old s) (src : W32) (code : Nat) (ctx : Option (Nat × W16)) (info : W32) :
    Dwindles old (s.report src code ctx info) := by
  unfold State.report
  exact Dwindles.ite h h.update

theorem Dwindles.event (h : Dwindles old s) (op : Nat) (payload : List Byte) : Dwindles old (s.event op payload) := by
  unfold State.event
  exact Dwindles.ite h ((h.modChan ..).modChan ..)

theorem Dwindles.noteRequest (h : Dwindles old s) (r : Request) (code : Nat) : Dwindles old (s.noteRequest r code) := by
  unfold State.noteRequest
  exact Dwindles.ite (h.note ..) h

theorem Dwindles.reply (h : Dwindles old s) (r : Request) (code : Nat) (detail : Nat) (payload : List Byte) :
    Dwindles old (s.reply r code detail payload) := by
  unfold State.reply
  exact (h.noteRequest ..).modChan ..

theorem Dwindles.ok (h : Dwindles old s) (r : Request) (payload : List Byte) : Dwindles old (s.ok r payload) := by
  unfold State.ok
  exact h.reply ..

theorem Dwindles.msixNow (h : Dwindles old s) (v : Nat) : Dwindles old (s.msixNow v) := by
  unfold State.msixNow
  exact Dwindles.ite h.update h.update

theorem Dwindles.raiseVector (h : Dwindles old s) (v : Nat) : Dwindles old (s.raiseVector v) := by
  unfold State.raiseVector
  exact Dwindles.ite h.update (h.msixNow ..)

theorem Dwindles.raiseRing (h : Dwindles old s) (n : Nat) : Dwindles old (s.raiseRing n) := by
  unfold State.raiseRing
  exact h.update.raiseVector ..

theorem Dwindles.take (h : Dwindles old s) (n : Nat) : Dwindles old (s.take n) := h.update

theorem Dwindles.recap {f : State → State} (h : Dwindles old s) (keeps : ∀ t, Dwindles old t → Dwindles old (f t)) :
    Dwindles old (s.recap f) := by
  unfold State.recap
  exact Dwindles.ite (keeps s h).update (keeps s h)

theorem Dwindles.grantPages (h : Dwindles old s) (ctx : Nat) (ps : List Page) (r : Request) (payload : List Byte) :
    Dwindles old (s.grantPages ctx ps r payload) := by
  unfold State.grantPages
  exact Dwindles.ite ((h.modCtx ..).ok ..) h.update

theorem Dwindles.freeTokensOf (h : Dwindles old s) (c : Nat) : Dwindles old (s.freeTokensOf c) := h.update

theorem Dwindles.dropGrant (h : Dwindles old s) (g : Grant) (short : Nat) : Dwindles old (s.dropGrant g short) := by
  unfold State.dropGrant
  exact Dwindles.ite (((h.reply ..).freeTokensOf ..).modCtx ..) (h.reply ..)

theorem Dwindles.placeAgain (h : Dwindles old s) (g : Grant) : Dwindles old (s.placeAgain g) := by
  unfold State.placeAgain
  split
  · exact Dwindles.ite (h.dropGrant ..) (h.grantPages ..)
  · exact Dwindles.ite (h.dropGrant ..) (h.grantPages ..)

theorem Dwindles.mendGrants (h : Dwindles old s) : Dwindles old s.mendGrants := by
  unfold State.mendGrants
  exact h.update.foldl (fun t a k => k.placeAgain ..)

theorem Dwindles.retireFrame (h : Dwindles old s) (f dev : Nat) : Dwindles old (s.retireFrame f dev) := by
  unfold State.retireFrame
  dsimp only
  have retired := h.recap (f := fun s => { s with
    mem.retired := s.mem.retired ++ [f], mem.retiredOf := setNth s.mem.retiredOf dev (fun x => x + 1)
    mem.zeroing := dropFrom f s.mem.zeroing }) fun _ k => k.update
  exact Dwindles.ite h (Dwindles.ite (retired.report ..) retired).mendGrants

theorem Dwindles.memTicket (h : Dwindles old s) (addr : Nat) : Dwindles old (s.memTicket addr) := by
  unfold State.memTicket
  exact h.event ..

theorem Dwindles.memCorrected (h : Dwindles old s) (addr : Nat) : Dwindles old (s.memCorrected addr) := by
  unfold State.memCorrected
  exact Dwindles.ite ((h.update.report ..).retireFrame ..) (h.update.report ..)

theorem Dwindles.memBad (h : Dwindles old s) (addr : Nat) : Dwindles old (s.memBad addr) := by
  unfold State.memBad
  exact (h.update.memTicket ..).retireFrame ..

theorem Dwindles.lineRead (h : Dwindles old s) (addr : Nat) (ecc : Ecc) : Dwindles old (s.lineRead addr ecc).2 := by
  unfold State.lineRead
  split
  · exact h
  · exact h.memCorrected ..
  · exact h.memBad ..

theorem Dwindles.lineStore (h : Dwindles old s) (addr : Nat) (bs : List Byte) (ecc : Ecc) :
    Dwindles old (s.lineStore addr bs ecc).2 := by
  unfold State.lineStore
  dsimp only
  split
  · exact h.update
  · split
    · exact h.lineRead ..
    · exact (h.lineRead ..).update

theorem Dwindles.memStore (fuel : Nat) (h : Dwindles old s) (addr : Nat) (bs : List Byte) (lines : LineEcc) :
    Dwindles old (s.memStore addr bs lines fuel).2 := by
  induction fuel generalizing s addr bs with
  | zero => exact h
  | succ fuel ih =>
    unfold State.memStore
    split
    · exact h
    · exact ih (h.lineStore ..) ..

theorem Dwindles.queueOn (h : Dwindles old s) (port : Nat) (p : Packet) : Dwindles old (s.queueOn port p) := by
  unfold State.queueOn
  exact h.modPort ..

theorem Dwindles.takePort (h : Dwindles old s) (o : OutPacket) (port : Nat) : Dwindles old (s.takePort o port) := by
  unfold State.takePort
  dsimp only
  exact Dwindles.ite ((h.queueOn ..).update) ((h.queueOn ..).update)

theorem Dwindles.place_ (h : Dwindles old s) (o : OutPacket) : Dwindles old (s.place_ o) := by
  unfold State.place_
  split
  · exact h.takePort ..
  · exact h.update

theorem Dwindles.launch {p : Packet} {ctx : Nat} {w : Waiter} {t : State} (h : Dwindles old s)
    (sent : s.launch p ctx w = some t) : Dwindles old t := by
  unfold State.launch at sent
  split at sent
  · cases sent
  · cases sent
    exact h.place_ ..

theorem Dwindles.sendTo {kind : Nat} {peer : Peer} {arg pflags : Nat} {data : List Byte} {ctx : Nat} {w : Waiter} {tag : Nat}
    {t : State} (h : Dwindles old s) (sent : s.sendTo kind peer arg pflags data ctx w = some (tag, t)) : Dwindles old t := by
  unfold State.sendTo at sent
  dsimp only at sent
  split at sent
  · cases sent
  · split at sent
    · cases sent
    · rename_i launched
      cases sent
      exact Dwindles.launch h.update launched

theorem Dwindles.modUnit (h : Dwindles old s) (u : UnitRef) (f : Dispatch → Dispatch) : Dwindles old (s.modUnit u f) :=
  h.update

theorem Dwindles.modEngine (h : Dwindles old s) (p : Nat) (e : Nat) (f : MatrixEngine → MatrixEngine) :
    Dwindles old (s.modEngine p e f) := by
  unfold State.modEngine
  exact h.modPart ..

theorem Dwindles.modVec (h : Dwindles old s) (p : Nat) (f : VectorEngine → VectorEngine) : Dwindles old (s.modVec p f) := by
  unfold State.modVec
  exact h.modPart ..

theorem Dwindles.setPace (h : Dwindles old s) (u : UnitRef) (pace : Pace) (wants : Option (SlotKind × Nat)) :
    Dwindles old (s.setPace u pace wants) := by
  unfold State.setPace
  split
  · exact h.modEngine ..
  · exact h.modVec ..
  · exact h

theorem Dwindles.takeFeed (h : Dwindles old s) (u : UnitRef) (w : Wagon) : Dwindles old (s.takeFeed u w).2 := by
  unfold State.takeFeed
  split
  · exact h
  · split
    · exact h.modEngine ..
    · dsimp only
      exact h.modVec ..
    · exact h

theorem Dwindles.settle (h : Dwindles old s) (u : UnitRef) : Dwindles old (s.settle u) := by
  unfold State.settle
  exact Dwindles.ite (h.setPace ..) h

theorem Dwindles.writeRecord (h : Dwindles old s) (ring : Nat) (index : W32) (bs : List Byte) (ecc : Ecc) :
    Dwindles old (s.writeRecord ring index bs ecc).2 := by
  unfold State.writeRecord
  dsimp only
  split
  · split
    · exact h.emit ..
    · exact h
  · split
    · exact h
    · exact h.memStore ..

theorem Dwindles.addToken (h : Dwindles old s) (tok : Nat) (n : W32) : Dwindles old (s.addToken tok n) := by
  unfold State.addToken
  exact h.modToken ..

theorem Dwindles.signalDone (h : Dwindles old s) (f : Flight) : Dwindles old (s.signalDone f) := by
  unfold State.signalDone
  exact Dwindles.ite (h.addToken ..) h

theorem Dwindles.noteMove (h : Dwindles old s) (src : W32) (f : Flight) (code : Byte) :
    Dwindles old (s.noteMove src f code) := by
  unfold State.noteMove
  exact Dwindles.ite h (h.report ..)

theorem Dwindles.freePlace (h : Dwindles old s) (u : UnitRef) : Dwindles old (s.freePlace u) := by
  unfold State.freePlace
  exact h.modUnit ..

theorem Dwindles.closeBanks (h : Dwindles old s) (p : Nat → Bool) : Dwindles old (s.closeBanks p) := h.update

theorem Dwindles.collAbortTo (h : Dwindles old s) (ctx : Nat) (group : Nat) (opseq : W32) (peers : List Nat) :
    Dwindles old (s.collAbortTo ctx group opseq peers) := by
  unfold State.collAbortTo
  refine h.foldl fun t1 a2 k3 => ?_
  split
  · exact k3
  · split
    · rename_i _ _ _ v7
      have k8 := k3.sendTo v7
      exact k8
    · exact k3

theorem Dwindles.collEnd (h : Dwindles old s) (f : Flight) (status : Byte) (except : List Nat) :
    Dwindles old (s.collEnd f status except) := by
  unfold State.collEnd
  exact ((Dwindles.ite h (h.collAbortTo ..)).update).modCtx ..

theorem Dwindles.haltWith (h : Dwindles old s) (r : Nat) (cause : HaltCause) : Dwindles old (s.haltWith r cause) :=
  have halted := h.modRing r (f := fun x => { x with state := .halted, cause := cause }) fun _ => rfl
  Dwindles.ite (halted.raiseRing ..) halted

theorem Dwindles.haltRing (h : Dwindles old s) (r : Nat) (cause : HaltCause) : Dwindles old (s.haltRing r cause) := by
  unfold State.haltRing
  exact Dwindles.ite (h.haltWith ..) h

theorem Dwindles.haltRecord (h : Dwindles old s) (f : Flight) : Dwindles old (s.haltRecord f) := by
  have passed := Dwindles.ite (c := f.status ≠ wsAborted ∧ ¬ (s.ring f.ring).recordLost)
    (h.modRing f.ring (f := fun r => { r with head := f.index + 1 }) fun _ => rfl) h
  exact Dwindles.ite (passed.raiseRing ..) passed

theorem Dwindles.abortFlight (h : Dwindles old s) (f : Flight) : Dwindles old (s.abortFlight f) := by
  unfold State.abortFlight
  dsimp only
  refine Dwindles.ite h ?_
  generalize recordBytes _ _ _ _ _ = bytes
  have wrote := (h.takeFeed f.unit f.bits).writeRecord f.ring f.index bytes .clean
  have recorded := Dwindles.ite
    (c := ((s.takeFeed f.unit f.bits).2.writeRecord f.ring f.index bytes .clean).1 = true)
    ((wrote.modRing f.ring (f := fun r => { r with recordLost := true }) fun _ => rfl).haltWith f.ring .recordFail)
    (wrote.haltRecord f.atHalt)
  have left := (recorded.freePlace f.unit).signalDone f.atHalt
  exact Dwindles.ite (left.collEnd ..) (Dwindles.ite (left.noteMove ..) left)

theorem Dwindles.stopWork (h : Dwindles old s) (c : Nat) : Dwindles old (s.stopWork c) := by
  unfold State.stopWork
  dsimp only
  refine Dwindles.modCtx (Dwindles.foldl (Dwindles.foldl (Dwindles.closeBanks ?_ ..) ?_) fun _ _ k => k.settle ..) ..
  · exact ((h.foldl (l := s.marsh.flights.filter (fun f => f.ctx = c)) (f := State.abortFlight)
      fun _ _ k => k.abortFlight ..).leave _).update
  · exact fun _ r k => k.modRing r fun _ => rfl

theorem Dwindles.haltTicket (h : Dwindles old s) (c : Nat) (ring : Nat) (cause : HaltCause) :
    Dwindles old (s.haltTicket c ring cause) := by
  unfold State.haltTicket
  exact h.event ..

theorem Dwindles.haltByRing (h : Dwindles old s) (ring : Nat) (cause : HaltCause) :
    Dwindles old (s.haltByRing ring cause) := by
  unfold State.haltByRing
  exact ((((h.stopWork ..).haltWith ..).foldl (fun t a k => k.haltRing ..)).modCtx ..).haltTicket ..

theorem Dwindles.markInvalid (h : Dwindles old s) (c : Nat) : Dwindles old (s.markInvalid c) := by
  unfold State.markInvalid
  exact h.modCtx ..

theorem Dwindles.dropRing (h : Dwindles old s) (n : Nat) : Dwindles old (s.dropRing n) := by
  unfold State.dropRing
  dsimp only
  have aborted := h.foldl (l := s.marsh.flights.filter (fun f => f.ring = n ∧ f.stage ≠ .done)) (f := State.abortFlight)
    fun _ _ k => k.abortFlight ..
  have settled := ((aborted.leave (fun f => f.ring ≠ n)).closeBanks (fun r => r = n)).foldl
    (l := s.marsh.flights.filter (fun f => f.ring = n ∧ f.stage ≠ .done)) (f := fun t f => t.settle f.unit)
    fun _ _ k => k.settle ..
  have marked := Dwindles.ite (c := s.marsh.flights.filter (fun f => f.ring = n ∧ f.stage ≠ .done) = []) settled
    (settled.markInvalid (s.ring n).ctx)
  exact Dwindles.ite (marked.haltByRing ..) marked
end Sys2Proof.Machine
end

section
/-! RING_BIND, RING_STOP and RING_UNBIND: settles O8 (R148, R159, R161, R497, R611; log entry 118). -/

namespace Sys2Proof.Machine

variable {s : State} {ch : Chan} {r : Request} {rest : List Request} {c : Nat}

theorem State.ringFenced_eq {s t : State} (mram : t.mram = s.mram) (n : Nat) : t.ringFenced n = s.ringFenced n := by
  unfold State.ringFenced State.past
  rw [mram]

theorem State.boundTo_eq {s t : State} (rings : t.rings = s.rings) (n c : Nat) : t.boundTo n c = s.boundTo n c := by
  unfold State.boundTo State.ring
  rw [rings]

theorem State.started_rings (s : State) (ch : Chan) (r : Request) (rest : List Request) :
    (s.started ch r rest).rings = s.rings := by
  obtain ⟨b, e⟩ := s.started_fields ch r rest
  rw [e]

theorem State.started_ring (s : State) (ch : Chan) (r : Request) (rest : List Request) (n : Nat) :
    (s.started ch r rest).ring n = s.ring n := by rw [State.ring, State.started_rings]; rfl

theorem State.raiseRing_eq (s : State) (n : Nat) : ∃ p o, s.raiseRing n = { s with pcie := p, out := o } := by
  unfold State.raiseRing State.raiseVector State.msixNow
  dsimp only
  split
  · exact ⟨_, s.out, rfl⟩
  · split
    · exact ⟨_, s.out, rfl⟩
    · exact ⟨_, _, rfl⟩

/-- R161, R170: a ring that halts, and its interrupt. -/
theorem State.haltWith_eq (s : State) (n : Nat) (cause : HaltCause) : ∃ p o, s.haltWith n cause =
    { s.modRing n (fun x => { x with state := .halted, cause := cause }) with pcie := p, out := o } := by
  unfold State.haltWith
  dsimp only
  split
  · exact State.raiseRing_eq ..
  · exact ⟨_, _, rfl⟩

theorem State.haltRing_ctxs (s : State) (n : Nat) (cause : HaltCause) : (s.haltRing n cause).ctxs = s.ctxs := by
  unfold State.haltRing
  split
  · obtain ⟨p, o, e⟩ := s.haltWith_eq n cause
    rw [e]
    rfl
  · rfl

theorem Request.bindRefusal_none (ring : r.get 6 2 ≤ 4095) (least : 6 ≤ r.get 8 1) (most : r.get 8 1 ≤ 16)
    (host : r.get 9 1 ≤ 1) (irq : r.get 10 1 ≤ 2) (fed : r.get 11 1 ≤ 1) (once : ¬ (r.get 9 1 = 1 ∧ r.get 11 1 = 1))
    (peer : r.get 11 1 = 1 → r.get 12 2 ≤ 1023) (base : r.get 24 8 % (64 * 2 ^ r.get 8 1) = 0)
    (records : r.get 32 8 % (16 * 2 ^ r.get 8 1) = 0) : r.bindRefusal = none := by
  unfold Request.bindRefusal
  dsimp only
  rw [if_neg (by omega), if_neg (by omega), if_neg (by omega), if_neg (by omega), if_neg (by omega),
    if_neg (by rintro ⟨is, high⟩; exact absurd (peer is) (by omega)), if_neg (by simp [base]), if_neg (by simp [records])]

theorem Request.boundRing_ne (r : Request) (st : CtxState) : r.boundRing st ≠ Ring.reset := by
  intro same
  have state := congrArg Ring.state same
  unfold Request.boundRing at state
  dsimp only at state
  split at state
  · cases state
  · cases state

/-- R159, R161: RING_BIND of an unbound ring with its fields in range. -/
theorem execRingBind_asked (asked : Asked s ch 0x0210 r rest) (shaped : Shaped r 40 [(14, 2), (20, 4)])
    (power : s.power.state ≠ .holdUp) (names : Naming s r c) (accepts : r.bindRefusal = none)
    (fenced : s.ringFenced (r.get 6 2) = false) (unbound : (s.ring (r.get 6 2)).state = .unbound) :
    exec (.ringBind ch) s = .next
      (((s.started ch r rest).modRing (r.get 6 2) (fun _ => r.boundRing (s.ctx c).state)).ok r []) := by
  show Host.Outcome.next (s.onRequest ch _ _ _) = _
  rw [asked.turnRuns (by rfl) (fun h => absurd h power) rfl rfl shaped.lenOk shaped.2 fun _ => names.passes ch rest]
  have mram : (s.started ch r rest).mram = s.mram := s.started_mram ch r rest
  simp only [accepts, State.ringFenced_eq mram, fenced, State.started_ring, unbound, State.started_ctx, names.1]
  rfl

/-- R161: RING_STOP of a running ring. -/
theorem execRingStop_asked (asked : Asked s ch 0x0211 r rest) (shaped : Shaped r 8 []) (power : s.power.state ≠ .holdUp)
    (names : Naming s r c) (bound : s.boundTo (r.get 6 2) c = true) :
    exec (.ringStop ch) s = .next ((((s.started ch r rest).haltRing (r.get 6 2) .hostStop).modRing (r.get 6 2)
      Ring.unfetch).ok r (leBytes 4 (s.ring (r.get 6 2)).head.toNat)) := by
  show Host.Outcome.next (s.onRequest ch _ _ _) = _
  rw [asked.turnRuns (by rfl) (fun h => absurd h power) rfl rfl shaped.lenOk shaped.2 fun _ => names.passes ch rest]
  simp only [State.boundTo_eq (s.started_rings ch r rest), names.1, bound, State.started_ring, not_true_eq_false, if_false]

/-- R161: RING_UNBIND of a halted ring. -/
theorem execRingUnbind_asked (asked : Asked s ch 0x0212 r rest) (shaped : Shaped r 8 []) (power : s.power.state ≠ .holdUp)
    (names : Naming s r c) (bound : s.boundTo (r.get 6 2) c = true) (halted : (s.ring (r.get 6 2)).state = .halted) :
    exec (.ringUnbind ch) s = .next ((((s.started ch r rest).dropRing (r.get 6 2)).modRing (r.get 6 2)
      (fun _ => Ring.reset)).ok r []) := by
  show Host.Outcome.next (s.onRequest ch _ _ _) = _
  rw [asked.turnRuns (by rfl) (fun h => absurd h power) rfl rfl shaped.lenOk shaped.2 fun _ => names.passes ch rest]
  simp only [State.boundTo_eq (s.started_rings ch r rest), names.1, bound, State.started_ring, not_true_eq_false, if_false,
    halted, reduceCtorEq]

theorem Ring.unfetch_window (r : Ring) : r.unfetch.window = [] := by
  unfold Ring.unfetch
  split
  · assumption
  · rfl

theorem Ring.unfetch_keeps (r : Ring) : r.unfetch.state = r.state ∧ r.unfetch.cause = r.cause ∧ r.unfetch.head = r.head ∧
    r.unfetch.tail = r.tail := by
  unfold Ring.unfetch
  split
  · exact ⟨rfl, rfl, rfl, rfl⟩
  · exact ⟨rfl, rfl, rfl, rfl⟩

theorem Ring.ne_reset {r : Ring} (bound : r.state ≠ .unbound) : r ≠ Ring.reset := fun same => bound (by rw [same]; rfl)

/-- R161: what RING_STOP leaves of the rings, and of the rest. -/
theorem State.stopped_rings {n : Nat} (running : (s.ring n).state = .running) :
    let t := (s.haltRing n .hostStop).modRing n Ring.unfetch
    t.ring n = Ring.unfetch { s.ring n with state := .halted, cause := .hostStop } ∧ (∀ m, m ≠ n → t.ring m = s.ring m) ∧
      t.ctxs = s.ctxs ∧ t.marsh = s.marsh ∧ t.mem = s.mem := by
  obtain ⟨p, o, halted⟩ := s.haltWith_eq n .hostStop
  have at_ : (s.haltRing n .hostStop).ring n = { s.ring n with state := .halted, cause := .hostStop } := by
    rw [State.haltRing, if_pos running, halted]
    exact s.ring_modRing_ne n (fun x => { x with state := .halted, cause := .hostStop }) (Ring.ne_reset (by simp))
  have others (m : Nat) (other : m ≠ n) : (s.haltRing n .hostStop).ring m = s.ring m := by
    rw [State.haltRing, if_pos running, halted]
    exact s.ring_modRing_other (fun x => { x with state := .halted, cause := .hostStop }) other
  refine ⟨?_, fun m other => (State.ring_modRing_other _ _ other).trans (others m other), ?_⟩
  · rw [State.ring_modRing_ne, at_]
    rw [at_]
    exact Ring.ne_reset (by rw [(Ring.unfetch_keeps _).1]; simp)
  · rw [State.haltRing, if_pos running, halted]
    exact ⟨rfl, rfl, rfl⟩

/-- A change of a context that leaves it with an invalid step is read back. -/
theorem State.modCtx_invalid {f : Context → Context} (invalid : (f (s.ctx c)).stepInvalid = true) :
    ((s.modCtx c f).ctx c).stepInvalid = true := by
  rw [State.ctx, State.modCtx, Table.get_mod_ne]
  · exact invalid
  · intro reset
    have fresh := congrArg Context.stepInvalid reset
    rw [show Table.get Context.reset s.ctxs c = s.ctx c from rfl, invalid] at fresh
    cases fresh

theorem State.stopWork_invalid (s : State) (c : Nat) : ((s.stopWork c).ctx c).stepInvalid = true :=
  State.modCtx_invalid rfl

/-- R206: a halt marks the step of the ring's context invalid. -/
theorem State.haltByRing_invalid (s : State) (n : Nat) (cause : HaltCause) :
    ((s.haltByRing n cause).ctx (s.ring n).ctx).stepInvalid = true := by
  unfold State.haltByRing State.haltTicket
  dsimp only
  generalize leBytes 4 _ ++ _ ++ _ ++ _ ++ _ = payload
  obtain ⟨b, noted⟩ := State.event_eq ((((s.ringsOf (s.ring n).ctx).foldl (fun t r => t.haltRing r .context)
    ((s.stopWork (s.ring n).ctx).haltWith n cause))).modCtx (s.ring n).ctx (fun x => { x with state := .halted }))
    0x0280 payload
  rw [noted]
  refine State.modCtx_invalid (f := fun x => { x with state := .halted }) ?_
  have rings := foldl_keeps State.ctxs (f := fun t r => t.haltRing r .context) (fun t r => t.haltRing_ctxs r .context)
    (s.ringsOf (s.ring n).ctx) ((s.stopWork (s.ring n).ctx).haltWith n cause)
  obtain ⟨p, o, halted⟩ := (s.stopWork (s.ring n).ctx).haltWith_eq n cause
  rw [State.ctx, rings, halted]
  exact s.stopWork_invalid _

/-- The wagons of a ring that are not done. -/
def State.aboard (s : State) (n : Nat) : List Flight := s.marsh.flights.filter (fun f => f.ring = n ∧ f.stage ≠ .done)

/-- The ring dropped, but for the mark on its step: wagons aborted and gone, tile sequences closed (log entry 118). -/
def State.ringEmptied (s : State) (n : Nat) : State :=
  let t := (s.aboard n).foldl State.abortFlight s
  (s.aboard n).foldl (fun t f => t.settle f.unit)
    ({ t with marsh.flights := t.marsh.flights.filter (fun f => f.ring ≠ n) }.closeBanks (fun r => r = n))

theorem State.dropRing_eq (s : State) (n : Nat) : s.dropRing n =
    let t := if s.aboard n = [] then s.ringEmptied n else (s.ringEmptied n).markInvalid (s.ring n).ctx
    if (t.ring n).recordLost ∧ ¬ (s.ring n).recordLost then t.haltByRing n .recordFail else t := rfl

theorem State.ringEmptied_dwindles (s : State) (n : Nat) : Dwindles s (s.ringEmptied n) := by
  have aborted := (Dwindles.refl s).foldl (l := s.aboard n) (f := State.abortFlight) fun _ _ k => k.abortFlight ..
  exact ((aborted.leave (fun f => f.ring ≠ n)).closeBanks (fun r => r = n)).foldl fun _ _ k => k.settle ..

theorem State.ringEmptied_flights (s : State) (n : Nat) : ∀ f ∈ (s.ringEmptied n).marsh.flights, f.ring ≠ n := by
  have aborted : ∀ f ∈ ((s.aboard n).foldl State.abortFlight s).marsh.flights.filter (fun f => f.ring ≠ n), f.ring ≠ n :=
    fun f there => by simpa using (List.mem_filter.mp there).2
  intro f there
  refine aborted f ((Dwindles.foldl (old := { (s.aboard n).foldl State.abortFlight s with
    marsh.flights := ((s.aboard n).foldl State.abortFlight s).marsh.flights.filter (fun f => f.ring ≠ n) })
    ((Dwindles.refl _).closeBanks (fun r => r = n)) fun _ _ k => k.settle ..).flights there)

/-- Log entry 118: no wagon of a dropped ring stays dispatched. -/
theorem State.dropRing_flights (s : State) (n : Nat) : ∀ f ∈ (s.dropRing n).marsh.flights, f.ring ≠ n := by
  intro f there
  rw [State.dropRing_eq] at there
  generalize marked : (if s.aboard n = [] then s.ringEmptied n else (s.ringEmptied n).markInvalid (s.ring n).ctx) = t at there
  have same : t.marsh = (s.ringEmptied n).marsh := by
    rw [← marked]
    split
    · rfl
    · rfl
  have kept : f ∈ t.marsh.flights := by
    dsimp only at there
    split at there
    · exact ((Dwindles.refl t).haltByRing n .recordFail).flights there
    · exact there
  exact s.ringEmptied_flights n f (same ▸ kept)

/-- A ring without a wagon aboard is dropped with nothing else. -/
theorem State.dropRing_empty {n : Nat} (none_ : s.aboard n = []) :
    (s.dropRing n).rings = s.rings ∧ (s.dropRing n).ctxs = s.ctxs ∧ (s.dropRing n).mem = s.mem := by
  have rings : ((s.ringEmptied n).ring n).recordLost = (s.ring n).recordLost := by
    rw [State.ringEmptied, none_]
    rfl
  rw [State.dropRing_eq, if_pos none_, if_neg (by rw [rings]; simp)]
  rw [State.ringEmptied, none_]
  exact ⟨rfl, rfl, rfl⟩

/-- R148: wagons aboard a dropped ring leave the step invalid. -/
theorem State.dropRing_invalid {n : Nat} (form : s.rings.wf Ring.reset = true) (some_ : s.aboard n ≠ []) :
    ((s.dropRing n).ctx (s.ring n).ctx).stepInvalid = true := by
  rw [State.dropRing_eq, if_neg some_]
  dsimp only
  split
  · have same : (((s.ringEmptied n).markInvalid (s.ring n).ctx).ring n).ctx = (s.ring n).ctx :=
      ((s.ringEmptied_dwindles n).rings form).2 n
    have invalid := ((s.ringEmptied n).markInvalid (s.ring n).ctx).haltByRing_invalid n .recordFail
    rwa [same] at invalid
  · exact State.modCtx_invalid rfl

/-- Settles O8: the requests' own rules, over what the drop of a ring leaves. -/
theorem ringBindStopUnbind : Obligations.RingBindStopUnbind := by
  intro s r rest ch c power names n
  refine ⟨?_, fun asked shaped bound running => ?_, fun asked shaped bound halted form => ?_⟩
  · intro asked shaped sz ring least most host irq fed once peer base records fenced unbound
    have accepts := Request.bindRefusal_none ring least most host irq fed once peer base records
    refine ⟨_, execRingBind_asked asked shaped power names accepts fenced unbound, ?_, State.ok_answered .., ?_, ?_⟩
    · obtain ⟨b, started⟩ := s.started_fields ch r rest
      rw [State.ok_rings, started]
      exact OnlyBook.trans (by rfl) (State.ok_only ..)
    · intro m other
      rw [State.ring, State.ok_rings]
      exact (State.ring_modRing_other _ _ other).trans (s.started_ring ..)
    · rw [State.ring, State.ok_rings]
      refine (State.ring_modRing_ne _ n (fun _ => r.boundRing (s.ctx c).state)
        (r.boundRing_ne (s.ctx c).state)).trans ?_
      rw [Request.boundRing, names.1]
      rfl
  · obtain ⟨at_, others, ctxs, marsh, mem⟩ := State.stopped_rings (s := s.started ch r rest) (n := n)
      (by rwa [State.started_ring])
    obtain ⟨state, cause, head, tail⟩ := Ring.unfetch_keeps
      { (s.started ch r rest).ring n with state := .halted, cause := .hostStop }
    refine ⟨_, execRingStop_asked asked shaped power names bound, ?_⟩
    obtain ⟨b, started⟩ := s.started_fields ch r rest
    have replied := State.ok_only (((s.started ch r rest).haltRing n .hostStop).modRing n Ring.unfetch) r
      (leBytes 4 (s.ring n).head.toNat)
    have answered := State.ok_answered (((s.started ch r rest).haltRing n .hostStop).modRing n Ring.unfetch) r
      (leBytes 4 (s.ring n).head.toNat)
    generalize State.ok _ _ _ = t at *
    unfold OnlyBook at replied
    have ring (m : Nat) : t.ring m = (((s.started ch r rest).haltRing n .hostStop).modRing n Ring.unfetch).ring m := by
      rw [replied]
      rfl
    rw [ring n, at_]
    refine ⟨state, cause, Ring.unfetch_window _, head.trans ?_, tail.trans ?_, fun m other => ?_, ?_, ?_, ?_, answered⟩
    · exact (congrArg Ring.head (s.started_ring ch r rest n) :)
    · exact (congrArg Ring.tail (s.started_ring ch r rest n) :)
    · rw [ring m, others m other, State.started_ring]
    · rw [replied]
      exact ctxs.trans (by rw [started])
    · rw [replied]
      exact marsh.trans (by rw [started])
    · rw [replied]
      exact mem.trans (by rw [started])
  · have flights := (s.started ch r rest).dropRing_flights n
    obtain ⟨b, started⟩ := s.started_fields ch r rest
    have canonical : (s.started ch r rest).rings.wf Ring.reset = true := by rwa [State.started_rings]
    have kept := (((Dwindles.refl (s.started ch r rest)).dropRing n).rings canonical).1
    have aboard : (s.started ch r rest).aboard n = s.aboard n := by rw [started]; rfl
    refine ⟨_, execRingUnbind_asked asked shaped power names bound halted, ?_, ?_, State.ok_answered .., ?_, ?_⟩
    · rw [State.ring, State.ok_rings]
      exact Table.get_mod_same _ _ n (fun _ => Ring.reset) kept
    · rw [show State.ok _ _ _ = _ from State.ok_only ..]
      exact flights
    · intro done
      have empty : s.aboard n = [] := List.filter_eq_nil_iff.mpr fun f there => by
        simpa using done f there
      obtain ⟨rings, ctxs, mem⟩ := State.dropRing_empty (aboard.trans empty)
      rw [State.ok_mem, show State.ok _ _ _ = _ from State.ok_only ..]
      refine ⟨fun m other => ?_, ctxs.trans (by rw [started]), mem.trans (by rw [started])⟩
      refine (((s.started ch r rest).dropRing n).ring_modRing_other (fun _ => Ring.reset) other).trans ?_
      rw [State.ring, rings]
      exact s.started_ring ..
    · rintro ⟨f, there, mine, live⟩
      have some_ : (s.started ch r rest).aboard n ≠ [] := by
        rw [aboard]
        exact List.ne_nil_of_mem (List.mem_filter.mpr ⟨there, by simp [mine, live]⟩)
      have invalid := State.dropRing_invalid canonical some_
      have ctx : (s.ring n).ctx = c := by
        simp only [State.boundTo, Bool.and_eq_true, decide_eq_true_eq] at bound
        exact bound.2
      rw [State.started_ring, ctx] at invalid
      rw [State.ok_ctx]
      exact invalid

end Sys2Proof.Machine
end

section
/-! NOP, TOKEN_SET, TOKEN_SIGNAL and TOKEN_WAIT wagons: settles O14 (R98, R176, R183, R184, R190 to R194). -/

namespace Sys2Proof.Machine

variable {s : State} {ring : Fin 4096} {index : W32} {f : Flight} {op : Nat}

/-- A TOKEN_WAIT at the token unit does what its command says. -/
theorem State.onFlight_runs {ok : Flight → Bool} (there : s.flight ring.val index = some f) (clock : s.frozen = false)
    (runs : ok f = true) (act : Flight → State → State) : s.onFlight ring.val index ok act = act f s := by
  unfold State.onFlight
  simp only [there, clock, runs, Bool.false_eq_true, not_true_eq_false, or_self, if_false]

theorem atTokenUnit_here (here : f.stage = .queued ∨ f.stage = .started) (opcode : wOpcode f.bits = op) :
    atTokenUnit op f = true := by
  unfold atTokenUnit
  rcases here with stage | stage
  · simp [stage, opcode]
  · simp [stage, opcode]

/-- R176: a wagon whose fence is not met waits, and nothing happens. -/
theorem State.onFenced_waits (there : s.flight ring.val index = some f) (unmet : s.fenceMet f = false)
    (act : Flight → State → State) : s.onFenced op ring.val index act = s := by
  unfold State.onFenced State.onFlight
  simp only [there, unmet]
  split
  · rfl
  · rfl

/-- R183: a write of a token that has an owner reads back, and leaves every other token. -/
theorem State.token_modToken_owned {k : Nat} {g : Token → Token} (owned : (g (s.token k)).owner.isSome = true) (i : Nat) :
    (s.modToken k g).token i = if i = k then g (s.token k) else s.token i := by
  split
  next same =>
    subst same
    refine Table.get_mod_ne _ _ _ _ fun free => ?_
    rw [show Table.get Token.reset s.tokens i = s.token i from rfl] at free
    rw [free] at owned
    cases owned
  next other => exact Table.get_mod_other _ _ _ other

theorem State.flight_modFlight {ring : Nat} {g : Flight → Flight} (there : s.flight ring index = some f)
    (kept : ∀ h : Flight, h.is ring index = true → (g h).is ring index = true) :
    (s.modFlight ring index g).flight ring index = some (g f) := by
  have is := Flight.is_of_flight there
  have same : (fun h => Flight.is h ring index) ∘ (fun h => if h.is ring index = true then g h else h) =
      fun h => h.is ring index := by
    funext h
    dsimp only [Function.comp]
    split
    next mine => rw [kept h mine, mine]
    next => rfl
  unfold State.flight at there ⊢
  rw [State.modFlight, List.find?_map, same, there, Option.map_some, if_pos is]

/-- Settles O14: one command for each wagon. -/
theorem tokenWagons : Obligations.TokenWagons := by
  intro s ring x f there clock here good k v met
  have fenced {op : Nat} (opcode : wOpcode f.bits = op) (passed : s.fenceMet f = true) : AtFence s ring.val x f op :=
    ⟨there, clock, here, good, opcode, passed⟩
  refine ⟨fun opcode passed => ?_, fun opcode => ⟨fun m => ?_, fun m => ?_, fun m timed => ?_⟩, fun opcode passed owned => ?_,
    fun opcode passed => ⟨fun near owned => ?_, fun p far peer node forms routed => ?_⟩,
    fun unmet => ⟨fun _ => ?_, fun _ => ?_, fun _ => ?_⟩⟩
  · exact congrArg Host.Outcome.next ((fenced opcode passed).onFenced _)
  · have reached : waitMet (s.token k).value v = true := decide_eq_true m
    show Host.Outcome.next (s.onFlight ring.val x _ _) = _
    rw [State.onFlight_runs there clock (atTokenUnit_here here opcode)]
    simp only [good, reached, Bool.false_eq_true, if_false, if_true, k, v]
  · have below : waitMet (s.token k).value v = false := decide_eq_false m
    show Host.Outcome.next (s.onFlight ring.val x _ _) = _
    rw [State.onFlight_runs there clock (atTokenUnit_here here opcode)]
    simp only [good, below, Bool.false_eq_true, if_false, k, v]
  · have below : waitMet (s.token k).value v = false := decide_eq_false m
    show Host.Outcome.next (s.onFlight ring.val x _ _) = _
    rw [State.onFlight_runs there clock (atTokenUnit_here here opcode)]
    simp only [good, below, timed, Bool.false_eq_true, or_self, if_false, k, v]
  · refine ⟨_, congrArg Host.Outcome.next ((fenced opcode passed).onFenced _), rfl, fun i => ?_⟩
    exact State.token_modToken_owned (s := s) (g := fun t => { t with value := v }) owned i
  · refine ⟨_, congrArg Host.Outcome.next (((fenced opcode passed).onFenced _).trans (if_pos (by simp [near]))), rfl,
      fun i => ?_⟩
    exact State.token_modToken_owned (s := s) (g := fun t => { t with value := t.value + v }) owned i
  · obtain ⟨u, port, sends, keeps, sent⟩ := State.sendTo_sent (s := s) (kind := 2) (p := p) rfl node forms routed
      (k * 2 ^ 32 + v.toNat) 0 [] f.ctx (.wagon ring.val x)
    have runs : exec (.tokenSignal ring x) s = .next
        (u.modFlight ring.val x (fun g => { g with stage := .waiting, tags := [s.rails.nextTag] })) := by
      refine congrArg Host.Outcome.next (((fenced opcode passed).onFenced _).trans ((if_neg (by simp [far])).trans ?_))
      simp only [peer]
      rw [sends]
    refine ⟨_, _, _, runs, by rw [keeps]; rfl, State.flight_modFlight (f := f) ?_ ?_, rfl, rfl, sent, rfl, rfl, rfl, rfl⟩
    · rw [keeps]
      exact there
    · intro g mine
      simp only [Flight.is, Bool.and_eq_true] at mine ⊢
      exact ⟨mine.1, rfl⟩
  · exact congrArg Host.Outcome.next (State.onFenced_waits there unmet _)
  · exact congrArg Host.Outcome.next (State.onFenced_waits there unmet _)
  · exact congrArg Host.Outcome.next (State.onFenced_waits there unmet _)

end Sys2Proof.Machine
end

section
/-! The completion of a wagon: settles O16 (R25, R147, R167, R168, R170). -/

namespace Sys2Proof.Machine

variable {s : State} {ring : Fin 4096} {index : W32} {f : Flight}

/-! ### The record -/

/-- R167: a record that meets no bad line is written, to the host or to module memory. -/
theorem State.writeRecord_written {n : Nat} {bs : List Byte} (long : bs.length = 16)
    (open_ : let q := s.ring n
      let a := q.cplBase + 16 * (index.toNat % 2 ^ q.logSize)
      (q.host = true ∧ s.hostUp = true) ∨ (q.host = false ∧ ∃ pa, (s.ctx q.ctx).translate true a = some pa ∧
        ∀ l ∈ s.mem.damaged, l * 64 + 64 ≤ pa ∨ pa + 16 ≤ l * 64)) :
    let q := s.ring n
    let a := q.cplBase + 16 * (index.toNat % 2 ^ q.logSize)
    ∃ o m, s.writeRecord n index bs .clean = (false, { s with out := o, mem.bytes := m }) ∧
      (q.host = true → m = s.mem.bytes ∧ .hostWrite a bs false ∈ o) ∧
      ∀ pa, q.host = false → (s.ctx q.ctx).translate true a = some pa → m = s.mem.bytes.write pa bs := by
  unfold State.writeRecord
  dsimp only
  rcases open_ with ⟨host, up⟩ | ⟨local_, pa, mapped, sound⟩
  · refine ⟨_, s.mem.bytes, by rw [if_pos host, if_pos up]; rfl, fun _ => ⟨rfl, by simp⟩, fun _ other => ?_⟩
    rw [host] at other
    cases other
  · refine ⟨s.out, s.mem.bytes.write pa bs, ?_, fun host => absurd (local_.symm.trans host) Bool.false_ne_true,
      fun pa' _ there => ?_⟩
    · rw [if_neg (by simp [local_])]
      simp only [mapped]
      exact State.memStore_sound lineErr_clean 2 (by rw [long]; exact sound) (by omega)
    · rw [mapped] at there
      cases there
      rfl

/-! ### What the completion does besides -/

/-- The state after a decided wagon's record: its token signalled, its place freed, its wagon done and HEAD moved. -/
def State.completed (s : State) (ring : Nat) (index : W32) (f : Flight) : State :=
  let t := (s.signalDone f).countDone f
  let t := (t.freePlace f.unit).mileUnit f.unit
  ((t.modFlight ring index (fun x => { x with stage := .done })).noteFence ring).passHead ring

theorem State.signalDone_eq (s : State) (f : Flight) : s.signalDone f = { s with tokens := (s.signalDone f).tokens } := by
  unfold State.signalDone
  split
  · rfl
  · rfl

theorem State.countDone_eq (s : State) (f : Flight) : s.countDone f = { s with rings := (s.countDone f).rings } := by
  unfold State.countDone
  split
  · split
    · rfl
    · rfl
  · rfl

theorem State.mileUnit_eq (s : State) (u : UnitRef) : ∃ g, s.mileUnit u = { s with sbx := g } := by
  unfold State.mileUnit
  split
  · exact ⟨s.sbx, rfl⟩
  · exact ⟨s.sbx, rfl⟩
  · exact ⟨_, rfl⟩

theorem State.passHead_eq (s : State) (n : Nat) : ∃ g fs, s.passHead n =
    { s with rings := (s.passHead n).rings, marsh.flights := fs, sbx := g } ∧ fs ⊆ s.marsh.flights := by
  unfold State.passHead
  dsimp only
  split
  · exact ⟨s.sbx, s.marsh.flights, rfl, List.Subset.refl _⟩
  · split
    · exact ⟨s.sbx, s.marsh.flights, rfl, List.Subset.refl _⟩
    · exact ⟨_, _, rfl, List.filter_subset_self _⟩

/-- A bound ring that is changed and stays bound reads as written. -/
theorem State.ring_modRing_bound {n : Nat} {g : Ring → Ring} (bound : (g (s.ring n)).state ≠ .unbound) :
    (s.modRing n g).ring n = g (s.ring n) := s.ring_modRing_ne n g (Ring.ne_reset bound)

/-- The ring of a completed wagon, but for its counts and HEAD. -/
structure SameRing (q r : Ring) : Prop where
  state : r.state = q.state
  irq : r.irq = q.irq
  recordLost : r.recordLost = q.recordLost

theorem State.countDone_ring {n : Nat} (mine : f.ring = n) (running : (s.ring n).state = .running) :
    SameRing (s.ring n) ((s.countDone f).ring n) := by
  unfold State.countDone
  split
  · split
    · rw [mine, State.ring_modRing_bound (by simp [Ring.modCount, running])]
      exact ⟨rfl, rfl, rfl⟩
    · exact ⟨rfl, rfl, rfl⟩
  · exact ⟨rfl, rfl, rfl⟩

theorem State.passHead_ring {n : Nat} (running : (s.ring n).state = .running) :
    SameRing (s.ring n) ((s.passHead n).ring n) := by
  unfold State.passHead
  dsimp only
  split
  · exact ⟨rfl, rfl, rfl⟩
  · split
    · exact ⟨rfl, rfl, rfl⟩
    · rename_i g _ _
      have moved := s.ring_modRing_bound (n := n) (g := fun r => { r with head := g.index + 1 }) (by simp [running])
      refine ⟨?_, ?_, ?_⟩
      · exact (congrArg Ring.state moved :)
      · exact (congrArg Ring.irq moved :)
      · exact (congrArg Ring.recordLost moved :)

/-- R168: HEAD passes the last wagon of those complete at the ring's head. -/
theorem State.passHead_head {n : Nat} {g : Flight} (last : (doneAtHead n s.marsh.flights).getLast? = some g)
    (whole : (s.ring n).recordLost = false) (running : (s.ring n).state = .running) :
    ((s.passHead n).ring n).head = g.index + 1 := by
  unfold State.passHead
  simp only [last, whole, Bool.false_eq_true, if_false]
  exact (congrArg Ring.head
    (s.ring_modRing_bound (n := n) (g := fun r => { r with head := g.index + 1 }) (by simp [running])) :)

/-- A wagon as its completion leaves it, its fence noted. -/
def State.doneAs (s : State) (ring : Nat) (index : W32) (g : Flight) : Flight :=
  let h := if g.is ring index then { g with stage := .done } else g
  let t := s.modFlight ring index (fun x => { x with stage := .done })
  if h.ring = ring ∧ wOpcode h.bits = 0x43 ∧ h.fence = none ∧ t.fenceMet h then
    { h with fence := some (t.ctx h.ctx).stepInvalid } else h

theorem State.doneAs_keeps (s : State) (ring : Nat) (index : W32) (g : Flight) :
    (s.doneAs ring index g).ring = g.ring ∧ (s.doneAs ring index g).index = g.index ∧
      (s.doneAs ring index g).stage = if g.is ring index then .done else g.stage := by
  unfold State.doneAs
  dsimp only
  split
  · split
    · exact ⟨rfl, rfl, rfl⟩
    · exact ⟨rfl, rfl, rfl⟩
  · split
    · exact ⟨rfl, rfl, rfl⟩
    · exact ⟨rfl, rfl, rfl⟩

theorem State.doneAs_flights (s : State) (ring : Nat) (index : W32) :
    ((s.modFlight ring index (fun x => { x with stage := .done })).noteFence ring).marsh.flights =
      s.marsh.flights.map (s.doneAs ring index) := by
  unfold State.noteFence
  dsimp only
  rw [State.modFlight]
  dsimp only
  rw [List.map_map]
  rfl

/-- No wagon of the ring at the index stays that is not done. -/
theorem State.doneAs_is (s : State) (ring : Nat) (index : W32) (g : Flight) :
    (s.doneAs ring index g).is ring index = false := by
  obtain ⟨atRing, at_, stage⟩ := s.doneAs_keeps ring index g
  unfold Flight.is
  rw [atRing, at_, stage]
  split
  · simp
  · rename_i other
    simpa [Flight.is] using other

/-- R168: a completed wagon at the head of its ring, with none complete behind it, is the one that HEAD passes. -/
theorem State.doneAs_last {n : Nat} {others : List Flight} (is : f.is n index = true)
    (first : s.marsh.flights.filter (fun g => g.ring = n) = f :: others)
    (open_ : ∀ g ∈ others, g.stage ≠ .done ∧ g.index ≠ index) :
    (doneAtHead n (s.marsh.flights.map (s.doneAs n index))).getLast? = some (s.doneAs n index f) := by
  have ring : (fun g : Flight => Decidable.decide (g.ring = n)) ∘ s.doneAs n index =
      fun g => Decidable.decide (g.ring = n) := by
    funext g
    simp only [Function.comp, (s.doneAs_keeps n index g).1]
  have done : (s.doneAs n index f).stage = .done := by rw [(s.doneAs_keeps n index f).2.2, if_pos is]
  have rest : (others.map (s.doneAs n index)).takeWhile (fun g => g.stage = .done) = [] := by
    cases others with
    | nil => rfl
    | cons g l =>
      obtain ⟨live, other⟩ := open_ g List.mem_cons_self
      have stays : g.is n index = false := by simp [Flight.is, other]
      have stage := (s.doneAs_keeps n index g).2.2
      rw [stays] at stage
      simp [stage, live]
  unfold doneAtHead
  rw [List.filter_map, ring, first, List.map_cons, List.takeWhile_cons, if_pos (by simpa using done), rest]
  rfl

/-! ### The completion -/

/-- A wagon decided OK halts nothing. -/
theorem Flight.halts_ok (ok : f.status = wsOk) : f.halts = none := by
  unfold Flight.halts
  rw [if_neg (fun waited => absurd (ok.symm.trans waited.2) (by decide)), if_neg (by simp [ok])]

/-- A decided OK wagon whose record is written completes, and raises its ring's interrupt as its mode says. -/
theorem execWagonComplete_ok {u : State} (there : s.flight ring.val index = some f) (clock : s.frozen = false)
    (decided : f.stage = .decided) (ok : f.status = wsOk)
    (wrote : s.writeRecord ring.val index (recordBytes (s.recordStep f) index f.gen f.flags f.status) .clean = (false, u)) :
    exec (.wagonComplete ring index .clean) s = .next (
      let t := u.completed ring.val index f
      if interrupts (t.ring ring.val).irq f then t.raiseRing ring.val else t) := by
  show Host.Outcome.next (s.onFlight ring.val index _ _) = _
  rw [State.onFlight_runs there clock (by simp [decided])]
  dsimp only
  rw [if_pos ok, wrote]
  simp only [Bool.false_eq_true, if_false, Flight.halts_ok ok]
  rfl

/-- What the completion changes after the record: tokens, rings, the queue place, the wagons and the mileposts. -/
theorem State.completed_fields (s : State) (n : Nat) (index : W32) (f : Flight) :
    ∃ r g fs, s.completed n index f = { s with
      rings := r, tokens := (s.signalDone f).tokens, sbx := g
      marsh := { (s.freePlace f.unit).marsh with flights := fs } } ∧ ∀ x ∈ fs, x.is n index = false := by
  unfold State.completed
  dsimp only
  generalize counted : (s.signalDone f).countDone f = t
  obtain ⟨g, miled⟩ := (t.freePlace f.unit).mileUnit_eq f.unit
  rw [miled]
  generalize before : (({ t.freePlace f.unit with sbx := g }.modFlight n index
    (fun x => { x with stage := .done })).noteFence n) = v
  obtain ⟨h, fs, passed, kept⟩ := v.passHead_eq n
  rw [passed, ← before, ← counted, State.countDone_eq, State.signalDone_eq]
  refine ⟨_, _, fs, rfl, fun x there => ?_⟩
  have was := kept there
  rw [← before, State.doneAs_flights] at was
  obtain ⟨y, -, rfl⟩ := List.mem_map.mp was
  exact State.doneAs_is ..

/-- The state that HEAD is passed in. -/
theorem State.completed_ring {n : Nat} (mine : f.ring = n) (running : (s.ring n).state = .running) :
    SameRing (s.ring n) ((s.completed n index f).ring n) ∧
      ((s.ring n).recordLost = false → f.is n index = true → ∀ others,
        s.marsh.flights.filter (fun g => g.ring = n) = f :: others → (∀ g ∈ others, g.stage ≠ .done ∧ g.index ≠ index) →
        ((s.completed n index f).ring n).head = index + 1) := by
  have signalled : (s.signalDone f).ring n = s.ring n := by
    rw [State.signalDone_eq]
    rfl
  have counted := State.countDone_ring (s := s.signalDone f) mine (by rw [signalled]; exact running)
  rw [signalled] at counted
  unfold State.completed
  dsimp only
  generalize given : (s.signalDone f).countDone f = t at *
  obtain ⟨g, miled⟩ := (t.freePlace f.unit).mileUnit_eq f.unit
  rw [miled]
  generalize done : ({ t.freePlace f.unit with sbx := g }.modFlight n index (fun x => { x with stage := .done })) = d
  have ring : (d.noteFence n).ring n = t.ring n := by
    rw [← done]
    rfl
  have passed := State.passHead_ring (s := d.noteFence n) (n := n) (by rw [ring, counted.state]; exact running)
  rw [ring] at passed
  refine ⟨⟨passed.state.trans counted.state, passed.irq.trans counted.irq, passed.recordLost.trans counted.recordLost⟩,
    fun whole is others first open_ => ?_⟩
  have flights : t.marsh.flights = s.marsh.flights := by
    rw [← given, State.countDone_eq, State.signalDone_eq]
  have last := State.doneAs_last (s := { t.freePlace f.unit with sbx := g }) is
    (by rw [← first]; exact congrArg _ flights) open_
  rw [← State.doneAs_flights, done] at last
  rw [State.passHead_head last (by rw [ring, counted.recordLost]; exact whole)
    (by rw [ring, counted.state]; exact running), (State.doneAs_keeps ..).2.1]
  simp only [Flight.is, Bool.and_eq_true, decide_eq_true_eq] at is
  rw [is.1.2]

/-- R182, R186: a wagon completed OK signals the token that it may. -/
theorem State.signalDone_token (ok : f.status = wsOk) (sig : wSig f.bits = true)
    (mine : s.tokenFault f.ctx f.bits = false) :
    ((s.signalDone f).token (wSigToken f.bits)).value =
      (s.token (wSigToken f.bits)).value + BitVec.ofNat 32 (wSigAdd f.bits) := by
  have owned : (s.token (wSigToken f.bits)).owner = some f.ctx := by
    simp only [State.tokenFault, State.foreign, sig, Bool.true_and, Bool.or_eq_false_iff, decide_eq_false_iff_not,
      not_not] at mine
    exact mine.1
  have signals : s.signals f = true := by
    unfold State.signals
    simp [sig, mine, ok]
    decide
  unfold State.signalDone
  rw [if_pos signals, State.addToken, State.token_modToken_owned (by simp [owned]), if_pos rfl]

/-- R170: the interrupt of a ring is pending once raised. -/
theorem State.raiseRing_pend (s : State) (n : Nat) : n ∈ (s.raiseRing n).pcie.irqPend := by
  unfold State.raiseRing State.raiseVector State.msixNow
  dsimp only
  split
  · exact mem_addTo ..
  · split
    · exact mem_addTo ..
    · exact mem_addTo ..

theorem State.raiseRing_adds (s : State) (n : Nat) : ∃ p o, s.raiseRing n = { s with pcie := p, out := s.out ++ o } := by
  unfold State.raiseRing State.raiseVector State.msixNow
  dsimp only
  split
  · exact ⟨_, [], by rw [List.append_nil]⟩
  · split
    · exact ⟨_, [], by rw [List.append_nil]⟩
    · exact ⟨_, _, rfl⟩

/-- Settles O16: the record written, and what the completion changes after it. -/
theorem wagonCompletes : Obligations.WagonCompletes := by
  intro s ring x f there clock decided ok whole running q a step bytes open_
  have is := Flight.is_of_flight there
  have mine : f.ring = ring.val := by
    simp only [Flight.is, Bool.and_eq_true, decide_eq_true_eq] at is
    exact is.1.1
  have record : recordBytes (s.recordStep f) x f.gen f.flags f.status = bytes := by
    simp only [recordBytes, State.recordStep, ok, and_true]
    rfl
  have long : bytes.length = 16 := by simp [bytes]
  obtain ⟨o, m, wrote, hosted, stored⟩ := State.writeRecord_written (n := ring.val) (index := x) long open_
  rw [← record] at wrote
  have runs := execWagonComplete_ok there clock decided ok wrote
  rw [record] at wrote
  generalize given : ({ s with out := o, mem.bytes := m } : State) = u at *
  have uring : u.ring ring.val = s.ring ring.val := by rw [← given]; rfl
  obtain ⟨same, head⟩ := State.completed_ring (s := u) (index := x) mine (by rw [uring]; exact running)
  obtain ⟨r, g, fs, done, gone⟩ := u.completed_fields ring.val x f
  rw [uring] at same head
  generalize ended : u.completed ring.val x f = t at *
  dsimp only at runs
  rw [same.irq] at runs
  obtain ⟨p, e, raised⟩ : ∃ p e, (if interrupts (s.ring ring.val).irq f then t.raiseRing ring.val else t) =
      { t with pcie := p, out := t.out ++ e } := by
    split
    · exact t.raiseRing_adds ring.val
    · exact ⟨t.pcie, [], by simp⟩
  refine ⟨_, runs, ?_, ?_, ?_, fun host => ⟨?_, ?_⟩, fun pa local_ mapped form b => ?_, fun sig fault => ?_,
    fun others first behind => ?_, fun asks => ?_, fun never => ?_⟩
  · rw [raised, done]
    exact List.find?_eq_none.mpr fun y there => by simp [gone y there]
  · rw [raised, done, ← given]
    exact (congrArg Dispatch.freed (Table.get_mod_ne Dispatch.reset s.marsh.units (unitNo f.unit)
      (fun d => { d with freed := d.freed + 1 }) fun free =>
      absurd (congrArg Dispatch.freed free) (Nat.succ_ne_zero _)) :)
  · rw [raised, done, ← given]
  · rw [raised, done, ← given, (hosted host).1]
  · rw [raised, done, ← given]
    exact List.mem_append_left _ (hosted host).2
  · rw [raised, done, ← given, stored pa local_ mapped]
    exact (Bytes.get_write form pa b bytes).trans (by rw [long])
  · rw [raised, done]
    refine (State.signalDone_token (s := u) ok sig ?_).trans ?_
    · rw [← given]
      exact fault
    · rw [← given]
      rfl
  · rw [raised]
    refine head whole is others ?_ behind
    rw [← given]
    exact first
  · have due : interrupts (s.ring ring.val).irq f = true := by
      unfold interrupts
      rcases asks with always | ⟨commits, commit⟩
      · simp [show (s.ring ring.val).irq = 2 from always]
      · simp [show (s.ring ring.val).irq = 1 from commits, commit]
    rw [if_pos due]
    exact t.raiseRing_pend ring.val
  · have quiet : interrupts (s.ring ring.val).irq f = false := by
      simp [interrupts, show (s.ring ring.val).irq = 0 from never]
    rw [if_neg (by simp [quiet]), done, ← given]

end Sys2Proof.Machine
end

section
/-! Frames that a port sends and the flits they carry: settles O24 (R270 to R273, R277, R281). -/

namespace Sys2Proof.Machine

/-! ### New flits of a lane -/

section
variable {p : Port} {vl : Nat}

/-- A lane's first flit, sent under the next sequence number. -/
def Port.sendOne (p : Port) (vl : Nat) (f : Flit) (rest : List Flit) : Port :=
  { p with
    txNext := p.txNext + 1, replayBuf := p.replayBuf ++ [{ f with seq := p.txNext }]
    txq := setNth p.txq vl (fun _ => rest), sent := setNth p.sent vl (fun c => c + 1) }

/-- A lane sends nothing, or its first flit and then what it sends after that. -/
theorem Port.sendNew_cases (p : Port) (vl n : Nat) : p.sendNew vl n = ([], p) ∨ ∃ k f rest, n = k + 1 ∧
    nth [] p.txq vl = f :: rest ∧ p.hasCredit vl = true ∧ p.replayBuf.length < 2048 ∧
    p.sendNew vl n = ({ f with seq := p.txNext } :: ((p.sendOne vl f rest).sendNew vl k).1,
      ((p.sendOne vl f rest).sendNew vl k).2) := by
  cases n with
  | zero => exact .inl rfl
  | succ k =>
    rw [Port.sendNew]
    split
    · exact .inl rfl
    · rename_i f rest queued
      split
      · exact .inl rfl
      · rename_i free
        simp only [not_or, not_le, not_not] at free
        exact .inr ⟨k, f, rest, rfl, queued, free.1, free.2, rfl⟩

/-- R277: the credits that a lane holds. -/
def Port.credits (p : Port) (vl : Nat) : Nat := (nth 0 p.cred vl - nth 0 p.sent vl).toNat

theorem Port.sendOne_credits {f : Flit} {rest : List Flit} (lane : vl < p.sent.length) (some_ : p.hasCredit vl = true) :
    (p.sendOne vl f rest).credits vl + 1 = p.credits vl := by
  have held : 0 < p.credits vl := of_decide_eq_true some_
  unfold Port.credits Port.sendOne at *
  dsimp only
  rw [nth_setNth_same _ _ _ lane]
  bv_omega

theorem Port.sendNew_within (n : Nat) : ∀ p : Port, (p.sendNew vl n).1.length ≤ n := by
  intro p
  induction n generalizing p with
  | zero => simp [Port.sendNew]
  | succ n ih =>
    rcases p.sendNew_cases vl (n + 1) with none_ | ⟨k, f, rest, at_, -, -, -, sends⟩
    · simp [none_]
    · obtain rfl : n = k := by omega
      rw [sends]
      exact Nat.succ_le_succ (ih _)

/-- R277, R281: what a lane sends, within its credits and the replay buffer. -/
theorem Port.sendNew_sends (n : Nat) : ∀ p : Port, vl < p.sent.length → p.replayBuf.length ≤ 2048 →
    let x := p.sendNew vl n
    x.1.length ≤ p.credits vl ∧ x.2.replayBuf.length ≤ 2048 ∧ x.2.replayBuf = p.replayBuf ++ x.1 ∧
      x.2.txNext = p.txNext + BitVec.ofNat 32 x.1.length ∧
      ∀ i (h : i < x.1.length), (x.1[i]).seq = p.txNext + BitVec.ofNat 32 i := by
  intro p lane room
  induction n generalizing p with
  | zero => simp [Port.sendNew, room]
  | succ n ih =>
    rcases p.sendNew_cases vl (n + 1) with none_ | ⟨k, f, rest, at_, -, credit, free, sends⟩
    · simp [none_, room]
    · obtain rfl : n = k := by omega
      obtain ⟨within, full, kept, next, seqs⟩ := ih (p.sendOne vl f rest) (by simpa [Port.sendOne] using lane)
        (by simp [Port.sendOne]; omega)
      have credits := Port.sendOne_credits (f := f) (rest := rest) lane credit
      rw [sends]
      refine ⟨?_, full, ?_, ?_, fun i inside => ?_⟩
      · rw [List.length_cons]
        omega
      · rw [kept]
        simp [Port.sendOne]
      · rw [next, List.length_cons, BitVec.ofNat_add]
        simp only [Port.sendOne]
        rw [BitVec.add_assoc, BitVec.add_comm 1]
        rfl
      · cases i with
        | zero => simp
        | succ i =>
          have seq := seqs i (by simpa using inside)
          simp only [List.getElem_cons_succ]
          rw [seq]
          simp only [Port.sendOne]
          rw [BitVec.add_assoc, BitVec.add_comm 1, BitVec.ofNat_add]
          rfl

end

/-! ### The flits of a frame -/

/-- Every flit that the port keeps holds 256 bytes. -/
structure Port.Whole (p : Port) : Prop where
  kept : ∀ f ∈ p.replayBuf, f.bytes.length = 256
  queued : ∀ q ∈ p.txq, ∀ f ∈ q, f.bytes.length = 256

theorem nth_mem_or {α : Type} (d : α) (l : List α) (i : Nat) : nth d l i ∈ l ∨ nth d l i = d := by
  unfold nth
  cases there : l[i]? with
  | none => exact .inr rfl
  | some a => exact .inl (List.mem_of_getElem? there)

theorem Port.Whole.sendOne {p : Port} (whole : p.Whole) {vl : Nat} {f : Flit} {rest : List Flit}
    (queued : nth [] p.txq vl = f :: rest) : (p.sendOne vl f rest).Whole ∧ f.bytes.length = 256 := by
  have there : f :: rest ∈ p.txq := by
    rcases nth_mem_or [] p.txq vl with there | empty
    · rwa [queued] at there
    · rw [queued] at empty
      cases empty
  have all := whole.queued _ there
  refine ⟨⟨fun g mem => ?_, fun q mem => ?_⟩, all f List.mem_cons_self⟩
  · rcases List.mem_append.mp mem with old | new
    · exact whole.kept g old
    · rw [List.mem_singleton] at new
      rw [new]
      exact all f List.mem_cons_self
  · exact forall_mem_setNth (P := fun q => ∀ f ∈ q, f.bytes.length = 256) whole.queued
      (fun _ _ g mem => all g (List.mem_cons_of_mem _ mem)) q mem

/-- What filling a frame keeps of the port, and the flits it takes. -/
structure Fills (p : Port) (l : List Flit) (q : Port) : Prop where
  whole : q.Whole
  flits : ∀ f ∈ l, f.bytes.length = 256
  state : q.state = p.state

theorem Port.Whole.sendNew (vl n : Nat) {p : Port} (whole : p.Whole) : Fills p (p.sendNew vl n).1 (p.sendNew vl n).2 := by
  induction n generalizing p with
  | zero => exact ⟨whole, by simp [Port.sendNew], rfl⟩
  | succ n ih =>
    rcases p.sendNew_cases vl (n + 1) with none_ | ⟨k, f, rest, at_, queued, -, -, sends⟩
    · rw [none_]
      exact ⟨whole, by simp, rfl⟩
    · obtain rfl : n = k := by omega
      obtain ⟨after, long⟩ := whole.sendOne queued
      have filled := ih after
      rw [sends]
      refine ⟨filled.whole, fun g mem => ?_, filled.state⟩
      rcases List.mem_cons.mp mem with rfl | there
      · exact long
      · exact filled.flits g there

theorem Port.Whole.sendReplay {p : Port} (whole : p.Whole) (n : Nat) :
    Fills p (p.sendReplay n).1 (p.sendReplay n).2 ∧ (p.sendReplay n).1.length ≤ n := by
  unfold Port.sendReplay
  split
  · exact ⟨⟨whole, by simp, rfl⟩, by simp⟩
  · refine ⟨⟨⟨whole.kept, whole.queued⟩, fun f mem => ?_, rfl⟩, by simp⟩
    exact whole.kept f (List.mem_of_mem_filter (List.mem_of_mem_take mem))

/-- R270: at most 31 flits fill a frame. -/
theorem Port.Whole.fill {p : Port} (whole : p.Whole) : Fills p p.fill.1 p.fill.2.2 ∧ p.fill.1.length ≤ 31 := by
  unfold Port.fill
  refine List.foldlRecOn laneOrder _
    (motive := fun x : List Flit × Nat × Port => Fills p x.1 x.2.2 ∧ x.1.length ≤ 31) (whole.sendReplay 31) ?_
  rintro ⟨l, k, q⟩ ⟨filled, few⟩ vl -
  have sent := filled.whole.sendNew vl (31 - l.length)
  refine ⟨⟨sent.whole, fun f mem => ?_, sent.state.trans filled.state⟩, ?_⟩
  · rcases List.mem_append.mp mem with old | new
    · exact filled.flits f old
    · exact sent.flits f new
  · have within := q.sendNew_within (vl := vl) (31 - l.length)
    dsimp only at few ⊢
    rw [List.length_append]
    omega

/-- At most 31 slots of 256 bytes. -/
structure FrameSlots (l : List SentSlot) : Prop where
  few : l.length ≤ 31
  long : ∀ x ∈ l, x.bytes.length = 256

theorem FrameSlots.inject {l : List SentSlot} (h : FrameSlots l) (kind : Nat) : FrameSlots (injectSlots kind l) := by
  unfold injectSlots
  split
  · refine ⟨?_, fun x mem => ?_⟩
    · have few := h.few
      simp only [List.length_cons, List.length_drop]
      omega
    · rcases List.mem_cons.mp mem with rfl | old
      · exact List.length_replicate
      · exact h.long x (List.mem_of_mem_drop old)
  · split
    · refine ⟨by rw [setNth_length]; exact h.few, ?_⟩
      exact forall_mem_setNth (P := fun x : SentSlot => x.bytes.length = 256) h.long fun _ long => long
    · split
      · split
        · refine ⟨h.few, fun x mem => h.long x ?_⟩
          simp only [List.mem_cons] at mem ⊢
          tauto
        · exact h
      · exact h

/-- R270, R272: a frame has 31 slots, the ones without a flit idle. -/
theorem FrameSlots.filled {l : List SentSlot} (h : FrameSlots l) :
    (l ++ List.replicate (31 - l.length) SentSlot.idle).length = 31 ∧
      ∀ x ∈ l ++ List.replicate (31 - l.length) SentSlot.idle, x.bytes.length = 256 := by
  refine ⟨?_, fun x mem => ?_⟩
  · have few := h.few
    simp only [List.length_append, List.length_replicate]
    omega
  · rcases List.mem_append.mp mem with old | new
    · exact h.long x old
    · rw [List.eq_of_mem_replicate new]
      exact List.length_replicate

theorem length_flatten_map {α : Type} {g : α → List Byte} {n : Nat} {l : List α} (long : ∀ x ∈ l, (g x).length = n) :
    (l.map g).flatten.length = l.length * n := by
  rw [List.length_flatten, List.map_map, List.map_congr_left (f := List.length ∘ g) (g := fun _ => n) long]
  simp

/-- R273: the trailer of 31 slots has 252 bytes before its check. -/
theorem length_trailerBytes {slots : List SentSlot} {t : Trailer} (all : slots.length = 31) (cred : t.cred.length = 4)
    (n : Nat) (epoch : W32) (frame : W16) : (trailerBytes slots t n epoch frame).length = 252 := by
  unfold trailerBytes
  simp only [List.length_append, length_leBytes, List.length_map,
    length_flatten_map (fun x (_ : x ∈ slots) => length_leBytes 4 x.crc.toNat),
    length_flatten_map (fun x (_ : x ∈ t.cred) => length_leBytes 2 x.toNat), all, cred]

/-- The flits taken into the next frame, and whether an injection acts on them (R317). -/
def State.frameFlits (s : State) (n : Nat) : List Flit × Nat × Port :=
  if (s.port n).state = .up then (s.port n).fill else ([], 0, s.port n)

def State.frameInjects (s : State) (n : Nat) : Bool × Option Injection :=
  match (s.port n).inject with
  | some i => if (s.port n).state = .up ∧ s.mayInject i then i.next (s.frameFlits n).1.length
      else (false, if s.mayInject i then some i else none)
  | none => (false, none)

/-- The slots of the frame before the idle ones. -/
def State.frameSlots (s : State) (n : Nat) : List SentSlot :=
  let slots := (s.frameFlits n).1.map Flit.slot
  if (s.frameInjects n).1 then injectSlots (((s.port n).inject.map (fun i => i.kind)).getD 0) slots else slots

/-- A frame is the slots, the trailer and its check, which an injection of kind 2 makes wrong (R270 to R273, R317). -/
theorem State.buildFrame_eq (s : State) (n : Nat) : ∃ t : Trailer, t.cred.length = 4 ∧
    let slots := s.frameSlots n ++ List.replicate (31 - (s.frameSlots n).length) SentSlot.idle
    let trailer := trailerBytes slots t n s.rails.epoch (s.port n).frame
    let crc := if (s.frameInjects n).1 ∧ ((s.port n).inject.map (fun i => i.kind)).getD 0 = 2 then crc32c trailer ^^^ 1
      else crc32c trailer
    s.buildFrame n = ((slots.map (fun x => x.bytes)).flatten ++ trailer ++ leBytes 4 crc.toNat, (s.frameFlits n).2.1,
      { (s.frameFlits n).2.2 with frame := (s.port n).frame + 1, inject := (s.frameInjects n).2 }) := by
  refine ⟨_, ?_, rfl⟩
  simp

theorem State.frameFlits_fills {s : State} {n : Nat} (whole : (s.port n).Whole) :
    Fills (s.port n) (s.frameFlits n).1 (s.frameFlits n).2.2 ∧ (s.frameFlits n).1.length ≤ 31 := by
  unfold State.frameFlits
  split
  · exact whole.fill
  · exact ⟨⟨whole, by simp, rfl⟩, by simp⟩

theorem State.frameSlots_whole {s : State} {n : Nat} (whole : (s.port n).Whole) : FrameSlots (s.frameSlots n) := by
  obtain ⟨filled, few⟩ := State.frameFlits_fills whole
  have slots : FrameSlots ((s.frameFlits n).1.map Flit.slot) := by
    refine ⟨by rw [List.length_map]; exact few, fun x mem => ?_⟩
    obtain ⟨f, there, rfl⟩ := List.mem_map.mp mem
    exact filled.flits f there
  unfold State.frameSlots
  dsimp only
  split
  · exact slots.inject _
  · exact slots

/-- The bytes that stand behind the first ones. -/
theorem slice_append {a b : List Byte} {off n : Nat} (first : a.length = off) (long : b.length = n) :
    slice (a ++ b) off n = b := by
  subst first long
  simp [slice]

/-- Settles O24: the frame's bytes part by part, then the new flits of a lane. -/
theorem framesCarryFlits : Obligations.FramesCarryFlits := by
  refine ⟨fun s n => ⟨fun quiet => ?_, fun sends here present whole => ?_⟩, fun p vl n lane four room => ?_⟩
  · exact congrArg Host.Outcome.next (if_pos (by tauto))
  · have there : s.port n.val ∈ s.rails.ports := by
      rw [State.port, nth, List.getElem?_eq_getElem here]
      exact List.getElem_mem here
    obtain ⟨kept, queued⟩ := whole _ there
    have mine : (s.port n.val).Whole := ⟨kept, queued⟩
    obtain ⟨t, cred, built⟩ := s.buildFrame_eq n.val
    dsimp only at built
    obtain ⟨all, long⟩ := (State.frameSlots_whole mine).filled
    have fills := (State.frameFlits_fills mine).1
    generalize s.frameSlots n.val ++ List.replicate (31 - (s.frameSlots n.val).length) SentSlot.idle = slots at *
    have body : (slots.map (fun x => x.bytes)).flatten.length = 7936 := by rw [length_flatten_map long, all]
    have trailer := length_trailerBytes (t := t) all cred n.val s.rails.epoch (s.port n.val).frame
    generalize trailerBytes slots t n.val s.rails.epoch (s.port n.val).frame = tb at *
    have active : ¬ ((s.port n.val).state = .down ∨ (s.port n.val).state = .training ∨ (s.port n.val).unit = .absent) := by
      rcases sends with st | st | st
      · simp [st, present]
      · simp [st, present]
      · simp [st, present]
    refine ⟨_, (s.buildFrame n.val).1, congrArg Host.Outcome.next (if_neg active), rfl, ?_, ?_, ?_, fun plain => ?_, rfl,
      rfl⟩
    · rw [built]
      simp only [List.length_append, length_leBytes, body, trailer]
    · rw [built]
      exact (congrArg Port.frame (s.port_modPort_same _ here) :)
    · rw [built]
      exact (congrArg Port.state (s.port_modPort_same _ here)).trans fills.state
    · have calm : ¬ ((s.frameInjects n.val).1 = true ∧ ((s.port n.val).inject.map (fun i => i.kind)).getD 0 = 2) := by
        simp [plain]
      rw [built, if_neg calm, List.append_assoc, slice_append (by rw [body]) (by simp [trailer]),
        List.take_append_of_le_length (by omega), List.take_of_length_le (by omega), getLE_append_right (by omega), trailer]
      have check := ofNat_getLE_leBytes (n := 4) rfl (crc32c tb) []
      rw [List.append_nil] at check
      exact check.symm
  · obtain ⟨credits, full, kept, next, seqs⟩ := Port.sendNew_sends (vl := vl) n p (by omega) room
    exact ⟨credits, p.sendNew_within n, full, kept, next, seqs⟩

end Sys2Proof.Machine
end

section
/-! Packets taken from a lane: WRITE, SIGNAL and DOORBELL, and those refused: settles O27 (R40, R158, R183, R232, R291 to R294,
R299). -/

namespace Sys2Proof.Machine

/-! ### What an answer leaves -/

/-- Nothing but the rails differs. -/
def OnlyRails (s t : State) : Prop := t = { s with rails := t.rails }

theorem State.launch_rails (s : State) (p : Packet) (c : Nat) (w : Waiter) : OnlyRails s ((s.launch p c w).getD s) := by
  unfold State.launch
  split
  · rfl
  · exact s.place_keeps _

theorem State.answer_rails (s : State) (x : Packet) (result : Nat) : OnlyRails s (s.answer x result) := by
  unfold State.answer State.mirrorReplyTo State.dack
  dsimp only
  split
  · split
    · rfl
    · exact s.launch_rails ..
  · exact s.launch_rails ..

theorem State.noticeFor_rails (s : State) (x : Packet) : OnlyRails s (s.noticeFor x) := by
  unfold State.noticeFor State.notice
  dsimp only
  split
  · split
    · rfl
    · have sent := s.launch_rails (s.form 0xC x.src 0 0 (s.rails.epoch.toNat * 2 ^ 32 + x.epoch.toNat) 0 []) 0 .nobody
      unfold OnlyRails at sent ⊢
      rw [sent]
  · rfl

theorem OnlyRails.trans {s t u : State} (h : OnlyRails s t) (k : OnlyRails t u) : OnlyRails s u := by
  unfold OnlyRails at *
  rw [k, h]

/-! ### A packet taken and acted on, or refused -/

section
variable {s : State} {n kind vl : Nat} {x : Packet} {act : Packet → State → State}

theorem Port.front_kind {p : Port} (front : p.front kind = some (vl, x)) : x.kind = kind := by
  obtain ⟨v, -, found⟩ := List.exists_of_findSome?_eq_some front
  split at found
  · cases found
  · split at found
    · cases found
      assumption
    · cases found

theorem Arrived.onPacket (h : Arrived s n kind vl x) : s.onPacket n kind act = act x (s.popPacket n vl) := by
  obtain ⟨front, dst, accepted⟩ := h
  have same : (s.popPacket n vl).packetRefusal x = none := accepted
  unfold State.onPacket
  simp only [front, same]
  exact if_neg (not_not_intro dst)

theorem State.onPacket_misrouted (front : (s.port n).front kind = some (vl, x)) (other : x.dst ≠ s.rails.node) :
    s.onPacket n kind act = (s.popPacket n vl).drop (fun d => { d with misroute := d.misroute + 1 }) := by
  unfold State.onPacket
  simp only [front]
  exact if_pos other

theorem State.onPacket_refused {result : Nat} (front : (s.port n).front kind = some (vl, x)) (dst : x.dst = s.rails.node)
    (refused : s.packetRefusal x = some result) :
    s.onPacket n kind act = ((s.popPacket n vl).refuse x result).noticeFor x := by
  have same : (s.popPacket n vl).packetRefusal x = some result := refused
  unfold State.onPacket
  simp only [front, same]
  exact if_neg (not_not_intro dst)

/-- A refused packet changes the rails and one drop counter alone. -/
theorem State.refused_leaves {t u : State} {d : Drops} {result : Nat} (counted : t.refuse x result = u.answer x result)
    (drops : u = { t with drops := d }) :
    ∃ r, (t.refuse x result).noticeFor x = { t with rails := r, drops := d } := by
  rw [counted]
  have kept := (u.answer_rails x result).trans (State.noticeFor_rails _ x)
  unfold OnlyRails at kept
  exact ⟨_, by rw [kept, drops]⟩

end

/-! ### WRITE -/

/-- Addresses translate through the pages alone. -/
theorem Context.translate_pages {c d : Context} (pages : d.pages = c.pages) (w : Bool) (va : Nat) :
    d.translate w va = c.translate w va := by
  unfold Context.translate Context.page
  rw [pages]

theorem Context.markDirty_keeps (c : Context) (va n : Nat) :
    (c.markDirty va n).pages = c.pages ∧ (c.markDirty va n).state = c.state := by
  unfold Context.markDirty
  split
  · exact ⟨rfl, rfl⟩
  · exact ⟨rfl, rfl⟩

/-- A change of a live context that keeps its state and pages. -/
theorem State.modCtx_keepsPages {s : State} {c : Nat} {f : Context → Context} (live : (s.ctx c).state ≠ .free)
    (keeps : ∀ y, (f y).pages = y.pages ∧ (f y).state = y.state) :
    ((s.modCtx c f).ctx c).pages = (s.ctx c).pages ∧ ((s.modCtx c f).ctx c).state = (s.ctx c).state := by
  have read : (s.modCtx c f).ctx c = f (s.ctx c) := s.ctx_modCtx_ne c f fun free =>
    live (((keeps _).2.symm.trans (congrArg Context.state free)))
  rw [read]
  exact keeps _

/-- One line of a remote write (R232, R262). -/
def State.applyLine (c : Nat) (x : Bool × State) (p : Nat × List Byte) : Bool × State :=
  match (x.2.ctx c).translate true p.1 with
  | none => x
  | some pa =>
    let r := x.2.lineStore pa p.2 (lineErr cleanLines pa)
    if r.1 then (true, r.2.noteLine pa (some (c, (x.2.ctx c).gen)))
    else (x.1, (r.2.modCtx c (fun y => y.markDirty p.1 p.2.length)).modStore c (fun y => y.count p.1 p.2.length))

theorem State.applyWrite_eq (s : State) (c va : Nat) (bs : List Byte) :
    s.applyWrite c va bs cleanLines = (linePieces (bs.length + 1) va bs).foldl (State.applyLine c) (false, s) := rfl

/-- A line that is mapped and not left uncorrectable is stored. -/
theorem State.applyLine_stores {u : State} {c va pa : Nat} {bs : List Byte} (live : (u.ctx c).state ≠ .free)
    (mapped : (u.ctx c).translate true va = some pa) (sound : pa / 64 ∉ u.mem.damaged) :
    ∃ ctxs, State.applyLine c (false, u) (va, bs) =
      (false, { u with ctxs := ctxs, mem.bytes := u.mem.bytes.write pa bs }) ∧
      (Table.get Context.reset ctxs c).pages = (u.ctx c).pages ∧ (Table.get Context.reset ctxs c).state = (u.ctx c).state := by
  have marked := State.modCtx_keepsPages (s := u) (f := fun y => y.markDirty va bs.length) live
    fun y => y.markDirty_keeps va bs.length
  have counted := State.modCtx_keepsPages (s := u.modCtx c (fun y => y.markDirty va bs.length))
    (f := fun y => { y with store := y.store.map (fun z => z.count va bs.length) }) (by rw [marked.2]; exact live)
    fun y => ⟨rfl, rfl⟩
  refine ⟨_, ?_, counted.1.trans marked.1, counted.2.trans marked.2⟩
  unfold State.applyLine
  dsimp only
  simp only [mapped, lineErr_clean, State.lineStore_sound sound]
  rfl

/-- Bytes written in two pieces. -/
theorem Bytes.write_split (m : Bytes) (a n : Nat) (bs : List Byte) :
    (m.write a (bs.take n)).write (a + n) (bs.drop n) = m.write a bs := by
  rcases Nat.le_total bs.length n with few | many
  · rw [List.take_of_length_le few, List.drop_eq_nil_of_le few]
    rfl
  · have joined := m.write_append a (bs.take n) (bs.drop n)
    rwa [List.take_append_drop, List.length_take, Nat.min_eq_left many] at joined

/-- A remote write is applied line by line where each of its bytes is mapped and no line is left uncorrectable. -/
theorem State.applyPieces_writes {c : Nat} (fuel : Nat) : ∀ (u : State) (va pa : Nat) (bs : List Byte), bs.length < fuel →
    (u.ctx c).state ≠ .free → (∀ i < bs.length, (u.ctx c).translate true (va + i) = some (pa + i)) →
    (0 < bs.length → ∀ l ∈ u.mem.damaged, l * 64 + 64 ≤ pa ∨ pa + bs.length ≤ l * 64) →
    ∃ ctxs, (linePieces fuel va bs).foldl (State.applyLine c) (false, u) =
      (false, { u with ctxs := ctxs, mem.bytes := u.mem.bytes.write pa bs }) := by
  induction fuel with
  | zero => intro u va pa bs few; omega
  | succ fuel ih =>
    intro u va pa bs few live mapped sound
    unfold linePieces
    split
    · exact ⟨u.ctxs, rfl⟩
    · rename_i rest _
      have some_ : 0 < bs.length := List.length_pos_iff.mpr (by assumption)
      have whole : pa / 64 ∉ u.mem.damaged := fun there => by
        have apart := sound some_ _ there
        omega
      obtain ⟨ctxs, stored, pages, state⟩ := State.applyLine_stores (bs := bs.take (64 - va % 64)) live
        (by simpa using mapped 0 some_) whole
      dsimp only
      rw [List.foldl_cons, stored]
      have left : (bs.drop (64 - va % 64)).length = bs.length - (64 - va % 64) := List.length_drop
      have maps : ∀ i < (bs.drop (64 - va % 64)).length,
          (Table.get Context.reset ctxs c).translate true (va + (64 - va % 64) + i) = some (pa + (64 - va % 64) + i) := by
        intro i inside
        rw [Context.translate_pages pages, Nat.add_assoc, Nat.add_assoc]
        exact mapped _ (by omega)
      have apart : 0 < (bs.drop (64 - va % 64)).length → ∀ l ∈ u.mem.damaged, l * 64 + 64 ≤ pa + (64 - va % 64) ∨
          pa + (64 - va % 64) + (bs.drop (64 - va % 64)).length ≤ l * 64 := by
        intro more l there
        have apart := sound some_ l there
        omega
      obtain ⟨after, wrote⟩ := ih { u with ctxs := ctxs, mem.bytes := u.mem.bytes.write pa (bs.take (64 - va % 64)) }
        (va + (64 - va % 64)) (pa + (64 - va % 64)) (bs.drop (64 - va % 64)) (by omega) (by rw [State.ctx, state]; exact live)
        maps apart
      exact ⟨after, by rw [wrote, Bytes.write_split]⟩

/-- A piece of a range begins in it. -/
theorem linePieces_inside (fuel : Nat) : ∀ (va : Nat) (bs : List Byte), ∀ p ∈ linePieces fuel va bs,
    va ≤ p.1 ∧ p.1 < va + bs.length := by
  induction fuel with
  | zero => simp [linePieces]
  | succ fuel ih =>
    intro va bs p there
    unfold linePieces at there
    split at there
    · cases there
    · have some_ : 0 < bs.length := List.length_pos_iff.mpr (by assumption)
      rcases List.mem_cons.mp there with rfl | later
      · exact ⟨Nat.le_refl _, by omega⟩
      · obtain ⟨from_, below⟩ := ih _ _ p later
        rw [List.length_drop] at below
        exact ⟨by omega, by omega⟩

/-- Every line of a range that is mapped byte by byte is mapped. -/
theorem Context.mapped_of_bytes {c : Context} {w : Bool} {va n : Nat} (bytes : ∀ i < n, (c.translate w (va + i)).isSome) :
    c.mapped w va n = true := by
  unfold Context.mapped lineSpans
  simp only [List.all_eq_true, List.mem_map]
  rintro _ ⟨p, there, rfl⟩
  obtain ⟨from_, below⟩ := linePieces_inside _ _ _ p there
  rw [List.length_replicate] at below
  have mapped := bytes (p.1 - va) (by omega)
  rwa [Nat.add_sub_cancel' from_] at mapped

/-- R232: a WRITE whose bytes are mapped stores them. -/
theorem State.applyWrite_writes {s : State} {c va pa : Nat} {bs : List Byte} (live : (s.ctx c).state ≠ .free)
    (maps : MapsTo s c true va bs.length pa) :
    ∃ ctxs, s.applyWrite c va bs cleanLines = (false, { s with ctxs := ctxs, mem.bytes := s.mem.bytes.write pa bs }) := by
  obtain ⟨mapped, sound, -⟩ := maps
  rw [State.applyWrite_eq]
  exact State.applyPieces_writes _ s va pa bs (Nat.lt_succ_self _) live mapped fun _ => sound

theorem Arrived.live {s : State} {n kind vl : Nat} {x : Packet} (h : Arrived s n kind vl x) : (s.ctx x.ctx).state ≠ .free := by
  obtain ⟨-, -, accepted⟩ := h
  intro free
  unfold State.packetRefusal at accepted
  simp only [free, ne_eq, reduceCtorEq, not_false_eq_true, and_self, true_or, if_true] at accepted
  split at accepted
  · cases accepted
  · split at accepted
    · cases accepted
    · split at accepted
      · cases accepted
      · cases accepted

/-- Settles O27: what an accepted packet of each kind does, then the checks in their order. -/
theorem packetsAppliedOrRefused : Obligations.PacketsAppliedOrRefused := by
  refine ⟨fun s n vl x => ⟨fun pa arrived long maps => ?_, fun arrived owned => ?_, ?_⟩,
    fun s n vl kind x cmd among front => ?_⟩
  · rw [← long] at maps
    obtain ⟨ctxs, wrote⟩ := State.applyWrite_writes (s := s.popPacket n.val vl) (c := x.ctx) arrived.live maps
    have mapped : ((s.popPacket n.val vl).ctx x.ctx).mapped true x.arg.toNat x.length = true :=
      Context.mapped_of_bytes fun i inside => by
        exact Option.isSome_of_eq_some (maps.1 i (by omega))
    have runs : exec (.write n cleanLines) s = .next (((s.popPacket n.val vl).applyWrite x.ctx x.arg.toNat x.data
        cleanLines).2.answer x (if ((s.popPacket n.val vl).applyWrite x.ctx x.arg.toNat x.data cleanLines).1 then rsMerge
        else rsApplied)) :=
      congrArg Host.Outcome.next (arrived.onPacket.trans (if_neg (not_not_intro mapped)))
    rw [wrote] at runs
    refine ⟨_, runs, ?_, ?_, ?_, ?_, _, rfl, rfl⟩
    · intro a
      rw [show State.answer _ _ _ = _ from State.answer_rails ..]
      exact Bytes.get_write maps.2.2 pa a x.data
    · rw [show State.answer _ _ _ = _ from State.answer_rails ..]
      rfl
    · rw [show State.answer _ _ _ = _ from State.answer_rails ..]
      rfl
    · rw [show State.answer _ _ _ = _ from State.answer_rails ..]
      rfl
  · exact congrArg Host.Outcome.next (arrived.onPacket.trans (if_neg (not_not_intro owned)))
  · intro arrived ring tail i bound fed may ok
    have feeds : ((s.ring ring).feeder.any fun i => i ∈ (s.ctx x.ctx).entriesFor x.src 3) = true := by simp [fed, may]
    refine congrArg Host.Outcome.next (arrived.onPacket.trans ((if_neg ?_).trans ?_))
    · rintro (other | unfed)
      · exact other bound
      · exact unfed feeds
    · exact congrArg (State.answer · x rsApplied) (if_pos ok)
  · have runs : ∃ act, exec cmd s = .next (s.onPacket n.val kind act) := by
      simp only [List.mem_cons, List.not_mem_nil, or_false, Prod.mk.injEq] at among
      rcases among with ⟨rfl, rfl⟩ | ⟨rfl, rfl⟩ | ⟨rfl, rfl⟩ | ⟨rfl, rfl⟩
      · exact ⟨_, rfl⟩
      · exact ⟨_, rfl⟩
      · exact ⟨_, rfl⟩
      · exact ⟨_, rfl⟩
    obtain ⟨act, runs⟩ := runs
    rw [runs]
    have refused {result : Nat} {u : State} {d : Drops} (dst : x.dst = s.rails.node) (refusal : s.packetRefusal x = some result)
        (counted : (s.popPacket n.val vl).refuse x result = u.answer x result)
        (drops : u = { s.popPacket n.val vl with drops := d }) :
        ∃ t, Host.Outcome.next (s.onPacket n.val kind act) = (.next t : Host.Outcome State Fault Refusal) ∧ t.drops = d ∧
          t.ctxs = s.ctxs ∧ t.tokens = s.tokens ∧ t.rings = s.rings ∧ t.mem = s.mem := by
      obtain ⟨r, left⟩ := State.refused_leaves counted drops
      exact ⟨_, congrArg Host.Outcome.next ((State.onPacket_refused front dst refusal).trans left), rfl, rfl, rfl, rfl, rfl⟩
    refine ⟨fun other => congrArg Host.Outcome.next (State.onPacket_misrouted front other), fun dst cut => ?_,
      fun dst runs whole long => ?_⟩
    · exact refused dst (if_pos cut) rfl rfl
    · have passes : ¬ (s.computeReset = true ∨ x.isCut = true) := by simp [runs, whole]
      refine ⟨_, rfl, fun other => ?_, fun same set gen => ?_, fun same set gen active none_ => ?_⟩
      · have refusal : s.packetRefusal x = some rsEpoch :=
          (if_neg passes).trans ((if_neg (not_not_intro long)).trans (if_pos (.inr other)))
        obtain ⟨t, ran, rest⟩ := refused dst refusal rfl rfl
        rw [Host.Outcome.next.inj ran]
        exact rest
      · have refusal : s.packetRefusal x = some rsGen :=
          (if_neg passes).trans ((if_neg (not_not_intro long)).trans ((if_neg (not_or.mpr ⟨set, not_not_intro same⟩)).trans
            (if_pos (.inr gen))))
        obtain ⟨t, ran, rest⟩ := refused dst refusal rfl rfl
        rw [Host.Outcome.next.inj ran]
        exact rest
      · have refusal : s.packetRefusal x = some rsPerm :=
          (if_neg passes).trans ((if_neg (not_not_intro long)).trans ((if_neg (not_or.mpr ⟨set, not_not_intro same⟩)).trans
            ((if_neg (by simp [gen, active])).trans (if_pos none_))))
        obtain ⟨t, ran, rest⟩ := refused dst refusal rfl rfl
        rw [Host.Outcome.next.inj ran]
        exact rest

end Sys2Proof.Machine
end

section
/-! MIRROR_REPLY and DACK: settles O29 (R193, R198, R261, R282, R293, R609). -/

namespace Sys2Proof.Machine

section
variable {s : State} {n kind vl : Nat} {x : Packet} {o : OutPacket} {act : Packet → State → State}

theorem ReplyArrived.onReply (h : ReplyArrived s n kind vl x) : s.onReply n kind act = act x (s.popPacket n vl) := by
  obtain ⟨front, dst, runs, whole, long⟩ := h
  have same : (s.popPacket n vl).computeReset = false := runs
  unfold State.onReply
  simp only [front, same, whole, long, Bool.false_eq_true, or_self, not_true_eq_false, if_false]
  exact if_neg (not_not_intro dst)

/-- R609: an answer taken in while the compute clock is stopped is kept. -/
theorem State.takeAnswer_held (stopped : s.frozen = true) (o : OutPacket) (a : Answer) :
    ∃ r, s.takeAnswer cleanLines o a = { s with rails := r } ∧ r.held = s.rails.held ++ [(o, a)] ∧ o ∉ r.out := by
  refine ⟨_, if_pos stopped, rfl, ?_⟩
  simp [State.settled]

theorem State.takeAnswer_runs (clock : s.frozen = false) (o : OutPacket) (a : Answer) :
    s.takeAnswer cleanLines o a = (s.settled o).follow cleanLines o a := if_neg (by simp [clock])

theorem State.unsettled_tag {src tag : W32} {p : OutPacket → Bool} (waits : s.unsettled src tag p = some o) :
    o.packet.tag = tag := by
  have named := List.find?_some waits
  simp only [decide_eq_true_eq] at named
  exact named.1

/-- A wagon decided in a state that has it. -/
theorem State.decide_decided {ring : Nat} {index : W32} {f : Flight} (there : s.flight ring index = some f)
    (status flags : Byte) : Decided (s.decide ring index status flags) ring index status :=
  ⟨_, State.flight_decide there status flags, rfl, rfl⟩

section
variable {c tag : Nat} {m : Mirror} {f : Flight} (mirror : (s.ctx c).mirror = some m) (closing : m.phase = .closing)
  (named : tag ∈ m.tags) (active : (s.ctx c).state = .active) (there : s.flight m.ring m.index = some f)
include mirror closing named active there

/-- R261: an accepted CLOSE commits the step and remembers the slot. -/
theorem State.closeAnswered_commits :
    let t := s.closeAnswered c tag true
    Decided t m.ring m.index wsOk ∧ t.ctx c = { s.ctx c with
      step := (s.ctx c).step + 1, dPrev := (s.ctx c).dCur, dCur := [], mirror := none, committed := some m.slot } := by
  unfold State.closeAnswered
  simp only [mirror, closing, named, ne_eq, not_true_eq_false, or_self, if_false, if_true]
  have entry := State.ctx_modCtx_live (s := s) (c := c) (f := fun x => { x with committed := some m.slot }) active
  have step := (State.commitStep_ctx (s := s.modCtx c (fun x => { x with committed := some m.slot })) (c := c)
    (by rw [entry]; exact active) m.ring m.index).1
  rw [entry] at step
  refine ⟨?_, step⟩
  unfold State.commitStep
  exact State.decide_decided there ..

/-- R261: a rejected CLOSE fails the commit. -/
theorem State.closeAnswered_fails :
    let t := s.closeAnswered c tag false
    Decided t m.ring m.index wsCoupling ∧ (t.ctx c).step = (s.ctx c).step ∧ (t.ctx c).committed = none := by
  unfold State.closeAnswered State.mirrorFail
  simp only [mirror, closing, named, ne_eq, not_true_eq_false, or_self, if_false, Bool.false_eq_true]
  have ended : (s.ctx c).endMirror = { s.ctx c with
      mirror := none, committed := none, dCur := (s.ctx c).regionPages, dPrev := (s.ctx c).regionPages } := by
    unfold Context.endMirror
    rw [mirror]
    rfl
  have entry : (s.modCtx c Context.endMirror).ctx c = (s.ctx c).endMirror :=
    State.ctx_modCtx_live (by rw [ended]; exact active)
  refine ⟨State.decide_decided there .., ?_, ?_⟩
  · exact (congrArg Context.step entry).trans (by rw [ended])
  · exact (congrArg Context.committed entry).trans (by rw [ended])

end

/-- R193: the answer to a remote signal decides its wagon. -/
theorem State.wagonAnswered_signal {ring tag : Nat} {index : W32} {f : Flight} (there : s.flight ring index = some f)
    (signal : wOpcode f.bits = 0x41) (named : tag ∈ f.tags) (applied : Bool) :
    s.wagonAnswered ring index tag applied =
      (s.modFlight ring index (fun y => { y with tags := dropFrom tag y.tags })).decide ring index
        (if applied then wsOk else wsPeerLost) 0 := by
  unfold State.wagonAnswered
  simp only [there, named, signal, not_true_eq_false, if_false]
  rfl

/-- A collective wagon that waits (R310). -/
def Flight.collWaits (g : Flight) : Bool := opColl (wOpcode g.bits) && g.stage = .waiting

theorem State.resumeColls_none (still : ∀ g ∈ s.marsh.flights, g.collWaits = false) (errs : MemErrs) (sums : List SumSlip) :
    s.resumeColls errs sums = s := by
  have empty : s.marsh.flights.filter (fun f => opColl (wOpcode f.bits) ∧ f.stage = .waiting) = [] :=
    List.filter_eq_nil_iff.mpr fun g mem => by simpa [Flight.collWaits] using still g mem
  unfold State.resumeColls
  rw [empty]
  exact ite_self _

/-- No collective waits where none did and a wagon is changed to one that does not. -/
theorem State.modFlight_collWaits (still : ∀ g ∈ s.marsh.flights, g.collWaits = false) (ring : Nat) (index : W32)
    {f : Flight → Flight} (keeps : ∀ g : Flight, g.collWaits = false → (f g).collWaits = false) :
    ∀ g ∈ (s.modFlight ring index f).marsh.flights, g.collWaits = false := by
  intro g mem
  obtain ⟨h, there, rfl⟩ := List.mem_map.mp mem
  split
  · exact keeps h (still h there)
  · exact still h there

theorem State.flight_tags {ring : Nat} {index : W32} {f : Flight} (there : s.flight ring index = some f) (tag : Nat) :
    (s.modFlight ring index (fun y => { y with tags := dropFrom tag y.tags })).flight ring index =
      some { f with tags := dropFrom tag f.tags } :=
  State.flight_modFlight there fun _ is => is

end

/-- Settles O29: the packet's own rules over what an answer does to what waits. -/
theorem answersSettleWhatWaits : Obligations.AnswersSettleWhatWaits := by
  intro s n vl x o
  refine ⟨fun arrived waits => ⟨fun stopped => ?_, fun c m f clock close mirror closing named active there => ?_⟩,
    fun arrived one => ?_⟩
  · have runs : exec (.mirrorReply n) s = .next ((s.popPacket n.val vl).takeAnswer cleanLines o (.reply (bit x.pflags 0))) := by
      refine congrArg Host.Outcome.next (arrived.onReply.trans ?_)
      rw [show (s.popPacket n.val vl).unsettled x.src x.tag isClose = some o from waits]
    obtain ⟨r, taken, held, gone⟩ := State.takeAnswer_held (s := s.popPacket n.val vl) stopped o (.reply (bit x.pflags 0))
    rw [taken] at runs
    exact ⟨_, runs, rfl, rfl, held, gone⟩
  · have runs : exec (.mirrorReply n) s = .next
        (((s.popPacket n.val vl).settled o).closeAnswered c o.packet.tag.toNat (bit x.pflags 0)) := by
      refine congrArg Host.Outcome.next (arrived.onReply.trans ?_)
      rw [show (s.popPacket n.val vl).unsettled x.src x.tag isClose = some o from waits]
      refine (State.takeAnswer_runs (s := s.popPacket n.val vl) clock o _).trans ?_
      unfold State.follow
      rw [close]
    have tag : o.packet.tag.toNat ∈ m.tags := by rwa [State.unsettled_tag waits]
    generalize here : (s.popPacket n.val vl).settled o = u at runs
    have ctx : u.ctx c = s.ctx c := by rw [← here]; rfl
    have flight : u.flight m.ring m.index = some f := by rw [← here]; exact there
    rw [← ctx] at mirror active ⊢
    refine ⟨_, runs, fun accept => ?_, fun reject => ?_⟩
    · rw [accept]
      exact State.closeAnswered_commits mirror closing tag active flight
    · rw [reject]
      exact State.closeAnswered_fails mirror closing tag active flight
  · intro entry waits
    have runs : exec (.dack n cleanLines) s = .next (((s.popPacket n.val vl).takeAnswer cleanLines o
        (.result (field entry 39 32))).resumeColls { noErrs with lines := cleanLines } []) := by
      refine congrArg Host.Outcome.next (arrived.onReply.trans ?_)
      have once : (s.popPacket n.val vl).dackEntry cleanLines x.src entry =
          (s.popPacket n.val vl).takeAnswer cleanLines o (.result (field entry 39 32)) := by
        unfold State.dackEntry
        rw [show (s.popPacket n.val vl).unsettled x.src _ _ = some o from waits]
      rw [one, ← once]
      rfl
    refine ⟨fun stopped => ?_, fun ring index f clock colls wagon there signal named => ?_⟩
    · obtain ⟨r, taken, held, gone⟩ := State.takeAnswer_held (s := s.popPacket n.val vl) stopped o
        (.result (field entry 39 32))
      rw [taken] at runs
      exact ⟨_, runs.trans (congrArg Host.Outcome.next (if_pos stopped)), rfl, rfl, held, gone⟩
    · have answered : (s.popPacket n.val vl).takeAnswer cleanLines o (.result (field entry 39 32)) =
          (((s.popPacket n.val vl).settled o).modFlight ring index
            (fun y => { y with tags := dropFrom o.packet.tag.toNat y.tags })).decide ring index
              (if field entry 39 32 = rsApplied then wsOk else wsPeerLost) 0 := by
        refine (State.takeAnswer_runs (s := s.popPacket n.val vl) clock o _).trans ?_
        unfold State.follow State.answered
        simp only [wagon]
        refine (State.wagonAnswered_signal (s := (s.popPacket n.val vl).settled o) there signal named _).trans ?_
        simp
      have flight : ((s.popPacket n.val vl).settled o).flight ring index = some f := there
      have tagged := State.flight_tags flight o.packet.tag.toNat
      have still : ∀ g ∈ ((s.popPacket n.val vl).settled o).marsh.flights, g.collWaits = false := fun g mem => by
        simpa [Flight.collWaits] using colls g mem
      have left := State.modFlight_collWaits (State.modFlight_collWaits still ring index
        (f := fun y => { y with tags := dropFrom o.packet.tag.toNat y.tags }) fun y quiet => quiet) ring index
        (f := fun y => { y with stage := .decided, status := if field entry 39 32 = rsApplied then wsOk else wsPeerLost
                                flags := 0 }) fun y _ => by simp [Flight.collWaits]
      rw [answered] at runs
      refine ⟨_, runs.trans (congrArg Host.Outcome.next (State.resumeColls_none left _ _)), fun ok => ?_, fun lost => ?_, rfl,
        rfl⟩
      · rw [show field entry 39 32 = rsApplied from ok, if_pos rfl]
        exact State.decide_decided tagged ..
      · rw [if_neg (show ¬ field entry 39 32 = rsApplied from lost)]
        exact State.decide_decided tagged ..

end Sys2Proof.Machine
end

section
/-! SUPPORT. Ledgers of a bank: the residue check of what is accumulated without an error, and the ledgers of a corner changed
(R63, R65, R82 to R84). -/

namespace Sys2Proof.Machine

/-! ### Residues modulo 255 -/

/-- 2^8 is 1 modulo 255. -/
theorem two_pow_modEq (a : Nat) : (2 : Int) ^ a ≡ 2 ^ (a % 8) [ZMOD 255] := by
  have whole : (2 : Int) ^ (8 * (a / 8)) ≡ 1 [ZMOD 255] := by
    rw [Int.pow_mul]
    exact (Int.ModEq.pow (a / 8) (show (2 : Int) ^ 8 ≡ 1 [ZMOD 255] from rfl)).trans (by rw [one_pow])
  calc (2 : Int) ^ a = 2 ^ (8 * (a / 8)) * 2 ^ (a % 8) := by rw [← Int.pow_add, Nat.div_add_mod]
    _ ≡ 1 * 2 ^ (a % 8) [ZMOD 255] := whole.mul_right _
    _ = 2 ^ (a % 8) := one_mul _

theorem residue_eq_of_modEq {a b : Int} (h : a ≡ b [ZMOD 255]) : residue 255 a = residue 255 b := by
  unfold residue
  exact congrArg Int.toNat h

/-- The significand of a product with its sign. -/
def signedOf (neg : Bool) (m : Nat) : Int := if neg then -(m : Int) else m

theorem roundInt_ofNat (neg : Bool) (m k : Nat) : (roundInt neg m (Int.ofNat k)).1 = signedOf neg m * 2 ^ k := by
  unfold roundInt roundShift signedOf
  cases neg
  · simp
  · simp

/-- R83: the multiplier's checker passes a product that no error meets. -/
theorem productAgrees_zero {operands : Nat} {neg : Bool} {m : Nat} (sh : Int)
    (ops : operands % 255 = residue 255 (signedOf neg m)) :
    productAgrees operands sh ((roundInt neg m sh).1 + 0)
      ((if sh < 0 then signedOf neg m - (roundInt neg m sh).1 * 2 ^ (-sh).toNat else 0) + 0) = true := by
  unfold productAgrees
  rw [ops, decide_eq_true_eq]
  refine residue_eq_of_modEq ?_
  rcases sh with k | k
  · rw [roundInt_ofNat, if_neg (by simp), add_zero, add_zero, add_zero, mul_assoc, ← Int.pow_add]
    have cycle : (k + residue 8 (-Int.ofNat k)) % 8 = 0 := by
      unfold residue
      simp only [Int.ofNat_eq_natCast]
      omega
    have one := two_pow_modEq (k + residue 8 (-Int.ofNat k))
    rw [cycle] at one
    simpa using one.mul_left (signedOf neg m)
  · rw [if_pos (Int.negSucc_lt_zero k), add_zero, add_zero]
    have shift : residue 8 (-Int.negSucc k) = (k + 1) % 8 := by
      unfold residue
      rw [Int.neg_negSucc]
      omega
    have exponent : (-Int.negSucc k).toNat = k + 1 := by
      rw [Int.neg_negSucc]
      rfl
    rw [shift, exponent]
    have same := ((two_pow_modEq (k + 1)).symm.mul_left (roundInt neg m (Int.negSucc k)).1).add_right
      (signedOf neg m - (roundInt neg m (Int.negSucc k)).1 * 2 ^ (k + 1))
    simpa using same

/-! ### Ledgers that agree -/

theorem Ledger.add_fields (l : Ledger) (q : Int) : (l.add q).off = l.off ∧ (l.add q).res = l.res ∧
    ((l.add q).sat = true ∨ (l.add q).sat = l.sat ∧ (l.add q).l = l.l + q) := by
  unfold Ledger.add
  dsimp only
  split
  · exact ⟨rfl, rfl, .inl rfl⟩
  · split
    · exact ⟨rfl, rfl, .inl rfl⟩
    · exact ⟨rfl, rfl, .inr ⟨rfl, rfl⟩⟩

theorem Ledger.agrees_iff (l : Ledger) : l.agrees = true ↔ l.off = false ∧ (l.sat = true ∨ residue 255 l.l = l.res) := by
  unfold Ledger.agrees
  simp

theorem residue_add (a b : Int) : residue 255 (a + b) = (residue 255 a + residue 255 b) % 255 := by
  unfold residue
  omega

/-- R83, R84: a ledger that agreed agrees after an addition that no error meets. -/
theorem Ledger.addFin_agrees {l : Ledger} (anchor : Int) {operands : Nat} {neg : Bool} {m : Nat} (e : Int)
    (ops : operands % 255 = residue 255 (signedOf neg m)) (agrees : l.agrees = true) :
    (l.addFin anchor operands neg m e Slip.zero).agrees = true := by
  have passes := productAgrees_zero (e - anchor) ops
  obtain ⟨whole, same⟩ := l.agrees_iff.mp agrees
  obtain ⟨off, res, sum⟩ := Ledger.add_fields
    { l with inexact := l.inexact || (if e - anchor < 0 then signedOf neg m - (roundInt neg m (e - anchor)).1 *
      2 ^ (-(e - anchor)).toNat else 0) + 0 ≠ 0 } ((roundInt neg m (e - anchor)).1 + 0)
  refine (Ledger.agrees_iff _).mpr ⟨?_, ?_⟩
  · show (l.off || !productAgrees operands (e - anchor) ((roundInt neg m (e - anchor)).1 + 0) _) = false
    rw [whole]
    exact congrArg (!·) passes
  · rcases sum with saturated | ⟨sat, added⟩
    · exact .inl saturated
    · rcases same with was | equal
      · exact .inl (sat.trans was)
      · refine .inr ((congrArg (residue 255) added).trans ?_)
        show residue 255 (l.l + ((roundInt neg m (e - anchor)).1 + 0)) =
          (l.res + residue 255 ((roundInt neg m (e - anchor)).1 + 0)) % 255
        rw [← equal]
        exact residue_add _ _

theorem Val.residue_fin (neg : Bool) (m : Nat) (e : Int) : (Val.fin neg m e).residue = Machine.residue 255 (signedOf neg m) :=
  rfl

/-- R83: the residue of a product is the product of the residues. -/
theorem residue_mul (a b : Int) : residue 255 a * residue 255 b % 255 = residue 255 (a * b) := by
  unfold residue
  obtain ⟨p, left⟩ := Int.eq_ofNat_of_zero_le (Int.emod_nonneg a (show (255 : Int) ≠ 0 by decide))
  obtain ⟨q, right⟩ := Int.eq_ofNat_of_zero_le (Int.emod_nonneg b (show (255 : Int) ≠ 0 by decide))
  have reduced := Int.mul_emod a b 255
  rw [left, right] at reduced
  simp only [Nat.cast_ofNat, reduced, left, right]
  norm_cast

theorem signedOf_mul (a b : Bool) (m n : Nat) : signedOf (a ^^ b) (m * n) = signedOf a m * signedOf b n := by
  unfold signedOf
  cases a
  · cases b
    · simp
    · simp
  · cases b
    · simp
    · simp

theorem Ledger.product_agrees {l : Ledger} (anchor : Int) (u v : Val) (agrees : l.agrees = true) :
    (l.product anchor u v).agrees = true := by
  unfold Ledger.product Ledger.productWith
  split
  · refine Ledger.addFin_agrees anchor _ ?_ agrees
    rw [Val.residue_fin, Val.residue_fin, residue_mul, signedOf_mul]
  · exact agrees

theorem Ledger.product32_agrees {l : Ledger} (anchor : Int) (a b : Nat) (agrees : l.agrees = true) :
    (l.product32 anchor (fun _ => Slip.zero) a b).agrees = true := by
  unfold Ledger.product32
  split
  · exact Ledger.product_agrees anchor _ _ (Ledger.product_agrees anchor _ _ (Ledger.product_agrees anchor _ _ agrees))
  · exact agrees

theorem signedOf_natAbs (e : Int) : signedOf (e < 0) e.natAbs = e := by
  unfold signedOf
  split
  · rename_i negative
    have := of_decide_eq_true negative
    omega
  · rename_i positive
    simp only [decide_eq_true_eq] at positive
    omega

theorem Ledger.addElem_agrees {l : Ledger} (anchor : Int) (seg : Segment) (e : Int) (agrees : l.agrees = true) :
    (l.addElem anchor seg e Slip.zero).agrees = true := by
  unfold Ledger.addElem
  split
  · exact agrees
  · have start : (if seg.flags.ledgerSat ∧ (e.natAbs : Int) = l128Top then { l with sat := true } else l).agrees = true := by
      split
      · exact (Ledger.agrees_iff _).mpr ⟨(l.agrees_iff.mp agrees).1, .inl rfl⟩
      · exact agrees
    exact Ledger.addFin_agrees anchor _ (by rw [signedOf_natAbs]; exact Nat.mod_eq_of_lt (by unfold residue; omega)) start

/-! ### The ledgers of a corner -/

/-- Every entry of a run of keys changed once. -/
theorem Table.get_foldl_range {α : Type} [DecidableEq α] (d : α) (base : Nat) (g : Nat → α → α) (n : Nat) (t : Table α)
    (form : t.wf d = true) :
    let u := (List.range n).foldl (fun t j => Table.mod d (base + j) (g j) t) t
    u.wf d = true ∧ ∀ c, Table.get d u c = if base ≤ c ∧ c < base + n then g (c - base) (Table.get d t c) else Table.get d t c := by
  induction n with
  | zero => exact ⟨form, fun c => (if_neg (by omega)).symm⟩
  | succ n ih =>
    obtain ⟨canonical, reads⟩ := ih
    rw [List.range_succ, List.foldl_append]
    refine ⟨Table.wf_mod _ _ _ _ canonical, fun c => ?_⟩
    dsimp only [List.foldl_cons, List.foldl_nil]
    by_cases last : c = base + n
    · subst last
      rw [Table.get_mod_same _ _ _ _ canonical, reads, if_neg (by omega), if_pos (by omega), Nat.add_sub_cancel_left]
    · rw [Table.get_mod_other _ _ _ last, reads]
      by_cases inside : base ≤ c ∧ c < base + n
      · rw [if_pos inside, if_pos (by omega)]
      · rw [if_neg inside, if_neg (by omega)]

/-- Every ledger of a corner is changed once, and no other (R107). -/
theorem get_mapLedgers {cells : Table Ledger} (form : cells.wf Ledger.zero = true) {cols : Nat} (few : cols ≤ 64) (rows : Nat)
    (g : Nat → Nat → Ledger → Ledger) :
    (mapLedgers cells rows cols g).wf Ledger.zero = true ∧ ∀ c, Table.get Ledger.zero (mapLedgers cells rows cols g) c =
      if c / 64 < rows ∧ c % 64 < cols then g (c / 64) (c % 64) (Table.get Ledger.zero cells c)
      else Table.get Ledger.zero cells c := by
  unfold mapLedgers
  induction rows with
  | zero => exact ⟨form, fun c => (if_neg (by omega)).symm⟩
  | succ rows ih =>
    obtain ⟨canonical, reads⟩ := ih
    rw [List.range_succ, List.foldl_append]
    dsimp only [List.foldl_cons, List.foldl_nil]
    obtain ⟨formed, row⟩ := Table.get_foldl_range Ledger.zero (64 * rows) (g rows) cols _ canonical
    refine ⟨formed, fun c => ?_⟩
    rw [row, reads]
    by_cases inRow : 64 * rows ≤ c ∧ c < 64 * rows + cols
    · have line : c / 64 = rows := by omega
      rw [if_pos inRow, if_neg (by omega), if_pos (by omega), line, show c - 64 * rows = c % 64 by omega]
    · rw [if_neg inRow]
      by_cases before : c / 64 < rows ∧ c % 64 < cols
      · rw [if_pos before, if_pos (by omega)]
      · rw [if_neg before, if_neg (by omega)]

/-- A ledger of the corner. -/
theorem get_mapLedgers_at {cells : Table Ledger} (form : cells.wf Ledger.zero = true) {rows cols i j : Nat} (few : cols ≤ 64)
    (row : i < rows) (col : j < cols) (g : Nat → Nat → Ledger → Ledger) :
    Table.get Ledger.zero (mapLedgers cells rows cols g) (64 * i + j) = g i j (Table.get Ledger.zero cells (64 * i + j)) := by
  rw [(get_mapLedgers form few rows g).2, if_pos (by omega), show (64 * i + j) / 64 = i by omega,
    show (64 * i + j) % 64 = j by omega]

end Sys2Proof.Machine
end

section
/-! MMA and LEDGER_ADD: settles O17 and O18 (R62 to R67, R72, R83, R84, R94, R104 to R112, R121). -/

namespace Sys2Proof.Machine

/-! ### An uncorrectable operand word -/

theorem State.recap_marsh (f : State → State) (s : State) : (s.recap f).marsh = (f s).marsh := by
  unfold State.recap
  dsimp only
  split <;> rfl

theorem State.moveReserved_marsh (s : State) (k : Nat) : (s.moveReserved k).marsh = s.marsh := by
  unfold State.moveReserved
  split <;> rfl

theorem State.retireBlock_marsh (s : State) (k : Nat) : (s.retireBlock k).marsh = s.marsh := by
  unfold State.retireBlock
  split
  · rfl
  · rw [State.recap_marsh]
    dsimp only
    split
    · exact State.moveReserved_marsh ..
    · split
      · exact State.moveReserved_marsh ..
      · rfl

theorem State.report_marsh (s : State) (src : W32) (code : Nat) (ctx : Option (Nat × W16)) (info : W32) :
    (s.report src code ctx info).marsh = s.marsh := (s.report_reads src code ctx info).marsh

theorem State.yardCorrected_marsh (s : State) (w : Nat) : (s.yardCorrected w).marsh = s.marsh := by
  unfold State.yardCorrected
  dsimp only
  split
  · exact (State.retireBlock_marsh ..).trans (State.report_marsh ..)
  · exact State.report_marsh ..

theorem State.yardBad_marsh (s : State) (w : Nat) : (s.yardBad w).marsh = s.marsh := by
  unfold State.yardBad
  exact State.retireBlock_marsh ..

theorem State.yardSense_marsh (s : State) (part : Nat) (ecc : YardEcc) (range : List Nat) :
    (s.yardSense part ecc range).2.marsh = s.marsh :=
  (foldl_keeps State.marsh State.yardBad_marsh _ _).trans
    (foldl_keeps State.marsh State.yardCorrected_marsh _ _)

/-- Operand reads leave marshalling. -/
theorem State.operands_marsh (s : State) (f : Flight) (y : YardWord) (ecc : YardEcc) (spans : List Span) :
    (s.operands f y ecc spans).2.marsh = s.marsh :=
  (foldl_keeps State.marsh (fun _ _ => State.report_marsh ..) _ _).trans (State.yardSense_marsh ..)

/-- R94, R241: operand reads find a word of theirs that is uncorrectable. -/
theorem State.operands_damaged {s : State} {y : YardWord} {spans : List Span}
    (hurt : ∃ a ∈ spans, ∃ d ∈ yardWords (y.key a.1) a.2, d ∈ s.yard.damaged) (f : Flight) :
    (s.operands f y cleanYard spans).1 = true := by
  obtain ⟨a, span, d, word, damaged⟩ := hurt
  have found : d ∈ (s.yardSense y.phys cleanYard (spans.flatMap fun b => yardWords (y.key b.1) b.2).dedup).1 := by
    refine List.mem_filter.mpr ⟨List.mem_dedup.mpr (List.mem_flatMap.mpr ⟨a, span, word⟩), ?_⟩
    exact decide_eq_true (.inl damaged)
  unfold State.operands
  simp only [Bool.not_eq_true', List.isEmpty_eq_false_iff]
  exact List.ne_nil_of_mem found

/-! ### The completion of a wagon -/

theorem State.finish_marks {s : State} {ring : Nat} {index : W32} {f : Flight} (there : s.flight ring index = some f)
    (status : Byte) (flags : Flags) : Decided (s.finish f status flags) ring index status := by
  obtain ⟨rfl, rfl⟩ := State.flight_names there
  have taken : (s.takeFeed f.unit f.bits).2.flight f.ring f.index = some f :=
    (State.flight_congr (State.takeFeed_marsh ..) ..).trans there
  unfold State.finish Decided
  dsimp only
  rw [State.flight_congr (State.settle_marsh ..)]
  exact ⟨_, State.flight_decide taken .., rfl, rfl⟩

theorem State.finish_tokens (s : State) (f : Flight) (status : Byte) (flags : Flags) :
    (s.finish f status flags).tokens = s.tokens := by
  have taken : (s.takeFeed f.unit f.bits).2.tokens = s.tokens := by
    unfold State.takeFeed
    split
    · rfl
    · cases f.unit <;> rfl
  refine Eq.trans ?_ taken
  unfold State.finish State.settle
  dsimp only
  split
  · cases f.unit <;> rfl
  · rfl

/-! ### A wagon that accumulates -/

/-- A matrix wagon may accumulate with an anchor: it clears, or its bank has an open sequence of that anchor with room in its
log and with its ledgers; and the allotment holds its spans (R65, R99, R108, R121). -/
structure Accumulates (s : State) (ring : Nat) (index : W32) (f : Flight) (p : Fin 8) (e : Fin 20) (anchor : Int)
    (spans : List Span) : Prop where
  running : ∃ op, op ≠ 0x12 ∧ Running s ring index f op
  unit : f.unit = .matrix p e
  opens : wClear f.bits = true ∨ ((s.oldBank f p e).seq.isSome ∧ (s.oldBank f p e).anchor = anchor ∧
    (s.oldBank f p e).log.length < 64 ∧ (s.oldBank f p e).rebuild = false ∧
    Table.wf Ledger.zero (s.oldBank f p e).cells = true)
  holds : (s.allot f).holds spans = true

/-- The bank that the wagon starts from: cleared where it clears (R65). -/
def State.startBank (s : State) (f : Flight) (p : Fin 8) (e : Fin 20) : Bank :=
  if wClear f.bits then { s.oldBank f p e with cells := [] } else s.oldBank f p e

theorem State.startBank_get (s : State) (f : Flight) (p : Fin 8) (e : Fin 20) (c : Nat) :
    Table.get Ledger.zero (s.startBank f p e).cells c =
      if wClear f.bits then Ledger.zero else Table.get Ledger.zero (s.oldBank f p e).cells c := by
  unfold State.startBank
  split
  · rfl
  · rfl

section
variable {s t : State} {ring : Nat} {index : W32} {f : Flight} {p : Fin 8} {e : Fin 20} {anchor : Int} {spans : List Span}
  (h : Accumulates s ring index f p e anchor spans)
include h

theorem Accumulates.there : s.flight ring index = some f := by
  obtain ⟨_, _, running⟩ := h.running
  exact running.there

theorem Accumulates.good : badWagon f.bits = false := by
  obtain ⟨_, _, running⟩ := h.running
  exact running.good

theorem Accumulates.hasEngine (same : SameReads s t) : t.hasEngine p.val e.val := by
  refine State.hasEngine_of_ne fun fresh => ?_
  obtain ⟨_, _, running⟩ := h.running
  have up := running.up
  rw [h.unit] at up
  have serves : (s.engine p.val e.val).unit = .inService := by
    simp only [State.unitUp, Bool.and_eq_true, decide_eq_true_eq] at up
    exact up.2.2
  rw [← same.unit, fresh] at serves
  cases serves

theorem Accumulates.wf : Table.wf Ledger.zero (s.startBank f p e).cells = true := by
  unfold State.startBank
  split
  · rfl
  · rename_i keeps
    obtain clear | ⟨_, _, _, _, form⟩ := h.opens
    · exact absurd clear keeps
    · exact form

theorem Accumulates.notRefused (same : SameReads s t) :
    accumulateRefusal f (badWagon f.bits) (t.bank p.val e.val (wBank f.bits)) anchor (s.allot f) spans = none := by
  unfold accumulateRefusal
  rw [same.bank, if_neg (by simp [h.good])]
  obtain clear | ⟨seq, same, room, _, _⟩ := h.opens
  · simp [clear, h.holds]
  · have opened := Option.isSome_iff_ne_none.mp seq
    rw [if_neg fun k => opened k.2, if_neg, if_neg (by simp [h.holds])]
    rintro ⟨_, other | full⟩
    · exact other same
    · exact absurd room (Nat.not_lt.mpr full)

/-- R122: no ledger was lost, so that the bank is found as it stands. -/
theorem Accumulates.bankFor (same : SameReads s t) : t.bankFor p.val e.val f [] = (s.startBank f p e, t) := by
  obtain ⟨op, accumulates, running⟩ := h.running
  unfold State.bankFor State.startBank
  rw [same.bank, running.opcode]
  by_cases clear : wClear f.bits = true
  · rw [if_pos ⟨accumulates, clear⟩, if_pos clear]
    rfl
  · rw [if_neg fun k => clear k.2, if_neg clear]
    obtain clears | ⟨_, _, _, whole, _⟩ := h.opens
    · exact absurd clears clear
    · unfold State.rebuilt
      rw [show (s.bank p.val e.val (wBank f.bits)).rebuild = false from whole]
      rfl

/-- The wagon enters the log with its ledgers, and completes. -/
theorem Accumulates.ends (same : SameReads s t) (b : Bank) (src : W32) (cycles : Nat) (status : Byte) :
    let u := ((t.modBank p.val e.val (wBank f.bits) (fun _ => b)).mile src cycles).finish f status noFlags
    Decided u ring index status ∧ u.yard = t.yard ∧ u.mem = t.mem ∧ u.tokens = t.tokens ∧
      u.bank p.val e.val (wBank f.bits) = b := by
  have there : ((t.modBank p.val e.val (wBank f.bits) (fun _ => b)).mile src cycles).flight ring index = some f :=
    (State.flight_congr same.marsh ..).trans h.there
  refine ⟨State.finish_marks there status noFlags, (State.finish_store ..).1, (State.finish_store ..).2,
    State.finish_tokens .., ?_⟩
  rw [State.bank_finish, State.bank_mile, State.bank_modBank_same (h.hasEngine same)]

/-- The bank after the wagon: its anchor, its log and its ring. -/
theorem Accumulates.bank_after (cells : Table Ledger) (dataErr retried : Bool) :
    let b := (s.startBank f p e).accumulate f anchor cells dataErr retried
    b.seq = (if wClear f.bits then some ring else (s.oldBank f p e).seq) ∧ b.anchor = anchor ∧
      b.log = (if wClear f.bits then [] else (s.oldBank f p e).log) ++ [f.bits] ∧ b.cells = cells := by
  obtain ⟨named, _⟩ := State.flight_names h.there
  unfold Bank.accumulate State.startBank
  by_cases clear : wClear f.bits = true
  · simp [clear, named]
  · obtain clears | ⟨_, same, _, _, _⟩ := h.opens
    · exact absurd clears clear
    · simp [clear, same]

end

/-! ### The ledgers that an MMA leaves (R65, R72, R107) -/

theorem foldl_zipIdx_fst {α β : Type} (g : β → α → β) (l : List α) (k : Nat) (b : β) :
    (l.zipIdx k).foldl (fun b x => g b x.1) b = l.foldl g b := by
  induction l generalizing k b with
  | nil => rfl
  | cons a t ih => exact ih (k + 1) (g b a)

theorem slipAt_none (c place : Nat) : slipAt [] c place = Slip.zero := rfl

theorem nth_map_range {α : Type} (d : α) (g : Nat → α) {n i : Nat} (h : i < n) : nth d ((List.range n).map g) i = g i := by
  simp [nth, h]

/-- What is invariant under every step of a fold holds at its end. -/
theorem foldl_agrees {α : Type} {g : Ledger → α → Ledger} (keeps : ∀ l a, l.agrees = true → (g l a).agrees = true)
    (l : List α) {b : Ledger} (agrees : b.agrees = true) : (l.foldl g b).agrees = true :=
  List.foldlRecOn l g (motive := fun x => x.agrees = true) agrees fun x hx a _ => keeps x a hx

section
variable {s : State} {y : YardWord} {w : Wagon} {cells : Table Ledger} (form : cells.wf Ledger.zero = true)
  (few : mmCols w ≤ 64) {i j : Nat} (row : i < mmRows w) (col : j < mmCols w)
include form few row col

theorem State.mmaLedgers_product (plain : mmAFmt w ≠ 0xA) :
    Table.get Ledger.zero (s.mmaLedgers y w [] cells) (64 * i + j) =
      ((s.rowVals y (mmAFmt w) (mmK w) (mmA w + 64 * mmAStride w * i) (mmAScale w + 64 * mmAScaleStride w * i)).zip
        (s.rowVals y (mmBFmt w) (mmK w) (mmB w + 64 * mmBStride w * j) (mmBScale w + 64 * mmBScaleStride w * j))).foldl
        (fun l (u, v) => l.product (mmAnchor w) u v) (Table.get Ledger.zero cells (64 * i + j)) := by
  unfold State.mmaLedgers
  rw [if_neg plain]
  refine (get_mapLedgers_at form few row col _).trans ?_
  rw [nth_map_range _ _ row, nth_map_range _ _ col]
  exact foldl_zipIdx_fst (fun l (x : Val × Val) => Ledger.product (mmAnchor w) l x.1 x.2) _ 0 _

theorem State.mmaLedgers_product32 (pairs : mmAFmt w = 0xA) :
    Table.get Ledger.zero (s.mmaLedgers y w [] cells) (64 * i + j) =
      ((codesOf 0xA (mmK w) (s.yardGet y (mmA w + 64 * mmAStride w * i) (4 * mmK w))).zip
        (codesOf 0xA (mmK w) (s.yardGet y (mmB w + 64 * mmBStride w * j) (4 * mmK w)))).foldl
        (fun l (u, v) => l.product32 (mmAnchor w) (fun _ => Slip.zero) u v) (Table.get Ledger.zero cells (64 * i + j)) := by
  unfold State.mmaLedgers
  rw [if_pos pairs]
  refine (get_mapLedgers_at form few row col _).trans ?_
  rw [nth_map_range _ _ row, nth_map_range _ _ col]
  exact foldl_zipIdx_fst (fun l (x : Nat × Nat) => Ledger.product32 (mmAnchor w) (fun _ => Slip.zero) l x.1 x.2) _ 0 _

/-- R83, R84: a ledger whose residue agreed agrees after an MMA that errs nowhere. -/
theorem State.mmaLedgers_agrees (agrees : (Table.get Ledger.zero cells (64 * i + j)).agrees = true) :
    (Table.get Ledger.zero (s.mmaLedgers y w [] cells) (64 * i + j)).agrees = true := by
  by_cases pairs : mmAFmt w = 0xA
  · rw [State.mmaLedgers_product32 form few row col pairs]
    exact foldl_agrees (fun l (a : Nat × Nat) => l.product32_agrees _ a.1 a.2) _ agrees
  · rw [State.mmaLedgers_product form few row col pairs]
    exact foldl_agrees (fun l (a : Val × Val) => l.product_agrees _ a.1 a.2) _ agrees

end

/-- R107: a tile has at most 64 columns. -/
theorem badTile_cols {m n : Nat} (good : badTile m n = false) : n ≤ 64 := by
  simp only [badTile, Bool.or_eq_false_iff, decide_eq_false_iff_not] at good
  omega

theorem badWagon_mma {w : Wagon} (op : wOpcode w = 0x10) (good : badWagon w = false) : badMma w = false := by
  simp only [badWagon, op, if_true, Bool.or_eq_false_iff] at good
  exact good.2

theorem badWagon_ledgerAdd {w : Wagon} (op : wOpcode w = 0x11) (good : badWagon w = false) : badLedgerAdd w = false := by
  simp only [badWagon, op, Bool.or_eq_false_iff] at good
  exact good.2

theorem mmCols_le {w : Wagon} (op : wOpcode w = 0x10) (good : badWagon w = false) : mmCols w ≤ 64 := by
  have formed := badWagon_mma op good
  unfold badMma at formed
  simp only [Bool.or_eq_false_iff] at formed
  exact badTile_cols (by tauto)

theorem laCols_le {w : Wagon} (op : wOpcode w = 0x11) (good : badWagon w = false) : laCols w ≤ 64 := by
  have formed := badWagon_ledgerAdd op good
  unfold badLedgerAdd at formed
  simp only [Bool.or_eq_false_iff] at formed
  exact badTile_cols (by tauto)

/-! ### MMA -/

/-- An MMA that nothing refuses. -/
theorem Accumulates.execMma_eq {s : State} {ring : Fin 4096} {index : W32} {f : Flight} {p : Fin 8} {e : Fin 20}
    (running : Running s ring.val index f 0x10)
    (h : Accumulates s ring.val index f p e (mmAnchor f.bits) (mmaSpans f.bits)) :
    execMma ring index cleanYard [] [] s = .next (
      let t := s.ranOn p.val e.val f
      let r := t.operands f (s.allot f) cleanYard (mmaSpans f.bits)
      ((r.2.modBank p.val e.val (wBank f.bits) (fun _ => (s.startBank f p e).accumulate f (mmAnchor f.bits)
        (r.2.mmaLedgers (s.allot f) f.bits [] (s.startBank f p e).cells) r.1 false)).mile
        (source 1 p.val e.val) (mmaCycles f.bits)).finish f (if r.1 then wsData else wsOk) noFlags) := by
  have same := s.ranOn_reads p.val e.val f
  unfold execMma
  rw [State.onEngine_running running h.unit]
  simp only [h.notRefused same, h.bankFor same, same.allot]

/-- An MMA that nothing refuses, where no word of the Yard is damaged. -/
theorem Accumulates.execMma_clean {s : State} {ring : Fin 4096} {index : W32} {f : Flight} {p : Fin 8} {e : Fin 20}
    (running : Running s ring.val index f 0x10)
    (h : Accumulates s ring.val index f p e (mmAnchor f.bits) (mmaSpans f.bits)) (clean : s.yard.damaged = []) :
    execMma ring index cleanYard [] [] s = .next ((((s.ranOn p.val e.val f).modBank p.val e.val (wBank f.bits)
      (fun _ => (s.startBank f p e).accumulate f (mmAnchor f.bits)
        (s.mmaLedgers (s.allot f) f.bits [] (s.startBank f p e).cells) false false)).mile
        (source 1 p.val e.val) (mmaCycles f.bits)).finish f wsOk noFlags) := by
  have same := s.ranOn_reads p.val e.val f
  have reads := State.operands_clean (s := s.ranOn p.val e.val f) (by rw [same.yard]; exact clean) f (s.allot f)
    (mmaSpans f.bits)
  rw [h.execMma_eq running]
  dsimp only
  rw [reads]
  simp only [same.mmaLedgers, Bool.false_eq_true, if_false]

/-- An MMA that meets an uncorrectable word completes DATA_UNCORRECTABLE. -/
theorem Accumulates.execMma_hurt {s : State} {ring : Fin 4096} {index : W32} {f : Flight} {p : Fin 8} {e : Fin 20}
    (running : Running s ring.val index f 0x10)
    (h : Accumulates s ring.val index f p e (mmAnchor f.bits) (mmaSpans f.bits))
    (hurt : ∃ a ∈ mmaSpans f.bits, ∃ d ∈ yardWords ((s.allot f).key a.1) a.2, d ∈ s.yard.damaged) :
    ∃ t, execMma ring index cleanYard [] [] s = .next t ∧ Decided t ring.val index wsData := by
  have same := s.ranOn_reads p.val e.val f
  have found : ((s.ranOn p.val e.val f).operands f (s.allot f) cleanYard (mmaSpans f.bits)).1 = true :=
    State.operands_damaged (by rw [same.yard]; exact hurt) f
  refine ⟨_, h.execMma_eq running, ?_⟩
  dsimp only
  rw [found, if_pos rfl]
  refine State.finish_marks ?_ wsData noFlags
  exact (State.flight_congr ((State.operands_marsh ..).trans same.marsh) ..).trans h.there

/-- Settles O17: the ledgers of the corner as the fold of their products, in the bank that the wagon starts from. -/
theorem mmaAccumulates : Obligations.MmaAccumulates := by
  intro s ring x f p e running unit w y old opens holds vals codes first
  have h : Accumulates s ring.val x f p e (mmAnchor f.bits) (mmaSpans f.bits) :=
    ⟨⟨0x10, by decide, running⟩, unit, opens, holds⟩
  have same := s.ranOn_reads p.val e.val f
  have few := mmCols_le running.opcode running.good
  refine ⟨fun clean => ?_, h.execMma_hurt running⟩
  obtain ⟨decided, yard, mem, tokens, bank⟩ := h.ends same ((s.startBank f p e).accumulate f (mmAnchor f.bits)
    (s.mmaLedgers y f.bits [] (s.startBank f p e).cells) false false) (source 1 p.val e.val) (mmaCycles f.bits) wsOk
  obtain ⟨seq, anchor, log, cells⟩ := h.bank_after (s.mmaLedgers y f.bits [] (s.startBank f p e).cells) false false
  refine ⟨_, h.execMma_clean running clean, decided, yard.trans same.yard, mem.trans same.mem, tokens, ?_⟩
  dsimp only
  rw [bank]
  refine ⟨seq, anchor, log, fun i row j col => ?_⟩
  rw [cells]
  have start : Table.get Ledger.zero (s.startBank f p e).cells (64 * i + j) = first (64 * i + j) := s.startBank_get f p e _
  rw [← start]
  exact ⟨State.mmaLedgers_agrees h.wf few row col, State.mmaLedgers_product h.wf few row col,
    State.mmaLedgers_product32 h.wf few row col⟩

/-! ### LEDGER_ADD -/

/-- A ledger of the corner after a LEDGER_ADD that errs nowhere (R111). -/
theorem State.addLedgers_element {s : State} {y : YardWord} {w : Wagon} {cells : Table Ledger}
    (form : cells.wf Ledger.zero = true) (few : laCols w ≤ 64) {i j : Nat} (row : i < laRows w) (col : j < laCols w) :
    let seg := Segment.parse (s.yardGet y (laAddr w + 64 * laStride w * (i / 4)) segBytes)
    Table.get Ledger.zero (s.addLedgers y w [] cells) (64 * i + j) =
      (Table.get Ledger.zero cells (64 * i + j)).addElem (laAnchor w) seg (nth 0 seg.elems (64 * (i % 4) + j)) Slip.zero := by
  unfold State.addLedgers State.addSegments addSpans rowSpans
  refine (get_mapLedgers_at form few row col _).trans ?_
  have inside : i / 4 < (laRows w + 3) / 4 := by omega
  simp [inside, slipAt_none]

theorem SameReads.addSegments {s t : State} (h : SameReads s t) (y : YardWord) (w : Wagon) :
    t.addSegments y w = s.addSegments y w := by
  simp only [State.addSegments, h.yardGet]

/-- R111: no segment lies below the wagon's anchor. -/
theorem State.addSegments_above {s : State} {y : YardWord} {w : Wagon}
    (above : ∀ k < (laRows w + 3) / 4,
      laAnchor w ≤ (Segment.parse (s.yardGet y (laAddr w + 64 * laStride w * k) segBytes)).anchor) :
    (s.addSegments y w).any (fun g => g.anchor < laAnchor w) = false := by
  rw [List.any_eq_false]
  intro g hg
  simp only [State.addSegments, addSpans, rowSpans, List.map_map, List.mem_map, List.mem_range] at hg
  obtain ⟨k, inside, rfl⟩ := hg
  have := above k inside
  simpa using this

/-- A LEDGER_ADD that nothing refuses, where no word of the Yard is damaged. -/
theorem Accumulates.execLedgerAdd_clean {s : State} {ring : Fin 4096} {index : W32} {f : Flight} {p : Fin 8} {e : Fin 20}
    (running : Running s ring.val index f 0x11)
    (h : Accumulates s ring.val index f p e (laAnchor f.bits) (addSpans f.bits)) (clean : s.yard.damaged = [])
    (above : (s.addSegments (s.allot f) f.bits).any (fun g => g.anchor < laAnchor f.bits) = false) :
    ∃ dataErr retried cycles, execLedgerAdd ring index cleanYard [] [] s = .next (
      (((s.ranOn p.val e.val f).modBank p.val e.val (wBank f.bits)
        (fun _ => (s.startBank f p e).accumulate f (laAnchor f.bits)
          (s.addLedgers (s.allot f) f.bits [] (s.startBank f p e).cells) dataErr retried)).mile
          (source 1 p.val e.val) cycles).finish f wsOk noFlags) := by
  have same := s.ranOn_reads p.val e.val f
  have reads := State.operands_clean (s := s.ranOn p.val e.val f) (by rw [same.yard]; exact clean) f (s.allot f)
    (addSpans f.bits)
  unfold execLedgerAdd
  rw [State.onEngine_running running h.unit]
  simp only [h.notRefused same, same.allot]
  rw [reads]
  simp only [same.addSegments, above, h.bankFor same, same.addLedgers, Bool.false_eq_true, if_false]
  exact ⟨_, _, _, rfl⟩

/-- Settles O18: the ledgers of the corner with their elements added, in the bank that the wagon starts from. -/
theorem ledgerAddAccumulates : Obligations.LedgerAddAccumulates := by
  intro s ring x f p e running unit clean w y old seg opens holds above
  have h : Accumulates s ring.val x f p e (laAnchor f.bits) (addSpans f.bits) :=
    ⟨⟨0x11, by decide, running⟩, unit, opens, holds⟩
  have same := s.ranOn_reads p.val e.val f
  have few := laCols_le running.opcode running.good
  obtain ⟨dataErr, retried, cycles, run⟩ := h.execLedgerAdd_clean running clean (State.addSegments_above above)
  obtain ⟨decided, yard, mem, _, bank⟩ := h.ends same ((s.startBank f p e).accumulate f (laAnchor f.bits)
    (s.addLedgers y f.bits [] (s.startBank f p e).cells) dataErr retried) (source 1 p.val e.val) cycles wsOk
  obtain ⟨_, anchor, log, cells⟩ := h.bank_after (s.addLedgers y f.bits [] (s.startBank f p e).cells) dataErr retried
  refine ⟨_, run, decided, yard.trans same.yard, mem.trans same.mem, ?_⟩
  dsimp only
  rw [bank]
  refine ⟨anchor, log, fun i row j col => ?_⟩
  rw [cells]
  have start := s.startBank_get f p e (64 * i + j)
  have added := State.addLedgers_element (s := s) (y := y) h.wf few row col
  rw [start] at added
  refine ⟨added, fun agrees => ?_⟩
  rw [added]
  exact Ledger.addElem_agrees _ _ _ agrees

end Sys2Proof.Machine
end

section
/-! SUPPORT. A wagon of a data mover that is alone in it: its start, the pieces of its one row, its completion (R226 to R237). -/

namespace Sys2Proof.Machine

/-! ### Bytes of a range -/

theorem Bytes.read_congr {m k : Bytes} {a n : Nat} (same : ∀ i, a ≤ i → i < a + n → m.get i = k.get i) :
    m.read a n = k.read a n := by
  induction n generalizing a with
  | zero => rfl
  | succ n ih =>
    show m.get a :: m.read (a + 1) n = k.get a :: k.read (a + 1) n
    rw [same a (Nat.le_refl a) (by omega), ih fun i low high => same i (by omega) (by omega)]

/-- A part of a range read. -/
theorem Bytes.read_part (m : Bytes) (a : Nat) {c n l : Nat} (inside : c + n ≤ l) :
    m.read (a + c) n = ((m.read a l).drop c).take n := by
  have front := m.read_append a c (l - c)
  have rest := m.read_append (a + c) n (l - c - n)
  rw [show c + (l - c) = l by omega] at front
  rw [show n + (l - c - n) = l - c by omega] at rest
  rw [← front, List.drop_left' (m.read_length a c), ← rest, List.take_left' (m.read_length (a + c) n)]

theorem take_drop_map_range {α : Type} (g : Nat → α) {c n l : Nat} (inside : c + n ≤ l) :
    (((List.range l).map g).drop c).take n = (List.range n).map (fun i => g (c + i)) := by
  refine List.ext_getElem (by simp; omega) fun i _ _ => ?_
  simp

theorem wrap64_natCast {a : Nat} (small : a < 2 ^ 64) : wrap64 (a : Int) = a := by
  unfold wrap64 unsigned
  omega

/-! ### Wagons under a change -/

theorem Flight.past_is (f : Flight) (n ring : Nat) (index : W32) : (f.past n).is ring index = f.is ring index := by
  unfold Flight.past Flight.is
  split
  · rfl
  · split
    · rfl
    · split
      · rfl
      · rfl

theorem Flight.is_stage {f : Flight} {ring : Nat} {index : W32} (h : f.is ring index = true) : f.stage ≠ .done := by
  simp only [Flight.is, Bool.and_eq_true, decide_eq_true_eq] at h
  exact h.2

/-- The wagons of a unit after a change of one that leaves it there. -/
theorem State.unitFlights_modFlight (s : State) (u : UnitRef) {ring : Nat} {index : W32} {k : Flight → Flight}
    (kept : ∀ h : Flight, h.is ring index = true → (k h).unit = h.unit ∧ (k h).stage ≠ .done) :
    (s.modFlight ring index k).unitFlights u = (s.unitFlights u).map (fun h => if h.is ring index then k h else h) := by
  unfold State.unitFlights State.modFlight
  dsimp only
  rw [List.filter_map]
  congr 1
  refine List.filter_congr fun h _ => ?_
  dsimp only [Function.comp]
  split
  · rename_i mine
    rw [(kept h mine).1, decide_eq_decide]
    exact and_congr_right fun _ => iff_of_true (kept h mine).2 (Flight.is_stage mine)
  · rfl

/-! ### The start of a wagon -/

/-- A wagon that its mover executes goes on as one that waits, with the index list that it read. -/
def Flight.moving (f : Flight) (list : List Nat) : Flight := { f with list := list, stage := .waiting }

/-- The index list that a wagon goes by: the one in the Yard of a GATHER or SCATTER, else its own (R231). -/
def State.listOf (s : State) (f : Flight) : List Nat :=
  if wOpcode f.bits = 0x31 ∨ wOpcode f.bits = 0x32 then s.indexList (s.allot f) f.bits else f.list

section
variable {s : State} {ring : Fin 4096} {index : W32} {f : Flight} {op : Nat}

/-- R231: reading the index list changes the wagon alone. -/
theorem Running.readList (h : Running s ring.val index f op)
    (clean : (op = 0x31 ∨ op = 0x32) → s.yard.damaged = [])
    (accepted : s.mvRefusal { f with list := s.listOf f } = none) :
    ∃ k : Flight → Flight, s.readList f noErrs = s.modFlight ring.val index k ∧ k f = { f with list := s.listOf f } ∧
      ∀ h, (k h).unit = h.unit ∧ (k h).ring = h.ring ∧ (k h).index = h.index ∧ (k h).stage = h.stage := by
  obtain ⟨named, numbered⟩ := State.flight_names h.there
  have fits : (op = 0x31 ∨ op = 0x32) → mvAux f.bits + 4 * mvRows f.bits ≤ (s.allot f).size * 65536 := by
    intro listed
    unfold State.mvRefusal at accepted
    dsimp only at accepted
    split at accepted
    · cases accepted
    · split at accepted
      · cases accepted
      · rename_i holds
        have inside := not_not.mp holds
        simp only [mvYardOk, Bool.and_eq_true, h.opcode] at inside
        obtain ⟨⟨list, _⟩, _⟩ := inside
        simp only [Bool.or_eq_true, Bool.and_eq_true, decide_eq_true_eq] at list
        rcases list with other | inside
        · exact absurd listed (by omega)
        · exact inside
  unfold State.readList State.listOf
  dsimp only
  rw [h.opcode, h.good]
  by_cases listed : op = 0x31 ∨ op = 0x32
  · rw [if_pos ⟨listed, by simp, fits listed⟩, if_pos listed]
    refine ⟨fun x => { x with list := s.indexList (s.allot f) f.bits }, ?_, rfl, fun _ => ⟨rfl, rfl, rfl, rfl⟩⟩
    have reads := State.operands_clean (clean listed) f (s.allot f) [(mvAux f.bits, 4 * mvRows f.bits)]
    simp only [show noErrs.yard = cleanYard from rfl, reads, named, numbered, Bool.false_eq_true, if_false]
  · rw [if_neg fun k => listed k.1, if_neg listed]
    refine ⟨id, ?_, rfl, fun _ => ⟨rfl, rfl, rfl, rfl⟩⟩
    unfold State.modFlight
    simp

/-- R226, R227: a wagon alone in its mover that nothing refuses goes on to issue its pieces. -/
theorem Running.runMover_issues (h : Running s ring.val index f op) (alone : s.unitFlights f.unit = [f])
    (clean : (op = 0x31 ∨ op = 0x32) → s.yard.damaged = [])
    (accepted : s.mvRefusal { f with list := s.listOf f } = none) :
    ∃ flights, let t := { s with marsh.flights := flights }
      t.flight ring.val index = some (f.moving (s.listOf f)) ∧
      s.runMover op ring.val index noErrs = t.issueQueue noErrs [f.moving (s.listOf f)] := by
  obtain ⟨k, read, mine, keeps⟩ := h.readList clean accepted
  have same : ∀ x : Flight, (k x).is ring.val index = x.is ring.val index := fun x => by
    obtain ⟨_, named, numbered, stage⟩ := keeps x
    simp only [Flight.is, named, numbered, stage]
  have found : (s.modFlight ring.val index k).flight ring.val index = some { f with list := s.listOf f } :=
    (State.flight_modFlight h.there fun x is => (same x).trans is).trans (congrArg some mine)
  have waits : ∀ x : Flight, x.is ring.val index = true →
      ({ x with stage := .waiting } : Flight).is ring.val index = true := fun x is => by
    simp only [Flight.is, Bool.and_eq_true, decide_eq_true_eq] at is ⊢
    exact ⟨is.1, by simp⟩
  refine ⟨((s.modFlight ring.val index k).modFlight ring.val index (fun x => { x with stage := .waiting })).marsh.flights,
    State.flight_modFlight found waits, ?_⟩
  have runs : s.runs op f = true := by simp [State.runs, h.started, h.opcode, h.up]
  unfold State.runMover
  rw [State.onFlight_runs h.there h.clock runs]
  dsimp only
  rw [read, found, Option.getD_some]
  rw [show (s.modFlight ring.val index k).mvRefusal { f with list := s.listOf f } = none from accepted]
  dsimp only
  unfold State.issueMore
  refine (if_neg (show ¬ s.frozen = true by rw [h.clock]; simp)).trans ?_
  have is := Flight.is_of_flight h.there
  rw [State.unitFlights_modFlight _ _ (k := fun x => { x with stage := .waiting }) (fun x _ => ⟨rfl, by simp⟩),
    State.unitFlights_modFlight _ _ (fun x is => ⟨(keeps x).1, by rw [(keeps x).2.2.2]; exact Flight.is_stage is⟩), alone]
  simp only [List.map_cons, List.map_nil, is, if_true, same]
  rw [mine]
  rfl

end

/-! ### A queue of one wagon -/

section
variable {s : State} {ring : Nat} {index : W32} {g : Flight}

/-- R235, R236: a wagon alone in its mover issues its pieces, and its completion is decided where it has issued all. -/
theorem State.issueQueue_one (there : s.flight ring index = some g) (waits : g.stage = .waiting) (more : g.issuedAll = false)
    (errs : MemErrs) : s.issueQueue errs [g] =
      let t := s.issue ring index errs (mvPieces g.bits)
      if (t.flight ring index).any (fun x => !x.issuedAll) then t else t.tryMove ring index := by
  obtain ⟨named, numbered⟩ := State.flight_names there
  unfold State.issueQueue
  rw [named, numbered, there]
  dsimp only
  rw [if_neg (by rw [waits]; simp), if_pos ⟨waits, by rw [more]; simp⟩]
  rfl

/-- R235: a wagon whose reads are all answered and whose writes are all acknowledged completes. -/
theorem State.tryMove_finishes (there : s.flight ring index = some g) (waits : g.stage = .waiting) (all : g.issuedAll = true)
    (noTags : g.tags = []) (noReads : (s.mover (moverOf g.unit).1 (moverOf g.unit).2).reads = []) :
    s.tryMove ring index = s.finishMove g := by
  unfold State.tryMove
  rw [there]
  dsimp only
  rw [if_pos ⟨waits, all, noTags, by rw [noReads]; simp⟩]

theorem State.finishMove_plain (noCauses : g.causes = []) : s.finishMove g = s.finish g wsOk noFlags := by
  unfold State.finishMove
  rw [noCauses]
  rfl

end

/-! ### The pieces of one row in the Yard (R228, R231) -/

/-- The bytes of a piece of n bytes: of the pattern, or of the source as the Yard holds it (R231). -/
def State.pieceOf (s : State) (g : Flight) (n : Nat) : List Byte :=
  if wOpcode g.bits = 0x33 then (List.range n).map (fun i => BitVec.ofNat 8 (mvAux g.bits / 256 ^ ((g.col + i) % 4)))
  else s.yardGet (s.allot g) (wrap64 (srcRow g.bits g.list g.plane g.row + g.col)) n

/-- A piece from the Yard or a pattern to the Yard is moved at once. -/
theorem State.issueOne_moves {s : State} (clean : s.yard.damaged = []) {g : Flight} (loc : mvDstLoc g.bits = 1)
    (source : wOpcode g.bits = 0x33 ∨ mvSrcLoc g.bits = 1) :
    let dst := wrap64 (dstRow g.bits g.list g.plane g.row + g.col)
    let n := pieceBytes g.bits (wrap64 (srcRow g.bits g.list g.plane g.row + g.col)) dst g.col
    s.issueOne g noErrs =
      { s with yard.bytes := s.yard.bytes.write ((s.allot g).key dst) (s.pieceOf g n) }.modFlight g.ring g.index
        (fun x => x.past n) := by
  have put (dst : Nat) (bs : List Byte) := State.yardPut_clean g (s.allot g) [(dst, bs)] s clean
  unfold State.issueOne State.deliver State.pieceOf
  dsimp only
  rw [show noErrs.yard = cleanYard from rfl, loc]
  by_cases fill : wOpcode g.bits = 0x33
  · rw [if_pos fill, if_pos fill, if_neg (by decide), if_pos rfl]
    simp only [Bool.false_eq_true, if_false, put]
    rfl
  · obtain pattern | yard := source
    · exact absurd pattern fill
    · rw [if_neg fill, if_neg fill, if_pos yard, State.operands_clean clean]
      dsimp only
      rw [if_neg (by decide), if_pos rfl]
      simp only [Bool.false_eq_true, if_false, put]
      rfl

/-- A wagon that moves one row of bytes within the Yard of an allotment, from src (not a FILL) to dst. -/
structure OneRow (s : State) (g : Flight) (y : YardWord) (src dst : Nat) (bytes : List Byte) : Prop where
  clean : s.yard.damaged = []
  allot : s.allot g = y
  waits : g.stage = .waiting
  planes : mvPlanes g.bits = 1
  rows : mvRows g.bits = 1
  plane : g.plane = 0
  row : g.row = 0
  loc : mvDstLoc g.bits = 1
  source : wOpcode g.bits = 0x33 ∧ mvSrcLoc g.bits ≠ 2 ∨ wOpcode g.bits ≠ 0x33 ∧ mvSrcLoc g.bits = 1
  long : bytes.length = mvRowBytes g.bits
  dstAt : dstRow g.bits g.list 0 0 = dst
  dstIn : dst + mvRowBytes g.bits < 2 ^ 64
  pattern : wOpcode g.bits = 0x33 →
    bytes = (List.range (mvRowBytes g.bits)).map (fun i => BitVec.ofNat 8 (mvAux g.bits / 256 ^ (i % 4)))
  srcAt : wOpcode g.bits ≠ 0x33 → srcRow g.bits g.list 0 0 = src ∧ src + mvRowBytes g.bits < 2 ^ 64 ∧
    (src + mvRowBytes g.bits ≤ dst ∨ dst + mvRowBytes g.bits ≤ src) ∧
    s.yard.bytes.read (y.key src) (mvRowBytes g.bits) = bytes
  reads : (s.mover (moverOf g.unit).1 (moverOf g.unit).2).reads = []

section
variable {s : State} {ring : Nat} {index : W32} {g : Flight} {y : YardWord} {src dst : Nat} {bytes : List Byte}

/-- Bytes of the next piece: up to the end of a line of the destination (R236). -/
def Flight.lineLeft (g : Flight) (dst : Nat) : Nat := min (mvRowBytes g.bits - g.col) (64 - (dst + g.col) % 64)

theorem OneRow.dstWrap (h : OneRow s g y src dst bytes) (inside : g.col < mvRowBytes g.bits) :
    wrap64 (dstRow g.bits g.list g.plane g.row + g.col) = dst + g.col := by
  rw [h.plane, h.row, h.dstAt, ← Int.natCast_add]
  have := h.dstIn
  exact wrap64_natCast (by omega)

theorem OneRow.pieceBytes_eq (h : OneRow s g y src dst bytes) (from_ : Nat) :
    pieceBytes g.bits from_ (dst + g.col) g.col = g.lineLeft dst := by
  unfold pieceBytes Flight.lineLeft
  dsimp only
  rw [if_neg, if_neg (by rw [h.loc]; decide)]
  rcases h.source with ⟨fill, loc⟩ | ⟨_, loc⟩
  · rintro (⟨_, other⟩ | host)
    · exact other fill
    · exact loc host
  · rw [loc]
    rintro (⟨memory, _⟩ | host)
    · cases memory
    · cases host

theorem OneRow.piece (h : OneRow s g y src dst bytes) (inside : g.col < mvRowBytes g.bits) {n : Nat}
    (fits : g.col + n ≤ mvRowBytes g.bits) : s.pieceOf g n = (bytes.drop g.col).take n := by
  unfold State.pieceOf
  by_cases fill : wOpcode g.bits = 0x33
  · rw [if_pos fill, h.pattern fill, take_drop_map_range _ fits]
  · obtain ⟨at_, small, _, reads⟩ := h.srcAt fill
    rw [if_neg fill, h.plane, h.row, at_, ← Int.natCast_add, wrap64_natCast (by omega), State.yardGet,
      State.yardLoad_clean h.clean, h.allot, ← reads, y.key_add (src + g.col), ← Nat.add_assoc, ← y.key_add src]
    exact Bytes.read_part _ _ fits

/-- The state after the next piece, and the wagon past it. -/
theorem OneRow.next (h : OneRow s g y src dst bytes) (there : s.flight ring index = some g)
    (inside : g.col < mvRowBytes g.bits) :
    ∃ flights, s.issueOne g noErrs = { s with
        yard.bytes := s.yard.bytes.write (y.key (dst + g.col)) ((bytes.drop g.col).take (g.lineLeft dst))
        marsh.flights := flights } ∧
      (s.issueOne g noErrs).flight ring index = some (g.past (g.lineLeft dst)) := by
  obtain ⟨named, numbered⟩ := State.flight_names there
  have source : wOpcode g.bits = 0x33 ∨ mvSrcLoc g.bits = 1 := h.source.imp And.left And.right
  have moved := State.issueOne_moves h.clean h.loc source
  dsimp only at moved
  have fits : g.col + g.lineLeft dst ≤ mvRowBytes g.bits := by
    unfold Flight.lineLeft
    omega
  rw [h.dstWrap inside, h.pieceBytes_eq, h.allot, h.piece inside fits, named, numbered] at moved
  rw [moved]
  refine ⟨_, rfl, ?_⟩
  refine State.flight_modFlight (s := { s with yard.bytes := _ }) there fun x is => ?_
  rw [Flight.past_is]
  exact is

/-- The wagon past a piece that does not end its row. -/
theorem OneRow.after (h : OneRow s g y src dst bytes) (rest : g.col + g.lineLeft dst < mvRowBytes g.bits)
    (flights : List Flight) :
    OneRow { s with
      yard.bytes := s.yard.bytes.write (y.key (dst + g.col)) ((bytes.drop g.col).take (g.lineLeft dst))
      marsh.flights := flights } { g with col := g.col + g.lineLeft dst } y src dst bytes := by
  refine ⟨h.clean, h.allot, h.waits, h.planes, h.rows, h.plane, h.row, h.loc, h.source, h.long, h.dstAt, h.dstIn, h.pattern,
    fun yard => ?_, h.reads⟩
  obtain ⟨at_, small, apart, reads⟩ := h.srcAt yard
  refine ⟨at_, small, apart, ?_⟩
  refine Eq.trans (Bytes.read_congr fun i low high => ?_) reads
  refine Bytes.get_write_outside _ _ _ _ ?_
  have short : ((bytes.drop g.col).take (g.lineLeft dst)).length ≤ g.lineLeft dst := List.length_take_le ..
  dsimp only at low high
  rw [y.key_add src] at low high
  rw [y.key_add (dst + g.col)]
  omega

theorem Flight.past_more {n : Nat} (rest : g.col + n < mvRowBytes g.bits) : g.past n = { g with col := g.col + n } := by
  unfold Flight.past
  exact if_pos rest

theorem Flight.past_last (planes : mvPlanes g.bits = 1) (rows : mvRows g.bits = 1) {n : Nat}
    (all : mvRowBytes g.bits ≤ g.col + n) : g.past n = { g with col := 0, issuedAll := true } := by
  unfold Flight.past
  rw [if_neg (by omega), if_neg (by omega), if_neg (by omega)]

theorem State.issue_step (there : s.flight ring index = some g) (waits : g.stage = .waiting) (more : g.issuedAll = false)
    (room : (s.mover (moverOf g.unit).1 (moverOf g.unit).2).reads = []) (errs : MemErrs) (fuel : Nat) :
    s.issue ring index errs (fuel + 1) = (s.issueOne g errs).issue ring index errs fuel := by
  rw [State.issue, there]
  dsimp only
  rw [if_neg]
  rw [waits, more, room]
  simp

theorem State.issue_all (there : s.flight ring index = some g) (all : g.issuedAll = true) (errs : MemErrs) (fuel : Nat) :
    s.issue ring index errs fuel = s := by
  cases fuel with
  | zero => rfl
  | succ fuel =>
    unfold State.issue
    rw [there]
    dsimp only
    rw [if_pos (.inr (.inl all))]

/-- R228, R231: the rest of a row reaches the Yard piece by piece, and nothing else changes. -/
theorem OneRow.issue (fuel : Nat) : ∀ {s : State} {g : Flight}, OneRow s g y src dst bytes → s.flight ring index = some g →
    g.issuedAll = false → g.col < mvRowBytes g.bits →
    (dst + mvRowBytes g.bits - 1) / 64 - (dst + g.col) / 64 < fuel →
    ∃ flights, s.issue ring index noErrs fuel = { s with
        yard.bytes := s.yard.bytes.write (y.key (dst + g.col)) (bytes.drop g.col), marsh.flights := flights } ∧
      (s.issue ring index noErrs fuel).flight ring index = some { g with col := 0, issuedAll := true } := by
  induction fuel with
  | zero => exact fun _ _ _ _ room => absurd room (Nat.not_lt_zero _)
  | succ fuel ih =>
    intro s g h there more inside room
    obtain ⟨flights, moved, found⟩ := h.next there inside
    rw [State.issue_step there h.waits more h.reads]
    by_cases rest : g.col + g.lineLeft dst < mvRowBytes g.bits
    · rw [Flight.past_more rest] at found
      rw [moved] at found ⊢
      have line : (dst + (g.col + g.lineLeft dst)) / 64 = (dst + g.col) / 64 + 1 := by
        unfold Flight.lineLeft at rest ⊢
        omega
      obtain ⟨last, done, ended⟩ := ih (h.after rest flights) found more rest (by
        dsimp only
        rw [line]
        have := h.dstIn
        unfold Flight.lineLeft at rest
        omega)
      refine ⟨last, done.trans ?_, ended⟩
      have joined := s.yard.bytes.write_split (y.key (dst + g.col)) (g.lineLeft dst) (bytes.drop g.col)
      have key : y.key (dst + (g.col + g.lineLeft dst)) = y.key (dst + g.col) + g.lineLeft dst := by
        rw [y.key_add, y.key_add (dst + g.col)]
        omega
      dsimp only
      rw [key, ← List.drop_drop, joined]
    · have all : mvRowBytes g.bits ≤ g.col + g.lineLeft dst := Nat.le_of_not_lt rest
      rw [Flight.past_last h.planes h.rows all] at found
      rw [State.issue_all found rfl]
      refine ⟨flights, moved.trans ?_, found⟩
      rw [List.take_of_length_le (by rw [List.length_drop, h.long]; omega)]

end

end Sys2Proof.Machine
end

section
/-! Data movers: settles O21 and O22 (R39, R202, R226 to R237, R373). -/

namespace Sys2Proof.Machine

/-! ### The completion of a mover wagon -/

/-- A mover wagon that completes leaves its unit as it was: no DATA_ERR is held for it, and it does not coast. -/
theorem State.finish_mover (s : State) {f : Flight} {p : Fin 8} {m : Fin 4} (unit : f.unit = .mover p m) (status : Byte) :
    s.finish f status noFlags = s.decide f.ring f.index status noFlags.byte := by
  have taken : s.takeFeed f.unit f.bits = (false, s) := by
    unfold State.takeFeed
    rw [unit]
    exact ite_self _
  unfold State.finish State.settle
  dsimp only
  rw [taken, unit]
  exact ite_self _

/-- What a wagon's causes bring before it completes: records at most (R237). -/
theorem State.noteCauses_eq (s : State) (f : Flight) (causes : List Byte) :
    ∃ g, causes.foldl (fun t c => t.noteCause f c) s = { s with sbx := g } := by
  induction causes generalizing s with
  | nil => exact ⟨s.sbx, rfl⟩
  | cons c rest ih =>
    have noted : ∃ g, s.noteCause f c = { s with sbx := g } := by
      unfold State.noteCause State.noteMove
      split
      · exact ⟨s.sbx, rfl⟩
      · exact s.report_eq ..
    obtain ⟨g, first⟩ := noted
    obtain ⟨k, after⟩ := ih (s.noteCause f c)
    refine ⟨k, ?_⟩
    rw [List.foldl_cons, after, first]

/-- A wagon alone in its mover that has nothing left to wait for. -/
structure LastPiece (s : State) (ring : Nat) (index : W32) (f : Flight) (p : Fin 8) (m : Fin 4) : Prop where
  there : s.flight ring index = some f
  clock : s.frozen = false
  unit : f.unit = .mover p m
  alone : s.unitFlights f.unit = [f]
  waits : f.stage = .waiting
  all : f.issuedAll = true
  tags : f.tags = []
  reads : (s.mover p.val m.val).reads = []

section
variable {s : State} {ring : Nat} {index : W32} {f : Flight} {p : Fin 8} {m : Fin 4} (h : LastPiece s ring index f p m)
include h

/-- R235, R237: it completes with the lowest cause that it met. -/
theorem LastPiece.tryMove : ∃ g, s.tryMove ring index =
    { s with sbx := g }.decide ring index (lowestCause f.causes) noFlags.byte := by
  obtain ⟨named, numbered⟩ := State.flight_names h.there
  obtain ⟨g, noted⟩ := s.noteCauses_eq f f.causes
  refine ⟨g, ?_⟩
  rw [State.tryMove_finishes h.there h.waits h.all h.tags (by rw [h.unit]; exact h.reads)]
  unfold State.finishMove
  rw [noted, State.finish_mover _ h.unit, named, numbered]

/-- Nothing is left to issue in its mover once it has completed. -/
theorem LastPiece.completes : ∃ g, (s.tryMove ring index).issueMore f.unit noErrs =
    { s with sbx := g }.decide ring index (lowestCause f.causes) noFlags.byte := by
  obtain ⟨g, moved⟩ := h.tryMove
  refine ⟨g, ?_⟩
  have is := Flight.is_of_flight h.there
  obtain ⟨named, numbered⟩ := State.flight_names h.there
  have found := State.flight_decide (s := { s with sbx := g }) h.there (lowestCause f.causes) noFlags.byte
  rw [moved]
  unfold State.issueMore
  refine (if_neg (show ¬ s.frozen = true by rw [h.clock]; simp)).trans ?_
  have left : (({ s with sbx := g } : State).decide ring index (lowestCause f.causes) noFlags.byte).unitFlights f.unit =
      [{ f with stage := .decided, status := lowestCause f.causes, flags := noFlags.byte }] := by
    refine (State.unitFlights_modFlight { s with sbx := g } f.unit (k := fun x => { x with
      stage := .decided, status := lowestCause f.causes, flags := noFlags.byte }) (fun x _ => ⟨rfl, by simp⟩)).trans ?_
    rw [show State.unitFlights { s with sbx := g } f.unit = [f] from h.alone]
    simp only [List.map_cons, List.map_nil, is, if_true]
  rw [left]
  unfold State.issueQueue
  dsimp only
  rw [named, numbered, found]
  dsimp only
  rw [if_neg (show ¬ Stage.decided = .started by decide), if_neg fun k => absurd (show Stage.decided = .waiting from k.1) (by decide)]
  unfold State.issueQueue State.tryMove
  rw [found]
  exact if_neg fun k => absurd (show Stage.decided = .waiting from k.1) (by decide)

end

/-! ### O21: one row within the Yard -/

section
variable {s : State} {f : Flight}

/-- The rows of a wagon are those of the index list that it goes by. -/
theorem State.srcRow_listOf (p r : Nat) :
    srcRow f.bits (s.indexList (s.allot f) f.bits) p r = srcRow f.bits (s.listOf f) p r := by
  unfold srcRow
  split
  · rename_i gather
    rw [State.listOf, if_pos (.inl gather)]
  · rfl

theorem State.dstRow_listOf (p r : Nat) :
    dstRow f.bits (s.indexList (s.allot f) f.bits) p r = dstRow f.bits (s.listOf f) p r := by
  unfold dstRow
  split
  · rename_i scatter
    rw [State.listOf, if_pos (.inr scatter)]
  · rfl

theorem State.mvRefusal_listOf : s.mvRefusal { f with list := s.indexList (s.allot f) f.bits } =
    s.mvRefusal { f with list := s.listOf f } := by
  unfold State.mvRefusal mvYardOk
  simp only [show ∀ l, s.allot { f with list := l } = s.allot f from fun _ => rfl, State.srcRow_listOf, State.dstRow_listOf]

/-- A row that lies in an allotment starts at an offset of it, and ends within it. -/
theorem YardWord.holdsRow_nat {y : YardWord} {a : Int} {n : Nat} (holds : y.holdsRow a n = true) :
    a = a.toNat ∧ a.toNat + n ≤ y.size * 65536 := by
  simp only [YardWord.holdsRow, Bool.and_eq_true, decide_eq_true_eq] at holds
  omega

theorem mvCheck_first {w : Wagon} (rows : mvRows w = 1) (listed : Bool) :
    (0, 0) ∈ mvCheck w listed := by
  unfold mvCheck corners
  cases listed
  · simp
  · simp [rows]

/-- R99: what an accepted wagon of one row reads and writes in the Yard lies in its allotment. -/
theorem State.mvRefusal_rows (accepted : s.mvRefusal f = none) (rows : mvRows f.bits = 1) :
    (mvSrcLoc f.bits = 1 → wOpcode f.bits ≠ 0x33 →
      (s.allot f).holdsRow (srcRow f.bits f.list 0 0) (mvRowBytes f.bits) = true) ∧
    (mvDstLoc f.bits = 1 → (s.allot f).holdsRow (dstRow f.bits f.list 0 0) (mvRowBytes f.bits) = true) := by
  unfold State.mvRefusal at accepted
  dsimp only at accepted
  split at accepted
  · cases accepted
  · split at accepted
    · cases accepted
    · rename_i holds
      have inside := not_not.mp holds
      simp only [mvYardOk, Bool.and_eq_true, Bool.or_eq_true, List.all_eq_true, decide_eq_true_eq] at inside
      obtain ⟨⟨_, src⟩, dst⟩ := inside
      refine ⟨fun yard reads => ?_, fun yard => ?_⟩
      · rcases src with (other | fill) | rowsIn
        · exact absurd yard other
        · exact absurd fill reads
        · have first := rowsIn (0, 0) (mvCheck_first rows _)
          exact first
      · rcases dst with other | rowsIn
        · exact absurd yard other
        · have first := rowsIn (0, 0) (mvCheck_first rows _)
          exact first

/-- R228, R231: a mover wagon in its form has bytes to move, and a FILL names no source. -/
theorem badWagon_mover {w : Wagon} (mover : opMover (wOpcode w) = true) (good : badWagon w = false) :
    0 < mvRowBytes w ∧ (wOpcode w = 0x33 → mvSrcLoc w ≠ 2) := by
  have op : 0x30 ≤ wOpcode w ∧ wOpcode w ≤ 0x33 := by
    simpa [opMover] using mover
  unfold badWagon at good
  dsimp only at good
  rw [if_neg (by omega), if_neg (by omega), if_neg (by omega), if_neg (by omega), if_pos mover] at good
  unfold badMover at good
  simp only [Bool.or_eq_false_iff, decide_eq_false_iff_not] at good
  have some : ¬ mvRowBytes w = 0 := by tauto
  refine ⟨Nat.pos_of_ne_zero some, fun fill => ?_⟩
  simp only [fill, if_true, decide_eq_false_iff_not] at good
  have none : ¬ mvSrcLoc w ≠ 0 := by tauto
  omega

end

/-- The bytes of a one-row move within the Yard: the pattern of a FILL, else the row's (R231). -/
def State.rowOf (s : State) (f : Flight) (src : Nat) : List Byte :=
  if wOpcode f.bits = 0x33 then
    (List.range (mvRowBytes f.bits)).map (fun i => BitVec.ofNat 8 (mvAux f.bits / 256 ^ (i % 4)))
  else s.yardGet (s.allot f) src (mvRowBytes f.bits)

theorem State.rowOf_length (s : State) (f : Flight) (src : Nat) (clean : s.yard.damaged = []) :
    (s.rowOf f src).length = mvRowBytes f.bits := by
  unfold State.rowOf
  split
  · simp
  · rw [State.yardGet, State.yardLoad_clean clean, Bytes.read_length]

/-- A wagon that its mover accepted moves its one row and completes OK. -/
theorem Running.runMover_moves {s : State} {ring : Fin 4096} {index : W32} {f : Flight} {p : Fin 8} {m : Fin 4} {op : Nat}
    (h : Running s ring.val index f op) (mover : opMover op = true) (unit : f.unit = .mover p m)
    (alone : s.unitFlights f.unit = [f]) (clean : s.yard.damaged = []) (reads : (s.mover p.val m.val).reads = [])
    (causes : f.causes = []) (tags : f.tags = []) (plane : f.plane = 0) (row : f.row = 0) (col : f.col = 0)
    (more : f.issuedAll = false) (accepted : s.mvRefusal { f with list := s.listOf f } = none)
    (small : (s.allot f).size < 4096) (planes : mvPlanes f.bits = 1) (rows : mvRows f.bits = 1)
    (loc : mvDstLoc f.bits = 1) (source : op = 0x33 ∨ mvSrcLoc f.bits = 1)
    (apart : op ≠ 0x33 →
      (srcRow f.bits (s.listOf f) 0 0).toNat + mvRowBytes f.bits ≤ (dstRow f.bits (s.listOf f) 0 0).toNat ∨
      (dstRow f.bits (s.listOf f) 0 0).toNat + mvRowBytes f.bits ≤ (srcRow f.bits (s.listOf f) 0 0).toNat) :
    ∃ flights, let u := { s with
        yard.bytes := s.yard.bytes.write ((s.allot f).key (dstRow f.bits (s.listOf f) 0 0).toNat)
          (s.rowOf f (srcRow f.bits (s.listOf f) 0 0).toNat)
        marsh.flights := flights }
      s.runMover op ring.val index noErrs = u ∧ Decided u ring.val index wsOk := by
  obtain ⟨flights, there, run⟩ := h.runMover_issues alone (fun _ => clean) accepted
  obtain ⟨srcIn, dstIn⟩ := State.mvRefusal_rows accepted rows
  obtain ⟨some, noHost⟩ := badWagon_mover (h.opcode ▸ mover) h.good
  obtain ⟨dstNat, dstFits⟩ := YardWord.holdsRow_nat (dstIn loc)
  have bound : (s.allot { f with list := s.listOf f }).size < 4096 := small
  have one : OneRow { s with marsh.flights := flights } (f.moving (s.listOf f)) (s.allot f)
      (srcRow f.bits (s.listOf f) 0 0).toNat (dstRow f.bits (s.listOf f) 0 0).toNat
      (s.rowOf f (srcRow f.bits (s.listOf f) 0 0).toNat) := by
    refine ⟨clean, rfl, rfl, planes, rows, plane, row, loc, ?_, s.rowOf_length f _ clean, dstNat, ?_, fun fill => if_pos fill,
      fun yard => ?_, by rw [show (f.moving (s.listOf f)).unit = .mover p m from unit]; exact reads⟩
    · by_cases fill : op = 0x33
      · exact .inl ⟨h.opcode.trans fill, noHost (h.opcode.trans fill)⟩
      · exact .inr ⟨fun k => fill (h.opcode.symm.trans k), source.resolve_left fill⟩
    · show (dstRow f.bits (s.listOf f) 0 0).toNat + mvRowBytes f.bits < 2 ^ 64
      dsimp only at dstFits
      omega
    · have reading : op ≠ 0x33 := fun k => yard (h.opcode.trans k)
      obtain ⟨srcNat, srcFits⟩ := YardWord.holdsRow_nat (srcIn (source.resolve_left reading) yard)
      refine ⟨srcNat, ?_, apart reading, ?_⟩
      · show (srcRow f.bits (s.listOf f) 0 0).toNat + mvRowBytes f.bits < 2 ^ 64
        dsimp only at srcFits
        omega
      · exact (State.yardLoad_clean clean ..).symm.trans (if_neg yard).symm
  have room : ((dstRow f.bits (s.listOf f) 0 0).toNat + mvRowBytes f.bits - 1) / 64 -
      ((dstRow f.bits (s.listOf f) 0 0).toNat + f.col) / 64 < mvPieces f.bits := by
    rw [mvPieces, planes, rows, col]
    omega
  obtain ⟨last, issued, found⟩ := one.issue (mvPieces f.bits) there more (by rw [show (f.moving _).col = 0 from col]; exact some)
    room
  rw [show (f.moving (s.listOf f)).col = 0 from col, Nat.add_zero, List.drop_zero] at issued
  rw [run, State.issueQueue_one there rfl more]
  dsimp only
  rw [show (f.moving (s.listOf f)).bits = f.bits from rfl, found]
  rw [if_neg (by simp), State.tryMove_finishes found rfl rfl tags (by
    rw [issued, show ({ f.moving (s.listOf f) with col := 0, issuedAll := true } : Flight).unit = .mover p m from unit]
    exact reads), State.finishMove_plain (g := { f.moving (s.listOf f) with col := 0, issuedAll := true }) causes,
    State.finish_mover (f := { f.moving (s.listOf f) with col := 0, issuedAll := true }) _ unit]
  obtain ⟨named, numbered⟩ := State.flight_names h.there
  have decided := State.flight_decide found wsOk noFlags.byte
  rw [issued] at decided ⊢
  refine ⟨_, rfl, ?_⟩
  rw [← named, ← numbered] at decided
  rw [← named, ← numbered]
  exact ⟨_, decided, rfl, rfl⟩

/-- One range stored in a Yard of which no word is damaged. -/
theorem Stored.of_yard {s t : State} {y : YardWord} {dst : Nat} {bytes : List Byte} (clean : s.yard.damaged = [])
    (form : s.yard.bytes.wf = true)
    (yard : t.yard = { s.yard with bytes := s.yard.bytes.write (y.key dst) bytes }) : Stored s t y [(dst, bytes)] := by
  refine ⟨fun a there => ?_, fun k outside => ?_⟩
  · obtain rfl := List.mem_singleton.mp there
    rw [State.yardGet, State.yardLoad_clean (by rw [yard]; exact clean), yard]
    exact Bytes.read_write _ _ form
  · rw [yard]
    exact Bytes.get_write_outside _ _ _ _ (outside _ (List.mem_singleton_self _))

/-- Settles O21: the four commands run the same mover. -/
theorem moversMoveRows : Obligations.MoversMoveRows := by
  intro s ring x f p m op cmd command running unit alone clean wf reads causes tags plane row col more w y idx n src dst
    accepted small planes rows loc source apart bytes
  have run : exec cmd s = .next (s.runMover op ring.val x noErrs) ∧ opMover op = true := by
    simp only [List.mem_cons, Prod.mk.injEq, List.not_mem_nil, or_false] at command
    rcases command with ⟨rfl, rfl⟩ | ⟨rfl, rfl⟩ | ⟨rfl, rfl⟩ | ⟨rfl, rfl⟩
    · exact ⟨rfl, rfl⟩
    · exact ⟨rfl, rfl⟩
    · exact ⟨rfl, rfl⟩
    · exact ⟨rfl, rfl⟩
  have srcSame : src = (srcRow f.bits (s.listOf f) 0 0).toNat := congrArg Int.toNat (State.srcRow_listOf 0 0)
  have dstSame : dst = (dstRow f.bits (s.listOf f) 0 0).toNat := congrArg Int.toNat (State.dstRow_listOf 0 0)
  have row' : bytes = s.rowOf f src := by
    unfold State.rowOf
    rw [running.opcode]
  obtain ⟨flights, moved, decided⟩ := running.runMover_moves run.2 unit alone clean reads causes tags plane row col more
    (State.mvRefusal_listOf.symm.trans accepted) small planes rows loc source (by rw [← srcSame, ← dstSame]; exact apart)
  rw [← srcSame, ← dstSame, ← row'] at moved decided
  exact ⟨_, run.1.trans (congrArg Host.Outcome.next moved), decided, Stored.of_yard clean wf rfl, rfl⟩

/-! ### O22: reads of memory and their replies -/

theorem State.hasMover_of_ne {s : State} {p m : Nat} (h : s.mover p m ≠ Mover.reset) :
    p < s.parts.length ∧ m < (s.part p).dms.length := by
  have there : m < (s.part p).dms.length := Nat.lt_of_not_le fun k => h (nth_beyond _ _ k)
  refine ⟨Nat.lt_of_not_le fun k => h ?_, there⟩
  have fresh : s.part p = Partition.reset := nth_beyond _ _ k
  rw [State.mover, fresh]
  simp only [Partition.reset, nth, List.getElem?_replicate]
  split
  · rfl
  · rfl

theorem State.mover_modMover_same {s : State} {p m : Nat} (h : s.mover p m ≠ Mover.reset) (k : Mover → Mover) :
    (s.modMover p m k).mover p m = k (s.mover p m) := by
  obtain ⟨part, mover⟩ := State.hasMover_of_ne h
  simp only [State.mover, State.modMover, State.part_modPart, true_and, if_pos part]
  exact nth_setNth_same _ _ _ mover

theorem field_lt (v hi lo : Nat) : field v hi lo < 2 ^ (hi + 1 - lo) := Nat.mod_lt _ (Nat.two_pow_pos _)

theorem mvSrc_lt (w : Wagon) : mvSrc w < 2 ^ 64 := field_lt w.toNat 127 64

theorem mvDst_lt (w : Wagon) : mvDst w < 2 ^ 64 := field_lt w.toNat 191 128

/-- The read that a COPY of one row within a line of module memory makes (R227). -/
def Flight.lineRead (f : Flight) (pa : Nat) : ReadReq :=
  { tag := 0, ring := f.ring, index := f.index, ctx := f.ctx, gen := f.gen, host := false, src := pa, dst := mvDst f.bits
    n := mvRowBytes f.bits, held := none }

/-- R227, R236: a COPY of one row within a line of module memory asks for it. -/
theorem State.issueOne_asks {s : State} {g : Flight} {p : Fin 8} {m : Fin 4} {pa : Nat} (copy : wOpcode g.bits = 0x30)
    (unit : g.unit = .mover p m) (memory : mvSrcLoc g.bits = 0) (plane : g.plane = 0) (row : g.row = 0) (col : g.col = 0)
    (line : mvSrc g.bits % 64 + mvRowBytes g.bits ≤ 64) (mapped : (s.ctx g.ctx).translate false (mvSrc g.bits) = some pa) :
    s.issueOne g noErrs = (s.modMover p.val m.val (fun x => x.ask (g.lineRead pa))).modFlight g.ring g.index
      (fun x => x.past (mvRowBytes g.bits)) := by
  have src : wrap64 (srcRow g.bits g.list g.plane g.row + g.col) = mvSrc g.bits := by
    unfold srcRow
    rw [if_neg (by rw [copy]; decide), plane, row, col]
    simpa using wrap64_natCast (mvSrc_lt g.bits)
  have dst : wrap64 (dstRow g.bits g.list g.plane g.row + g.col) = mvDst g.bits := by
    unfold dstRow
    rw [if_neg (by rw [copy]; decide), plane, row, col]
    simpa using wrap64_natCast (mvDst_lt g.bits)
  have whole : pieceBytes g.bits (mvSrc g.bits) (mvDst g.bits) g.col = mvRowBytes g.bits := by
    unfold pieceBytes
    rw [if_pos (.inl ⟨memory, by rw [copy]; decide⟩), col]
    omega
  unfold State.issueOne
  dsimp only
  rw [src, dst, whole, if_neg (by rw [copy]; decide), if_neg (by rw [memory]; decide), if_neg (by rw [memory]; decide), mapped,
    unit]
  rfl

theorem State.tryMove_waits {s : State} {ring : Nat} {index : W32} {g : Flight} (there : s.flight ring index = some g)
    {r : ReadReq} (read : r ∈ (s.mover (moverOf g.unit).1 (moverOf g.unit).2).reads) (mine : r.ring = ring ∧ r.index = index) :
    s.tryMove ring index = s := by
  unfold State.tryMove
  rw [there]
  dsimp only
  rw [if_neg]
  rintro ⟨_, _, _, none⟩
  exact none (List.any_eq_true.mpr ⟨r, read, decide_eq_true mine⟩)

/-- R227: a COPY of one row within a line of module memory asks for it and waits. -/
theorem Running.copy_asks {s : State} {ring : Fin 4096} {index : W32} {f : Flight} {p : Fin 8} {m : Fin 4} {pa : Nat}
    (h : Running s ring.val index f 0x30) (unit : f.unit = .mover p m) (alone : s.unitFlights f.unit = [f])
    (accepted : s.mvRefusal f = none) (reads : (s.mover p.val m.val).reads = []) (plane : f.plane = 0) (row : f.row = 0)
    (col : f.col = 0) (more : f.issuedAll = false) (planes : mvPlanes f.bits = 1) (rows : mvRows f.bits = 1)
    (memory : mvSrcLoc f.bits = 0) (line : mvSrc f.bits % 64 + mvRowBytes f.bits ≤ 64)
    (mapped : (s.ctx f.ctx).translate false (mvSrc f.bits) = some pa) :
    ∃ t g, s.runMover 0x30 ring.val index noErrs = t ∧ (t.mover p.val m.val).reads = [f.lineRead pa] ∧
      t.flight ring.val index = some g ∧ g.stage = .waiting ∧ g.issuedAll = true ∧ t.yard = s.yard ∧ t.mem = s.mem := by
  have own : s.listOf f = f.list := if_neg (by rw [h.opcode]; decide)
  obtain ⟨named, numbered⟩ := State.flight_names h.there
  obtain ⟨flights, there, run⟩ := h.runMover_issues alone (by simp) (by rw [own]; exact accepted)
  have serves : s.mover p.val m.val ≠ Mover.reset := fun fresh => by
    have up := h.up
    simp only [unit, State.unitUp, fresh, Bool.and_eq_true, decide_eq_true_eq] at up
    exact absurd up.2.2 (by decide)
  have asked := State.issueOne_asks (s := { s with marsh.flights := flights }) (g := f.moving (s.listOf f)) h.opcode unit memory
    plane row col line mapped
  have past : (f.moving (s.listOf f)).past (mvRowBytes f.bits) =
      { f.moving (s.listOf f) with col := 0, issuedAll := true } :=
    Flight.past_last (g := f.moving (s.listOf f)) planes rows (Nat.le_add_left ..)
  have room : (State.mover { s with marsh.flights := flights } (moverOf (f.moving (s.listOf f)).unit).1
      (moverOf (f.moving (s.listOf f)).unit).2).reads = [] := by
    rw [show (f.moving (s.listOf f)).unit = .mover p m from unit]
    exact reads
  have found : (({ s with marsh.flights := flights } : State).issueOne (f.moving (s.listOf f)) noErrs).flight f.ring f.index =
      some { f.moving (s.listOf f) with col := 0, issuedAll := true } := by
    rw [asked, ← past]
    refine State.flight_modFlight ?_ fun x is => (Flight.past_is ..).trans is
    refine Eq.trans ?_ there
    rw [← named, ← numbered]
    rfl
  rw [named, numbered] at found
  have pieces : mvPieces f.bits = mvRowBytes f.bits / 64 + 1 + 1 := by
    rw [mvPieces, planes, rows]
    omega
  have read : ((({ s with marsh.flights := flights } : State).issueOne (f.moving (s.listOf f)) noErrs).mover p.val m.val).reads =
      [f.lineRead pa] := by
    rw [asked]
    refine (congrArg Mover.reads (State.mover_modMover_same (s := { s with marsh.flights := flights }) serves _)).trans ?_
    unfold Mover.ask
    rw [show (State.mover { s with marsh.flights := flights } p.val m.val).reads = [] from reads]
    rfl
  refine ⟨_, _, ?_, read, found, rfl, rfl, ?_, ?_⟩
  · rw [run, State.issueQueue_one there rfl more, show (f.moving (s.listOf f)).bits = f.bits from rfl, pieces,
      State.issue_step there rfl more room, State.issue_all found rfl]
    dsimp only
    rw [found, if_neg (by simp)]
    refine State.tryMove_waits (r := f.lineRead pa) found ?_ ⟨named, numbered⟩
    rw [show moverOf ({ f.moving (s.listOf f) with col := 0, issuedAll := true } : Flight).unit = (p.val, m.val) from
      congrArg moverOf unit]
    dsimp only
    rw [read]
    exact List.mem_singleton_self _
  · rw [asked]
    rfl
  · rw [asked]
    rfl

/-! ### Replies -/

/-- A mover whose one read outstanding is r, which is not kept. -/
structure OneRead (s : State) (p : Fin 8) (m : Fin 4) (r : ReadReq) : Prop where
  reads : (s.mover p.val m.val).reads = [r]
  open_ : r.held = none

section
variable {s : State} {p : Fin 8} {m : Fin 4} {r : ReadReq} (h : OneRead s p m r)
include h

theorem OneRead.found : (s.mover p.val m.val).reads.find? (fun x => x.tag = r.tag ∧ x.held = none) = some r := by
  rw [h.reads]
  simp [h.open_]

theorem OneRead.serves : s.mover p.val m.val ≠ Mover.reset := fun fresh => by
  have reads := h.reads
  rw [fresh] at reads
  cases reads

/-- The read that was answered leaves its mover. -/
theorem OneRead.leaves :
    ((s.modMover p.val m.val (fun x => { x with reads := x.reads.filter (fun y => y.tag ≠ r.tag) })).mover p.val m.val).reads =
      [] := by
  rw [State.mover_modMover_same h.serves, h.reads]
  simp

/-- R202: the reply to a read of another generation is dropped and counted. -/
theorem OneRead.stale (gone : (s.ctx r.ctx).gen ≠ r.gen) {errs : MemErrs} {ok : ReadReq → Bool} (taken : ok r = true)
    (fetch : ReadReq → State → Option (List Byte × Bool) × State) :
    s.takeReply p.val m.val r.tag errs ok fetch = ((s.mile (source 3 p.val m.val) 1).modMover p.val m.val
      (fun x => { x with reads := x.reads.filter (fun y => y.tag ≠ r.tag) })).drop (fun d => { d with reply := d.reply + 1 }) := by
  unfold State.takeReply
  rw [h.found]
  dsimp only
  rw [if_neg (by rw [taken]; simp)]
  exact if_pos (.inl gone)

/-- The wagon of a reply under its generation, alone in its mover and with nothing else to wait for. -/
theorem OneRead.lands {ring : Nat} {index : W32} {f : Flight} (there : s.flight ring index = some f)
    (clock : s.frozen = false) (mine : r.ring = ring ∧ r.index = index) (current : (s.ctx r.ctx).gen = r.gen) {errs : MemErrs}
    {ok : ReadReq → Bool} (taken : ok r = true) (fetch : ReadReq → State → Option (List Byte × Bool) × State)
    {x : Option (List Byte × Bool)} (brings : fetch r (s.mile (source 3 p.val m.val) 1) = (x, s.mile (source 3 p.val m.val) 1)) :
    s.takeReply p.val m.val r.tag errs ok fetch =
      let t := (s.mile (source 3 p.val m.val) 1).modMover p.val m.val
        (fun x => { x with reads := x.reads.filter (fun y => y.tag ≠ r.tag) })
      ((match x with
        | none => t.cause f wsHostError
        | some (bs, bad) => t.deliver f errs r.dst bs bad).tryMove ring index).issueMore f.unit errs := by
  obtain ⟨rfl, rfl⟩ := mine
  have found : (s.mile (source 3 p.val m.val) 1).flight r.ring r.index = some f := there
  unfold State.takeReply
  rw [h.found]
  dsimp only
  rw [if_neg (by rw [taken]; simp), if_neg]
  · rw [if_neg (by rw [clock]; simp), brings]
    unfold State.landed
    dsimp only
    rw [show ((s.mile (source 3 p.val m.val) 1).modMover p.val m.val
      (fun x => { x with reads := x.reads.filter (fun y => y.tag ≠ r.tag) })).flight r.ring r.index = some f from found] <;>
      rfl
  · rintro (gone | none)
    · exact gone current
    · rw [found] at none
      cases none

end

/-- Bytes that find nothing uncorrectable are stored in the Yard. -/
theorem State.deliver_yard {s : State} (clean : s.yard.damaged = []) {f : Flight} (loc : mvDstLoc f.bits = 1) (dst : Nat)
    (bs : List Byte) : s.deliver f noErrs dst bs false =
      { s with yard.bytes := s.yard.bytes.write ((s.allot f).key dst) bs } := by
  unfold State.deliver
  dsimp only
  rw [show noErrs.yard = cleanYard from rfl, loc, if_neg (by decide), if_pos rfl]
  simp only [Bool.false_eq_true, if_false, State.yardPut_clean f _ _ s clean]
  rfl

theorem LastPiece.decided {s : State} {ring : Nat} {index : W32} {f : Flight} {p : Fin 8} {m : Fin 4}
    (h : LastPiece s ring index f p m) (g : Sbx) :
    Decided ({ s with sbx := g }.decide ring index (lowestCause f.causes) noFlags.byte) ring index (lowestCause f.causes) :=
  ⟨_, State.flight_decide (s := { s with sbx := g }) h.there .., rfl, rfl⟩

/-- A wagon that waits for one read: all is issued, and it is alone in its mover. -/
structure AwaitsReply (s : State) (ring : Nat) (index : W32) (f : Flight) (p : Fin 8) (m : Fin 4) (r : ReadReq) : Prop where
  there : s.flight ring index = some f
  clock : s.frozen = false
  unit : f.unit = .mover p m
  alone : s.unitFlights f.unit = [f]
  causes : f.causes = []
  tags : f.tags = []
  read : OneRead s p m r
  mine : r.ring = ring ∧ r.index = index
  current : (s.ctx r.ctx).gen = r.gen
  waits : f.stage = .waiting
  all : f.issuedAll = true

section
variable {s : State} {ring : Nat} {index : W32} {f : Flight} {p : Fin 8} {m : Fin 4} {r : ReadReq}
  (h : AwaitsReply s ring index f p m r)
include h

/-- The state in which the answer is delivered. -/
theorem AwaitsReply.last : LastPiece ((s.mile (source 3 p.val m.val) 1).modMover p.val m.val
    (fun x => { x with reads := x.reads.filter (fun y => y.tag ≠ r.tag) })) ring index f p m :=
  ⟨h.there, h.clock, h.unit, h.alone, h.waits, h.all, h.tags,
    OneRead.leaves (s := s.mile (source 3 p.val m.val) 1) ⟨h.read.reads, h.read.open_⟩⟩

/-- R39: the bytes of module memory reach the Yard, and the wagon completes OK. -/
theorem AwaitsReply.memory (module : r.host = false) (short : r.n ≤ 64) (loc : mvDstLoc f.bits = 1)
    (clean : s.yard.damaged = []) (sound : s.sound r.src r.n) (ok : ReadReq → Bool) (taken : ok r = true) :
    ∃ t, s.takeReply p.val m.val r.tag noErrs ok (fun r t =>
        if r.host then (some (slice [] 0 r.n, false), t)
        else
          let x := t.memLoad r.src r.n noErrs.lines 2
          let u := if x.1 then x.2.2.noteLine r.src (some (r.ctx, r.gen)) else x.2.2
          (some (x.2.1, x.1), u)) = t ∧ Decided t ring index wsOk ∧
      t.yard = { s.yard with
        bytes := s.yard.bytes.write ((s.allot f).key r.dst) (s.mem.bytes.read r.src r.n) } ∧ t.mem = s.mem := by
  have load := State.memLoad_sound (s := s.mile (source 3 p.val m.val) 1) (lines := noErrs.lines) (fun _ => rfl) 2
    (pa := r.src) (n := r.n) sound (by omega)
  have last : LastPiece { (s.mile (source 3 p.val m.val) 1).modMover p.val m.val
      (fun x => { x with reads := x.reads.filter (fun y => y.tag ≠ r.tag) }) with
        yard.bytes := s.yard.bytes.write ((s.allot f).key r.dst) (s.mem.bytes.read r.src r.n) } ring index f p m := by
    obtain ⟨there, clock, unit, alone, waits, all, tags, reads⟩ := h.last
    exact ⟨there, clock, unit, alone, waits, all, tags, reads⟩
  obtain ⟨g, ends⟩ := last.completes
  rw [h.causes] at ends
  have decided := last.decided g
  rw [h.causes] at decided
  refine ⟨_, (h.read.lands h.there h.clock h.mine h.current taken _ (x := some (s.mem.bytes.read r.src r.n, false)) ?_).trans
    ?_, decided, rfl, rfl⟩
  · dsimp only
    rw [module, load]
    simp only [Bool.false_eq_true, if_false]
    rfl
  · dsimp only
    rw [State.deliver_yard (s := (s.mile (source 3 p.val m.val) 1).modMover p.val m.val _) clean loc]
    exact ends

/-- R237, R373: a read of the host that is never answered ends the wagon with HOST_ERROR. -/
theorem AwaitsReply.silent (ok : ReadReq → Bool) (taken : ok r = true) :
    ∃ t, s.takeReply p.val m.val r.tag noErrs ok (fun _ t => (none, t)) = t ∧ Decided t ring index wsHostError ∧
      (t.mover p.val m.val).reads = [] ∧ t.yard = s.yard ∧ t.mem = s.mem := by
  obtain ⟨there, clock, unit, alone, waits, all, tags, reads⟩ := h.last
  obtain ⟨named, numbered⟩ := State.flight_names h.there
  have is := Flight.is_of_flight h.there
  have caused : ({ f with causes := addTo wsHostError f.causes } : Flight) = { f with causes := [wsHostError] } := by
    rw [h.causes]
    rfl
  have last : LastPiece (((s.mile (source 3 p.val m.val) 1).modMover p.val m.val
      (fun x => { x with reads := x.reads.filter (fun y => y.tag ≠ r.tag) })).cause f wsHostError) ring index
      { f with causes := [wsHostError] } p m := by
    have marks (t : State) : t.cause f wsHostError =
        t.modFlight ring index (fun x => { x with causes := addTo wsHostError x.causes }) := by
      unfold State.cause
      rw [named, numbered]
    refine ⟨?_, clock, unit, ?_, waits, all, tags, reads⟩
    · rw [marks, ← caused]
      exact State.flight_modFlight there fun x is => is
    · rw [marks, State.unitFlights_modFlight _ _ (k := fun x => { x with causes := addTo wsHostError x.causes })
        (fun x is => ⟨rfl, Flight.is_stage is⟩), alone, ← caused]
      simp only [List.map_cons, List.map_nil, is, if_true]
  obtain ⟨g, ends⟩ := last.completes
  exact ⟨_, (h.read.lands h.there h.clock h.mine h.current taken _ (x := none) rfl).trans ends, last.decided g, reads, rfl, rfl⟩

end

/-- Settles O22: the request of a read, then what each answer to it brings. -/
theorem memoryReadsAndReplies : Obligations.MemoryReadsAndReplies := by
  intro s ring x f p m there clock unit alone causes tags w y
  refine ⟨fun pa running accepted reads plane row col more planes rows memory _ line mapped => ?_, fun r reads held of_ at_ short =>
    ⟨fun gone => ?_, fun current waits all _ => ⟨fun module loc clean form sound => ?_, fun host => ?_⟩⟩⟩
  · obtain ⟨t, g, run, asked, rest⟩ := running.copy_asks unit alone accepted reads plane row col more planes rows memory line
      mapped
    exact ⟨t, f.lineRead pa, g, congrArg Host.Outcome.next run, asked, rfl, rfl, rfl, rfl, rfl, rfl, rest⟩
  · exact ⟨_, congrArg Host.Outcome.next (OneRead.stale ⟨reads, held⟩ gone rfl _),
      OneRead.leaves (s := s.mile (source 3 p.val m.val) 1) ⟨reads, held⟩, rfl, rfl, rfl⟩
  · have h : AwaitsReply s ring.val x f p m r :=
      ⟨there, clock, unit, alone, causes, tags, ⟨reads, held⟩, ⟨of_, at_⟩, current, waits, all⟩
    obtain ⟨t, run, decided, yard, mem⟩ := h.memory module short loc clean sound (fun _ => true) rfl
    exact ⟨t, congrArg Host.Outcome.next run, decided, Stored.of_yard clean form yard, mem⟩
  · have h : AwaitsReply s ring.val x f p m r :=
      ⟨there, clock, unit, alone, causes, tags, ⟨reads, held⟩, ⟨of_, at_⟩, current, waits, all⟩
    obtain ⟨t, run, decided, none⟩ := h.silent (fun r => r.host) host
    exact ⟨t, congrArg Host.Outcome.next run, decided, none⟩

end Sys2Proof.Machine
end

section
/-! Collectives of a module alone, and their time-out: settles O23 (R305 to R315). -/

namespace Sys2Proof.Machine

/-! ### The flags of a segment (R69, R79) -/

/-- Flags written as a byte read back. -/
theorem flagsOf_byte (f : Flags) : flagsOf (f.byte.toNat) = f := by
  obtain ⟨a, b, c, d, e, g⟩ := f
  revert a b c d e g
  decide

/-- The flags of a segment stand in its bytes. -/
theorem Segment.parse_bytes_flags (g : Segment) : (Segment.parse g.bytes).flags = g.flags := by
  unfold Segment.bytes Segment.parse
  dsimp only
  simp only [List.append_assoc]
  rw [getLE_append_right (by simp), getLE_append_right (by simp)]
  simp only [length_leBytes]
  rw [getLE_append_left (a := [g.flags.byte]) (n := 1) rfl, show leNat [g.flags.byte] = g.flags.byte.toNat by simp [leNat]]
  exact flagsOf_byte _

/-! ### What a segment's steps do at a root without children -/

theorem State.modFlight_id (s : State) (ring : Nat) (index : W32) : s.modFlight ring index id = s := by
  unfold State.modFlight
  simp

section
variable {s : State} {f : Flight}

/-- The own segment, or chunk, of a collective wagon (R308, R312). -/
def State.ownOf (s : State) (f : Flight) : List Byte := s.yardGet (s.allot f) (clSrc f.bits) (clBytes f.bits 0)

theorem State.collRead_own (clean : s.yard.damaged = []) (yard : clSrcLoc f.bits = 1) :
    s.collRead f 0 noErrs = (if isCast f.bits then s.ownOf f else (Segment.parse (s.ownOf f)).bytes, s) := by
  have at_ : clSrcAt f.bits 0 = clSrc f.bits := by simp [clSrcAt]
  unfold State.collRead State.ownOf
  dsimp only
  rw [if_pos yard, show noErrs.yard = cleanYard from rfl, State.operands_clean clean, at_]
  dsimp only
  split
  · rfl
  · rfl

/-- Bytes whose flags carry no DATA_ERR change the flags of their wagon at most (R315). -/
theorem State.collFlags_quiet (t : State) {bs : List Byte}
    (quiet : isCast f.bits = true ∨ (Segment.parse bs).flags.dataErr = false) :
    ∃ k : Flight → Flight, t.collFlags f bs = t.modFlight f.ring f.index k ∧ ∀ h, k h = { h with flags := (k h).flags } := by
  unfold State.collFlags
  by_cases cast : isCast f.bits = true
  · exact ⟨id, (if_pos cast).trans (t.modFlight_id _ _).symm, fun _ => rfl⟩
  · refine ⟨fun h => { h with flags := h.flags ||| (Segment.parse bs).flags.byte }, ?_, fun _ => rfl⟩
    rw [if_neg cast]
    dsimp only
    rw [quiet.resolve_left cast]
    exact if_neg (by simp)

/-- R309, R311: the result of a segment at a root without children is stored in the Yard and kept with its accumulator. -/
theorem State.collResult_root (clean : s.yard.damaged = []) (yard : clDstLoc f.bits = 1) {a : Accum} {bs : List Byte}
    (root : treeOf (s.trees f) a.seg = { parent := none, children := [] }) (match_ : a.mismatch = false)
    (quiet : isCast f.bits = true ∨ (Segment.parse bs).flags.dataErr = false) :
    ∃ k : Flight → Flight, (∀ h, k h = { h with flags := (k h).flags }) ∧ s.collResult f noErrs a bs =
      ({ s with yard.bytes := s.yard.bytes.write ((s.allot f).key (clDstAt f.bits a.seg)) bs }.modFlight f.ring f.index
        k).setAccum { a with sum := none, sentUp := true, written := true } := by
  obtain ⟨k, flags, keeps⟩ := State.collFlags_quiet (f := f) { s with
    yard.bytes := s.yard.bytes.write ((s.allot f).key (clDstAt f.bits a.seg)) bs } quiet
  refine ⟨k, keeps, ?_⟩
  have writes : writesHere f.bits (s.trees f) a.seg = true := by
    unfold writesHere
    rw [root]
    simp
  have put := State.yardPut_clean f (s.allot f) [(clDstAt f.bits a.seg, bs)] s clean
  unfold State.collResult
  dsimp only
  rw [match_, root, writes]
  simp only [Bool.false_eq_true, if_false, not_false_eq_true, and_self, if_true, yard,
    show noErrs.yard = cleanYard from rfl, put, List.foldl_nil, ite_self]
  rw [← flags]
  rfl

end

/-! ### A collective wagon that is its own tree -/

/-- A collective wagon of one segment from the Yard to the Yard, in a group whose one tree is this module alone, with no
accumulator in use. -/
structure SoleColl (s : State) (f : Flight) : Prop where
  clean : s.yard.damaged = []
  tree : s.trees f = [{ parent := none, children := [] }]
  segs : clSegs f.bits = 1
  source : clSrcLoc f.bits = 1
  dest : clDstLoc f.bits = 1
  idle : s.rails.accums = []
  quiet : isCast f.bits = true ∨ (Segment.parse (s.ownOf f)).flags.dataErr = false

/-- What it writes: its chunk, or its segment (R309). -/
def State.collOut (s : State) (f : Flight) : List Byte :=
  if isCast f.bits then s.ownOf f else (Segment.parse (s.ownOf f)).bytes

section
variable {s : State} {f : Flight} (h : SoleColl s f)
include h

theorem SoleColl.root (k : Nat) : treeOf (s.trees f) k = { parent := none, children := [] } := by
  unfold treeOf
  rw [h.tree]
  simp [nth, Nat.mod_one]

theorem SoleColl.noAccum (k : Nat) : s.accum f.ctx (clGroup f.bits) (clOpseq f.bits) k = none := by
  unfold State.accum
  rw [h.idle]
  rfl

theorem SoleColl.quietOut : isCast f.bits = true ∨ (Segment.parse (s.collOut f)).flags.dataErr = false := by
  by_cases cast : isCast f.bits = true
  · exact .inl cast
  · refine .inr ?_
    rw [State.collOut, if_neg cast, Segment.parse_bytes_flags]
    exact h.quiet.resolve_left cast

/-- R306, R309, R312: the one segment is contributed, and is the result. -/
theorem SoleColl.contributes : ∃ (k : Flight → Flight) (a : Accum), (∀ h, k h = { h with flags := (k h).flags }) ∧
    a.is f.ctx (clGroup f.bits) (clOpseq f.bits) 0 = true ∧ a.sentUp = true ∧ a.written = true ∧
    s.collOwn f 0 noErrs [] =
      ({ s with yard.bytes := s.yard.bytes.write ((s.allot f).key (clDst f.bits)) (s.collOut f) }.modFlight f.ring f.index
        k).setAccum a := by
  have at_ : clDstAt f.bits 0 = clDst f.bits := by simp [clDstAt]
  have alone : rootOfAll (s.trees f) = true := by
    rw [h.tree]
    rfl
  unfold State.collOwn
  dsimp only
  rw [h.noAccum, Option.getD_none, alone, State.collRead_own h.clean h.source]
  dsimp only
  rw [show (if isCast f.bits then s.ownOf f else (Segment.parse (s.ownOf f)).bytes) = s.collOut f from rfl]
  by_cases cast : isCast f.bits = true
  · obtain ⟨k, keeps, result⟩ := State.collResult_root (a := s.newAccum f.ctx (clGroup f.bits) (clOpseq f.bits) 0) h.clean h.dest
      (h.root 0) rfl h.quietOut
    refine ⟨k, { s.newAccum f.ctx (clGroup f.bits) (clOpseq f.bits) 0 with sum := none, sentUp := true, written := true },
      keeps, ?_, rfl, rfl, ?_⟩
    · simp [Accum.is, State.newAccum]
    · rw [show (s.newAccum f.ctx (clGroup f.bits) (clOpseq f.bits) 0).seg = 0 from rfl, at_] at result
      exact (if_pos cast).trans result
  · obtain ⟨k, keeps, result⟩ := State.collResult_root
      (a := (s.newAccum f.ctx (clGroup f.bits) (clOpseq f.bits) 0).take none (s.collOut f) false []) h.clean h.dest
      (h.root 0) rfl h.quietOut
    refine ⟨k, { (s.newAccum f.ctx (clGroup f.bits) (clOpseq f.bits) 0).take none (s.collOut f) false [] with
      sum := none, sentUp := true, written := true }, keeps, ?_, rfl, rfl, ?_⟩
    · simp [Accum.is, State.newAccum, Accum.take]
    · rw [if_neg cast]
      unfold State.collSum
      dsimp only
      rw [show ((s.newAccum f.ctx (clGroup f.bits) (clOpseq f.bits) 0).take none (s.collOut f) false []).seg = 0 from rfl,
        h.root 0]
      rw [show ((s.newAccum f.ctx (clGroup f.bits) (clOpseq f.bits) 0).take none (s.collOut f) false []).sum =
        some (s.collOut f) from rfl]
      dsimp only
      rw [show ((s.newAccum f.ctx (clGroup f.bits) (clOpseq f.bits) 0).take none (s.collOut f) false []).seg = 0 from rfl,
        at_] at result
      refine (if_neg ?_).trans result
      · rintro (up | short)
        · cases up
        · exact short (by simp [Accum.full, Accum.take, State.newAccum])

end

/-- The steps of a wagon of a ring at an index that leave where it stands. -/
theorem Flight.flags_is {k : Flight → Flight} (keeps : ∀ h, k h = { h with flags := (k h).flags }) (h : Flight) (ring : Nat)
    (index : W32) : (k h).is ring index = h.is ring index := by
  rw [keeps h]
  rfl

/-! ### The end of a collective wagon (R313) -/

/-- A sent packet changes the rails alone. -/
theorem State.sendTo_keeps {s u : State} {kind : Nat} {p : Peer} {arg pflags : Nat} {data : List Byte} {ctx : Nat} {w : Waiter}
    {tag : Nat} (sent : s.sendTo kind p arg pflags data ctx w = some (tag, u)) : ∃ g, u = { s with rails := g } := by
  unfold State.sendTo at sent
  split at sent
  · cases sent
  · dsimp only at sent
    split at sent
    · cases sent
    · rename_i launched
      unfold State.launch at launched
      split at launched
      · cases launched
      · cases sent
        cases launched
        exact ⟨_, State.place_keeps _ _⟩

/-- What is sent to abort an operation changes the rails alone. -/
theorem State.collAbortTo_keeps (s : State) (ctx group : Nat) (opseq : W32) (peers : List Nat) :
    ∃ g, s.collAbortTo ctx group opseq peers = { s with rails := g } := by
  unfold State.collAbortTo
  induction peers generalizing s with
  | nil => exact ⟨s.rails, rfl⟩
  | cons i rest ih =>
    rw [List.foldl_cons]
    split
    · exact ih s
    · split
      · rename_i u sent
        obtain ⟨g, kept⟩ := State.sendTo_keeps sent
        obtain ⟨r, after⟩ := ih u
        exact ⟨r, after.trans (by rw [kept])⟩
      · exact ih s

/-- The end of an operation at this module: its accumulators are free, and it is its group's last (R312, R313). -/
theorem State.collEnd_frees (s : State) (f : Flight) (status : Byte) (except : List Nat) :
    ∃ g c, s.collEnd f status except = { s with rails := g, ctxs := c } ∧
      Table.get none ((s.collEnd f status except).ctx f.ctx).opDone (clGroup f.bits) = some (clOpseq f.bits) ∧
      (∀ a ∈ g.accums, ¬ (a.ctx = f.ctx ∧ a.group = clGroup f.bits ∧ a.opseq = clOpseq f.bits)) ∧
      (status = wsOk → g.accums ⊆ s.rails.accums) := by
  have done : ∀ c : Context, Table.get none (Table.put none (clGroup f.bits) (some (clOpseq f.bits)) c.opDone)
      (clGroup f.bits) = some (clOpseq f.bits) := fun c => Table.get_put_ne (none : Option W32) _ _ _ (by simp)
  have read (t : State) : (t.modCtx f.ctx (fun c => { c with
      opDone := Table.put none (clGroup f.bits) (some (clOpseq f.bits)) c.opDone })).ctx f.ctx =
      { t.ctx f.ctx with opDone := Table.put none (clGroup f.bits) (some (clOpseq f.bits)) (t.ctx f.ctx).opDone } := by
    refine Table.get_mod_ne Context.reset t.ctxs f.ctx (fun c => { c with
      opDone := Table.put none (clGroup f.bits) (some (clOpseq f.bits)) c.opDone }) fun fresh => ?_
    have entry := done (Table.get Context.reset t.ctxs f.ctx)
    have empty := congrArg Context.opDone fresh
    dsimp only at empty
    rw [empty] at entry
    cases entry
  have cleared (l : List Accum) : ∀ a ∈ l.filter (fun a => ¬ (a.ctx = f.ctx ∧ a.group = clGroup f.bits ∧ a.opseq = clOpseq f.bits)),
      ¬ (a.ctx = f.ctx ∧ a.group = clGroup f.bits ∧ a.opseq = clOpseq f.bits) := fun a mem =>
    of_decide_eq_true (List.mem_filter.mp mem).2
  unfold State.collEnd
  dsimp only
  rw [read]
  split
  · exact ⟨_, _, rfl, done _, cleared _, fun _ _ mem => (List.mem_filter.mp mem).1⟩
  · rename_i fails
    obtain ⟨g, aborted⟩ := s.collAbortTo_keeps f.ctx (clGroup f.bits) (clOpseq f.bits)
      ((groupNeighbours (Table.get [] (s.ctx f.ctx).groups (clGroup f.bits))).filter (fun i => i ∉ except))
    rw [aborted]
    exact ⟨_, _, rfl, done _, cleared _, fun ok => absurd (.inl ok) fails⟩

/-! ### The run of a collective wagon -/

section
variable {s : State} {ring : Nat} {index : W32} {f : Flight}

/-- R306 to R311: the one segment is contributed and written, and the wagon has issued all. -/
theorem SoleColl.pumps (h : SoleColl s f) (there : s.flight ring index = some f) (waits : f.stage = .waiting)
    (plane : f.plane = 0) (more : f.issuedAll = false) : ∃ flights a flags,
      let u := { s with
        yard.bytes := s.yard.bytes.write ((s.allot f).key (clDst f.bits)) (s.collOut f)
        marsh.flights := flights
        rails.accums := [a] }
      s.collPump ring index noErrs [] 2 = u ∧
      u.flight ring index = some { f with plane := 1, flags := flags, issuedAll := true } ∧
      a.is f.ctx (clGroup f.bits) (clOpseq f.bits) 0 = true ∧ a.sentUp = true ∧ a.written = true := by
  obtain ⟨named, numbered⟩ := State.flight_names there
  have next : SoleColl (s.modFlight ring index (fun x => { x with plane := x.plane + 1 })) f :=
    ⟨h.clean, h.tree, h.segs, h.source, h.dest, h.idle, h.quiet⟩
  obtain ⟨k, a, keeps, mine, sent, written, own⟩ := next.contributes
  rw [named, numbered] at own
  have free (half : Nat) : s.accumFree half = true := by
    unfold State.accumFree
    rw [h.idle]
    rfl
  have passed := State.flight_modFlight there (g := fun x => { x with plane := x.plane + 1 }) fun x is => is
  rw [plane] at passed
  have flagged : ((s.modFlight ring index (fun x => { x with plane := x.plane + 1 })).collOwn f 0 noErrs []).flight ring index =
      some { f with plane := 1, flags := (k { f with plane := 1 }).flags } := by
    rw [own]
    refine (State.flight_congr rfl ..).trans ((State.flight_modFlight passed fun x is => ?_).trans (congrArg some (keeps _)))
    rw [Flight.flags_is keeps]
    exact is
  have issued := State.flight_modFlight flagged (g := fun x => { x with issuedAll := true }) fun x is => is
  have runs : s.collPump ring index noErrs [] 2 =
      ((s.modFlight ring index (fun x => { x with plane := x.plane + 1 })).collOwn f 0 noErrs []).modFlight ring index
        (fun x => { x with issuedAll := true }) := by
    rw [State.collPump, there]
    dsimp only
    rw [if_neg (by rw [waits, more]; simp), if_neg (by rw [h.segs, plane]; decide), if_pos (.inr (.inr (free _))), plane,
      State.collPump, flagged]
    dsimp only
    rw [if_neg (by rw [waits, more]; simp), if_pos (by rw [h.segs])]
  have kept : (s.modFlight ring index (fun x => { x with plane := x.plane + 1 })).rails.accums = [] := h.idle
  rw [runs]
  rw [own] at issued ⊢
  unfold State.setAccum at issued ⊢
  dsimp only [State.modFlight] at kept issued ⊢
  rw [kept] at issued ⊢
  exact ⟨_, a, _, rfl, issued, mine, sent, written⟩

/-- R313, R315: a wagon whose one segment is written completes OK, and its accumulator is free. -/
theorem State.collTry_completes (there : s.flight ring index = some f) (waits : f.stage = .waiting) (all : f.issuedAll = true)
    (segs : clSegs f.bits = 1) (causes : f.causes = []) (tags : f.tags = []) {a : Accum} (held : s.rails.accums = [a])
    (mine : a.is f.ctx (clGroup f.bits) (clOpseq f.bits) 0 = true) (sent : a.sentUp = true) (written : a.written = true) :
    ∃ g c, s.collTry ring index = { s with rails := g, ctxs := c }.decide ring index wsOk f.flags ∧ g.accums = [] ∧
      Table.get none ((s.collTry ring index).ctx f.ctx).opDone (clGroup f.bits) = some (clOpseq f.bits) := by
  obtain ⟨named, numbered⟩ := State.flight_names there
  have found : s.accum f.ctx (clGroup f.bits) (clOpseq f.bits) 0 = some a := by
    unfold State.accum
    rw [held]
    exact List.find?_cons_of_pos (p := fun b : Accum => b.is f.ctx (clGroup f.bits) (clOpseq f.bits) 0) mine
  have settled : (List.range (clSegs f.bits)).all (s.collSettled f) = true := by
    rw [segs]
    simp [State.collSettled, found, sent, written]
  have ends : s.collTry ring index = (s.collEnd f wsOk []).decide ring index wsOk f.flags := by
    unfold State.collTry
    rw [there]
    dsimp only
    rw [if_neg (by rw [waits]; simp), if_neg (by rw [causes]; simp), if_pos ⟨all, tags, settled⟩, causes]
    unfold State.collFinish
    rw [named, numbered]
    rfl
  obtain ⟨g, c, freed, done, cleared, fewer⟩ := s.collEnd_frees f wsOk []
  refine ⟨g, c, ends.trans (by rw [freed]), ?_, by rw [ends]; exact done⟩
  refine List.eq_nil_iff_forall_not_mem.mpr fun b there => ?_
  have old := fewer rfl there
  rw [held] at old
  obtain rfl := List.mem_singleton.mp old
  simp only [Accum.is, Bool.and_eq_true, decide_eq_true_eq] at mine
  obtain ⟨⟨⟨ctx, group⟩, opseq⟩, _⟩ := mine
  exact cleared _ there ⟨ctx, group, opseq⟩

theorem State.collMore_done (there : s.flight ring index = some f) (done : f.stage ≠ .waiting) (errs : MemErrs)
    (sums : List SumSlip) : s.collMore ring index errs sums = s := by
  unfold State.collMore
  rw [there]
  exact if_pos done

/-- Wagons that name one whose completion is decided go on no further. -/
theorem State.foldl_collMore_done (there : s.flight ring index = some f) (done : f.stage ≠ .waiting) (errs : MemErrs)
    (sums : List SumSlip) (l : List Flight) (named : ∀ g ∈ l, g.ring = ring ∧ g.index = index) :
    l.foldl (fun t g => t.collMore g.ring g.index errs sums) s = s := by
  induction l with
  | nil => rfl
  | cons g rest ih =>
    obtain ⟨of_, at_⟩ := named g List.mem_cons_self
    rw [List.foldl_cons, of_, at_, State.collMore_done there done]
    exact ih fun h mem => named h (List.mem_cons_of_mem _ mem)

/-- A collective wagon alone goes on to its end. -/
theorem SoleColl.completes (h : SoleColl s f) (there : s.flight ring index = some f) (waits : f.stage = .waiting)
    (plane : f.plane = 0) (more : f.issuedAll = false) (causes : f.causes = []) (tags : f.tags = []) :
    ∃ t, s.collMore ring index noErrs [] = t ∧ Decided t ring index wsOk ∧
      t.yard = { s.yard with bytes := s.yard.bytes.write ((s.allot f).key (clDst f.bits)) (s.collOut f) } ∧ t.mem = s.mem ∧
      t.rails.accums = [] ∧ Table.get none (t.ctx f.ctx).opDone (clGroup f.bits) = some (clOpseq f.bits) := by
  obtain ⟨flights, a, flags, pumped, found, mine, sent, written⟩ := h.pumps there waits plane more
  have late : s.collLate f noErrs = s := by
    unfold State.collLate
    rw [h.idle]
    rfl
  have run : s.collMore ring index noErrs [] = (s.collPump ring index noErrs [] 2).collTry ring index := by
    unfold State.collMore
    rw [there]
    dsimp only
    rw [if_neg (by rw [waits]; simp), late, h.segs]
  obtain ⟨g, c, ends, free, done⟩ := State.collTry_completes found waits rfl h.segs causes tags rfl mine sent written
  rw [run, pumped]
  refine ⟨_, rfl, ?_, ?_, ?_, ?_, done⟩
  · rw [ends]
    exact ⟨_, State.flight_decide ((State.flight_congr rfl ..).trans found) .., rfl, rfl⟩
  · rw [ends]
    rfl
  · rw [ends]
    rfl
  · rw [ends]
    exact free

end

/-- R308, R310: a collective wagon that its engine accepts, where no other collective waits, runs by itself. -/
theorem Running.runColl_alone {s : State} {ring : Fin 4096} {index : W32} {f : Flight} {op : Nat}
    (h : Running s ring.val index f op) (coll : opColl op = true)
    (alone : ∀ g ∈ s.marsh.flights, opColl (wOpcode g.bits) = true → g.stage = .waiting → g = f)
    (accepted : s.collRefusal f = none) (errs : MemErrs) (sums : List SumSlip) {d : Flight}
    (ends : ((s.modFlight ring.val index (fun x => { x with stage := .waiting })).collMore ring.val index errs sums).flight
      ring.val index = some d) (done : d.stage ≠ .waiting) :
    s.runColl op ring.val index errs sums =
      (s.modFlight ring.val index (fun x => { x with stage := .waiting })).collMore ring.val index errs sums := by
  have is := Flight.is_of_flight h.there
  have runs : s.runs op f = true := by simp [State.runs, h.started, h.opcode, h.up]
  unfold State.runColl
  rw [State.onFlight_runs h.there h.clock runs, accepted]
  dsimp only
  unfold State.resumeColls
  refine (if_neg (show ¬ s.frozen = true by rw [h.clock]; simp)).trans ?_
  have mine : ∀ g ∈ (s.modFlight ring.val index (fun x => { x with stage := .waiting })).marsh.flights.filter
      (fun g => opColl (wOpcode g.bits) ∧ g.stage = .waiting), g.ring = ring.val ∧ g.index = index := by
    intro g mem
    obtain ⟨there, waits⟩ := List.mem_filter.mp mem
    obtain ⟨b, before, rfl⟩ := List.mem_map.mp there
    by_cases named : b.is ring.val index = true
    · rw [if_pos named]
      simp only [Flight.is, Bool.and_eq_true, decide_eq_true_eq] at named
      exact named.1
    · rw [if_neg named] at waits
      simp only [decide_eq_true_eq] at waits
      obtain rfl := alone b before waits.1 waits.2
      exact absurd is named
  have there : { f with stage := .waiting } ∈ (s.modFlight ring.val index (fun x => { x with stage := .waiting })).marsh.flights.filter
      (fun g => opColl (wOpcode g.bits) ∧ g.stage = .waiting) := by
    refine List.mem_filter.mpr ⟨List.mem_map.mpr ⟨f, List.mem_of_find?_eq_some h.there, if_pos is⟩, ?_⟩
    simp [h.opcode, coll]
  generalize (s.modFlight ring.val index (fun x => { x with stage := .waiting })).marsh.flights.filter
    (fun g => opColl (wOpcode g.bits) ∧ g.stage = .waiting) = l at mine there
  cases l with
  | nil => cases there
  | cons g rest =>
    obtain ⟨of_, at_⟩ := mine g List.mem_cons_self
    rw [List.foldl_cons, of_, at_]
    exact State.foldl_collMore_done ends done errs sums rest fun b mem => mine b (List.mem_cons_of_mem _ mem)

/-- R313, R314: a collective that has waited past its TIMEOUT ends so. -/
theorem State.collTimeout_ends {s : State} {ring : Fin 4096} {index : W32} {f : Flight}
    (alone : ∀ g ∈ s.marsh.flights, opColl (wOpcode g.bits) = true → g.stage = .waiting → g = f)
    (there : s.flight ring.val index = some f) (clock : s.frozen = false) (waits : f.stage = .waiting)
    (coll : opColl (wOpcode f.bits) = true) (timed : clTimeout f.bits ≠ 0) (causes : f.causes = []) :
    execCollTimeout ring index s =
      .next ((s.collEnd f wsCollTimeout []).decide ring.val index wsCollTimeout f.flags) := by
  obtain ⟨named, numbered⟩ := State.flight_names there
  obtain ⟨g, c, ended, _⟩ := s.collEnd_frees f wsCollTimeout []
  have is := Flight.is_of_flight there
  have still : ∀ b ∈ ((s.collEnd f wsCollTimeout []).decide ring.val index wsCollTimeout f.flags).marsh.flights,
      b.collWaits = false := by
    rw [ended]
    intro b mem
    obtain ⟨old, before, rfl⟩ := List.mem_map.mp mem
    by_cases mine : old.is ring.val index = true
    · rw [if_pos mine]
      simp [Flight.collWaits]
    · rw [if_neg mine]
      refine Bool.eq_false_iff.mpr fun waiting => mine ?_
      simp only [Flight.collWaits, Bool.and_eq_true, decide_eq_true_eq] at waiting
      rw [alone old before waiting.1 waiting.2]
      exact is
  unfold execCollTimeout
  rw [State.onFlight_runs there clock (by simp [waits, coll]), if_neg timed, causes, show lowestCause (addTo wsCollTimeout []) = wsCollTimeout from rfl]
  unfold State.collFinish
  rw [named, numbered, State.resumeColls_none still]

/-- Settles O23: the one segment's way through the accumulator, then the end of a wagon that waited too long. -/
theorem collectivesComplete : Obligations.CollectivesComplete := by
  intro s ring x f h unit alone w y g
  refine ⟨?_, fun there clock waits coll timed causes => ?_⟩
  · intro op cmd command running clean form accepted tree segs source dest causes tags plane more idle own quiet
    have run : exec cmd s = .next (s.runColl op ring.val x noErrs []) ∧ opColl op = true := by
      simp only [List.mem_cons, Prod.mk.injEq, List.not_mem_nil, or_false] at command
      rcases command with ⟨rfl, rfl⟩ | ⟨rfl, rfl⟩ | ⟨rfl, rfl⟩
      · exact ⟨rfl, rfl⟩
      · exact ⟨rfl, rfl⟩
      · exact ⟨rfl, rfl⟩
    have cast : isCast f.bits = true ↔ op = 0x3A := by
      rw [isCast, running.opcode, decide_eq_true_eq]
    have sole : SoleColl (s.modFlight ring.val x (fun b => { b with stage := .waiting })) { f with stage := .waiting } := by
      refine ⟨clean, tree, segs, source, dest, idle, ?_⟩
      by_cases broadcast : op = 0x3A
      · exact .inl (cast.mpr broadcast)
      · exact .inr (quiet broadcast)
    have there : (s.modFlight ring.val x (fun b => { b with stage := .waiting })).flight ring.val x =
        some { f with stage := .waiting } := by
      refine State.flight_modFlight running.there fun b is => ?_
      simp only [Flight.is, Bool.and_eq_true, decide_eq_true_eq] at is ⊢
      exact ⟨is.1, by simp⟩
    obtain ⟨t, ends, decided, yard, mem, free, done⟩ := sole.completes there rfl plane more causes tags
    obtain ⟨d, found, stage, status⟩ := decided
    have moved := running.runColl_alone run.2 alone accepted noErrs [] (ends.symm ▸ found) (by rw [stage]; simp)
    refine ⟨t, run.1.trans (congrArg Host.Outcome.next (moved.trans ends)), ⟨d, found, stage, status⟩, ?_, mem, free, done⟩
    have out : (if op = 0x3A then own else (Segment.parse own).bytes) =
        (s.modFlight ring.val x (fun b => { b with stage := .waiting })).collOut { f with stage := .waiting } := by
      unfold State.collOut
      exact if_congr cast.symm rfl rfl
    rw [out]
    exact Stored.of_yard clean form yard
  · obtain ⟨r, c, ended, done, cleared, _⟩ := s.collEnd_frees f wsCollTimeout []
    refine ⟨_, State.collTimeout_ends alone there clock waits coll timed causes, ?_, ?_, ?_, done, ?_⟩
    · exact ⟨_, State.flight_decide ((State.flight_congr (by rw [ended]) ..).trans there) .., rfl, rfl⟩
    · rw [ended]
      rfl
    · rw [ended]
      rfl
    · rw [ended]
      exact cleared

end Sys2Proof.Machine
end

section
/-! VECTOR: settles O20 (R68, R69, R86, R93, R123 to R130, R606). -/

namespace Sys2Proof.Machine

/-! ### What a VECTOR wagon reads of the state -/

/-- Two states agree in all that a VECTOR wagon of a partition reads: the Yard, module memory, contexts, dispatched wagons, and
the DATA_ERR of its engine. -/
structure VectorReads (p : Nat) (s t : State) : Prop where
  yard : t.yard = s.yard
  mem : t.mem = s.mem
  ctxs : t.ctxs = s.ctxs
  marsh : t.marsh = s.marsh
  feedErr : (t.part p).vec.feedErr = (s.part p).vec.feedErr

theorem VectorReads.trans {p : Nat} {s t u : State} (h : VectorReads p s t) (k : VectorReads p t u) : VectorReads p s u :=
  ⟨k.yard.trans h.yard, k.mem.trans h.mem, k.ctxs.trans h.ctxs, k.marsh.trans h.marsh, k.feedErr.trans h.feedErr⟩

theorem State.modVec_reads (s : State) (p : Nat) {f : VectorEngine → VectorEngine} (keeps : ∀ v, (f v).feedErr = v.feedErr) :
    VectorReads p s (s.modVec p f) := by
  refine ⟨rfl, rfl, rfl, rfl, ?_⟩
  rw [State.modVec, State.part_modPart]
  split
  · exact keeps _
  · rfl

theorem State.report_vectorReads (s : State) (p : Nat) (src : W32) (code : Nat) (ctx : Option (Nat × W16)) (info : W32) :
    VectorReads p s (s.report src code ctx info) := by
  obtain ⟨g, h⟩ := s.report_eq src code ctx info
  rw [h]
  exact ⟨rfl, rfl, rfl, rfl, rfl⟩

theorem State.vectorHit_reads (s : State) (p : Nat) : VectorReads p s (s.vectorHit p) := by
  have timed : VectorReads p s (s.modVec p (fun x => { x with residueAt := some s.trg.seconds })) :=
    s.modVec_reads p fun _ => rfl
  unfold State.vectorHit
  dsimp only
  split
  · exact timed.trans (State.report_vectorReads ..)
  · exact timed

section
variable {s t : State} (same : t.yard = s.yard)
include same

theorem State.yardGet_congr (y : YardWord) (off n : Nat) : t.yardGet y off n = s.yardGet y off n := by
  simp only [State.yardGet, State.yardLoad, same]

theorem State.vxRow_congr (y : YardWord) (w : Wagon) (k r : Nat) : t.vxRow y w k r = s.vxRow y w k r := by
  simp only [State.vxRow, State.vxCodes, State.yardGet_congr same]

/-- What a VECTOR wagon puts out depends on the Yard alone. -/
theorem State.vxOutput_congr (y : YardWord) (w : Wagon) (seed : W64) (tile : Flags) (x : LaneFaults) :
    t.vxOutput y w seed tile x = s.vxOutput y w seed tile x := by
  have sums (r : Nat) : t.vxSum y w x r = s.vxSum y w x r := by
    simp only [State.vxSum, State.vxCodes, State.yardGet_congr same]
  have reduce : t.vxReduce y w seed tile x = s.vxReduce y w seed tile x := by
    simp only [State.vxReduce, State.vxHurt, State.vxPick, sums, State.vxRow_congr same, same]
  have quant (r : Nat) : t.vxQuant y w seed x r = s.vxQuant y w seed x r := by
    simp only [State.vxQuant, State.vxRow_congr same]
  have dequant (r : Nat) : t.vxDequant y w seed x r = s.vxDequant y w seed x r := by
    simp only [State.vxDequant, State.vxCodes, State.yardGet_congr same]
  have fromL128 (r : Nat) : t.vxFromL128 y w seed x r = s.vxFromL128 y w seed x r := by
    simp only [State.vxFromL128, State.yardGet_congr same]
  have lane (r : Nat) : t.vxLane y w seed x r = s.vxLane y w seed x r := by
    simp only [State.vxLane, State.vxRow_congr same]
  simp only [State.vxOutput, reduce, quant, dequant, fromL128, lane]

end

/-! ### The end of a VECTOR wagon -/

theorem State.takeFeed_vector (s : State) (p : Fin 8) (w : Wagon) :
    (s.takeFeed (.vector p) w).1 = (wCloses w && (s.part p.val).vec.feedErr) := by
  unfold State.takeFeed
  split
  · rename_i opens
    simp [opens]
  · rename_i closes
    simp at closes
    simp [closes]

/-- R238: a VECTOR wagon whose completion is decided, where its flags already carry the DATA_ERR that it takes. -/
theorem State.finish_vector {s : State} {ring : Nat} {index : W32} {f : Flight} {p : Fin 8}
    (there : s.flight ring index = some f) (unit : f.unit = .vector p) (status : Byte) {flags : Flags}
    (fed : (s.part p.val).vec.feedErr = true → flags.dataErr = true) :
    DecidedWith (s.finish f status flags) ring index status flags := by
  obtain ⟨rfl, rfl⟩ := State.flight_names there
  have taken : (s.takeFeed f.unit f.bits).2.flight f.ring f.index = some f :=
    (State.flight_congr (State.takeFeed_marsh ..) ..).trans there
  have same : (flags.dataErr || (s.takeFeed f.unit f.bits).1) = flags.dataErr := by
    rw [unit, State.takeFeed_vector]
    refine Bool.or_eq_left_iff_imp.mpr fun err => fed ?_
    rw [Bool.and_eq_true] at err
    exact err.2
  unfold State.finish DecidedWith
  dsimp only
  rw [same, State.flight_congr (State.settle_marsh ..)]
  exact ⟨_, State.flight_decide taken .., rfl, rfl, rfl⟩

theorem Flags.or_none (f : Flags) : f.or { noFlags with dataErr := false } = f := by
  simp [Flags.or, noFlags]

/-- A VECTOR wagon that completes in a state that differs from s in its Yard, its mileposts and its free bytes. -/
theorem State.finish_afterStore {s u : State} {ring : Nat} {index : W32} {f : Flight} {p : Fin 8}
    (there : s.flight ring index = some f) (unit : f.unit = .vector p) (marsh : u.marsh = s.marsh) (parts : u.parts = s.parts)
    (src : W32) (n : Nat) (status : Byte) {flags : Flags} (fed : (s.part p.val).vec.feedErr = true → flags.dataErr = true) :
    let t := (u.mile src n).finish f status flags
    DecidedWith t ring index status flags ∧ t.yard = u.yard ∧ t.mem = u.mem := by
  refine ⟨State.finish_vector ?_ unit status fun err => fed ?_, (State.finish_store ..).1, (State.finish_store ..).2⟩
  · rw [State.flight_congr (s := s) (by rw [State.mile_marsh, marsh])]
    exact there
  · rw [State.part, show (u.mile src n).parts = s.parts from parts] at err
    exact err

section
variable {s : State} {ring : Nat} {index : W32} {f : Flight} {p : Fin 8} (there : s.flight ring index = some f)
  (unit : f.unit = .vector p) (clean : s.yard.damaged = [])
include there unit clean

/-- R124 to R129: results that no overlap frees are stored, and the wagon completes OK. -/
theorem State.storeVector_stores (y : YardWord) {tile : Flags} {o : WagonOut} (form : s.yard.bytes.wf = true)
    (plain : vxForbidden f.bits = false) (apart : Apart o.1)
    (fed : (s.part p.val).vec.feedErr = true → tile.dataErr = true) :
    let t := s.storeVector p.val f y cleanYard false tile o
    DecidedWith t ring index wsOk (o.2.1.or tile) ∧ Stored s t y o.1 ∧ t.mem = s.mem := by
  have carries : (s.part p.val).vec.feedErr = true → (o.2.1.or tile).dataErr = true := fun err => by
    rw [Flags.or, fed err, Bool.or_true]
  obtain ⟨decided, yard, mem⟩ := State.finish_afterStore (u := { s with yard.bytes := y.writes s.yard.bytes o.1 }) there unit rfl
    rfl (source 2 p.val 0) ((vxRows f.bits * vxCols f.bits + 511) / 512) wsOk carries
  have run : s.storeVector p.val f y cleanYard false tile o = (({ s with yard.bytes := y.writes s.yard.bytes o.1 } : State).mile
      (source 2 p.val 0) ((vxRows f.bits * vxCols f.bits + 511) / 512)).finish f wsOk (o.2.1.or tile) := by
    unfold State.storeVector
    rw [plain]
    simp only [Bool.false_eq_true, if_false, State.yardPut_clean f y o.1 s clean, or_self, Flags.or_none]
  rw [run]
  refine ⟨decided, ⟨fun a ha => ?_, fun k outside => ?_⟩, mem⟩
  · rw [State.yardGet, State.yardLoad_clean (by rw [yard]; exact clean), yard]
    exact y.read_writes o.1 _ form apart a ha
  · rw [yard]
    exact y.get_writes_outside o.1 _ outside

end

/-! ### Free results (R606) -/

/-- The places of free results are those of the results, with as many bytes. -/
theorem State.vxFree_places (s : State) (o : WagonOut) :
    ((s.vxFree o).1.1.map (fun a => (a.1, a.2.length)) = o.1.map (fun a => (a.1, a.2.length))) ∧
      ∃ n, (s.vxFree o).2 = s.take n := by
  have fold (l : List (Nat × List Byte)) : ∀ (acc : List (Nat × List Byte)) (k : Nat),
      let t := l.foldl (fun (acc : List (Nat × List Byte) × State) x =>
        (acc.1 ++ [(x.1, acc.2.freeBytes x.2.length)], acc.2.take x.2.length)) (acc, s.take k)
      t.1.map (fun a => (a.1, a.2.length)) = acc.map (fun a => (a.1, a.2.length)) ++ l.map (fun a => (a.1, a.2.length)) ∧
        ∃ n, t.2 = s.take n := by
    induction l with
    | nil => exact fun acc k => ⟨(List.append_nil _).symm, k, rfl⟩
    | cons a rest ih =>
      intro acc k
      have more := ih (acc ++ [(a.1, (s.take k).freeBytes a.2.length)]) (k + a.2.length)
      have advanced : (s.take k).take a.2.length = s.take (k + a.2.length) := by
        unfold State.take
        dsimp only
        rw [Nat.add_assoc]
      dsimp only [List.foldl_cons] at more ⊢
      rw [advanced]
      refine ⟨more.1.trans ?_, more.2⟩
      simp [State.freeBytes]
  obtain ⟨places, n, left⟩ := fold o.1 [] 0
  refine ⟨places, n + 1, ?_⟩
  refine (congrArg (fun t => State.take t 1) left).trans ?_
  unfold State.take
  dsimp only
  rw [Nat.add_assoc]

theorem exists_of_map_eq_map {α β : Type} {f : α → β} {l k : List α} (same : l.map f = k.map f) {a : α} (mem : a ∈ l) :
    ∃ b ∈ k, f b = f a :=
  List.mem_map.mp (same ▸ List.mem_map_of_mem mem)

/-- R606: under a forbidden overlap a wagon completes OK all the same, and changes no byte outside its results' places. -/
theorem State.storeVector_free {s : State} {ring : Nat} {index : W32} {f : Flight} {p : Fin 8}
    (there : s.flight ring index = some f) (unit : f.unit = .vector p) (clean : s.yard.damaged = []) (y : YardWord)
    {tile : Flags} {o : WagonOut} (forbidden : vxForbidden f.bits = true)
    (fed : (s.part p.val).vec.feedErr = true → tile.dataErr = true) :
    let t := s.storeVector p.val f y cleanYard false tile o
    Decided t ring index wsOk ∧ t.mem = s.mem ∧
      ∀ k, (∀ a ∈ o.1, k < y.key a.1 ∨ y.key a.1 + a.2.length ≤ k) → t.yard.bytes.get k = s.yard.bytes.get k := by
  obtain ⟨places, n, taken⟩ := s.vxFree_places o
  have carries : (s.part p.val).vec.feedErr = true → ((s.vxFree o).1.2.1.or tile).dataErr = true := fun err => by
    rw [Flags.or, fed err, Bool.or_true]
  obtain ⟨⟨g, found, stage, status, _⟩, yard, mem⟩ := State.finish_afterStore
    (u := { s.take n with yard.bytes := y.writes s.yard.bytes (s.vxFree o).1.1 }) there unit rfl
    rfl (source 2 p.val 0) ((vxRows f.bits * vxCols f.bits + 511) / 512) wsOk carries
  have run : s.storeVector p.val f y cleanYard false tile o =
      (({ s.take n with yard.bytes := y.writes s.yard.bytes (s.vxFree o).1.1 } : State).mile
        (source 2 p.val 0) ((vxRows f.bits * vxCols f.bits + 511) / 512)).finish f wsOk ((s.vxFree o).1.2.1.or tile) := by
    have put := State.yardPut_clean f y (s.vxFree o).1.1 (s.take n) clean
    unfold State.storeVector
    rw [forbidden]
    simp only [Bool.false_eq_true, if_true, if_false, taken, put, or_self, Flags.or_none] <;>
      rfl
  rw [run]
  refine ⟨⟨g, found, stage, status⟩, mem, fun k outside => ?_⟩
  rw [yard]
  refine y.get_writes_outside _ _ fun a mem => ?_
  obtain ⟨b, there, same⟩ := exists_of_map_eq_map places mem
  obtain ⟨at_, long⟩ := Prod.mk.inj same
  rw [← at_, ← long]
  exact outside b there

/-! ### The turn of a VECTOR wagon -/

/-- A VECTOR wagon on an engine that runs, in a Yard that is whole and holds its spans (R99, R123). -/
structure VectorTurn (s : State) (ring : Nat) (index : W32) (f : Flight) (p : Fin 8) : Prop where
  running : Running s ring index f 0x20
  unit : f.unit = .vector p
  clean : s.yard.damaged = []
  form : s.yard.bytes.wf = true
  holds : (s.allot f).holds (vxReads f.bits ++ vxDstSpans f.bits ++ vxOutScaleSpans f.bits) = true

/-- DATA_ERR of a VECTOR wagon (R238), with RETRIED where it was executed again (R69). -/
def State.vxFlags (s : State) (p : Fin 8) (again : Bool) : Flags :=
  { noFlags with dataErr := (s.part p.val).vec.feedErr, retried := again }

/-- What a VECTOR wagon puts out at first, or when it is executed again. -/
def State.vxOut (s : State) (f : Flight) (p : Fin 8) (again : Bool) (x : LaneFaults) : WagonOut :=
  s.vxOutput (s.allot f) f.bits (s.ctx f.ctx).srSeed (s.vxFlags p again) x

section
variable {s t : State} {ring : Fin 4096} {index : W32} {f : Flight} {p : Fin 8} (h : VectorTurn s ring.val index f p)
include h

/-- R86, R93: the outputs agree, or the wagon is executed again, or it completes RESIDUE_ERROR. -/
theorem VectorTurn.execVector_eq (x1 x2 : LaneFaults) : execVector ring index cleanYard x1 x2 s = .next (
    let t := s.modVec p.val (fun v => { v with lastCtx := some f.ctx })
    let u := t.vectorHit p.val
    if (s.vxOut f p false x1).2.2 then
      t.storeVector p.val f (s.allot f) cleanYard false (s.vxFlags p false) (s.vxOut f p false x1)
    else if (s.vxOut f p true x2).2.2 then
      (u.report (source 2 p.val 0) 0x0104 f.who 0).storeVector p.val f (s.allot f) cleanYard false (s.vxFlags p true)
        (s.vxOut f p true x2)
    else ((u.vectorHit p.val).report (source 2 p.val 0) 0x0202 f.who 0).finish f wsResidue (s.vxFlags p false)) := by
  have same := s.modVec_reads p.val (f := fun v => { v with lastCtx := some f.ctx }) fun _ => rfl
  have runs : s.runs 0x20 f = true := by simp [State.runs, h.running.started, h.running.opcode, h.running.up]
  have reads := State.operands_clean (s := s.modVec p.val (fun v => { v with lastCtx := some f.ctx })) h.clean f (s.allot f)
    (vxReads f.bits)
  unfold execVector
  rw [State.onFlight_runs h.running.there h.running.clock runs, h.unit]
  dsimp only
  rw [show (s.modVec p.val (fun v => { v with lastCtx := some f.ctx })).allot f = s.allot f from rfl, h.running.good, h.holds,
    reads]
  dsimp only
  rw [same.feedErr, show (s.modVec p.val (fun v => { v with lastCtx := some f.ctx })).ctx f.ctx = s.ctx f.ctx from rfl]
  simp only [State.vxOutput_congr same.yard, Bool.false_eq_true, if_false, not_true_eq_false, Bool.or_false] <;>
    rfl

theorem VectorTurn.there (same : VectorReads p.val s t) : t.flight ring.val index = some f :=
  (State.flight_congr same.marsh ..).trans h.running.there

/-- Results stored from a state that reads as s does. -/
theorem VectorTurn.stores (same : VectorReads p.val s t) (plain : vxForbidden f.bits = false) (again : Bool) (o : WagonOut)
    (apart : Apart o.1) :
    let u := t.storeVector p.val f (s.allot f) cleanYard false (s.vxFlags p again) o
    DecidedWith u ring.val index wsOk (o.2.1.or (s.vxFlags p again)) ∧ Stored s u (s.allot f) o.1 ∧ u.mem = s.mem := by
  have stored := State.storeVector_stores (h.there same) h.unit (by rw [same.yard]; exact h.clean) (s.allot f)
    (tile := s.vxFlags p again) (o := o) (by rw [same.yard]; exact h.form) plain apart
    (by rw [same.feedErr]; exact fun err => err)
  simpa only [Stored, same.yard, same.mem] using stored

end

/-- Settles O20: the ways that the checks of a VECTOR wagon and of its re-execution can come out. -/
theorem vectorStores : Obligations.VectorStores := by
  intro s ring x f p x1 x2 running unit clean form w y tile out o tile2 o2 cmd holds
  have h : VectorTurn s ring.val x f p := ⟨running, unit, clean, form, holds⟩
  have run := h.execVector_eq x1 x2
  have first := s.modVec_reads p.val (f := fun v => { v with lastCtx := some f.ctx }) fun _ => rfl
  have hit := first.trans (State.vectorHit_reads _ p.val)
  have again := hit.trans (State.report_vectorReads _ p.val (source 2 p.val 0) 0x0104 f.who 0)
  have twice := (hit.trans (State.vectorHit_reads _ p.val)).trans
    (State.report_vectorReads _ p.val (source 2 p.val 0) 0x0202 f.who 0)
  refine ⟨fun agrees plain apart => ?_, fun agrees forbidden => ?_, fun mismatch agrees plain apart => ?_,
    fun mismatch mismatches => ?_⟩
  · exact ⟨_, run.trans (congrArg Host.Outcome.next (if_pos agrees)), h.stores first plain false _ apart⟩
  · obtain ⟨decided, mem, outside⟩ := State.storeVector_free (h.there first) unit
      (by rw [first.yard]; exact clean) y (tile := s.vxFlags p false) (o := o) forbidden
      (by rw [first.feedErr]; exact fun err => err)
    exact ⟨_, run.trans (congrArg Host.Outcome.next (if_pos agrees)), decided, mem, outside⟩
  · exact ⟨_, run.trans (congrArg Host.Outcome.next ((if_neg (ne_true_of_eq_false mismatch)).trans (if_pos agrees))), h.stores again plain true _ apart⟩
  · refine ⟨_, run.trans (congrArg Host.Outcome.next ((if_neg (ne_true_of_eq_false mismatch)).trans
      (if_neg (ne_true_of_eq_false mismatches)))), State.finish_marks (h.there twice) .., ?_, ?_⟩
    · exact (State.finish_store ..).1.trans twice.yard
    · exact (State.finish_store ..).2.trans twice.mem

end Sys2Proof.Machine
end

section
/-! SUPPORT. A signature that a key pair makes verifies under its public key (R548, R558; RFC 8391, 4.1.9 and 4.1.10). -/

namespace Sys2Proof.Machine

/-! ### Lengths -/

theorem length_lanes (f : Nat → Nat → W64) : (lanes f).length = 25 := by simp [lanes]

theorem length_keccakF (a : List W64) : (keccakF a).length = 25 := by
  unfold keccakF
  rw [show List.range 24 = List.range 23 ++ [23] from rfl, List.foldl_append]
  simp [keccakRound, keccakChi, length_lanes]

theorem length_keccakAbsorbAll (n : Nat) : ∀ (a : List W64) (bs : List Byte), a.length = 25 →
    (keccakAbsorbAll n a bs).length = 25 := by
  induction n with
  | zero => exact fun a bs long => long
  | succ n ih => exact fun a bs _ => ih _ _ (length_keccakF _)

/-- A SHAKE256 output of 32 bytes. -/
theorem length_shake256 (bs : List Byte) : (shake256 32 bs).length = 32 := by
  unfold shake256
  have long := length_keccakAbsorbAll (bs.length / shakeRate + 1) (List.replicate 25 0) (shakePadded bs) (by simp)
  rw [List.length_take, List.length_flatMap]
  simp only [length_leBytes, List.map_const', List.sum_replicate, smul_eq_mul, long]
  norm_num

theorem length_xmssHash (kind : Nat) (key m : List Byte) : (xmssHash kind key m).length = 32 := length_shake256 _

theorem length_beBytes (n v : Nat) : (beBytes n v).length = n := by simp [beBytes]

theorem beNat_beBytes (n v : Nat) : beNat (beBytes n v) = v % 256 ^ n := by
  unfold beNat beBytes
  rw [List.reverse_reverse, leNat_leBytes]

/-! ### Pieces of 32 bytes -/

/-- Strings of 32 bytes put end to end are cut at their ends again. -/
theorem pieces_flatten (l : List (List Byte)) (rest : List Byte) (long : ∀ a ∈ l, a.length = 32) :
    pieces l.length (l.flatten ++ rest) = l := by
  induction l with
  | nil => rfl
  | cons a t ih =>
    have first := long a List.mem_cons_self
    have head : slice ((a :: t).flatten ++ rest) 0 32 = a := by
      simp [slice, first]
    have tail : ((a :: t).flatten ++ rest).drop 32 = t.flatten ++ rest := by
      rw [List.flatten_cons, List.append_assoc, List.drop_left' first]
    rw [List.length_cons, pieces, head, tail, ih fun b mem => long b (List.mem_cons_of_mem _ mem)]

theorem length_flatten_32 (l : List (List Byte)) (long : ∀ a ∈ l, a.length = 32) : l.flatten.length = 32 * l.length := by
  induction l with
  | nil => rfl
  | cons a t ih =>
    rw [List.flatten_cons, List.length_append, long a List.mem_cons_self, ih fun b mem => long b (List.mem_cons_of_mem _ mem),
      List.length_cons]
    omega

/-! ### Chains (RFC 8391, 3.1.2 and 3.1.5) -/

/-- Steps of a chain follow on. -/
theorem wotsChain_add (seed : List Byte) (leaf c m n : Nat) : ∀ (i : Nat) (x : List Byte),
    wotsChain seed leaf c m (i + n) (wotsChain seed leaf c n i x) = wotsChain seed leaf c (n + m) i x := by
  induction n with
  | zero =>
    intro i x
    rw [Nat.zero_add]
    rfl
  | succ n ih =>
    intro i x
    rw [show n + 1 + m = n + m + 1 by omega]
    show wotsChain seed leaf c m (i + (n + 1)) (wotsChain seed leaf c n (i + 1) _) = wotsChain seed leaf c (n + m) (i + 1) _
    rw [show i + (n + 1) = i + 1 + n by omega]
    exact ih _ _

theorem length_wotsChain (seed : List Byte) (leaf c n : Nat) : ∀ (i : Nat) {x : List Byte}, x.length = 32 →
    (wotsChain seed leaf c n i x).length = 32 := by
  induction n with
  | zero => exact fun i x long => long
  | succ n ih => exact fun i x _ => ih _ (length_xmssHash ..)

theorem nibbles_lt (bs : List Byte) : ∀ d ∈ nibbles bs, d < 16 := by
  intro d mem
  obtain ⟨b, _, half⟩ := List.mem_flatMap.mp mem
  have small := b.isLt
  rcases List.mem_cons.mp half with rfl | rest
  · omega
  · obtain rfl := List.mem_singleton.mp rest
    omega

theorem length_nibbles (bs : List Byte) : (nibbles bs).length = 2 * bs.length := by
  unfold nibbles
  rw [List.length_flatMap]
  simp [Nat.mul_comm]

theorem wotsDigits_lt (m : List Byte) : ∀ d ∈ wotsDigits m, d < 16 := by
  intro d mem
  rcases List.mem_append.mp mem with first | check
  · exact nibbles_lt _ d first
  · exact nibbles_lt _ d (List.mem_of_mem_take check)

theorem length_wotsDigits {m : List Byte} (long : m.length = 32) : (wotsDigits m).length = 67 := by
  unfold wotsDigits
  simp [length_nibbles, length_beBytes, long]

/-! ### Nodes -/

theorem length_lTreeLevel (seed : List Byte) (leaf height : Nat) (i : Nat) (l : List (List Byte)) (some : l ≠ [])
    (long : ∀ a ∈ l, a.length = 32) :
    lTreeLevel seed leaf height i l ≠ [] ∧ ∀ a ∈ lTreeLevel seed leaf height i l, a.length = 32 := by
  induction i, l using lTreeLevel.induct with
  | case1 i a b t ih =>
    refine ⟨List.cons_ne_nil _ _, fun x mem => ?_⟩
    rcases List.mem_cons.mp mem with rfl | rest
    · exact length_xmssHash ..
    · by_cases done : t = []
      · rw [done] at rest
        cases rest
      · exact (ih done fun y hy => long y (by simp [hy])).2 x rest
  | case2 i l short =>
    rw [lTreeLevel]
    · exact ⟨some, long⟩
    · exact short

theorem length_lTree (seed : List Byte) (leaf n : Nat) : ∀ (height : Nat) (l : List (List Byte)), l ≠ [] →
    (∀ a ∈ l, a.length = 32) → (lTree seed leaf n height l).length = 32 := by
  induction n with
  | zero =>
    intro height l some long
    obtain ⟨a, t, rfl⟩ := List.exists_cons_of_ne_nil some
    exact long a List.mem_cons_self
  | succ n ih =>
    intro height l some long
    obtain ⟨more, longer⟩ := length_lTreeLevel seed leaf height 0 l some long
    exact ih _ _ more longer

theorem KeyPair.length_start (k : KeyPair) (leaf c : Nat) : (k.start leaf c).length = 32 := length_xmssHash ..

theorem KeyPair.length_node (k : KeyPair) (h i : Nat) : (k.node h i).length = 32 := by
  cases h with
  | zero =>
    refine length_lTree _ _ _ _ _ (by simp) fun a mem => ?_
    obtain ⟨c, _, rfl⟩ := List.mem_map.mp mem
    exact length_wotsChain _ _ _ _ _ (k.length_start i c)
  | succ h => exact length_xmssHash ..

/-- The authentication path of a leaf from height h on. -/
def KeyPair.path (k : KeyPair) (leaf h n : Nat) : List (List Byte) :=
  (List.range n).map (fun j => k.node (h + j) (Nat.xor (leaf / 2 ^ (h + j)) 1))

/-- R548: a node and the path above it give the node n levels up. -/
theorem KeyPair.climb_path (k : KeyPair) (leaf n : Nat) : ∀ h : Nat,
    xmssClimb (leBytes 32 k.pubSeed.toNat) leaf h (k.node h (leaf / 2 ^ h)) (k.path leaf h n) =
      k.node (h + n) (leaf / 2 ^ (h + n)) := by
  induction n with
  | zero => exact fun h => rfl
  | succ n ih =>
    intro h
    have split : k.path leaf h (n + 1) = k.node h (Nat.xor (leaf / 2 ^ h) 1) :: k.path leaf (h + 1) n := by
      unfold KeyPair.path
      rw [List.range_succ_eq_map, List.map_cons, List.map_map]
      refine congrArg (k.node h _ :: ·) (List.map_congr_left fun j _ => ?_)
      simp only [Function.comp, Nat.succ_eq_add_one]
      rw [show h + (j + 1) = h + 1 + j by omega]
    have up : leaf / 2 ^ (h + 1) = leaf / 2 ^ h / 2 := by rw [Nat.pow_succ, Nat.div_div_eq_div_mul]
    rw [split, xmssClimb]
    have joined : (if leaf / 2 ^ h % 2 = 0 then
        randHash (leBytes 32 k.pubSeed.toNat) (xmssAddress 2 0 h (leaf / 2 ^ (h + 1))) (k.node h (leaf / 2 ^ h))
          (k.node h (Nat.xor (leaf / 2 ^ h) 1))
        else randHash (leBytes 32 k.pubSeed.toNat) (xmssAddress 2 0 h (leaf / 2 ^ (h + 1)))
          (k.node h (Nat.xor (leaf / 2 ^ h) 1)) (k.node h (leaf / 2 ^ h))) = k.node (h + 1) (leaf / 2 ^ (h + 1)) := by
      rw [KeyPair.node, up]
      generalize leaf / 2 ^ h = j
      split
      · rename_i even
        rw [show Nat.xor j 1 = j + 1 from Nat.xor_one_of_even (Nat.even_iff.mpr even), show 2 * (j / 2) = j by omega]
      · rename_i odd
        have odd : j % 2 = 1 := by omega
        rw [show Nat.xor j 1 = j - 1 from Nat.xor_one_of_odd (Nat.odd_iff.mpr odd), show 2 * (j / 2) = j - 1 by omega,
          show j - 1 + 1 = j by omega]
    rw [joined, ih (h + 1), show h + 1 + n = h + (n + 1) by omega]

/-! ### Verification -/

theorem slice_between {a b : List Byte} (c : List Byte) {off n : Nat} (before : a.length = off) (long : b.length = n) :
    slice (a ++ (b ++ c)) off n = b := by
  unfold slice
  rw [List.drop_left' before, List.take_left' long]
  simp [long]

/-- The chain elements that a signature of digits holds. -/
def KeyPair.chains (k : KeyPair) (leaf : Nat) (digits : List Nat) : List (List Byte) :=
  digits.zipIdx.map (fun x => wotsChain (leBytes 32 k.pubSeed.toNat) leaf x.2 x.1 0 (k.start leaf x.2))

theorem KeyPair.length_chains (k : KeyPair) (leaf : Nat) (digits : List Nat) :
    (k.chains leaf digits).length = digits.length ∧ ∀ a ∈ k.chains leaf digits, a.length = 32 := by
  refine ⟨by simp [KeyPair.chains], fun a mem => ?_⟩
  obtain ⟨x, _, rfl⟩ := List.mem_map.mp mem
  exact length_wotsChain _ _ _ _ _ (k.length_start ..)

/-- Each chain goes on from its digit to its end. -/
theorem KeyPair.chains_end (k : KeyPair) (leaf : Nat) {digits : List Nat} (count : digits.length = 67)
    (small : ∀ d ∈ digits, d < 16) :
    ((k.chains leaf digits).zip digits).zipIdx.map (fun x =>
        wotsChain (leBytes 32 k.pubSeed.toNat) leaf x.2 (15 - x.1.2) x.1.2 x.1.1) =
      (List.range 67).map (fun c => wotsChain (leBytes 32 k.pubSeed.toNat) leaf c 15 0 (k.start leaf c)) := by
  refine List.ext_getElem (by simp [(k.length_chains leaf digits).1, count]) fun c before _ => ?_
  have inside : c < digits.length := by
    simp [(k.length_chains leaf digits).1] at before
    omega
  have low := small digits[c] (List.getElem_mem inside)
  have follows := wotsChain_add (leBytes 32 k.pubSeed.toNat) leaf c (15 - digits[c]) digits[c] 0 (k.start leaf c)
  rw [Nat.zero_add, show digits[c] + (15 - digits[c]) = 15 by omega] at follows
  simpa [KeyPair.chains] using follows

/-- The 68 bytes of a public key, part by part (R548). -/
theorem KeyPair.publicKey_parts (k : KeyPair) :
    k.publicKey = beBytes 4 xmssOid ++ (k.node xmssHeight 0 ++ (leBytes 32 k.pubSeed.toNat ++ [])) := by
  unfold KeyPair.publicKey KeyPair.publicAt
  rw [slice_of_length (by simp [length_beBytes, k.length_node])]
  simp

/-- The digits that a leaf signs. -/
def KeyPair.digits (k : KeyPair) (m : List Byte) (leaf : Nat) : List Nat :=
  wotsDigits (xmssDigest (xmssHash 3 (leBytes 32 k.skPrf.toNat) (beBytes 32 leaf)) (k.node xmssHeight 0) leaf m)

theorem KeyPair.length_digits (k : KeyPair) (m : List Byte) (leaf : Nat) : (k.digits m leaf).length = 67 :=
  length_wotsDigits (length_xmssHash ..)

/-- The 2,820 bytes of a signature, part by part (R548). -/
theorem KeyPair.sign_parts (k : KeyPair) (m : List Byte) (leaf : Nat) :
    k.sign m leaf = beBytes 4 leaf ++ (xmssHash 3 (leBytes 32 k.skPrf.toNat) (beBytes 32 leaf) ++
      ((k.chains leaf (k.digits m leaf)).flatten ++ ((k.path leaf 0 xmssHeight).flatten ++ []))) ∧
    (k.sign m leaf).length = 2820 := by
  have whole : k.signAt xmssHeight m leaf = beBytes 4 leaf ++ (xmssHash 3 (leBytes 32 k.skPrf.toNat) (beBytes 32 leaf) ++
      ((k.chains leaf (k.digits m leaf)).flatten ++ ((k.path leaf 0 xmssHeight).flatten ++ []))) := by
    unfold KeyPair.signAt KeyPair.chains KeyPair.path KeyPair.digits
    simp only [Nat.zero_add, List.append_assoc, List.append_nil]
  have path : ∀ a ∈ k.path leaf 0 xmssHeight, a.length = 32 := fun a mem => by
    obtain ⟨j, _, rfl⟩ := List.mem_map.mp mem
    exact k.length_node ..
  obtain ⟨count, chains⟩ := k.length_chains leaf (k.digits m leaf)
  have long : (k.signAt xmssHeight m leaf).length = 2820 := by
    rw [whole]
    simp only [List.length_append, length_beBytes, length_xmssHash, length_flatten_32 _ chains, length_flatten_32 _ path, count,
      k.length_digits, List.length_nil]
    simp [KeyPair.path, xmssHeight]
  unfold KeyPair.sign
  rw [slice_of_length long]
  exact ⟨whole, long⟩

/-- R548: what a key pair signs with a leaf of its tree verifies under its public key. -/
theorem KeyPair.verify_sign (k : KeyPair) (m : List Byte) {leaf : Nat} (small : leaf < 2 ^ xmssHeight) :
    xmssVerify k.publicKey m (k.sign m leaf) = true := by
  obtain ⟨parts, _⟩ := k.sign_parts m leaf
  obtain ⟨count, chains⟩ := k.length_chains leaf (k.digits m leaf)
  have path : ∀ a ∈ k.path leaf 0 xmssHeight, a.length = 32 := fun a mem => by
    obtain ⟨j, _, rfl⟩ := List.mem_map.mp mem
    exact k.length_node ..
  have oid : beNat (slice k.publicKey 0 4) = xmssOid := by
    rw [k.publicKey_parts]
    have first := slice_between (a := []) (off := 0) (k.node xmssHeight 0 ++ (leBytes 32 k.pubSeed.toNat ++ [])) rfl
      (length_beBytes 4 xmssOid)
    rw [List.nil_append] at first
    rw [first, beNat_beBytes]
    rfl
  have root : slice k.publicKey 4 32 = k.node xmssHeight 0 := by
    rw [k.publicKey_parts]
    exact slice_between _ (length_beBytes ..) (k.length_node ..)
  have seed : slice k.publicKey 36 32 = leBytes 32 k.pubSeed.toNat := by
    rw [k.publicKey_parts, ← List.append_assoc]
    exact slice_between _ (by simp [length_beBytes, k.length_node]) (length_leBytes ..)
  have index : beNat (slice (k.sign m leaf) 0 4) = leaf := by
    rw [parts]
    have first := slice_between (a := []) (off := 0) (xmssHash 3 (leBytes 32 k.skPrf.toNat) (beBytes 32 leaf) ++
      ((k.chains leaf (k.digits m leaf)).flatten ++ ((k.path leaf 0 xmssHeight).flatten ++ []))) rfl (length_beBytes 4 leaf)
    rw [List.nil_append] at first
    rw [first, beNat_beBytes]
    exact Nat.mod_eq_of_lt (lt_trans small (by decide))
  have random : slice (k.sign m leaf) 4 32 = xmssHash 3 (leBytes 32 k.skPrf.toNat) (beBytes 32 leaf) := by
    rw [parts]
    exact slice_between _ (length_beBytes ..) (length_xmssHash ..)
  have cut : pieces 67 ((k.sign m leaf).drop 36) = k.chains leaf (k.digits m leaf) := by
    rw [parts, ← List.append_assoc, List.drop_left' (by simp [length_beBytes, length_xmssHash]), ← k.length_digits m leaf, ← count]
    exact pieces_flatten _ _ chains
  have above : pieces xmssHeight ((k.sign m leaf).drop 2180) = k.path leaf 0 xmssHeight := by
    rw [parts, ← List.append_assoc, ← List.append_assoc, List.drop_left']
    · have all := pieces_flatten (k.path leaf 0 xmssHeight) [] path
      rwa [show (k.path leaf 0 xmssHeight).length = xmssHeight by simp [KeyPair.path]] at all
    · simp only [List.length_append, length_beBytes, length_xmssHash, length_flatten_32 _ chains, count, k.length_digits]
  have climbs := k.climb_path leaf xmssHeight 0
  rw [Nat.zero_add, Nat.div_eq_of_lt small, Nat.pow_zero, Nat.div_one] at climbs
  unfold xmssVerify xmssVerifyAt
  dsimp only
  rw [oid, root, seed, index, random, cut, above]
  rw [show wotsDigits (xmssDigest (xmssHash 3 (leBytes 32 k.skPrf.toNat) (beBytes 32 leaf)) (k.node xmssHeight 0) leaf m) =
    k.digits m leaf from rfl, k.chains_end leaf (k.length_digits m leaf) (wotsDigits_lt _)]
  rw [show wotsLeaf (leBytes 32 k.pubSeed.toNat) leaf ((List.range 67).map (fun c =>
    wotsChain (leBytes 32 k.pubSeed.toNat) leaf c 15 0 (k.start leaf c))) = k.node 0 leaf from rfl, climbs]
  simp [small]

end Sys2Proof.Machine
end

section
/-! SUPPORT. A request with an authorisation block whose turn it is, and whose signature verifies (R330, R558 to R560). -/

namespace Sys2Proof.Machine

/-- The state in which the rules of a signed request run: its nonce is consumed (R559). -/
def State.presented (s : State) (ch : Chan) (r : Request) (rest : List Request) : State :=
  ((s.started ch r rest).presentNonce r).2

section
variable {s : State} {ch : Chan} {op : Nat} {r : Request} {rest : List Request} {key : Nat} (h : Signed s ch op r rest key)
include h

theorem Signed.presentNonce : (s.started ch r rest).presentNonce r = (true, s.presented ch r rest) := by
  obtain ⟨n, there, chan, value, recent⟩ := h.live
  have live : (s.started ch r rest).sec.nonces.any (fun n => n.chan = r.chan ∧ n.value = r.nonce ∧
      (s.started ch r rest).start.us < n.issued + 60000000) = true := by
    rw [State.started_sec, State.started, State.modChan_start]
    exact List.any_eq_true.mpr ⟨n, there, decide_eq_true ⟨chan.trans h.chan.symm, value, recent⟩⟩
  unfold State.presented State.presentNonce
  rw [if_pos ⟨h.block, h.room⟩]
  dsimp only
  rw [live]

/-- The nonce is consumed, and nothing else changes. -/
theorem Signed.presented_eq : s.presented ch r rest =
    { s.started ch r rest with
      sec.nonces := (s.started ch r rest).sec.nonces.filter (fun n => ¬ (n.chan = r.chan ∧ n.value = r.nonce)) } := by
  unfold State.presented State.presentNonce
  rw [if_pos ⟨h.block, h.room⟩]

theorem Signed.presented_power : (s.presented ch r rest).power = s.power := by
  rw [h.presented_eq]
  exact State.started_power ..

theorem Signed.presented_fuses : (s.presented ch r rest).fuses = s.fuses := by
  rw [h.presented_eq]
  exact State.started_fuses ..

theorem Signed.presented_level : (s.presented ch r rest).sec.level = s.sec.level := by
  rw [h.presented_eq]
  show (s.started ch r rest).sec.level = s.sec.level
  rw [State.started_sec]

theorem Signed.takeReq : s.takeReq ch (opIs op) = some (r, s.started ch r rest) := by
  unfold State.takeReq
  rw [h.first]
  exact if_pos ⟨h.firmware, decide_eq_true h.opcode, h.turn⟩

theorem Signed.presented_signatureOk : (s.presented ch r rest).signatureOk r = s.signatureOk r := by
  have session : (s.started ch r rest).book.session = s.book.session := by
    unfold State.started
    cases ch
    · rfl
    · rfl
  rw [h.presented_eq]
  unfold State.signatureOk State.authPublic State.ownerKey State.authMessage
  dsimp only
  rw [State.started_mram, State.started_fuses, session]

/-- R558 to R560: the rules of a signed request of the channel's turn run where its signature verifies under the key that
the table names. -/
theorem Signed.turnRuns {rule : Rule} {act : Request → State → State} (verifies : s.signatureOk r = true)
    (power : s.power.state ≠ .holdUp)
    (letter : letterAllows s.fuses.life s.sec.level (s.power.state = .standby) rule.letter = true) (open_ : rule.authOpen = true)
    (long : rule.lenOk r.body = true) (plain : firstSet r.body rule.reserved = none)
    (named : rule.authKey (s.presented ch r rest) r = some key) (free : rule.ctx = false) :
    s.onRequest ch (opIs op) rule act = act r (s.presented ch r rest) := by
  have passes : (s.presented ch r rest).refusal r rule true = none := by
    unfold State.refusal
    rw [h.presented_power, h.presented_fuses, h.presented_level, h.presented_signatureOk, if_neg (by simp [h.whole]),
      if_neg (by simp [power]), if_neg (by simp [letter]), if_neg (by simp [open_]), if_neg (by simp [h.noHost]), if_neg (by simp [h.block]),
      if_neg (by simp [h.room]), if_neg (by simp [long]), plain]
    dsimp only
    rw [if_pos h.block, h.plain]
    dsimp only
    rw [named, h.named, if_neg (by simp), if_neg (by simp), if_neg (by simp [verifies]), if_neg (by simp [free])]
  unfold State.onRequest
  rw [h.takeReq]
  dsimp only
  rw [h.presentNonce]
  dsimp only
  rw [passes]

end

end Sys2Proof.Machine
end

section
/-! DEBUG_UNLOCK over a grant that waits for a context under teardown: refutes O49 (R203, R211, R246, R248, R568, R569).
The key and the signature stay variables until the end: what the model does here asks only that the one verifies the other. -/

namespace Sys2Proof.Machine

/-- DEBUG_UNLOCK to Intrusive on PCIe, under nonce 0 and the owner's key, with a signature (R330). -/
def unlockRequest (sig : List Byte) : Request :=
  { haltRequest with opcode := 0x0700, flags := 16, payload := [2, 0, 0, 0] ++ (List.replicate 36 0 ++ sig) }

/-- What its signature signs (R558). -/
def State.unlockMessage (s : State) : List Byte :=
  asciiPad "SUENE-AUTH-V1" 16 ++ leBytes 16 s.fuses.serial.toNat ++ leBytes 2 0x0700 ++ leBytes 1 0 ++ leBytes 1 0 ++
    leBytes 4 s.book.session.toNat ++ List.replicate 32 0 ++ [0] ++ leBytes 3 0 ++ [2, 0, 0, 0]

section
variable {sig : List Byte}

theorem unlockRequest_auth : (unlockRequest sig).auth = true := show bit 16 4 = true by decide

theorem unlockRequest_hostbuf : (unlockRequest sig).hostbuf = false := show bit 16 5 = false by decide

theorem unlockRequest_level : (unlockRequest sig).get 0 1 = 2 := rfl

variable (long : sig.length = 2820)
include long

theorem unlockRequest_parts : (unlockRequest sig).body = [2, 0, 0, 0] ∧
    (unlockRequest sig).block = List.replicate 36 0 ++ sig ∧ authBytes ≤ (unlockRequest sig).payload.length := by
  have count : (unlockRequest sig).payload.length = 2860 := by
    simp [unlockRequest, long]
  refine ⟨?_, ?_, by rw [count]; decide⟩
  · unfold Request.body
    rw [if_pos unlockRequest_auth, count]
    rfl
  · unfold Request.block
    rw [count]
    rfl

/-- The block's first 36 bytes are zero. -/
theorem unlockRequest_slice {off n : Nat} (inside : off + n ≤ 36) :
    slice (unlockRequest sig).block off n = List.replicate n 0 := by
  rw [(unlockRequest_parts long).2.1]
  have split : List.replicate 36 (0 : Byte) = List.replicate off 0 ++ (List.replicate n 0 ++ List.replicate (36 - off - n) 0) := by
    rw [List.replicate_append_replicate, List.replicate_append_replicate]
    congr 1
    omega
  rw [split, List.append_assoc, List.append_assoc]
  exact slice_between _ (by simp) (by simp)

theorem State.authMessage_unlock (s : State) : s.authMessage (unlockRequest sig) = s.unlockMessage := by
  unfold State.authMessage State.unlockMessage
  rw [unlockRequest_slice long (by decide), unlockRequest_slice long (by decide), (unlockRequest_parts long).1]
  rfl

end

/-- The state of `noticeWaits` in Fielded, under the owner's key, with a DEBUG_UNLOCK received. -/
def unlockWaits (key sig : List Byte) : State :=
  { noticeWaits with
    fuses := { noticeWaits.fuses with lifecycle := 2, ownerHash := keyHash key }
    mram.ownerKey := TwoCopy.fresh (some key)
    sec.nonces := [{ chan := .pcie, value := 0, issued := 0 }]
    power.state := .run
    book.fwState := 3
    book.pcie.received := [unlockRequest sig] }

/-- The state in which the rules of the request run. -/
def unlockStarted (key sig : List Byte) : State :=
  (unlockWaits key sig).presented .pcie (unlockRequest sig) []

section
variable {key sig : List Byte}

theorem unlockWaits_ownerKey : (unlockWaits key sig).ownerKey = some key := by
  unfold State.ownerKey
  unfold unlockWaits TwoCopy.fresh TwoCopy.value TwoCopy.read
  dsimp only
  rw [Option.getD_some, ite_self, Option.bind_some, if_pos rfl]

theorem unlockWaits_message : (unlockWaits key sig).unlockMessage = noticeWaits.unlockMessage := by
  have serial : (unlockWaits key sig).fuses.serial = noticeWaits.fuses.serial := rfl
  have session : (unlockWaits key sig).book.session = noticeWaits.book.session := rfl
  unfold State.unlockMessage
  rw [serial, session]

theorem unlockWaits_power : (unlockWaits key sig).power.state = .run := rfl

theorem unlockWaits_life : (unlockWaits key sig).fuses.life = .fielded := by
  have bits : (unlockWaits key sig).fuses.lifecycle = 2 := rfl
  unfold Fuses.life
  rw [bits, if_neg (by decide), if_pos (by decide)]

theorem unlockWaits_level : (unlockWaits key sig).sec.level = 0 := rfl

theorem unlockKey_fielded {t : State} (fielded : t.fuses.life = .fielded) (run : t.power.state = .run) :
    t.unlockKey (unlockRequest sig) = some 0 := by
  unfold State.unlockKey
  rw [fielded, run]
  exact if_neg (by simp)

variable (long : sig.length = 2820)
include long

theorem unlockWaits_verifies (verifies : xmssVerify key noticeWaits.unlockMessage sig = true) :
    (unlockWaits key sig).signatureOk (unlockRequest sig) = true := by
  unfold State.signatureOk State.authPublic getLE
  rw [unlockRequest_slice long (by decide), if_pos (show leNat (List.replicate 1 0) = 0 from rfl), unlockWaits_ownerKey]
  dsimp only
  rw [State.authMessage_unlock long, (unlockRequest_parts long).2.1, slice_append (by simp) long, unlockWaits_message]
  exact verifies

theorem unlockWaits_signed : Signed (unlockWaits key sig) .pcie 0x0700 (unlockRequest sig) [] 0 := by
  obtain ⟨_, block, room⟩ := unlockRequest_parts long
  refine ⟨rfl, rfl, rfl, rfl, rfl, rfl, unlockRequest_hostbuf, unlockRequest_auth, room,
    ?_, ?_, _, List.mem_singleton_self _, rfl, ?_, show noticeWaits.start.us < 60000000 by decide +kernel⟩
  · rw [block]
    rfl
  · rw [getLE, unlockRequest_slice long (by decide)]
    rfl
  · unfold Request.nonce
    rw [unlockRequest_slice long (by decide)]
    rfl

/-- Where the teardown that DEBUG_UNLOCK begins leaves context 0 FREE and another context busy, O49 fails. -/
theorem not_signedRequests_of_frees (verifies : xmssVerify key noticeWaits.unlockMessage sig = true)
    (busy : (unlockStarted key sig).enterSiding.allQuiet = false)
    (free : ((unlockStarted key sig).enterSiding.ctx 0).state = .free) : ¬ Obligations.SignedRequests := by
  intro h
  obtain ⟨body, _, _⟩ := unlockRequest_parts long
  have waits := unlockWaits_signed (key := key) long
  have passes := unlockWaits_verifies long verifies
  have shaped : firstSet (unlockRequest sig).body [(1, 3)] = none := by
    rw [body]
    decide
  have running := (congrArg Power.state waits.presented_power).trans unlockWaits_power
  have fielded := (congrArg Fuses.life waits.presented_fuses).trans unlockWaits_life
  have locked := waits.presented_level.trans unlockWaits_level
  obtain ⟨-, -, -, unlock, -⟩ := h (unlockWaits key sig) (unlockRequest sig) [] .pcie (by rw [unlockWaits_power]; decide)
  obtain ⟨-, intrusive⟩ := unlock 0 2 waits ⟨by rw [body]; rfl, shaped⟩ (unlockKey_fielded unlockWaits_life unlockWaits_power)
    unlockRequest_level (.inr rfl) (by rw [unlockWaits_level]; decide)
  obtain ⟨t, ran, -, acts, -⟩ := intrusive rfl unlockWaits_life
  obtain ⟨-, -, torn⟩ := acts passes
  have enters : execDebugUnlock .pcie (unlockWaits key sig) = .next (unlockStarted key sig).enterSiding := by
    unfold execDebugUnlock
    rw [waits.turnRuns passes (by rw [unlockWaits_power]; decide) rfl rfl (by rw [body]; rfl) shaped
      (unlockKey_fielded fielded running) rfl]
    dsimp only
    rw [unlockRequest_level, if_neg (by decide), locked, if_neg (by decide), if_pos ⟨rfl, fielded⟩, ← unlockStarted, busy,
      if_neg (by simp)]
  obtain rfl := Host.Outcome.next.inj (ran.symm.trans enters)
  have left := (torn 0 (.inl rfl)).1
  rw [free] at left
  cases left

end

/-- A key pair of the owner. -/
def ownerPair : KeyPair := { skSeed := 0, skPrf := 0, pubSeed := 0 }

/-- The signature of DEBUG_UNLOCK. -/
def unlockSignature : List Byte := ownerPair.sign noticeWaits.unlockMessage 0

theorem unlockSignature_length : unlockSignature.length = 2820 := (ownerPair.sign_parts _ _).2

/-- The teardown of context 1 retires the frame, the grant is dropped with its shortfall, and context 0, whose teardown had
begun, is FREE. -/
theorem unlockStarted_frees : (unlockStarted ownerPair.publicKey unlockSignature).enterSiding.allQuiet = false ∧
    ((unlockStarted ownerPair.publicKey unlockSignature).enterSiding.ctx 0).state = .free := by
  have plain := (unlockWaits_signed (key := ownerPair.publicKey) unlockSignature_length).presented_eq
  unfold unlockStarted
  rw [plain]
  decide +kernel

/-- Refutes O49: no hypothesis of DEBUG_UNLOCK keeps a frame in which a wagon's record lies from being one that the
CONTEXT_CREATE of another context waits for. Where the teardown of the wagon's context drops that grant, the other one is FREE
and not in TEARDOWN. -/
theorem not_signedRequests : ¬ Obligations.SignedRequests :=
  not_signedRequests_of_frees unlockSignature_length (ownerPair.verify_sign _ (by decide)) unlockStarted_frees.1
    unlockStarted_frees.2

end Sys2Proof.Machine
end
